-- ==== Sys2Proof/Word.lean ====
section
/-!
DEFINITION. The plain words of the model: bytes, halfwords, words, and the bit fields of a natural number.
-/

namespace Sys2Proof

abbrev Byte := BitVec 8
abbrev Half := BitVec 16
abbrev Word := BitVec 32

/-- Bits `lsb + wid - 1 .. lsb` of `v`. -/
def bits (v lsb wid : Nat) : Nat := v / 2 ^ lsb % 2 ^ wid

/-- Bit `i` of `v`. -/
def bitAt (v i : Nat) : Bool := v / 2 ^ i % 2 == 1

/-- 1 for true, 0 for false. -/
def b2n (b : Bool) : Nat := if b then 1 else 0

/-- `v` limited to what `wid` bits hold: the rule of every saturating counter and field. -/
def sat (wid v : Nat) : Nat := min v (2 ^ wid - 1)

end Sys2Proof
end

