-- ==== Sys2Proof/Syntax.lean ====
section
/-!
DEFINITION. The commands of the block: the one inductive `Instr`, one constructor per row of spec/opcode_table.json, and
the operand types they need.  A port, engine, stack, lane or double-column number is a `Fin`, so that no command names a
unit the chip has not.
-/

namespace Sys2Proof

/-- A port, and the Pelnos on it (R1). -/
abbrev Port := Fin 16

/-- The two ring ports of a Zwiuc. -/
inductive Side where
  | east | west
  deriving DecidableEq, Repr

/-- A receiver, and with it its lane: uplink lane `l` of port `p` at Zwiuc, the downlink of port `p` at its Pelnos, or a
ring port (R94, R101). -/
inductive Link where
  | up (p : Port) (l : Fin 8)
  | down (p : Port)
  | ring (d : Side)
  deriving DecidableEq, Repr

/-- The kinds of a block on any lane: the K-symbol of its symbol 0 (R96). -/
inductive BlkKind where
  | data | frame | sync | status | train | laneMark | echo | loop
  deriving DecidableEq, Repr

/-- A block of R89 and R97 without its CRC-16, which `blockCrc` computes: kind, SEQ and payload bytes. -/
structure Block where
  kind : BlkKind
  seq : Nat
  payload : List Byte
  deriving DecidableEq, Repr

/-- A block as it arrives: the block, the CRC-16 it carries, whether one of its 20 symbols is a code error, an ABORT, a
K28.5 or part of an ordered set (R98), and whether the code error is in the kind symbol (R100). -/
structure RxBlock where
  blk : Block
  crc : Half
  damaged : Bool
  kindErr : Bool
  deriving DecidableEq, Repr

/-- Bits of a DRAM page turned by an upset: the line (0 to 31 data, 32 check line P, 33 check line Q), the byte column, and the
turned bits of the byte, its check bit in bit 8 (R179, R180). -/
structure Upset where
  pos : Fin 34
  col : Fin 64
  mask : BitVec 9
  deriving DecidableEq, Repr

/-- A gouge engine and an engine register (R270). -/
abbrev Eng := Fin 96
abbrev Reg := Fin 32

/-- What the SECDED code says of a word read from an engine memory (R279): intact, corrected, or uncorrectable and read as `w`. -/
inductive Ecc where
  | ok
  | corrected
  | uncorrectable (w : Word)
  deriving DecidableEq, Repr

/-- The issue of one engine instruction: the engine, and what the code says of the word fetched at its PC. -/
structure Issue where
  eng : Eng
  fetch : Ecc
  deriving DecidableEq, Repr

/-- What the demodulator gives of one group in one output (R359): VALUE of R356, and the amplitude in 1/10,000 of the range. -/
structure MonOut where
  value : BitVec 24
  amp : Nat
  deriving DecidableEq, Repr

/-- How the DRAM stage ends on a channel (R169, R408): trained, with whether the other operating point has a working setting too and the
eye of the worst data bit; no working setting at the point in use; or a compare failure of the test at a channel-local address. -/
inductive DramRes where
  | ok (other : Bool) (width height : Byte)
  | noSet
  | testFail (addr : Word)
  deriving DecidableEq, Repr

/-- What a host-memory read that failed was for (R249): an entry of a host-written ring, or the source data of a CTRL command, by its number
in CTRL order. -/
inductive ReadTarget where
  | ring (r : Fin 6)
  | cmd (n : Nat)
  deriving DecidableEq, Repr

/-- What a host-memory write that was sent poisoned was for (R249): an entry of CMPL, or of EVT; the shadow area; the data of a CTRL
command; the stream of a context; a periodic snapshot. -/
inductive WriteTarget where
  | entry (evt : Bool)
  | shadow
  | cmd (n : Nat)
  | stream (c : Fin 65536)
  | periodic
  deriving DecidableEq, Repr

/-- What makes a received TLP an error (R249). -/
inductive TlpError where
  | ecrc | malformed | poisoned
  deriving DecidableEq, Repr


/-- The commands: one constructor per row of spec/opcode_table.json, in its order.  The docstring of each is the row's
mnemonic, its rule and its meaning in one sentence. -/
inductive Instr where
  /-- PIXEL_LEADING_EDGE (R61). A pixel discriminator rises on an enabled, unoccupied pixel, which starts a stamp and the pixel's occupation. -/
  | pixelLeadingEdge (p : Port) (col row : Fin 512) (sub : Fin 4) (k : Fin 34) (m : Fin 8)
  /-- INTERP_CONVERSION_DONE (R50). A 12 ns interpolator conversion ends and the quad's interpolator becomes free. -/
  | interpConversionDone (p : Port) (dc quad : Fin 256)
  /-- PIXEL_TRAILING_EDGE (R54). A discriminator falls, completing the ToT of the hit in progress or yielding an ORPHAN. -/
  | pixelTrailingEdge (p : Port) (col row : Fin 512) (sub : Fin 4) (k : Fin 34)
  /-- TOT_TIMEOUT (R55). No trailing edge within 49.90 ns, so the hit is emitted with TOT 0x1FF and LONG. -/
  | totTimeout (p : Port) (col row : Fin 512)
  /-- OCCUPATION_END (R61). A pixel's occupation ends at the latest of 25 ns, its stop and the transfer of its hit. -/
  | occupationEnd (p : Port) (col row : Fin 512)
  /-- AUTO_MASK (R36). A pixel high for 1.0 to 1.1 ms with AMASK_EN set is auto-masked and queued for report. -/
  | autoMask (p : Port) (col row : Fin 512)
  /-- CLEAR_ALL (R36). A write of P_AMASK_CTRL.CLEAR_ALL releases every auto-masked pixel. -/
  | clearAll (p : Port)
  /-- PIXDATA_WRITE (R32). A write of P_PIXDATA stores the pixel word at the window, releases its auto-mask and steps the window by INC. -/
  | pixdataWrite (p : Port) (data : Half)
  /-- PIXDATA_READ (R32). A read of P_PIXDATA returns the pixel word at the window and steps it by INC. -/
  | pixdataRead (p : Port)
  /-- DC_CFG_WRITE (R35). A write of P_DCn_CFG masks or powers a double-column, and clearing DC_OFF opens a gain-class window. -/
  | dcCfgWrite (p : Port) (dc : Fin 256) (v : Half)
  /-- SETTLING_WINDOW_END (R43). A settling window reaches its end tick and SETTLE_BLANK release follows at the end of the last flagged frame. -/
  | settlingWindowEnd (p : Port)
  /-- INJ_GO (R39). A write of P_INJ_CFG.GO starts an injection sequence at the next frame start, or is ignored with GO_LOST. -/
  | injGo (p : Port)
  /-- INJ_STOP (R39). A write of P_INJ_CFG.STOP ends or cancels the injection sequence. -/
  | injStop (p : Port)
  /-- INJECTION_PULSE (R37). At the programmed tick of a sequence frame, the injection pulse is issued to the selected pixels and the frame gets CAL. -/
  | injectionPulse (p : Port)
  /-- INJ_SEQUENCE_END (R38). The pulse count of a sequence is reached and BUSY clears. -/
  | injSequenceEnd (p : Port)
  /-- FOR_PULSE_END (R40). A fast-OR one-shot of WIDTH ticks ends. -/
  | forPulseEnd (p : Port) (region : Fin 16)
  /-- CAL_BLANK_END (R40). 64 ticks after the injection tick, fast-OR blanking for CAL_BLANK ends. -/
  | calBlankEnd (p : Port)
  /-- DLL_LOCK (R48). A double-column DLL locks after PLL lock or DC_OFF cleared. -/
  | dllLock (p : Port) (dc : Fin 256) (ctrl : Byte)
  /-- DLL_LOCK_LOST (R48). A DLL phase error above one tap for 16 periods declares loss of lock and sets LOCK_LOST. -/
  | dllLockLost (p : Port) (dc : Fin 256)
  /-- CAL_PERIOD_START (R64). A 1 ms calibration period begins, ages grow and LAG is set when an age exceeds 10. -/
  | calPeriodStart (p : Port)
  /-- CAL_CONVERSION (R64). An idle quad takes its calibration conversion and updates its trims after each even period. -/
  | calConversion (p : Port) (dc quad : Fin 256) (code : Fin 64)
  /-- CAL_RESET (R66). A write of P_TDC_CFG.CAL_RESET sets every quad's trims to 16 and marks all unconverged. -/
  | calReset (p : Port)
  /-- CSU_GO (R69). A write of P_CSU_CTRL.GO arms a statistics run, or is ignored with GO_LOST. -/
  | csuGo (p : Port)
  /-- CSU_STOP (R69). A write of P_CSU_CTRL.STOP ends the run after the current frame with ABORTED records. -/
  | csuStop (p : Port)
  /-- CSU_RUN_START (R67). At the frame start after GO, the statistics run starts and calibration is suspended on slot quads. -/
  | csuRunStart (p : Port)
  /-- CSU_PULSE (R67). In each run frame the unit injects into every valid slot pixel. -/
  | csuPulse (p : Port)
  /-- CSU_RECORDS_EMIT (R70). After the last window closes, one CAL_STAT record per valid slot is emitted and DONE is set. -/
  | csuRecordsEmit (p : Port)
  /-- CSU_ROW_WRITE (R69). A write of P_CSU_ROW sets the slot row and steps SLOT. -/
  | csuRowWrite (p : Port) (row : Half)
  /-- COLUMN_DRAIN_MOVE (R72). The drain moves one completed hit from a hit register into the end-of-column queue. -/
  | columnDrainMove (p : Port) (dc : Fin 256)
  /-- EOC_QUEUE_PTR_RESET (R74). Duplicated pointers disagree, the queue empties and enters a marker of COUNT 0xFFFF with QRESET. -/
  | eocQueuePtrReset (p : Port) (dc : Fin 256)
  /-- BUILDER_POP (R77). A cluster builder pops one queue item and joins, re-anchors or opens a cluster, or emits an ORPHAN or marker. -/
  | builderPop (p : Port) (g : Fin 16)
  /-- CLUSTER_CLOSE (R78). A cluster's HOLD expires and its head and extra pixels are emitted to the assembler. -/
  | clusterClose (p : Port) (g : Fin 16)
  /-- BUILDER_STALL_END (R85). A builder stalled on a full record store resumes when sent blocks free space. -/
  | builderStallEnd (p : Port) (g : Fin 16)
  /-- FRAME_CLOSE (R83). Frame F closes at tick 0 of F+1+CLOSE and receives its LATE marker, PRIMITIVE records and trailer. -/
  | frameClose (p : Port)
  /-- FRAME_SEND_START (R83). A closed frame begins transmission once the previous frame has been sent, cut into FRAME, DATA and STATUS blocks. -/
  | frameSendStart (p : Port)
  /-- UPLINK_BLOCK_TRANSMIT (R90). In a 10 ns slot, each active lane sends its dealt block or a comma. -/
  | uplinkBlockTransmit (p : Port)
  /-- LANE_MARK_SEND (R106). In slot 4,095 of every 4,096, every ACTIVE uplink lane sends a LANE_MARK. -/
  | laneMarkSend (p : Port)
  /-- ACTIVE_LANES_WRITE (R90). A write of P_ACTIVE_LANES sets the lane set used from the next FRAME block. -/
  | activeLanesWrite (p : Port) (mask : Half)
  /-- RECEIVER_DETECT (R101). In DETECT the transmitter sends a receiver-detect pulse every 1 ms and moves to TRAIN on far termination. -/
  | receiverDetect (k : Link)
  /-- NO_RX_TIMEOUT (R101). 100 ms in DETECT without a far receiver raises NO_RX. -/
  | noRxTimeout (k : Link)
  /-- TRAIN_BLOCK_RECEIVE (R102). A TRAIN block is received, advancing lock, RX_READY, preset requests and capability exchange. -/
  | trainBlockReceive (k : Link) (b : RxBlock)
  /-- TRAIN_TIMEOUT (R101). TRAIN, LOCK or CAP times out and the lane returns to DETECT or TRAIN, or is retired after three failures. -/
  | trainTimeout (k : Link)
  /-- PORT_ACTIVATE (R105). The downlink and one uplink lane complete CAP, the port becomes active and the ECHO acquisition burst starts. -/
  | portActivate (p : Port)
  /-- ACTIVATION_WAIT_EXPIRY (R105). 1 ms after activation Zwiuc writes P_ACTIVE_LANES with the lanes that completed CAP. -/
  | activationWaitExpiry (p : Port)
  /-- UPLINK_BLOCK_RECEIVE (R98). A block is received on a lane, checked and discarded or routed. -/
  | uplinkBlockReceive (p : Port) (l : Fin 8) (b : RxBlock)
  /-- SYMBOL_LOCK_LOSS (R100). Code errors in four consecutive kind symbols declare loss of symbol lock. -/
  | symbolLockLoss (k : Link)
  /-- LANE_MARK_RECEIVE (R107). A LANE_MARK arrives and is paired with the marks of equal MARK_CNT. -/
  | laneMarkReceive (p : Port) (l : Fin 8) (at_ : Nat) (b : RxBlock)
  /-- MARK_WAIT_EXPIRY (R107). The mark wait ends, deskew delays are set and lanes outside the reference span leave the mask. -/
  | markWaitExpiry (p : Port)
  /-- RETRAIN_FAIL (R109). A retrain finds no setting, and the lane is marked MARGINAL or retired after three attempts. -/
  | retrainFail (k : Link)
  /-- LANE_RETRAIN_ORDER (R122). A write of Z_PORTn_LCTL.RETRAIN orders a retrain of the named lanes. -/
  | laneRetrainOrder (k : Link)
  /-- LANE_EN_WRITE (R122). A write of Z_PORTn_LCTL.LANE_EN enables lanes or takes them to DISABLED. -/
  | laneEnWrite (p : Port) (mask : Byte)
  /-- PORT_RETRAIN_ORDER (R110). A write of Z_PORTn_DLSTAT.RETRAIN brings the whole port up again from DETECT. -/
  | portRetrainOrder (p : Port)
  /-- UL_SLEEP_REQUEST (R112). A write of UL_SLEEP = 1 sends SLEEP_REQ(0x5A) on the downlink. -/
  | ulSleepRequest (p : Port)
  /-- SLEEP_REQ_RECEIVE (R112). Pelnos receives SLEEP_REQ and announces sleep and idles its lanes, or refuses. -/
  | sleepReqReceive (p : Port)
  /-- SLEEP_ANNOUNCE_RECEIVE (R112). Zwiuc receives SLEEP_REQ(0xA5), its receivers enter SLEEP and the port goes DOWN in the merger. -/
  | sleepAnnounceReceive (p : Port) (l : Fin 8)
  /-- SLEEP_REFUSED_TIMEOUT (R112). 10 µs after a sleep request with no announcement, SLEEP_REFUSED is set. -/
  | sleepRefusedTimeout (p : Port)
  /-- UL_WAKE_REQUEST (R114). A write of UL_SLEEP = 0 sends WAKE(0x5A). -/
  | ulWakeRequest (p : Port)
  /-- WAKE_REQ_RECEIVE (R114). Pelnos receives WAKE(0x5A) and starts powering its transmitters. -/
  | wakeReqReceive (p : Port)
  /-- SELF_WAKE (R114). With AUTO_WAKE, a record to send or a committed FE_EN wakes the uplink. -/
  | selfWake (p : Port)
  /-- WAKE_ANNOUNCE (R114). After power-up and 1 µs of commas Pelnos sends WAKE(0xA5) and resumes frames. -/
  | wakeAnnounce (p : Port)
  /-- WAKE_RECEIVE (R114). Zwiuc receives WAKE(0xA5) and the lane leaves SLEEP. -/
  | wakeReceive (p : Port) (l : Fin 8)
  /-- WAKE_TIMEOUT (R114). No WAKE(0xA5) within 10 µs retrains the lane. -/
  | wakeTimeout (p : Port) (l : Fin 8)
  /-- DL_QUIET_ENTER (R115). With DL_QUIET set and nothing to send, the downlink announces and sends only commas. -/
  | dlQuietEnter (p : Port)
  /-- DL_QUIET_EXIT (R115). A downlink block to send ends quiet with WAKE(0xA5) in the slot before it. -/
  | dlQuietExit (p : Port)
  /-- NEAR_END_LOOP (R117). A write of P_LINK_CTL.LOOP sets or releases a near-end loop on a Pelnos lane. -/
  | nearEndLoop (p : Port) (loop : Fin 4) (lane : Fin 8)
  /-- PORT_LOOP_WRITE (R118). A write of Z_PORTn_LCTL.LOOP sets a near-end loop or sends a far-end LOOP block, or is refused during a run. -/
  | portLoopWrite (p : Port) (loop : Fin 4) (lane : Fin 8)
  /-- LOOP_BLOCK_RECEIVE (R117). A LOOP block enters or releases a far-end loop and is answered looped back. -/
  | loopBlockReceive (k : Link) (b : RxBlock)
  /-- PRBS_GEN_ENABLE (R119). A PRBS generator enable replaces the lane's traffic once the lane is out of the mask. -/
  | prbsGenEnable (k : Link)
  /-- PRBS_CHECKER_LOCK (R119). A checker locks after 64 error-free bits or loses lock after 256 errors in 1,024 bits. -/
  | prbsCheckerLock (k : Link)
  /-- P_PRBS_CLEAR (R121). A write of P_PRBS_CFG.CLEAR zeroes P_PRBS_ERR. -/
  | pPrbsClear (p : Port)
  /-- PORT_PRBS_CLEAR (R122). A write of Z_PORTn_PRBS.CLEAR zeroes the counts of every lane. -/
  | portPrbsClear (p : Port)
  /-- EYE_SCAN_COMPLETE (R120). The eye monitor completes a lane scan, sets WIDTH, HEIGHT and BELOW_MIN, and moves to the next lane. -/
  | eyeScanComplete (k : Link) (width : Fin 64) (height : Byte) (lap : Option (Fin 65536))
  /-- REASSEMBLY_BLOCK (R124). A FRAME, DATA or STATUS block enters reassembly and is passed, held, resynchronised or discarded. -/
  | reassemblyBlock (p : Port)
  /-- REASSEMBLY_MISSING (R125). A held block has waited 100 ns or slot 63 fills, so E is declared missing and a GAP ends the segment. -/
  | reassemblyMissing (p : Port)
  /-- PORT_QUEUE_PTR_RESET (R134). Record-queue pointers disagree, the queue empties and QRESET markers are given to the affected frames. -/
  | portQueuePtrReset (p : Port)
  /-- SIDE_QUEUE_PTR_RESET (R134). Side-queue pointers disagree, both queues empty and held frames become absent. -/
  | sideQueuePtrReset (p : Port)
  /-- MERGE_COMMIT (R136). The merger commits frame M, copies complete segments into a merged frame, updates the directory and advances M. -/
  | mergeCommit
  /-- MERGE_WAIT_EXPIRY (R136). WAIT_US passes since a port completed M and the merger commits, stalling ports still waited for. -/
  | mergeWaitExpiry
  /-- MERGE_HIGH_WATER (R136). A complete port's queue passes its high-water mark and M commits EARLY. -/
  | mergeHighWater
  /-- MERGE_EMPTY_DUE (R137). With no port complete, spindle time passes the frame end plus DUE_US and WAIT_US and M commits EMPTY. -/
  | mergeEmptyDue
  /-- MERGE_EN_WRITE (R143). A write of Z_PORTn_CTL.MERGE_EN adds or removes a port from the merge. -/
  | mergeEnWrite (p : Port) (en : Bool)
  /-- PORT_RESYNC (R148). A write of Z_PORTn_CTL.RESYNC acts as a gap on the port. -/
  | portResync (p : Port)
  /-- PORT_LEAVE_ACTIVE (R145). A port leaves ACTIVE, discards its open frame and goes DOWN in the merger. -/
  | portLeaveActive (p : Port) (cause : Fin 3)
  /-- RUN_SELF_STOP (R11). Frame 2^40 − 1 commits, Zwiuc stops the run by itself and places a RUN_STOP completion. -/
  | runSelfStop
  /-- BILLET_ALLOCATE (R156). The writer needs space and the allocator hands out the next billet in rotation, expiring runs in it. -/
  | billetAllocate
  /-- MERGED_FRAME_WRITE (R158). The writer writes buffered merged-frame lines to DRAM, sealing pages with P and Q. -/
  | mergedFrameWrite (n : Nat)
  /-- STACK_SKIP_END (R159). A skipped stack accepts writes again and its billets return to allocation. -/
  | stackSkipEnd (n : Fin 8)
  /-- DRAM_REFRESH (R168). A per-bank refresh falls due and is issued. -/
  | dramRefresh (n : Fin 8) (rank : Fin 8) (bank : Nat)
  /-- RETRAIN_SLICE (R170). A retrain slice of up to 20 µs gathers eye data on one channel. -/
  | retrainSlice (n : Fin 8) (c : Fin 4) (start : Bool)
  /-- RETRAIN_COMPLETE (R171). After the last slice the new settings are applied, or MARGINAL is set. -/
  | retrainComplete (n : Fin 8) (c : Fin 4) (width height : Byte)
  /-- POINT_TARGET_WRITE (R172). A write of Z_STACKn_DPT.TARGET starts a change of operating point, or defers it. -/
  | pointTargetWrite (n : Fin 8) (target : Bool)
  /-- THERMAL_EMERGENCY_ENTRY (R172). The hottest die reaches T_EMERG and the stack moves to 1.6 Gb/s. -/
  | thermalEmergencyEntry (n : Fin 8) (temp : Byte) (stall : Fin 20001)
  /-- THERMAL_EMERGENCY_EXIT (R172). The die falls to T_CLEAR and the stack returns to TARGET. -/
  | thermalEmergencyExit (n : Fin 8) (temp : Byte)
  /-- POINT_CHANGE_DONE (R172). The 4 µs stall of a change of point ends and the stored set is used. -/
  | pointChangeDone (n : Fin 8)
  /-- GATHER_COMPLETE (R174). The gather of pinned billets completes and ranks enter self-refresh or power-down. -/
  | gatherComplete
  /-- PASR_WAKE (R175). An access to a kept rank brings kept ranks out of self-refresh. -/
  | pasrWake
  /-- PASR_IDLE_REENTRY (R175). IDLE_MS without access returns kept ranks to self-refresh. -/
  | pasrIdleReentry
  /-- PASR_EXIT (R175). A write of Z_BUF_PASR.EXIT ends partial-array self-refresh and retrains every channel. -/
  | pasrExit
  /-- BUF_MAP_WRITE (R176). A write of Z_BUF_MAP is applied, or refused during a run or while anything is pinned. -/
  | bufMapWrite (w : Word)
  /-- DRAM_LINE_READ (R183). A read line returns, is checked by parity and delivered, corrected or POISONED. -/
  | dramLineRead (ch : Fin 32) (line : Fin 67108864) (upsets : List Upset)
  /-- SEALED_PAGE_WRITE (R184). A partial write or a write into a sealed page reads the target, writes it and updates P and Q. -/
  | sealedPageWrite (ch : Fin 32) (addr : Word) (bytes : List Byte) (upsets : List Upset)
  /-- PRIORITY_WALK_START (R187). PRIO_S seconds after the last priority lap began, a priority walk starts. -/
  | priorityWalkStart
  /-- SCRUB_PAGE_VISIT (R188). The scrubber reads and decodes a page, writes back corrections and verifies them. -/
  | scrubPageVisit (ch : Fin 32) (page : Fin 2097152) (prio lapEnd : Bool) (pos : Byte) (upsets again : List Upset)
  /-- RETIRE_ORDER (R199). A write of Z_STACKn_ICTL.RETIRE retires RANK_SEL. -/
  | retireOrder (n : Fin 8)
  /-- MIGRATION_PAGE_COPY (R193). Migration copies one page of the rank onto the spare. -/
  | migrationPageCopy (n : Fin 8) (spareBad : Bool) (upsets : List Upset)
  /-- MIGRATION_COMPLETE (R193). The last page is copied, the old die is powered down and RETIRE_DONE is raised. -/
  | migrationComplete (n : Fin 8)
  /-- MIGRATION_LAG (R193). A migration passes 2 s and raises LAG. -/
  | migrationLag (n : Fin 8)
  /-- STACK_OUT (R195). A write of Z_STACKn_CTL.OUT takes the stack out of service at the next frame boundary. -/
  | stackOut (n : Fin 8)
  /-- STACK_POWER_DOWN (R195). A removed stack with no unexpired or pinned billets is powered down. -/
  | stackPowerDown (n : Fin 8)
  /-- FREEZE_RELEASE (R196). A write of Z_STACKn_FRZ.RELEASE releases channel SEL to OFF. -/
  | freezeRelease (n : Fin 8)
  /-- RCE_CLEAR (R200). A write of Z_RCE_IDX.CLEAR frees a repeat-CE table entry. -/
  | rceClear
  /-- TRIG_FETCH (R209). Zwiuc fetches a batch of TRIG ring entries for which contexts may be taken. -/
  | trigFetch (r : Fin 4) (es : List (Fin 65536 × List Byte))
  /-- RING_TRIG_RECEIVE (R205). A ring TRIG message is accepted into a context, gated, ignored or refused. -/
  | ringTrigReceive (d : Side) (b : RxBlock) (num : Fin 65536)
  /-- CONTEXT_LOOKUP (R211). A context searches the directories for its frames and goes to READ, WAIT or REJECTED_FUTURE. -/
  | contextLookup (c : Fin 65536)
  /-- SEGMENT_READ (R225). Header and segment reads for a frame return and records are selected by anchor tick. -/
  | segmentRead
  /-- CARVE_DISPATCH (R282). A section goes to the next waiting CARVE engine of its program, or passes with CARVE_SKIPPED. -/
  | carveDispatch (c : Fin 65536) (frame : Fin 1099511627776)
  /-- CARVE_SECTION_DONE (R282). A CARVE engine ends its output and Zwiuc rebuilds the sub-headers with CARVED. -/
  | carveSectionDone (e : Eng)
  /-- COMPRESSION_STREAM_GRANT (R218). A waiting context is given a free compression stream. -/
  | compressionStreamGrant (k : Fin 8)
  /-- COMPRESS_BLOCK (R257). A block's input ends and is written coded or stored, with self-check. -/
  | compressBlock (k : Fin 8) (coded : List Bool)
  /-- IDLE_FLUSH (R258). No input for IDLE_US with output pending flushes the stream. -/
  | idleFlush (k : Fin 8) (coded : List Bool)
  /-- OUTPUT_CHUNK_PUSH (R219). A chunk enters the output priority queue in reserved space. -/
  | outputChunkPush (c : Fin 65536)
  /-- OUTPUT_CHUNK_GRANT (R219). The queue grants a chunk to DMA by strict class order with the class-3 rule. -/
  | outputChunkGrant
  /-- OUTPUT_QUEUE_PTR_RESET (R220). Output-queue pointers disagree, the queue empties and each affected stream gets a QRESET marker. -/
  | outputQueuePtrReset
  /-- BUFQ_TAKE (R239). A stream needing a buffer takes the next BUFQ entry, or stalls when BUFQ is empty. -/
  | bufqTake (c : Fin 65536) (entry : List Byte)
  /-- BUF_ENTRY_WRITE (R241). A filled or bad buffer is returned in a BUF entry to CMPL. -/
  | bufEntryWrite (c : Fin 65536)
  /-- XTR_COMPLETION_WRITE (R221). A finished context's XTR entry is written in its order stream and the context is freed. -/
  | xtrCompletionWrite (order : Fin 5)
  /-- DOORBELL_WRITE (R232). A doorbell write moves a ring's producer or consumer index, or is ignored with RING_ERR. -/
  | doorbellWrite (r : Fin 8) (v : Word)
  /-- RING_ENABLE (R236). A write of Z_RINGr_CFG.EN = 1 enables the ring and resets its indices. -/
  | ringEnable (r : Fin 8) (w : Word)
  /-- RING_DISABLE (R237). A write of Z_RINGr_CFG.EN = 0 stops the ring and clears ERR. -/
  | ringDisable (r : Fin 8) (w : Word)
  /-- CTRL_FETCH (R244). Zwiuc fetches a CTRL entry and starts the command in CTRL order. -/
  | ctrlFetch (entry : List Byte) (data : Option (List Byte))
  /-- CTRL_COMPLETION_WRITE (R244). A finished command's CTRL entry is written after every earlier command's. -/
  | ctrlCompletionWrite
  /-- FE_WRITE (R242). Command that writes a Pelnos register or pixel on the addressed ports, and optionally the golden image. -/
  | feWrite (tag : Word) (ports : Half) (arg : List Byte)
  /-- FE_READ (R242). Command that reads one register or pixel word from every addressed port. -/
  | feRead (tag : Word) (ports : Half) (arg : List Byte)
  /-- FE_BULK (R242). Command that streams a pixel image, optionally decompressed, to the addressed ports. -/
  | feBulk (tag : Word) (ports : Half) (arg : List Byte) (data : Option (List Byte))
  /-- COMMIT_AT (R395). Command that applies staged values on the addressed ports at one tick. -/
  | commitAt (tag : Word) (ports : Half) (arg : List Byte)
  /-- TRUE (R388). Command that takes a trued snapshot at a tick and writes its block to DEST. -/
  | trueSnap (tag : Word) (ports : Half) (arg : List Byte)
  /-- ENGINE_LOAD (R287). Command that loads an engine image into the named engines under a role and program. -/
  | engineLoad (tag : Word) (ports : Half) (arg : List Byte) (data : Option (List Byte))
  /-- ENGINE_START (R287). Command that starts the named loaded, halted or faulted engines. -/
  | engineStart (tag : Word) (ports : Half) (arg : List Byte)
  /-- ENGINE_STOP (R287). Command that halts the named running engines at the next instruction boundary. -/
  | engineStop (tag : Word) (ports : Half) (arg : List Byte)
  /-- PIN (R165). Command that pins a tick range in a free pinned-range slot. -/
  | pin (tag : Word) (ports : Half) (arg : List Byte)
  /-- UNPIN (R167). Command that removes a pinned range and returns its billets to rotation. -/
  | unpin (tag : Word) (ports : Half) (arg : List Byte)
  /-- MARK (R21). Command that places a marker in the first frame not yet merged. -/
  | mark (tag : Word) (ports : Half) (arg : List Byte)
  /-- FENCE (R242). Command that holds later commands until earlier ones, and optionally TRIG requests, complete. -/
  | fence (tag : Word) (ports : Half) (arg : List Byte)
  /-- MON_CFG (R369). Command that loads a block of monitor settings applied together. -/
  | monCfg (tag : Word) (ports : Half) (arg : List Byte) (data : Option (List Byte))
  /-- RUN_START (R242). Command that sets the run epoch and starts a run. -/
  | runStart (tag : Word) (ports : Half) (arg : List Byte)
  /-- RUN_STOP (R242). Command that ends the run at the frame of STOP_TICK, optionally entering PASR. -/
  | runStop (tag : Word) (ports : Half) (arg : List Byte)
  /-- REG_WR (R245). Downlink command that writes one to three Pelnos registers and replies. -/
  | regWr (p : Port) (b : RxBlock)
  /-- REG_RD (R245). Downlink command that reads a Pelnos register or its staged copy. -/
  | regRd (p : Port) (b : RxBlock)
  /-- PIX_WR (R245). Downlink command that writes a pixel word without touching the window. -/
  | pixWr (p : Port) (b : RxBlock)
  /-- PIX_RD (R245). Downlink command that reads up to 16 pixel words without touching the window. -/
  | pixRd (p : Port) (b : RxBlock)
  /-- PIX_STREAM (R245). Downlink command that writes up to six words to P_PIXDATA. -/
  | pixStream (p : Port) (b : RxBlock)
  /-- COMMIT (R395). Downlink command that schedules, replaces or cancels the pending commit. -/
  | commit (p : Port) (b : RxBlock)
  /-- UNKNOWN_DOWNLINK_OP (R245). A downlink command with an unknown OP replies ERR. -/
  | unknownDownlinkOp (p : Port) (b : RxBlock)
  /-- FE_REPLY_TIMEOUT (R243). A port does not reply within FE_US and fails the command. -/
  | feReplyTimeout (p : Port) (tag : Byte)
  /-- MSIX_TIMEOUT (R247). TIMEOUT_US passes with entries pending and the vector message is sent. -/
  | msixTimeout (evt : Bool)
  /-- HOST_READ_FAIL (R249). A host-memory read fails, stopping the ring or failing the command. -/
  | hostReadFail (t : ReadTarget) (cause : Fin 4)
  /-- HOST_WRITE_FAIL (R249). A host-memory write is sent poisoned, stopping the ring, the shadow or marking the stream POISON. -/
  | hostWriteFail (t : WriteTarget)
  /-- BUF_STARVE_TIMEOUT (R249). BUFQ empty for STARVE_MS while a stream waits raises BUF_STARVE. -/
  | bufStarveTimeout
  /-- PCIE_LINK_CHANGE (R249). The PCIe link goes up, down or retrains and raises LINK. -/
  | pcieLinkChange (speed : Fin 7) (width : Fin 32) (flit : Bool)
  /-- FUNCTION_LEVEL_RESET (R251). A function level reset or D3hot ends DMA, discards contexts and commands and disables rings. -/
  | functionLevelReset
  /-- PCIE_FUNDAMENTAL_RESET (R402). PERST_N low resets the endpoint, then applies R251. -/
  | pcieFundamentalReset
  /-- PCIE_LINK_TRAINING (R411). At the later of PERST_N release and 20 ms after V_IN, the endpoint starts training. -/
  | pcieLinkTraining
  /-- BAR_ACCESS_INVALID (R249). A narrow, unmapped, mirror-write or bad BAR2 or BAR4 access is discarded with BAD_ACCESS. -/
  | barAccessInvalid (bar : Fin 3) (size : Byte) (write : Bool) (off : BitVec 24)
  /-- PAIR_LOW_READ (R421). A read of the low word of a 64-bit pair latches the high word. -/
  | pairLowRead (off : Fin 524288)
  /-- TIME_NOW_READ (R326). A read of Z_TIME_NOW0 latches NOW1 and NOW2. -/
  | timeNowRead
  /-- MIRROR_READ (R437). A mirror read is held during a refresh and returns a snapshot image. -/
  | mirrorRead (off : Fin 524288)
  /-- BAR4_WRITE (R288). A host write to engine or shared memory through BAR4 is applied or discarded. -/
  | bar4Write (off : BitVec 24) (bytes : List Byte)
  /-- REGISTER_WRITE (R9). A write to a Zwiuc register with no row of its own applies by access type, or is refused under R461. -/
  | registerWrite (off : Fin 1048576) (w : Word)
  /-- DECOMPRESS_IMAGE (R264). The decompressor decodes an image source into staging memory, or fails with a decode error. -/
  | decompressImage
  /-- ADD (R274). Engine instruction rd = rs1 + rs2. -/
  | add (i : Issue) (rd rs1 rs2 : Reg)
  /-- SUB (R274). Engine instruction rd = rs1 − rs2. -/
  | sub (i : Issue) (rd rs1 rs2 : Reg)
  /-- AND (R274). Engine instruction bitwise AND. -/
  | andR (i : Issue) (rd rs1 rs2 : Reg)
  /-- OR (R274). Engine instruction bitwise OR. -/
  | orR (i : Issue) (rd rs1 rs2 : Reg)
  /-- XOR (R274). Engine instruction bitwise XOR. -/
  | xorR (i : Issue) (rd rs1 rs2 : Reg)
  /-- SHL (R274). Engine instruction shift left by register. -/
  | shl (i : Issue) (rd rs1 rs2 : Reg)
  /-- SHR (R274). Engine instruction logical shift right by register. -/
  | shr (i : Issue) (rd rs1 rs2 : Reg)
  /-- SRA (R274). Engine instruction arithmetic shift right by register. -/
  | sra (i : Issue) (rd rs1 rs2 : Reg)
  /-- MUL (R274). Engine instruction low 32 bits of the product. -/
  | mul (i : Issue) (rd rs1 rs2 : Reg)
  /-- MULH (R274). Engine instruction high 32 bits of the signed product. -/
  | mulh (i : Issue) (rd rs1 rs2 : Reg)
  /-- MIN (R274). Engine instruction signed minimum. -/
  | min (i : Issue) (rd rs1 rs2 : Reg)
  /-- MAX (R274). Engine instruction signed maximum. -/
  | max (i : Issue) (rd rs1 rs2 : Reg)
  /-- SLT (R274). Engine instruction signed set-less-than. -/
  | slt (i : Issue) (rd rs1 rs2 : Reg)
  /-- SLTU (R274). Engine instruction unsigned set-less-than. -/
  | sltu (i : Issue) (rd rs1 rs2 : Reg)
  /-- CLZ (R274). Engine instruction count of leading zeros. -/
  | clz (i : Issue) (rd rs1 : Reg)
  /-- POPC (R274). Engine instruction count of ones. -/
  | popc (i : Issue) (rd rs1 : Reg)
  /-- ADDI (R274). Engine instruction add sign-extended immediate. -/
  | addi (i : Issue) (rd rs1 : Reg) (imm : Half)
  /-- ANDI (R274). Engine instruction AND with zero-extended immediate. -/
  | andi (i : Issue) (rd rs1 : Reg) (imm : Half)
  /-- ORI (R274). Engine instruction OR with zero-extended immediate. -/
  | ori (i : Issue) (rd rs1 : Reg) (imm : Half)
  /-- XORI (R274). Engine instruction XOR with zero-extended immediate. -/
  | xori (i : Issue) (rd rs1 : Reg) (imm : Half)
  /-- SHLI (R274). Engine instruction shift left by immediate. -/
  | shli (i : Issue) (rd rs1 : Reg) (sh : Fin 32)
  /-- SHRI (R274). Engine instruction logical shift right by immediate. -/
  | shri (i : Issue) (rd rs1 : Reg) (sh : Fin 32)
  /-- SRAI (R274). Engine instruction arithmetic shift right by immediate. -/
  | srai (i : Issue) (rd rs1 : Reg) (sh : Fin 32)
  /-- LUI (R274). Engine instruction load immediate into the upper halfword. -/
  | lui (i : Issue) (rd : Reg) (imm : Half)
  /-- BFX (R274). Engine instruction bit-field extract. -/
  | bfx (i : Issue) (rd rs1 : Reg) (pos wid : Fin 32)
  /-- BFI (R274). Engine instruction bit-field insert. -/
  | bfi (i : Issue) (rd rs1 : Reg) (pos wid : Fin 32)
  /-- LB (R274). Engine instruction load sign-extended byte. -/
  | lb (i : Issue) (rd rs1 : Reg) (imm : Half) (ecc : Ecc)
  /-- LBU (R274). Engine instruction load zero-extended byte. -/
  | lbu (i : Issue) (rd rs1 : Reg) (imm : Half) (ecc : Ecc)
  /-- LH (R274). Engine instruction load sign-extended halfword. -/
  | lh (i : Issue) (rd rs1 : Reg) (imm : Half) (ecc : Ecc)
  /-- LHU (R274). Engine instruction load zero-extended halfword. -/
  | lhu (i : Issue) (rd rs1 : Reg) (imm : Half) (ecc : Ecc)
  /-- LW (R274). Engine instruction load word. -/
  | lw (i : Issue) (rd rs1 : Reg) (imm : Half) (ecc : Ecc)
  /-- SB (R274). Engine instruction store byte. -/
  | sb (i : Issue) (rs rs1 : Reg) (imm : Half)
  /-- SH (R274). Engine instruction store halfword. -/
  | sh (i : Issue) (rs rs1 : Reg) (imm : Half)
  /-- SW (R274). Engine instruction store word. -/
  | sw (i : Issue) (rs rs1 : Reg) (imm : Half)
  /-- HINC (R278). Engine instruction atomic add to a memory word. -/
  | hinc (i : Issue) (rs rs1 : Reg) (imm : Half) (ecc : Ecc)
  /-- BEQ (R274). Engine instruction branch if equal. -/
  | beq (i : Issue) (rs1 rs2 : Reg) (off : Half)
  /-- BNE (R274). Engine instruction branch if not equal. -/
  | bne (i : Issue) (rs1 rs2 : Reg) (off : Half)
  /-- BLT (R274). Engine instruction branch if less, signed. -/
  | blt (i : Issue) (rs1 rs2 : Reg) (off : Half)
  /-- BGE (R274). Engine instruction branch if greater or equal, signed. -/
  | bge (i : Issue) (rs1 rs2 : Reg) (off : Half)
  /-- BLTU (R274). Engine instruction branch if less, unsigned. -/
  | bltu (i : Issue) (rs1 rs2 : Reg) (off : Half)
  /-- BGEU (R274). Engine instruction branch if greater or equal, unsigned. -/
  | bgeu (i : Issue) (rs1 rs2 : Reg) (off : Half)
  /-- JAL (R274). Engine instruction jump and link by offset. -/
  | jal (i : Issue) (rd : Reg) (off : BitVec 21)
  /-- JALR (R274). Engine instruction jump and link to a register target. -/
  | jalr (i : Issue) (rd rs1 : Reg) (imm : Half)
  /-- IN (R281). Engine instruction pop one input item or BLANK. -/
  | inp (i : Issue) (rd : Reg)
  /-- IN_W (R281). Engine instruction pop one input item, waiting for it. -/
  | inpW (i : Issue) (rd : Reg)
  /-- PEEK (R281). Engine instruction read the item k behind the head without popping. -/
  | peek (i : Issue) (rd : Reg) (k : Fin 8)
  /-- OUT (R281). Engine instruction push one output item. -/
  | out (i : Issue) (rs : Reg)
  /-- OUTM (R281). Engine instruction push an item and end the output message. -/
  | outm (i : Issue) (rs : Reg)
  /-- OUTM_E (R281). Engine instruction end the output message without pushing. -/
  | outmE (i : Issue) (rs : Reg)
  /-- TICK (R275). Engine instruction read the current message's frame tick. -/
  | tick (i : Issue) (rd : Reg) (hi : Bool)
  /-- EVENT (R297). Engine instruction raise the engine's event with a value. -/
  | event (i : Issue) (rs : Reg)
  /-- YIELD (R281). Engine instruction release the current message and wait for the next. -/
  | yield (i : Issue)
  /-- HALT (R274). Engine instruction enter HALTED. -/
  | halt (i : Issue)
  /-- WATCHDOG_EXPIRY (R291). The engine watchdog reaches 2^LOG2 cycles and the engine faults. -/
  | watchdogExpiry (e : Eng)
  /-- ENGINE_FEED_PTR_RESET (R284). Engine input pointers disagree and the message ends with a QRESET marker. -/
  | engineFeedPtrReset (e : Eng)
  /-- ENGINE_OFF_WRITE (R293). A write of Z_GENGn_CTL.OFF disables or re-enables an engine, refused while RUNNING. -/
  | engineOffWrite (e : Eng) (off : Bool)
  /-- CLUSTER_EN_WRITE (R293). A write of Z_GCLn_CTL.EN gates the cluster, refused under the gating tree. -/
  | clusterEnWrite (n : Fin 4) (en : Bool)
  /-- DVFS_TARGET_WRITE (R339). A write of Z_GCLn_DVFS.TARGET starts a level change. -/
  | dvfsTargetWrite (n : Fin 4) (target : Fin 4)
  /-- DVFS_POWER_GOOD (R339). The rail reaches power-good and the cluster clock relocks at the new level. -/
  | dvfsPowerGood (n : Fin 4)
  /-- DVFS_PLL_RELOCK (R339). The cluster PLL relocks and the clock restarts. -/
  | dvfsPllRelock (n : Fin 4)
  /-- DVFS_PG_TIMEOUT (R340). No power-good within 50 µs returns the rail and sets PG_FAIL. -/
  | dvfsPgTimeout (n : Fin 4)
  /-- SYNC_SEND (R303). Every SYNC period the headstock sends SYNC in both rotations. -/
  | syncSend
  /-- RING_SYNC_RECEIVE (R311). A SYNC arrives, is forwarded re-stamped and, in the consumed rotation, drives the servo. -/
  | ringSyncReceive (d : Side) (b : RxBlock) (fine : Fin 2048) (cycles : Nat)
  /-- SYNC_LOSS (R315). No SYNC for LOSS periods puts the node in steady rest and holds its outputs. -/
  | syncLoss
  /-- ESTIMATE_UPDATE (R313). The crystal frequency estimate is recomputed from the regression. -/
  | estimateUpdate (rejected : Bool)
  /-- INC_RECOMPUTE (R314). Every 1 s the headstock or free node recomputes INC from trim, slew and ageing. -/
  | incRecompute
  /-- TIME_SET (R314). A write of Z_TIME_SET2 steps the counter and sets TAI_SET, or is refused. -/
  | timeSet (w : Word)
  /-- TIME_SLEW_WRITE (R314). A write of Z_TIME_SLEW sets the slew remainder. -/
  | timeSlewWrite (w : Word)
  /-- RING_MESSAGE_FORWARD (R302). A ring DATA block of an unknown or unconsumed type is stripped or forwarded. -/
  | ringMessageForward (d : Side) (b : RxBlock)
  /-- RING_CTRL_RUN_START (R321). A CTRL RUN_START with a new RUN_NUM starts the node's run at the epoch. -/
  | ringCtrlRunStart (d : Side) (b : RxBlock)
  /-- RING_CTRL_RUN_STOP (R321). A CTRL RUN_STOP ends the node's run at STOP_TICK. -/
  | ringCtrlRunStop (d : Side) (b : RxBlock)
  /-- RING_CTRL_GATE (R308). A CTRL GATE sets a trigger gate at a node. -/
  | ringCtrlGate (d : Side) (b : RxBlock)
  /-- RING_CTRL_MAP (R307). A CTRL MAP sets the live-node map. -/
  | ringCtrlMap (d : Side) (b : RxBlock)
  /-- RING_MIRROR_RECEIVE (R320). The tailstock stores a mirror item. -/
  | ringMirrorReceive (d : Side) (b : RxBlock)
  /-- RING_PRIM_RECEIVE (R305). A PRIM message is forwarded without being consumed. -/
  | ringPrimReceive (d : Side) (b : RxBlock)
  /-- RUN_REPEAT_SEND (R321). Every 100 ms during a run the headstock repeats RUN_START with REPEAT. -/
  | runRepeatSend
  /-- GATE_WRITE (R308). A write of Z_RING_GATEk at the headstock sets the gate and sends CTRL GATE. -/
  | gateWrite (k : Fin 8) (i : Fin 4) (w : Word)
  /-- LEASE_SEND (R319). Every L/4 a headstock or candidate sends LEASE. -/
  | leaseSend
  /-- RING_LEASE_RECEIVE (R319). A LEASE is consumed, renewed, stripped or, on return, makes headstock and triggers MAP and mirror. -/
  | ringLeaseReceive (d : Side) (b : RxBlock)
  /-- LEASE_RETURN_TIMEOUT (R319). No own LEASE returned within L/2 and the headstock demotes. -/
  | leaseReturnTimeout
  /-- TAILSTOCK_TAKEOVER (R319). L passes without renewal and the tailstock sends a higher LSEQ. -/
  | tailstockTakeover
  /-- CANDIDATE_TIMEOUT (R318). A ROLE 1 node that saw no LEASE for L, or no active link in 100 ms, becomes candidate. -/
  | candidateTimeout
  /-- MIRROR_TIMEOUT (R320). No complete mirror set within L raises MIRROR. -/
  | mirrorTimeout
  /-- RING_ECHO_REQUEST (R309). Every ECHO period a node sends an ECHO REQ on each ring link. -/
  | ringEchoRequest (d : Side)
  /-- RING_ECHO_REQ_RECEIVE (R309). A ring ECHO REQ is answered with a stamped RESP. -/
  | ringEchoReqReceive (d : Side) (b : RxBlock) (fine : Fin 2048) (turn : Fin 65536)
  /-- RING_ECHO_RESP_RECEIVE (R310). A ring ECHO RESP updates the link delay average. -/
  | ringEchoRespReceive (d : Side) (b : RxBlock) (fine : Fin 2048)
  /-- RING_ECHO_TIMEOUT (R309). A ring ECHO response not in 100 µs is discarded. -/
  | ringEchoTimeout (d : Side) (id : Byte)
  /-- RING_CFG_ENABLE (R322). A write of Z_RING_CFG.EN = 1 opens the bypass when ready and trains the ring links. -/
  | ringCfgEnable (w : Word)
  /-- RING_CFG_DISABLE (R322). A write of Z_RING_CFG.EN = 0 closes the bypass and enters steady rest or FREE. -/
  | ringCfgDisable (w : Word)
  /-- DOWNLINK_ECHO_REQUEST (R324). Every PERIOD, or in the activation burst, Zwiuc sends an ECHO REQ on the downlink. -/
  | downlinkEchoRequest (p : Port)
  /-- PELNOS_ECHO_ANSWER (R324). Pelnos answers a downlink ECHO REQ with F, T2, T3 − T2 and SLIP. -/
  | pelnosEchoAnswer (p : Port) (b : RxBlock) (fine : Byte) (turn : Fin 16777216)
  /-- ECHO_RESPONSE_RECEIVE (R324). Zwiuc receives a port ECHO response and updates RTT and OFFSET. -/
  | echoResponseReceive (p : Port) (l : Fin 8) (b : RxBlock) (fine : Fin 2048)
  /-- DOWNLINK_ECHO_TIMEOUT (R324). A downlink response not in 1 ms counts as a timeout. -/
  | downlinkEchoTimeout (p : Port) (id : Byte)
  /-- EPOCH_SYNC_SEND (R323). Before a run epoch Zwiuc sends a LOAD SYNC with EPOCH = 1. -/
  | epochSyncSend (p : Port)
  /-- SYNC_CHECK_SEND (R323). Every 256 frames Zwiuc sends a SYNC with LOAD = 0. -/
  | syncCheckSend (p : Port)
  /-- DOWNLINK_SYNC_RECEIVE (R323). Pelnos loads or compares its counter from a SYNC, closing open frames or setting SLIP. -/
  | downlinkSyncReceive (p : Port) (b : RxBlock)
  /-- EPOCH_HOLD_END (R323). The counter reaches frame 0 and the epoch hold ends. -/
  | epochHoldEnd (p : Port)
  /-- CRYSTAL_QUALIFY (R333). The crystal qualifies after full swing for 2^16 cycles within frequency. -/
  | crystalQualify (ms : Byte)
  /-- RING_CLOCK_QUALIFY (R333). A ring clock qualifies or is unqualified. -/
  | ringClockQualify (d : Side) (ok : Bool)
  /-- CLOCK_SOURCE_SWITCH (R334). The local oscillator switches glitch-free to a qualified source. -/
  | clockSourceSwitch (sel : Fin 3)
  /-- CLOCK_SWITCH_FORCED (R334). 64 cycles of the new clock force a switch from a stopped clock. -/
  | clockSwitchForced (sel : Fin 3)
  /-- CLOCK_MONITOR_TRIP (R335). A clock monitor trips and acts by clock. -/
  | clockMonitorTrip (clock : Fin 19) (freq : Bool)
  /-- SAFE_STATE_EXIT (R337). A reference qualifies and the system PLL locks, and the device leaves the safe state. -/
  | safeStateExit (us : Word)
  /-- CLOCK_GATE_WRITE (R338). A write of Z_CLK_GATE opens or closes gates bit by bit. -/
  | clockGateWrite (w : Word)
  /-- FEED_LOSS (R341). A feed falls below 9.6 V or reverses and is blocked. -/
  | feedLoss (feed : Bool) (volt : Byte)
  /-- FEED_GAP_END (R341). V_IN settles on the remaining feed and the switch-over gap ends. -/
  | feedGapEnd (ns : Word) (volt : Byte)
  /-- OUTPUT_HOLD_END (R341). 2 µs after the gap the interlock and excitation hold ends. -/
  | outputHoldEnd
  /-- FEED_RETURN (R341). A lost feed above 10.8 V for 10 ms returns to service. -/
  | feedReturn (feed : Bool) (volt : Byte)
  /-- FEED_LOW (R341). A feed falls below 10.8 V while the other carries the load. -/
  | feedLow (feed : Bool) (volt : Byte)
  /-- SUPPLY_WARNING_ENTRY (R343). A rail in warning asserts the supply warning, caps clusters and holds commits. -/
  | supplyWarningEntry (rail : Fin 12) (low : Fin 4096)
  /-- SUPPLY_WARNING_CLEAR (R342). The rail stays above its threshold for 10 µs and the warning clears. -/
  | supplyWarningClear (rail : Fin 12) (low : Fin 4096)
  /-- CAP_LIFT (R343). 1 ms after clearance the L1 cap lifts. -/
  | capLift
  /-- RAIL_RESET (R344). A rail below its reset threshold resets Zwiuc as at power-on. -/
  | railReset (rail : Fin 12)
  /-- DOWNLINK_LOSS (R345). Pelnos declares downlink loss and discards its pipeline. -/
  | downlinkLoss (p : Port)
  /-- DOWNLINK_RETURN (R346). The downlink returns, the PLLs lock and the port comes up again. -/
  | downlinkReturn (p : Port)
  /-- PELNOS_DIP_START (R347). VDDA or VDDD below 1.045 V for 100 ns starts a dip. -/
  | pelnosDipStart (p : Port)
  /-- PELNOS_DIP_END (R347). Both rails at or above 1.045 V for 100 ns end the dip. -/
  | pelnosDipEnd (p : Port) (low : Fin 4096)
  /-- PELNOS_POWER_ON_RESET (R404). Power-up or a dip below 0.990 V resets Pelnos. -/
  | pelnosPowerOnReset (p : Port)
  /-- PELNOS_PAD_RESET (R404). RST_N low for 1 µs resets Pelnos as power-on. -/
  | pelnosPadReset (p : Port)
  /-- PELNOS_SOFT_RESET (R404). A write of P_RST.SOFT resets registers without disturbing the link. -/
  | pelnosSoftReset (p : Port)
  /-- PELNOS_MON_SCAN_START (R348). Every PERIOD frames the Pelnos monitor ADC starts a scan. -/
  | pelnosMonScanStart (p : Port)
  /-- PELNOS_MON_CONVERSION (R348). A 1 µs conversion ends and is stored, optionally as a MONITOR record. -/
  | pelnosMonConversion (p : Port) (code : Fin 4096)
  /-- MON_SAMPLE_TICK (R365). Every 4 µs the regular trigger samples all four ADCs. -/
  | monSampleTick (v0 i0 v1 i1 : BitVec 12) (dly : Fin 3)
  /-- MON_OUTPUT (R359). A demodulator output is produced each 1/R_OUT. -/
  | monOutput (a b : MonOut)
  /-- MON_DWELL_END (R363). The dwell delivers DWELL_N valid outputs, results are written, pairs compared and interlocks updated. -/
  | monDwellEnd
  /-- IL_STALE_TIMEOUT (R373). No usable result for 4 × NOM puts the output at the fault level. -/
  | ilStaleTimeout (m : Fin 16)
  /-- HOLD_LONG (R374). A hold that lasts 100 ms raises IL_STATE. -/
  | holdLong
  /-- COMPLIANCE_TRIP (R364). An excitation compliance monitor trips and the channel's result is BROKEN. -/
  | complianceTrip (g : Fin 2)
  /-- MON_INJ_GO (R366). A write of Z_MON_INJ.GO requests the selected injected conversions. -/
  | monInjGo (w : Word)
  /-- MON_INJ_PERIODIC (R366). Every PERIOD_MS the selected injected conversions are requested. -/
  | monInjPeriodic
  /-- MON_INJ_CONVERSION (R365). An injected conversion starts and completes into Z_MON_INJDk. -/
  | monInjConversion (k : Fin 8) (raw : BitVec 12)
  /-- REFBUF_ENABLE (R367). A write of REFBUF_EN starts the reference buffer. -/
  | refbufEnable (en : Bool)
  /-- REF_READY (R367). 5.0 ms after REFBUF_EN, REF_READY becomes 1. -/
  | refReady
  /-- MON_CAL_START (R367). A write of Z_MON_CTL.CAL starts a self-calibration. -/
  | monCalStart
  /-- MON_CAL_DONE (R367). Calibration ends and stores factors or sets CAL_FAIL. -/
  | monCalDone (g : Vector Half 4) (o : Vector (BitVec 12) 4)
  /-- MON_DMA_ENABLE (R368). A write of DMA_EN resets the raw count and latches the time of entry 0. -/
  | monDmaEnable (en : Bool)
  /-- MON_SCAN_ENABLE (R354). A write of SCAN_EN starts or stops the scan. -/
  | monScanEnable (en : Bool)
  /-- MON_FILT_WRITE (R360). A write of Z_MON_FILT applies at the next boundary, or is refused. -/
  | monFiltWrite (w : Word)
  /-- MON_CHCFG_WRITE (R361). A write of Z_MON_CHCFGc applies at the next boundary and may restart the dwell. -/
  | monChcfgWrite (c : Fin 32) (w : Word)
  /-- EVENT_RECORD_WRITE (R246). A queued event record is written to EVT when the ring can take it. -/
  | eventRecordWrite
  /-- SNAPSHOT_LATCH (R389). At tick T every domain copies its registers into the mirror. -/
  | snapshotLatch
  /-- SNAPSHOT_ARM (R391). A write of P_SNAP_CTL.ARM arms a Pelnos latch. -/
  | snapshotArm (p : Port)
  /-- PELNOS_SNAPSHOT_LATCH (R391). At the matching tick Pelnos latches its snapshot copies. -/
  | pelnosSnapshotLatch (p : Port)
  /-- SNAPSHOT_BLOCK_WRITE (R393). When every image has arrived or timed out, the block is written to DEST. -/
  | snapshotBlockWrite
  /-- PERIODIC_SNAPSHOT (R394). Every PERIOD_MS a periodic snapshot is taken or skipped. -/
  | periodicSnapshot
  /-- COMMIT_ARM_SEND (R395). At T − 8,192 ticks Zwiuc sends COMMIT to each addressed port. -/
  | commitArmSend
  /-- COMMIT_APPLY (R395). At tick T Pelnos applies every staged value. -/
  | commitApply (p : Port)
  /-- COMMIT_REISSUE (R397). After clearance the held commit is reissued at the first reachable frame start with HELD. -/
  | commitReissue
  /-- CONFIG_SCRUB_READ (R399). Each frame the scrub reads 16 pixel words per port and rewrites mismatches. -/
  | configScrubRead (p : Port)
  /-- POWER_ON_RESET (R402). V_IN applied or below reset resets Zwiuc and starts bring-up. -/
  | powerOnReset (below : Bool)
  /-- WARM_RESET (R403). RESET_N low for 1 µs stops the merger, keeps DRAM optionally and resets. -/
  | warmReset
  /-- WARM_RESET_WRITE (R402). A write of Z_RST_CTL with WARM and KEY 0x5A requests a warm reset. -/
  | warmResetWrite (w : Word)
  /-- CLOCKS_STAGE_DONE (R406). The crystal qualifies and the system PLL locks, and SELFTEST begins. -/
  | clocksStageDone
  /-- SELFTEST_COMPLETE (R407). The march test ends and failures degrade units or fail bring-up. -/
  | selftestComplete (engs : BitVec 96) (shm : BitVec 4) (queues : Half) (core : Bool)
  /-- DRAM_STAGE (R408). A stack's DRAM stage completes, and when all are done the device is READY or FAILED. -/
  | dramStage (n : Fin 8) (spareBad : Bool) (c0 c1 c2 c3 : DramRes) (ms : Half)
  /-- STACK_RETRY (R412). A write of Z_BOOT_CTL.RETRY reruns the DRAM stage on a stack, or sets RETRY_FAIL. -/
  | stackRetry (w : Word)
  /-- RESET_RELEASE (R406). Zwiuc's reset is released, 1 ms after rail power-good or when RESET_N rises, and bring-up begins in stage CLOCKS. -/
  | resetRelease
  /-- PELNOS_RESET_RELEASE (R404). Pelnos leaves power-on or pad reset, samples PWR_MODE and starts heeding its downlink again. -/
  | pelnosResetRelease (p : Port) (mode : Bool)
  /-- REFRESH_HOT (R168). A DRAM die crosses 85 °C, the rank's refresh rate doubles or halves, and Z_STACKn_REFR.HOT changes. -/
  | refreshHot (n rank : Fin 8) (hot : Bool)
  /-- RETRAIN_AGE_LAG (R398). A channel's AGE reaches 200 ms without a successful retrain, and the stack raises LAG with 'retrain age'. -/
  | retrainAgeLag (n : Fin 8) (c : Fin 4)
  /-- MSIX_UNMASK (R247). The host unmasks an MSI-X vector, and a message that fell due while the vector was masked is sent. -/
  | msixUnmask (v : Fin 64)
  /-- RECEIVED_TLP_ERROR (R249). A received TLP with an ECRC error, a malformed TLP or a poisoned write to BAR0 or BAR4 is discarded, and AER is logged and raised. -/
  | receivedTlpError (e : TlpError)
  /-- MONITOR_CLOCK_RETURN (R335). A tripped monitor analogue or ADC clock returns, the monitor scan resumes and the interlock outputs leave the forced fault level. -/
  | monitorClockReturn
  deriving DecidableEq, Repr

end Sys2Proof
end

