-- ==== Sys2Proof/Decode.lean ====
section
/-!
DEFINITION. Decoding over the rows of spec/opcode_table.json that give bits.  The table gives no row any bits: its rows are
operations and events, not words, so no word spells a command.
-/

namespace Sys2Proof

def decodeTableWord (_nbits _w : Nat) : Option Instr := none

end Sys2Proof
end

