-- ==== Sys2Proof/Config.lean ====
section
/-!
DEFINITION. What an implementation fixes and the spec leaves open.  `free` has no body: nothing in Lean knows a value of it,
so a statement about a free value holds for every value (log entries 9 and 10, DESIGN CHOICE).
-/

namespace Sys2Proof

/-- Free values: the n-th value that the spec leaves open, as a natural number the user reduces to the width in hand. -/
opaque Config.free : Nat → Nat

end Sys2Proof
end

