-- ==== Sys2Proof/Machine/Regs.lean ====
section
/-!
DEFINITION. The registers of both chips, field by field, as the register tables of spec/02 to spec/17 list them.

A `Field` is one field of one register: where it stands, how wide it is, its access type (R9) and its reset value.
Zwiuc fields carry the BAR0 byte offset of their register (R419, R426 to R436); the fields of a strided block carry the
offset inside the block (R425).  Pelnos fields carry the word address (R440 to R442).  A field of an indexed register
stands at index 0; `Field.at` moves it.  A `Row` says how often and at which step a field repeats.
Choices of the model: log entries 3 (DESIGN CHOICE), 4 (DEDUCED), 13 (PRESUMED).
-/

namespace Sys2Proof.Machine

/-- R9: the access type of a field.  `sh` fields have a staged copy; `st` fields keep their value through a warm reset. -/
inductive Acc where
  | rw | ro | w1c | wo | rc | sh | st
  deriving DecidableEq, Repr

/-- One register field: offset (or word address), lowest bit, width, access type and reset value. -/
structure Field where
  off : Nat
  lsb : Nat
  wid : Nat
  acc : Acc
  reset : Nat
  deriving DecidableEq, Repr

/-- The same field `d` bytes (or words) further on: another index, another instance of a block. -/
def Field.at (f : Field) (d : Nat) : Field := { f with off := f.off + d }

/-- The key under which a register file holds the field. -/
def Field.key (f : Field) : Nat := f.off * 64 + f.lsb

/-- A field together with the step and the number of its repetitions inside its block. -/
structure Row where
  f : Field
  step : Nat
  count : Nat
  deriving DecidableEq, Repr

def Z.MERGE_CFG.WAIT_US : Field := ⟨0x100, 0, 14, .rw, 50⟩
def Z.MERGE_CFG.DUE_US : Field := ⟨0x100, 16, 8, .rw, 40⟩
def Z.MERGE_CFG.KEEP_RB : Field := ⟨0x100, 24, 1, .rw, 0⟩
def Z.MERGE_HWM.QUEUE_KIB : Field := ⟨0x104, 0, 10, .rw, 896⟩
def Z.MERGE_HWM.SIDE : Field := ⟨0x104, 12, 12, .rw, 3584⟩
def Z.MERGE_STAT.STALLED : Field := ⟨0x108, 0, 16, .ro, 0⟩
def Z.MERGE_STAT.MERGING : Field := ⟨0x108, 16, 16, .ro, 0⟩
def Z.MERGE_NEXT.NEXT : Field := ⟨0x10C, 0, 40, .ro, 0⟩
def Z.MERGE_CNT.EARLY : Field := ⟨0x114, 0, 32, .rc, 0⟩
def Z.BUF_MAP.GRAIN : Field := ⟨0x200, 0, 4, .rw, 4⟩
def Z.BUF_MAP.HASH : Field := ⟨0x200, 4, 1, .rw, 1⟩
def Z.BUF_MAP.REFUSED : Field := ⟨0x200, 8, 1, .w1c, 0⟩
def Z.BUF_STAT.IN_SERVICE : Field := ⟨0x204, 0, 8, .ro, 0⟩
def Z.BUF_STAT.SKIPPED : Field := ⟨0x204, 8, 8, .ro, 0⟩
def Z.BUF_STAT.PASR : Field := ⟨0x204, 16, 1, .ro, 0⟩
def Z.BUF_STAT.GATHER : Field := ⟨0x204, 17, 1, .ro, 0⟩
def Z.BUF_OLDEST.FRAME : Field := ⟨0x208, 0, 40, .ro, 0⟩
def Z.BUF_OLDEST.RUN_ID : Field := ⟨0x208, 48, 16, .ro, 0⟩
def Z.BUF_RATE.MBPS : Field := ⟨0x210, 0, 18, .ro, 0⟩
def Z.BUF_RETAIN.US : Field := ⟨0x214, 0, 32, .ro, 0⟩
def Z.BUF_PIN.BILLETS : Field := ⟨0x218, 0, 19, .ro, 0⟩
def Z.BUF_PIN.RANGES : Field := ⟨0x218, 19, 7, .ro, 0⟩
def Z.BUF_ROT.BILLETS : Field := ⟨0x21C, 0, 21, .ro, 0⟩
def Z.BUF_DIR.LIVE : Field := ⟨0x220, 0, 18, .ro, 0⟩
def Z.BUF_DIRCNT.FORCED : Field := ⟨0x224, 0, 16, .rc, 0⟩
def Z.BUF_DIRCNT.GENMISS : Field := ⟨0x224, 16, 16, .rc, 0⟩
def Z.BUF_KEEP.RANK0 : Field := ⟨0x228, 0, 8, .rw, 0⟩
def Z.BUF_PASR.IDLE_MS : Field := ⟨0x22C, 0, 8, .rw, 10⟩
def Z.BUF_PASR.EXIT : Field := ⟨0x22C, 8, 1, .wo, 0⟩
def Z.BUF_PASR.ACTIVE : Field := ⟨0x22C, 9, 1, .ro, 0⟩
def Z.BUF_PASR.AWAKE : Field := ⟨0x22C, 10, 1, .ro, 0⟩
def Z.BUF_GATHER.MOVED : Field := ⟨0x230, 0, 19, .ro, 0⟩
def Z.BUF_GATHER.DONE : Field := ⟨0x230, 19, 1, .w1c, 0⟩
def Z.SCRUB_CFG.MBPS : Field := ⟨0x300, 0, 10, .rw, 192⟩
def Z.SCRUB_CFG.PRIO_S : Field := ⟨0x300, 16, 8, .rw, 5⟩
def Z.SCRUB_LAP.PRIO : Field := ⟨0x304, 0, 16, .ro, 0⟩
def Z.SCRUB_LAP.FULL : Field := ⟨0x304, 16, 16, .ro, 0⟩
def Z.SCRUB_POS.FULL_POS : Field := ⟨0x308, 0, 8, .ro, 0⟩
def Z.SCRUB_POS.PRIO_POS : Field := ⟨0x308, 8, 8, .ro, 0⟩
def Z.SCRUB_POS.PAUSED : Field := ⟨0x308, 16, 1, .ro, 0⟩
def Z.RCE_STAT.USED : Field := ⟨0x30C, 0, 7, .ro, 0⟩
def Z.RCE_STAT.OVF : Field := ⟨0x30C, 16, 16, .rc, 0⟩
def Z.RCE_IDX.ENTRY : Field := ⟨0x310, 0, 6, .rw, 0⟩
def Z.RCE_IDX.CLEAR : Field := ⟨0x310, 6, 1, .wo, 0⟩
def Z.RCE_DATA0.L : Field := ⟨0x314, 0, 32, .ro, 0⟩
def Z.RCE_DATA1.CHANNEL : Field := ⟨0x318, 0, 5, .ro, 0⟩
def Z.RCE_DATA1.BITS : Field := ⟨0x318, 8, 8, .ro, 0⟩
def Z.RCE_DATA1.VALID : Field := ⟨0x318, 16, 1, .ro, 0⟩
def Z.RCE_DATA2.COUNT : Field := ⟨0x31C, 0, 32, .ro, 0⟩
def Z.RCE_DATA3.LAP_FIRST : Field := ⟨0x320, 0, 16, .ro, 0⟩
def Z.RCE_DATA3.LAP_LAST : Field := ⟨0x320, 16, 16, .ro, 0⟩
def Z.INT_CNT.META_REPAIR : Field := ⟨0x324, 0, 16, .rc, 0⟩
def Z.INT_CNT.POISONED : Field := ⟨0x324, 16, 16, .ro, 0⟩
def Z.XTR_CFG.RING_EN : Field := ⟨0x400, 0, 1, .rw, 0⟩
def Z.XTR_CFG.READ_GBPS : Field := ⟨0x400, 16, 7, .rw, 100⟩
def Z.XTR_RESV.CLASS0 : Field := ⟨0x404, 0, 16, .rw, 1024⟩
def Z.XTR_RESV.CLASS1 : Field := ⟨0x404, 16, 16, .rw, 1024⟩
def Z.XTR_RESV2.CLASS2 : Field := ⟨0x408, 0, 16, .rw, 0⟩
def Z.XTR_RESV2.CLASS3 : Field := ⟨0x408, 16, 16, .rw, 0⟩
def Z.XTR_INUSEc.COUNT : Field := ⟨0x40C, 0, 17, .ro, 0⟩
def Z.XTR_WAITING.COUNT : Field := ⟨0x41C, 0, 17, .ro, 0⟩
def Z.XTR_PROFk.CARVE : Field := ⟨0x420, 0, 7, .rw, 0⟩
def Z.XTR_PROFk.LEVEL : Field := ⟨0x420, 8, 3, .rw, 0⟩
def Z.XTR_PROFk.COMP_EN : Field := ⟨0x420, 11, 1, .rw, 0⟩
def Z.XTR_PROFk.AUX : Field := ⟨0x420, 12, 1, .rw, 0⟩
def Z.XTR_REFUSED.COUNT : Field := ⟨0x460, 0, 32, .rc, 0⟩
def Z.XTR_LASTREF.WSTART : Field := ⟨0x464, 0, 64, .ro, 0⟩
def Z.XTR_LASTREF2.LENM1 : Field := ⟨0x46C, 0, 20, .ro, 0⟩
def Z.XTR_LASTREF2.SRC : Field := ⟨0x46C, 20, 6, .ro, 0⟩
def Z.XTR_LASTREF2.CLASS : Field := ⟨0x46C, 26, 1, .ro, 0⟩
def Z.XTR_CNTc.COUNT : Field := ⟨0x470, 0, 32, .rc, 0⟩
def Z.XTR_STATUSCNT.EXPIRED : Field := ⟨0x480, 0, 16, .rc, 0⟩
def Z.XTR_STATUSCNT.REJECTED : Field := ⟨0x480, 16, 16, .rc, 0⟩
def Z.XTR_RBYTES.BYTES : Field := ⟨0x484, 0, 64, .ro, 0⟩
def Z.XTR_DBYTES.BYTES : Field := ⟨0x48C, 0, 64, .ro, 0⟩
def Z.XTR_OQ.OCC : Field := ⟨0x494, 0, 12, .ro, 0⟩
def Z.XTR_OQ.STARVE : Field := ⟨0x494, 16, 16, .rc, 0⟩
def Z.XTR_OLDEST3.US : Field := ⟨0x498, 0, 32, .ro, 0⟩
def Z.XTR_QRESET.COUNT : Field := ⟨0x49C, 0, 8, .rc, 0⟩
def Z.XTR_FETCH.STOPPED : Field := ⟨0x4A0, 0, 4, .ro, 0⟩
def Z.HOST_SHADOW.EN : Field := ⟨0x7100, 0, 1, .rw, 0⟩
def Z.HOST_SHADOW.ADDR : Field := ⟨0x7100, 6, 58, .rw, 0⟩
def Z.HOST_TMO.FE_US : Field := ⟨0x7108, 0, 16, .rw, 1000⟩
def Z.HOST_TMO.STARVE_MS : Field := ⟨0x7108, 16, 16, .rw, 10⟩
def Z.HOST_LINK.SPEED : Field := ⟨0x710C, 0, 3, .ro, 0⟩
def Z.HOST_LINK.WIDTH : Field := ⟨0x710C, 3, 5, .ro, 0⟩
def Z.HOST_LINK.FLIT : Field := ⟨0x710C, 8, 1, .ro, 0⟩
def Z.HOST_LINK.MAX_SPEED : Field := ⟨0x710C, 16, 3, .rw, 6⟩
def Z.HOST_ERR.BAD_ACCESS : Field := ⟨0x7110, 0, 1, .w1c, 0⟩
def Z.HOST_ERR.RING_ERR : Field := ⟨0x7110, 1, 1, .w1c, 0⟩
def Z.HOST_ERR.DMA_ERR : Field := ⟨0x7110, 2, 1, .w1c, 0⟩
def Z.HOST_ERR.STARVED : Field := ⟨0x7110, 3, 1, .w1c, 0⟩
def Z.HOST_SHWIN.CLUSTER : Field := ⟨0x7114, 0, 2, .rw, 0⟩
def Z.HOST_SHWIN.HALF : Field := ⟨0x7114, 2, 1, .rw, 0⟩
def Z.HOST_EVSTAT.PEND : Field := ⟨0x7118, 0, 6, .w1c, 0⟩
def Z.HOST_EVEN.EN : Field := ⟨0x711C, 0, 6, .rw, 63⟩
def Z.COMP_CFG.SECT_FLUSH : Field := ⟨0x8000, 0, 1, .rw, 0⟩
def Z.COMP_CFG.CHECK_EN : Field := ⟨0x8000, 1, 1, .rw, 1⟩
def Z.COMP_CFG.IDLE_US : Field := ⟨0x8000, 16, 16, .rw, 50⟩
def Z.COMP_STAT.BUSY : Field := ⟨0x8004, 0, 8, .ro, 0⟩
def Z.COMP_STAT.STARVED : Field := ⟨0x8004, 8, 8, .ro, 0⟩
def Z.COMP_STAT.DEC_BUSY : Field := ⟨0x8004, 16, 1, .ro, 0⟩
def Z.COMP_WAIT.COUNT : Field := ⟨0x8008, 0, 17, .ro, 0⟩
def Z.COMP_IN.BYTES : Field := ⟨0x800C, 0, 64, .ro, 0⟩
def Z.COMP_OUT.BYTES : Field := ⟨0x8014, 0, 64, .ro, 0⟩
def Z.COMP_BLK.STORED : Field := ⟨0x801C, 0, 16, .rc, 0⟩
def Z.COMP_BLK.FLUSH : Field := ⟨0x801C, 16, 16, .rc, 0⟩
def Z.COMP_CHK.MISMATCH : Field := ⟨0x8020, 0, 16, .rc, 0⟩
def Z.COMP_DEC.IMAGES : Field := ⟨0x8024, 0, 16, .rc, 0⟩
def Z.COMP_DEC.ERRORS : Field := ⟨0x8024, 16, 8, .rc, 0⟩
def Z.COMP_DEC.LAST_ERR : Field := ⟨0x8024, 24, 4, .ro, 0⟩
def Z.COMP_EVSTAT.PEND : Field := ⟨0x8028, 0, 2, .w1c, 0⟩
def Z.COMP_EVEN.EN : Field := ⟨0x802C, 0, 2, .rw, 3⟩
def Z.TIME_NOW0.FRAC : Field := ⟨0x4000, 0, 16, .ro, 0⟩
def Z.TIME_NOW0.SEC_LO : Field := ⟨0x4000, 16, 16, .ro, 0⟩
def Z.TIME_NOW1.NS : Field := ⟨0x4004, 0, 32, .ro, 0⟩
def Z.TIME_NOW2.SEC_HI : Field := ⟨0x4008, 0, 32, .ro, 0⟩
def Z.TIME_INC.INC : Field := ⟨0x400C, 0, 40, .ro, 0x320000000⟩
def Z.TIME_CFG.KP_LOG2 : Field := ⟨0x4014, 0, 4, .rw, 3⟩
def Z.TIME_CFG.KI_LOG2 : Field := ⟨0x4014, 4, 4, .rw, 7⟩
def Z.TIME_CFG.GATE_LOG2 : Field := ⟨0x4014, 8, 4, .rw, 6⟩
def Z.TIME_CFG.LIMIT_NS : Field := ⟨0x4014, 16, 16, .rw, 1000⟩
def Z.TIME_STAT.STATE : Field := ⟨0x4018, 0, 3, .ro, 0⟩
def Z.TIME_STAT.CLK_DIR : Field := ⟨0x4018, 3, 1, .ro, 0⟩
def Z.TIME_STAT.EST_VALID : Field := ⟨0x4018, 4, 1, .ro, 0⟩
def Z.TIME_STAT.TAI_SET : Field := ⟨0x4018, 5, 1, .ro, 0⟩
def Z.TIME_STAT.RUN_ACTIVE : Field := ⟨0x4018, 6, 1, .ro, 0⟩
def Z.TIME_STAT.SET_REFUSED : Field := ⟨0x4018, 7, 1, .w1c, 0⟩
def Z.TIME_STAT.HOPS : Field := ⟨0x4018, 8, 6, .ro, 0⟩
def Z.TIME_OFFSET.THETA : Field := ⟨0x401C, 0, 32, .ro, 0⟩
def Z.TIME_XTAL.EPS : Field := ⟨0x4020, 0, 32, .ro, 0⟩
def Z.TIME_AGE.AGE : Field := ⟨0x4024, 0, 16, .rw, 0⟩
def Z.TIME_TRIM.TRIM : Field := ⟨0x4028, 0, 32, .rw, 0⟩
def Z.TIME_SLEW.SLEW : Field := ⟨0x402C, 0, 32, .rw, 0⟩
def Z.TIME_SETk.VALUE : Field := ⟨0x4030, 0, 32, .wo, 0⟩
def Z.TIME_EPOCHk.VALUE : Field := ⟨0x403C, 0, 32, .ro, 0⟩
def Z.TIME_REST.COUNT : Field := ⟨0x4048, 0, 16, .rc, 0⟩
def Z.TIME_REST.LAST_MS : Field := ⟨0x4048, 16, 16, .ro, 0⟩
def Z.TIME_EVSTAT.PEND : Field := ⟨0x404C, 0, 6, .w1c, 0⟩
def Z.TIME_EVEN.EN : Field := ⟨0x4050, 0, 6, .rw, 63⟩
def Z.RING_CFG.NODE_ID : Field := ⟨0x5000, 0, 6, .rw, 0⟩
def Z.RING_CFG.ROLE : Field := ⟨0x5000, 8, 2, .rw, 0⟩
def Z.RING_CFG.EN : Field := ⟨0x5000, 10, 1, .rw, 0⟩
def Z.RING_CFG.STOP_RETAIN : Field := ⟨0x5000, 11, 1, .rw, 0⟩
def Z.RING_CFG.RING_KEY : Field := ⟨0x5000, 16, 16, .rw, 0⟩
def Z.RING_LEASE.L_MS : Field := ⟨0x5004, 0, 8, .rw, 10⟩
def Z.RING_LEASE.NEXT_TAIL : Field := ⟨0x5004, 8, 6, .rw, 0⟩
def Z.RING_LEASE.NEXT_TAIL_EN : Field := ⟨0x5004, 14, 1, .rw, 0⟩
def Z.RING_SYNC.PERIOD_US : Field := ⟨0x5008, 0, 16, .rw, 100⟩
def Z.RING_SYNC.LOSS : Field := ⟨0x5008, 16, 8, .rw, 4⟩
def Z.RING_STAT.HS_ID : Field := ⟨0x500C, 0, 6, .ro, 0⟩
def Z.RING_STAT.HS_VALID : Field := ⟨0x500C, 6, 1, .ro, 0⟩
def Z.RING_STAT.IN_MAP : Field := ⟨0x500C, 7, 1, .ro, 0⟩
def Z.RING_STAT.TS_ID : Field := ⟨0x500C, 8, 6, .ro, 0⟩
def Z.RING_STAT.TS_VALID : Field := ⟨0x500C, 14, 1, .ro, 0⟩
def Z.RING_STAT.MIRROR_VALID : Field := ⟨0x500C, 15, 1, .ro, 0⟩
def Z.RING_STAT.ROLE_NOW : Field := ⟨0x500C, 16, 2, .ro, 0⟩
def Z.RING_STAT.WRAP_E : Field := ⟨0x500C, 18, 1, .ro, 0⟩
def Z.RING_STAT.WRAP_W : Field := ⟨0x500C, 19, 1, .ro, 0⟩
def Z.RING_STAT.REFUSED : Field := ⟨0x500C, 20, 1, .w1c, 0⟩
def Z.RING_LSEQ.LSEQ : Field := ⟨0x5010, 0, 32, .ro, 0⟩
def Z.RING_MAP.MASK : Field := ⟨0x5014, 0, 64, .ro, 0⟩
def Z.RING_RUN.RUN_NUM : Field := ⟨0x501C, 0, 16, .ro, 0⟩
def Z.RING_RUN.ACTIVE : Field := ⟨0x501C, 16, 1, .ro, 0⟩
def Z.RING_DLY_E.DELAY : Field := ⟨0x5020, 0, 31, .ro, 0⟩
def Z.RING_DLY_E.VALID : Field := ⟨0x5020, 31, 1, .ro, 0⟩
def Z.RING_ASYM_E.TX : Field := ⟨0x5028, 0, 16, .rw, 0⟩
def Z.RING_ASYM_E.RX : Field := ⟨0x5028, 16, 16, .rw, 0⟩
def Z.RING_ECHO.AVG_LOG2 : Field := ⟨0x5030, 0, 4, .rw, 4⟩
def Z.RING_ECHO.PERIOD : Field := ⟨0x5030, 8, 8, .rw, 10⟩
def Z.RING_PRIM.PORT_EVT : Field := ⟨0x5034, 0, 1, .rw, 0⟩
def Z.RING_MSG.STRIPPED : Field := ⟨0x5038, 0, 16, .rc, 0⟩
def Z.RING_MSG.BADCRC : Field := ⟨0x5038, 16, 16, .rc, 0⟩
def Z.RING_GATED.COUNT : Field := ⟨0x503C, 0, 32, .rc, 0⟩
def Z.RING_GATEk.START_LO : Field := ⟨0x5040, 0, 32, .rw, 0⟩
def Z.RING_GATEk_1.START_HI : Field := ⟨0x5044, 0, 16, .rw, 0⟩
def Z.RING_GATEk_1.EN : Field := ⟨0x5044, 16, 1, .rw, 0⟩
def Z.RING_GATEk_1.CLASS0 : Field := ⟨0x5044, 17, 1, .rw, 0⟩
def Z.RING_GATEk_1.CLASS1 : Field := ⟨0x5044, 18, 1, .rw, 0⟩
def Z.RING_GATEk_2.END_LO : Field := ⟨0x5048, 0, 32, .rw, 0⟩
def Z.RING_GATEk_3.END_HI : Field := ⟨0x504C, 0, 16, .rw, 0⟩
def Z.RING_EVSTAT.PEND : Field := ⟨0x50C0, 0, 6, .w1c, 0⟩
def Z.RING_EVEN.EN : Field := ⟨0x50C4, 0, 6, .rw, 63⟩
def Z.CLK_SRC.SEL : Field := ⟨0x9000, 0, 2, .ro, 0⟩
def Z.CLK_SRC.XTAL_QUAL : Field := ⟨0x9000, 2, 1, .ro, 0⟩
def Z.CLK_SRC.RW_QUAL : Field := ⟨0x9000, 3, 1, .ro, 0⟩
def Z.CLK_SRC.RE_QUAL : Field := ⟨0x9000, 4, 1, .ro, 0⟩
def Z.CLK_SRC.SAFE : Field := ⟨0x9000, 5, 1, .ro, 0⟩
def Z.CLK_SRC.FORCED : Field := ⟨0x9000, 8, 8, .rc, 0⟩
def Z.CLK_SRC.XTAL_MS : Field := ⟨0x9000, 16, 8, .ro, 0⟩
def Z.CLK_MON.TRIP : Field := ⟨0x9004, 0, 19, .w1c, 0⟩
def Z.CLK_GATE.PORT : Field := ⟨0x9008, 0, 16, .rw, 0xFFFF⟩
def Z.CLK_GATE.STACK : Field := ⟨0x9008, 16, 8, .rw, 255⟩
def Z.CLK_GATE.RING : Field := ⟨0x9008, 24, 1, .rw, 1⟩
def Z.CLK_GATE.MON : Field := ⟨0x9008, 25, 1, .rw, 1⟩
def Z.PWR_FEED.A_OK : Field := ⟨0x900C, 0, 1, .ro, 0⟩
def Z.PWR_FEED.B_OK : Field := ⟨0x900C, 1, 1, .ro, 0⟩
def Z.PWR_FEED.A_V : Field := ⟨0x900C, 4, 8, .ro, 0⟩
def Z.PWR_FEED.B_V : Field := ⟨0x900C, 12, 8, .ro, 0⟩
def Z.PWR_FEED.SWITCHES : Field := ⟨0x900C, 20, 8, .rc, 0⟩
def Z.PWR_RAIL.WARN : Field := ⟨0x9010, 0, 12, .ro, 0⟩
def Z.PWR_RAIL.DIPPED : Field := ⟨0x9010, 16, 12, .w1c, 0⟩
def Z.PWR_WARN.RAIL : Field := ⟨0x9014, 0, 4, .ro, 0⟩
def Z.PWR_WARN.DUR_US : Field := ⟨0x9014, 4, 16, .ro, 0⟩
def Z.PWR_WARN.MIN : Field := ⟨0x9014, 20, 12, .ro, 0⟩
def Z.PWR_DVFS.PG_FAIL : Field := ⟨0x9018, 0, 4, .w1c, 0⟩
def Z.PWR_RSTCAUSE.CAUSE : Field := ⟨0x901C, 0, 3, .ro, 0⟩
def Z.PWR_RSTCAUSE.RAIL : Field := ⟨0x901C, 3, 4, .ro, 0⟩
def Z.SAFE_STAT.COUNT : Field := ⟨0x9020, 0, 16, .rc, 0⟩
def Z.SAFE_STAT.LAST_US : Field := ⟨0x9020, 16, 16, .ro, 0⟩
def Z.PWR_EVSTAT.PEND : Field := ⟨0x9024, 0, 6, .w1c, 0⟩
def Z.PWR_EVEN.EN : Field := ⟨0x9028, 0, 6, .rw, 63⟩
def Z.MON_CTL.SCAN_EN : Field := ⟨0x6000, 0, 1, .rw, 0⟩
def Z.MON_CTL.REFBUF_EN : Field := ⟨0x6000, 1, 1, .rw, 0⟩
def Z.MON_CTL.REF_READY : Field := ⟨0x6000, 2, 1, .ro, 0⟩
def Z.MON_CTL.CAL : Field := ⟨0x6000, 3, 1, .wo, 0⟩
def Z.MON_CTL.CAL_BUSY : Field := ⟨0x6000, 4, 1, .ro, 0⟩
def Z.MON_CTL.CAL_WAIT : Field := ⟨0x6000, 5, 1, .ro, 0⟩
def Z.MON_CTL.CAL_DONE : Field := ⟨0x6000, 6, 1, .w1c, 0⟩
def Z.MON_CTL.CAL_FAIL : Field := ⟨0x6000, 7, 1, .w1c, 0⟩
def Z.MON_CTL.DMA_EN : Field := ⟨0x6000, 8, 1, .rw, 0⟩
def Z.MON_CTL.REFUSED : Field := ⟨0x6000, 9, 1, .w1c, 0⟩
def Z.MON_FILT.F_EXC : Field := ⟨0x6004, 0, 14, .rw, 1327⟩
def Z.MON_FILT.RATE : Field := ⟨0x6004, 14, 3, .rw, 3⟩
def Z.MON_FILT.NOTCH : Field := ⟨0x6004, 17, 2, .rw, 1⟩
def Z.MON_FILT.DWELL_N : Field := ⟨0x6004, 19, 3, .rw, 1⟩
def Z.MON_SCAN.INDEX : Field := ⟨0x6008, 0, 4, .ro, 0⟩
def Z.MON_SCAN.PAUSED : Field := ⟨0x6008, 4, 1, .ro, 0⟩
def Z.MON_SCAN.PASSES : Field := ⟨0x6008, 16, 16, .rc, 0⟩
def Z.MON_PASS.LAST_MS : Field := ⟨0x600C, 0, 16, .ro, 0⟩
def Z.MON_PASS.NOM_MS : Field := ⟨0x600C, 16, 16, .ro, 0⟩
def Z.MON_CALk.GAIN : Field := ⟨0x6010, 0, 16, .ro, 0x8000⟩
def Z.MON_CALk.OFFSET : Field := ⟨0x6010, 16, 12, .ro, 0⟩
def Z.MON_DMA_CNT.COUNT : Field := ⟨0x6020, 0, 32, .ro, 0⟩
def Z.MON_DMA_T0k.VALUE : Field := ⟨0x6024, 0, 32, .ro, 0⟩
def Z.MON_INJ.SEL : Field := ⟨0x6040, 0, 8, .rw, 3⟩
def Z.MON_INJ.GO : Field := ⟨0x6040, 8, 1, .wo, 0⟩
def Z.MON_INJ.BUSY : Field := ⟨0x6040, 9, 1, .ro, 0⟩
def Z.MON_INJ.PERIOD_MS : Field := ⟨0x6040, 16, 10, .rw, 10⟩
def Z.MON_INJDk.CODE : Field := ⟨0x6044, 0, 12, .ro, 0⟩
def Z.MON_INJDk.OVR : Field := ⟨0x6044, 12, 1, .rc, 0⟩
def Z.MON_INJDk.VALID : Field := ⟨0x6044, 13, 1, .ro, 0⟩
def Z.MON_INJDk.SUPPLY : Field := ⟨0x6044, 14, 1, .ro, 0⟩
def Z.MON_EVSTAT.PEND : Field := ⟨0x6064, 0, 6, .w1c, 0⟩
def Z.MON_EVEN.EN : Field := ⟨0x6068, 0, 6, .rw, 63⟩
def Z.MON_ILSUM.FAULT : Field := ⟨0x606C, 0, 16, .ro, 0xFFFF⟩
def Z.MON_ILSUM.HOLD : Field := ⟨0x606C, 16, 16, .ro, 0⟩
def Z.MON_CHCFGc.MODE : Field := ⟨0x6100, 0, 2, .rw, 0⟩
def Z.MON_CHCFGc.AUTO : Field := ⟨0x6100, 2, 1, .rw, 1⟩
def Z.MON_CHCFGc.RANGE : Field := ⟨0x6100, 3, 2, .rw, 1⟩
def Z.MON_CHCFGc.VAMP : Field := ⟨0x6100, 5, 2, .rw, 1⟩
def Z.MON_DATAc.VALUE : Field := ⟨0x6180, 0, 24, .ro, 0⟩
def Z.MON_DATAc.OVR : Field := ⟨0x6180, 24, 1, .rc, 0⟩
def Z.MON_DATAc.SETTLE : Field := ⟨0x6180, 25, 1, .ro, 1⟩
def Z.MON_DATAc.RANGE : Field := ⟨0x6180, 26, 1, .ro, 0⟩
def Z.MON_DATAc.BROKEN : Field := ⟨0x6180, 27, 1, .ro, 0⟩
def Z.MON_DATAc.SUPPLY : Field := ⟨0x6180, 28, 1, .ro, 0⟩
def Z.MON_DATAc.RNG : Field := ⟨0x6180, 29, 2, .ro, 0⟩
def Z.MON_DATAc.LIMIT : Field := ⟨0x6180, 31, 1, .ro, 0⟩
def Z.EVT_CFG.MIN_SEV : Field := ⟨0xA000, 0, 2, .rw, 0⟩
def Z.EVT_STAT.QOCC : Field := ⟨0xA004, 0, 9, .ro, 0⟩
def Z.EVT_STAT.FILTERED : Field := ⟨0xA004, 16, 16, .rc, 0⟩
def Z.TRUE_STAT.PENDING : Field := ⟨0xA010, 0, 1, .ro, 0⟩
def Z.TRUE_STAT.BUILDING : Field := ⟨0xA010, 1, 1, .ro, 0⟩
def Z.TRUE_STAT.STAGING : Field := ⟨0xA010, 2, 9, .ro, 0⟩
def Z.TRUE_TICK.TICK : Field := ⟨0xA014, 0, 64, .ro, 0⟩
def Z.TRUE_SEQ.SEQ : Field := ⟨0xA01C, 0, 32, .ro, 0⟩
def Z.TEL_CFG.EN : Field := ⟨0xA020, 0, 1, .rw, 0⟩
def Z.TEL_CFG.LOG2N : Field := ⟨0xA020, 1, 4, .rw, 0⟩
def Z.TEL_CFG.PERIOD_MS : Field := ⟨0xA020, 16, 16, .rw, 1000⟩
def Z.TEL_BASE.BASE : Field := ⟨0xA024, 12, 52, .rw, 0⟩
def Z.TEL_IDX.COUNT : Field := ⟨0xA02C, 0, 32, .ro, 0⟩
def Z.TEL_SKIP.COUNT : Field := ⟨0xA030, 0, 16, .rc, 0⟩
def Z.CSCRUB_CFG.PORTS : Field := ⟨0xA034, 0, 16, .rw, 0⟩
def Z.CSCRUB_LAPp.LAP_MS : Field := ⟨0xA040, 0, 16, .ro, 0⟩
def Z.CSCRUB_LAPp.REWRITES : Field := ⟨0xA040, 16, 16, .rc, 0⟩
def Z.BG_LAG.LAG : Field := ⟨0xA080, 0, 8, .w1c, 0⟩
def Z.EVT_MAPk.VECTOR0 : Field := ⟨0xA100, 0, 6, .rw, 0⟩
def Z.EVT_MAPk.DIRECT0 : Field := ⟨0xA100, 6, 1, .rw, 0⟩
def Z.EVT_MAPk.VECTOR1 : Field := ⟨0xA100, 8, 6, .rw, 0⟩
def Z.EVT_MAPk.DIRECT1 : Field := ⟨0xA100, 14, 1, .rw, 0⟩
def Z.EVT_MAPk.VECTOR2 : Field := ⟨0xA100, 16, 6, .rw, 0⟩
def Z.EVT_MAPk.DIRECT2 : Field := ⟨0xA100, 22, 1, .rw, 0⟩
def Z.EVT_MAPk.VECTOR3 : Field := ⟨0xA100, 24, 6, .rw, 0⟩
def Z.EVT_MAPk.DIRECT3 : Field := ⟨0xA100, 30, 1, .rw, 0⟩
def Z.CHIP_ID.PART : Field := ⟨0x0, 0, 16, .ro, 22⟩
def Z.CHIP_ID.STEPPING : Field := ⟨0x0, 16, 16, .ro, 0⟩
def Z.BOOT_STAT.STAGE : Field := ⟨0x4, 0, 3, .ro, 0⟩
def Z.BOOT_STAT.WARM : Field := ⟨0x4, 3, 1, .ro, 0⟩
def Z.BOOT_STAT.KEPT : Field := ⟨0x4, 4, 1, .ro, 0⟩
def Z.BOOT_STAT.STACKS : Field := ⟨0x4, 8, 8, .ro, 0⟩
def Z.BOOT_STAT.READY_MS : Field := ⟨0x4, 16, 16, .ro, 0⟩
def Z.BOOT_FAIL.PORT : Field := ⟨0x8, 0, 16, .ro, 0⟩
def Z.BOOT_FAIL.SHM : Field := ⟨0x8, 16, 4, .ro, 0⟩
def Z.BOOT_FAIL.CORE : Field := ⟨0x8, 20, 1, .ro, 0⟩
def Z.BOOT_ENGk.FAILED : Field := ⟨0xC, 0, 32, .ro, 0⟩
def Z.BOOT_CFG.DRAM_TEST : Field := ⟨0x18, 0, 2, .st, 1⟩
def Z.BOOT_CFG.KEEP : Field := ⟨0x18, 2, 1, .st, 0⟩
def Z.RST_CTL.WARM : Field := ⟨0x1C, 0, 1, .wo, 0⟩
def Z.RST_CTL.KEY : Field := ⟨0x1C, 8, 8, .wo, 0⟩
def Z.BOOT_CTL.RETRY : Field := ⟨0x20, 0, 8, .wo, 0⟩
def Z.BOOT_CTL.RETRYING : Field := ⟨0x20, 8, 8, .ro, 0⟩
def Z.BOOT_CTL.RETRY_FAIL : Field := ⟨0x20, 16, 8, .w1c, 0⟩
def Z.RING_DLY_W.DELAY : Field := ⟨0x5024, 0, 31, .ro, 0⟩
def Z.RING_DLY_W.VALID : Field := ⟨0x5024, 31, 1, .ro, 0⟩
def Z.RING_ASYM_W.TX : Field := ⟨0x502C, 0, 16, .rw, 0⟩
def Z.RING_ASYM_W.RX : Field := ⟨0x502C, 16, 16, .rw, 0⟩

def Z.rows0 : List Row := [
  ⟨Z.MERGE_CFG.WAIT_US, 0, 1⟩,
  ⟨Z.MERGE_CFG.DUE_US, 0, 1⟩,
  ⟨Z.MERGE_CFG.KEEP_RB, 0, 1⟩,
  ⟨Z.MERGE_HWM.QUEUE_KIB, 0, 1⟩,
  ⟨Z.MERGE_HWM.SIDE, 0, 1⟩,
  ⟨Z.MERGE_STAT.STALLED, 0, 1⟩,
  ⟨Z.MERGE_STAT.MERGING, 0, 1⟩,
  ⟨Z.MERGE_NEXT.NEXT, 0, 1⟩,
  ⟨Z.MERGE_CNT.EARLY, 0, 1⟩,
  ⟨Z.BUF_MAP.GRAIN, 0, 1⟩,
  ⟨Z.BUF_MAP.HASH, 0, 1⟩,
  ⟨Z.BUF_MAP.REFUSED, 0, 1⟩,
  ⟨Z.BUF_STAT.IN_SERVICE, 0, 1⟩,
  ⟨Z.BUF_STAT.SKIPPED, 0, 1⟩,
  ⟨Z.BUF_STAT.PASR, 0, 1⟩,
  ⟨Z.BUF_STAT.GATHER, 0, 1⟩,
  ⟨Z.BUF_OLDEST.FRAME, 0, 1⟩,
  ⟨Z.BUF_OLDEST.RUN_ID, 0, 1⟩,
  ⟨Z.BUF_RATE.MBPS, 0, 1⟩,
  ⟨Z.BUF_RETAIN.US, 0, 1⟩,
  ⟨Z.BUF_PIN.BILLETS, 0, 1⟩,
  ⟨Z.BUF_PIN.RANGES, 0, 1⟩,
  ⟨Z.BUF_ROT.BILLETS, 0, 1⟩,
  ⟨Z.BUF_DIR.LIVE, 0, 1⟩,
  ⟨Z.BUF_DIRCNT.FORCED, 0, 1⟩,
  ⟨Z.BUF_DIRCNT.GENMISS, 0, 1⟩,
  ⟨Z.BUF_KEEP.RANK0, 0, 1⟩,
  ⟨Z.BUF_PASR.IDLE_MS, 0, 1⟩,
  ⟨Z.BUF_PASR.EXIT, 0, 1⟩,
  ⟨Z.BUF_PASR.ACTIVE, 0, 1⟩,
  ⟨Z.BUF_PASR.AWAKE, 0, 1⟩,
  ⟨Z.BUF_GATHER.MOVED, 0, 1⟩,
  ⟨Z.BUF_GATHER.DONE, 0, 1⟩,
  ⟨Z.SCRUB_CFG.MBPS, 0, 1⟩,
  ⟨Z.SCRUB_CFG.PRIO_S, 0, 1⟩,
  ⟨Z.SCRUB_LAP.PRIO, 0, 1⟩,
  ⟨Z.SCRUB_LAP.FULL, 0, 1⟩,
  ⟨Z.SCRUB_POS.FULL_POS, 0, 1⟩,
  ⟨Z.SCRUB_POS.PRIO_POS, 0, 1⟩,
  ⟨Z.SCRUB_POS.PAUSED, 0, 1⟩]
def Z.rows1 : List Row := [
  ⟨Z.RCE_STAT.USED, 0, 1⟩,
  ⟨Z.RCE_STAT.OVF, 0, 1⟩,
  ⟨Z.RCE_IDX.ENTRY, 0, 1⟩,
  ⟨Z.RCE_IDX.CLEAR, 0, 1⟩,
  ⟨Z.RCE_DATA0.L, 0, 1⟩,
  ⟨Z.RCE_DATA1.CHANNEL, 0, 1⟩,
  ⟨Z.RCE_DATA1.BITS, 0, 1⟩,
  ⟨Z.RCE_DATA1.VALID, 0, 1⟩,
  ⟨Z.RCE_DATA2.COUNT, 0, 1⟩,
  ⟨Z.RCE_DATA3.LAP_FIRST, 0, 1⟩,
  ⟨Z.RCE_DATA3.LAP_LAST, 0, 1⟩,
  ⟨Z.INT_CNT.META_REPAIR, 0, 1⟩,
  ⟨Z.INT_CNT.POISONED, 0, 1⟩,
  ⟨Z.XTR_CFG.RING_EN, 0, 1⟩,
  ⟨Z.XTR_CFG.READ_GBPS, 0, 1⟩,
  ⟨Z.XTR_RESV.CLASS0, 0, 1⟩,
  ⟨Z.XTR_RESV.CLASS1, 0, 1⟩,
  ⟨Z.XTR_RESV2.CLASS2, 0, 1⟩,
  ⟨Z.XTR_RESV2.CLASS3, 0, 1⟩,
  ⟨Z.XTR_INUSEc.COUNT, 0x4, 4⟩,
  ⟨Z.XTR_WAITING.COUNT, 0, 1⟩,
  ⟨Z.XTR_PROFk.CARVE, 0x4, 16⟩,
  ⟨Z.XTR_PROFk.LEVEL, 0x4, 16⟩,
  ⟨Z.XTR_PROFk.COMP_EN, 0x4, 16⟩,
  ⟨Z.XTR_PROFk.AUX, 0x4, 16⟩,
  ⟨Z.XTR_REFUSED.COUNT, 0, 1⟩,
  ⟨Z.XTR_LASTREF.WSTART, 0, 1⟩,
  ⟨Z.XTR_LASTREF2.LENM1, 0, 1⟩,
  ⟨Z.XTR_LASTREF2.SRC, 0, 1⟩,
  ⟨Z.XTR_LASTREF2.CLASS, 0, 1⟩,
  ⟨Z.XTR_CNTc.COUNT, 0x4, 4⟩,
  ⟨Z.XTR_STATUSCNT.EXPIRED, 0, 1⟩,
  ⟨Z.XTR_STATUSCNT.REJECTED, 0, 1⟩,
  ⟨Z.XTR_RBYTES.BYTES, 0, 1⟩,
  ⟨Z.XTR_DBYTES.BYTES, 0, 1⟩,
  ⟨Z.XTR_OQ.OCC, 0, 1⟩,
  ⟨Z.XTR_OQ.STARVE, 0, 1⟩,
  ⟨Z.XTR_OLDEST3.US, 0, 1⟩,
  ⟨Z.XTR_QRESET.COUNT, 0, 1⟩,
  ⟨Z.XTR_FETCH.STOPPED, 0, 1⟩]
def Z.rows2 : List Row := [
  ⟨Z.HOST_SHADOW.EN, 0, 1⟩,
  ⟨Z.HOST_SHADOW.ADDR, 0, 1⟩,
  ⟨Z.HOST_TMO.FE_US, 0, 1⟩,
  ⟨Z.HOST_TMO.STARVE_MS, 0, 1⟩,
  ⟨Z.HOST_LINK.SPEED, 0, 1⟩,
  ⟨Z.HOST_LINK.WIDTH, 0, 1⟩,
  ⟨Z.HOST_LINK.FLIT, 0, 1⟩,
  ⟨Z.HOST_LINK.MAX_SPEED, 0, 1⟩,
  ⟨Z.HOST_ERR.BAD_ACCESS, 0, 1⟩,
  ⟨Z.HOST_ERR.RING_ERR, 0, 1⟩,
  ⟨Z.HOST_ERR.DMA_ERR, 0, 1⟩,
  ⟨Z.HOST_ERR.STARVED, 0, 1⟩,
  ⟨Z.HOST_SHWIN.CLUSTER, 0, 1⟩,
  ⟨Z.HOST_SHWIN.HALF, 0, 1⟩,
  ⟨Z.HOST_EVSTAT.PEND, 0, 1⟩,
  ⟨Z.HOST_EVEN.EN, 0, 1⟩,
  ⟨Z.COMP_CFG.SECT_FLUSH, 0, 1⟩,
  ⟨Z.COMP_CFG.CHECK_EN, 0, 1⟩,
  ⟨Z.COMP_CFG.IDLE_US, 0, 1⟩,
  ⟨Z.COMP_STAT.BUSY, 0, 1⟩,
  ⟨Z.COMP_STAT.STARVED, 0, 1⟩,
  ⟨Z.COMP_STAT.DEC_BUSY, 0, 1⟩,
  ⟨Z.COMP_WAIT.COUNT, 0, 1⟩,
  ⟨Z.COMP_IN.BYTES, 0, 1⟩,
  ⟨Z.COMP_OUT.BYTES, 0, 1⟩,
  ⟨Z.COMP_BLK.STORED, 0, 1⟩,
  ⟨Z.COMP_BLK.FLUSH, 0, 1⟩,
  ⟨Z.COMP_CHK.MISMATCH, 0, 1⟩,
  ⟨Z.COMP_DEC.IMAGES, 0, 1⟩,
  ⟨Z.COMP_DEC.ERRORS, 0, 1⟩,
  ⟨Z.COMP_DEC.LAST_ERR, 0, 1⟩,
  ⟨Z.COMP_EVSTAT.PEND, 0, 1⟩,
  ⟨Z.COMP_EVEN.EN, 0, 1⟩,
  ⟨Z.TIME_NOW0.FRAC, 0, 1⟩,
  ⟨Z.TIME_NOW0.SEC_LO, 0, 1⟩,
  ⟨Z.TIME_NOW1.NS, 0, 1⟩,
  ⟨Z.TIME_NOW2.SEC_HI, 0, 1⟩,
  ⟨Z.TIME_INC.INC, 0, 1⟩,
  ⟨Z.TIME_CFG.KP_LOG2, 0, 1⟩,
  ⟨Z.TIME_CFG.KI_LOG2, 0, 1⟩]
def Z.rows3 : List Row := [
  ⟨Z.TIME_CFG.GATE_LOG2, 0, 1⟩,
  ⟨Z.TIME_CFG.LIMIT_NS, 0, 1⟩,
  ⟨Z.TIME_STAT.STATE, 0, 1⟩,
  ⟨Z.TIME_STAT.CLK_DIR, 0, 1⟩,
  ⟨Z.TIME_STAT.EST_VALID, 0, 1⟩,
  ⟨Z.TIME_STAT.TAI_SET, 0, 1⟩,
  ⟨Z.TIME_STAT.RUN_ACTIVE, 0, 1⟩,
  ⟨Z.TIME_STAT.SET_REFUSED, 0, 1⟩,
  ⟨Z.TIME_STAT.HOPS, 0, 1⟩,
  ⟨Z.TIME_OFFSET.THETA, 0, 1⟩,
  ⟨Z.TIME_XTAL.EPS, 0, 1⟩,
  ⟨Z.TIME_AGE.AGE, 0, 1⟩,
  ⟨Z.TIME_TRIM.TRIM, 0, 1⟩,
  ⟨Z.TIME_SLEW.SLEW, 0, 1⟩,
  ⟨Z.TIME_SETk.VALUE, 0x4, 3⟩,
  ⟨Z.TIME_EPOCHk.VALUE, 0x4, 3⟩,
  ⟨Z.TIME_REST.COUNT, 0, 1⟩,
  ⟨Z.TIME_REST.LAST_MS, 0, 1⟩,
  ⟨Z.TIME_EVSTAT.PEND, 0, 1⟩,
  ⟨Z.TIME_EVEN.EN, 0, 1⟩,
  ⟨Z.RING_CFG.NODE_ID, 0, 1⟩,
  ⟨Z.RING_CFG.ROLE, 0, 1⟩,
  ⟨Z.RING_CFG.EN, 0, 1⟩,
  ⟨Z.RING_CFG.STOP_RETAIN, 0, 1⟩,
  ⟨Z.RING_CFG.RING_KEY, 0, 1⟩,
  ⟨Z.RING_LEASE.L_MS, 0, 1⟩,
  ⟨Z.RING_LEASE.NEXT_TAIL, 0, 1⟩,
  ⟨Z.RING_LEASE.NEXT_TAIL_EN, 0, 1⟩,
  ⟨Z.RING_SYNC.PERIOD_US, 0, 1⟩,
  ⟨Z.RING_SYNC.LOSS, 0, 1⟩,
  ⟨Z.RING_STAT.HS_ID, 0, 1⟩,
  ⟨Z.RING_STAT.HS_VALID, 0, 1⟩,
  ⟨Z.RING_STAT.IN_MAP, 0, 1⟩,
  ⟨Z.RING_STAT.TS_ID, 0, 1⟩,
  ⟨Z.RING_STAT.TS_VALID, 0, 1⟩,
  ⟨Z.RING_STAT.MIRROR_VALID, 0, 1⟩,
  ⟨Z.RING_STAT.ROLE_NOW, 0, 1⟩,
  ⟨Z.RING_STAT.WRAP_E, 0, 1⟩,
  ⟨Z.RING_STAT.WRAP_W, 0, 1⟩,
  ⟨Z.RING_STAT.REFUSED, 0, 1⟩]
def Z.rows4 : List Row := [
  ⟨Z.RING_LSEQ.LSEQ, 0, 1⟩,
  ⟨Z.RING_MAP.MASK, 0, 1⟩,
  ⟨Z.RING_RUN.RUN_NUM, 0, 1⟩,
  ⟨Z.RING_RUN.ACTIVE, 0, 1⟩,
  ⟨Z.RING_DLY_E.DELAY, 0, 1⟩,
  ⟨Z.RING_DLY_E.VALID, 0, 1⟩,
  ⟨Z.RING_ASYM_E.TX, 0, 1⟩,
  ⟨Z.RING_ASYM_E.RX, 0, 1⟩,
  ⟨Z.RING_ECHO.AVG_LOG2, 0, 1⟩,
  ⟨Z.RING_ECHO.PERIOD, 0, 1⟩,
  ⟨Z.RING_PRIM.PORT_EVT, 0, 1⟩,
  ⟨Z.RING_MSG.STRIPPED, 0, 1⟩,
  ⟨Z.RING_MSG.BADCRC, 0, 1⟩,
  ⟨Z.RING_GATED.COUNT, 0, 1⟩,
  ⟨Z.RING_GATEk.START_LO, 0x10, 8⟩,
  ⟨Z.RING_GATEk_1.START_HI, 0x10, 8⟩,
  ⟨Z.RING_GATEk_1.EN, 0x10, 8⟩,
  ⟨Z.RING_GATEk_1.CLASS0, 0x10, 8⟩,
  ⟨Z.RING_GATEk_1.CLASS1, 0x10, 8⟩,
  ⟨Z.RING_GATEk_2.END_LO, 0x10, 8⟩,
  ⟨Z.RING_GATEk_3.END_HI, 0x10, 8⟩,
  ⟨Z.RING_EVSTAT.PEND, 0, 1⟩,
  ⟨Z.RING_EVEN.EN, 0, 1⟩,
  ⟨Z.CLK_SRC.SEL, 0, 1⟩,
  ⟨Z.CLK_SRC.XTAL_QUAL, 0, 1⟩,
  ⟨Z.CLK_SRC.RW_QUAL, 0, 1⟩,
  ⟨Z.CLK_SRC.RE_QUAL, 0, 1⟩,
  ⟨Z.CLK_SRC.SAFE, 0, 1⟩,
  ⟨Z.CLK_SRC.FORCED, 0, 1⟩,
  ⟨Z.CLK_SRC.XTAL_MS, 0, 1⟩,
  ⟨Z.CLK_MON.TRIP, 0, 1⟩,
  ⟨Z.CLK_GATE.PORT, 0, 1⟩,
  ⟨Z.CLK_GATE.STACK, 0, 1⟩,
  ⟨Z.CLK_GATE.RING, 0, 1⟩,
  ⟨Z.CLK_GATE.MON, 0, 1⟩,
  ⟨Z.PWR_FEED.A_OK, 0, 1⟩,
  ⟨Z.PWR_FEED.B_OK, 0, 1⟩,
  ⟨Z.PWR_FEED.A_V, 0, 1⟩,
  ⟨Z.PWR_FEED.B_V, 0, 1⟩,
  ⟨Z.PWR_FEED.SWITCHES, 0, 1⟩]
def Z.rows5 : List Row := [
  ⟨Z.PWR_RAIL.WARN, 0, 1⟩,
  ⟨Z.PWR_RAIL.DIPPED, 0, 1⟩,
  ⟨Z.PWR_WARN.RAIL, 0, 1⟩,
  ⟨Z.PWR_WARN.DUR_US, 0, 1⟩,
  ⟨Z.PWR_WARN.MIN, 0, 1⟩,
  ⟨Z.PWR_DVFS.PG_FAIL, 0, 1⟩,
  ⟨Z.PWR_RSTCAUSE.CAUSE, 0, 1⟩,
  ⟨Z.PWR_RSTCAUSE.RAIL, 0, 1⟩,
  ⟨Z.SAFE_STAT.COUNT, 0, 1⟩,
  ⟨Z.SAFE_STAT.LAST_US, 0, 1⟩,
  ⟨Z.PWR_EVSTAT.PEND, 0, 1⟩,
  ⟨Z.PWR_EVEN.EN, 0, 1⟩,
  ⟨Z.MON_CTL.SCAN_EN, 0, 1⟩,
  ⟨Z.MON_CTL.REFBUF_EN, 0, 1⟩,
  ⟨Z.MON_CTL.REF_READY, 0, 1⟩,
  ⟨Z.MON_CTL.CAL, 0, 1⟩,
  ⟨Z.MON_CTL.CAL_BUSY, 0, 1⟩,
  ⟨Z.MON_CTL.CAL_WAIT, 0, 1⟩,
  ⟨Z.MON_CTL.CAL_DONE, 0, 1⟩,
  ⟨Z.MON_CTL.CAL_FAIL, 0, 1⟩,
  ⟨Z.MON_CTL.DMA_EN, 0, 1⟩,
  ⟨Z.MON_CTL.REFUSED, 0, 1⟩,
  ⟨Z.MON_FILT.F_EXC, 0, 1⟩,
  ⟨Z.MON_FILT.RATE, 0, 1⟩,
  ⟨Z.MON_FILT.NOTCH, 0, 1⟩,
  ⟨Z.MON_FILT.DWELL_N, 0, 1⟩,
  ⟨Z.MON_SCAN.INDEX, 0, 1⟩,
  ⟨Z.MON_SCAN.PAUSED, 0, 1⟩,
  ⟨Z.MON_SCAN.PASSES, 0, 1⟩,
  ⟨Z.MON_PASS.LAST_MS, 0, 1⟩,
  ⟨Z.MON_PASS.NOM_MS, 0, 1⟩,
  ⟨Z.MON_CALk.GAIN, 0x4, 4⟩,
  ⟨Z.MON_CALk.OFFSET, 0x4, 4⟩,
  ⟨Z.MON_DMA_CNT.COUNT, 0, 1⟩,
  ⟨Z.MON_DMA_T0k.VALUE, 0x4, 3⟩,
  ⟨Z.MON_INJ.SEL, 0, 1⟩,
  ⟨Z.MON_INJ.GO, 0, 1⟩,
  ⟨Z.MON_INJ.BUSY, 0, 1⟩,
  ⟨Z.MON_INJ.PERIOD_MS, 0, 1⟩,
  ⟨Z.MON_INJDk.CODE, 0x4, 8⟩]
def Z.rows6 : List Row := [
  ⟨Z.MON_INJDk.OVR, 0x4, 8⟩,
  ⟨Z.MON_INJDk.VALID, 0x4, 8⟩,
  ⟨Z.MON_INJDk.SUPPLY, 0x4, 8⟩,
  ⟨Z.MON_EVSTAT.PEND, 0, 1⟩,
  ⟨Z.MON_EVEN.EN, 0, 1⟩,
  ⟨Z.MON_ILSUM.FAULT, 0, 1⟩,
  ⟨Z.MON_ILSUM.HOLD, 0, 1⟩,
  ⟨Z.MON_CHCFGc.MODE, 0x4, 32⟩,
  ⟨Z.MON_CHCFGc.AUTO, 0x4, 32⟩,
  ⟨Z.MON_CHCFGc.RANGE, 0x4, 32⟩,
  ⟨Z.MON_CHCFGc.VAMP, 0x4, 32⟩,
  ⟨Z.MON_DATAc.VALUE, 0x4, 32⟩,
  ⟨Z.MON_DATAc.OVR, 0x4, 32⟩,
  ⟨Z.MON_DATAc.SETTLE, 0x4, 32⟩,
  ⟨Z.MON_DATAc.RANGE, 0x4, 32⟩,
  ⟨Z.MON_DATAc.BROKEN, 0x4, 32⟩,
  ⟨Z.MON_DATAc.SUPPLY, 0x4, 32⟩,
  ⟨Z.MON_DATAc.RNG, 0x4, 32⟩,
  ⟨Z.MON_DATAc.LIMIT, 0x4, 32⟩,
  ⟨Z.EVT_CFG.MIN_SEV, 0, 1⟩,
  ⟨Z.EVT_STAT.QOCC, 0, 1⟩,
  ⟨Z.EVT_STAT.FILTERED, 0, 1⟩,
  ⟨Z.TRUE_STAT.PENDING, 0, 1⟩,
  ⟨Z.TRUE_STAT.BUILDING, 0, 1⟩,
  ⟨Z.TRUE_STAT.STAGING, 0, 1⟩,
  ⟨Z.TRUE_TICK.TICK, 0, 1⟩,
  ⟨Z.TRUE_SEQ.SEQ, 0, 1⟩,
  ⟨Z.TEL_CFG.EN, 0, 1⟩,
  ⟨Z.TEL_CFG.LOG2N, 0, 1⟩,
  ⟨Z.TEL_CFG.PERIOD_MS, 0, 1⟩,
  ⟨Z.TEL_BASE.BASE, 0, 1⟩,
  ⟨Z.TEL_IDX.COUNT, 0, 1⟩,
  ⟨Z.TEL_SKIP.COUNT, 0, 1⟩,
  ⟨Z.CSCRUB_CFG.PORTS, 0, 1⟩,
  ⟨Z.CSCRUB_LAPp.LAP_MS, 0x4, 16⟩,
  ⟨Z.CSCRUB_LAPp.REWRITES, 0x4, 16⟩,
  ⟨Z.BG_LAG.LAG, 0, 1⟩,
  ⟨Z.EVT_MAPk.VECTOR0, 0x4, 136⟩,
  ⟨Z.EVT_MAPk.DIRECT0, 0x4, 136⟩,
  ⟨Z.EVT_MAPk.VECTOR1, 0x4, 136⟩]
def Z.rows7 : List Row := [
  ⟨Z.EVT_MAPk.DIRECT1, 0x4, 136⟩,
  ⟨Z.EVT_MAPk.VECTOR2, 0x4, 136⟩,
  ⟨Z.EVT_MAPk.DIRECT2, 0x4, 136⟩,
  ⟨Z.EVT_MAPk.VECTOR3, 0x4, 136⟩,
  ⟨Z.EVT_MAPk.DIRECT3, 0x4, 136⟩,
  ⟨Z.CHIP_ID.PART, 0, 1⟩,
  ⟨Z.CHIP_ID.STEPPING, 0, 1⟩,
  ⟨Z.BOOT_STAT.STAGE, 0, 1⟩,
  ⟨Z.BOOT_STAT.WARM, 0, 1⟩,
  ⟨Z.BOOT_STAT.KEPT, 0, 1⟩,
  ⟨Z.BOOT_STAT.STACKS, 0, 1⟩,
  ⟨Z.BOOT_STAT.READY_MS, 0, 1⟩,
  ⟨Z.BOOT_FAIL.PORT, 0, 1⟩,
  ⟨Z.BOOT_FAIL.SHM, 0, 1⟩,
  ⟨Z.BOOT_FAIL.CORE, 0, 1⟩,
  ⟨Z.BOOT_ENGk.FAILED, 0x4, 3⟩,
  ⟨Z.BOOT_CFG.DRAM_TEST, 0, 1⟩,
  ⟨Z.BOOT_CFG.KEEP, 0, 1⟩,
  ⟨Z.RST_CTL.WARM, 0, 1⟩,
  ⟨Z.RST_CTL.KEY, 0, 1⟩,
  ⟨Z.BOOT_CTL.RETRY, 0, 1⟩,
  ⟨Z.BOOT_CTL.RETRYING, 0, 1⟩,
  ⟨Z.BOOT_CTL.RETRY_FAIL, 0, 1⟩,
  ⟨Z.RING_DLY_W.DELAY, 0, 1⟩,
  ⟨Z.RING_DLY_W.VALID, 0, 1⟩,
  ⟨Z.RING_ASYM_W.TX, 0, 1⟩,
  ⟨Z.RING_ASYM_W.RX, 0, 1⟩]

/-- Every field of the unstrided Zwiuc registers. -/
def Z.rows : List Row := Z.rows0 ++ Z.rows1 ++ Z.rows2 ++ Z.rows3 ++ Z.rows4 ++ Z.rows5 ++ Z.rows6 ++ Z.rows7

def ZP.LCTL.LANE_EN : Field := ⟨0x100, 0, 8, .rw, 255⟩
def ZP.LCTL.UL_SLEEP : Field := ⟨0x100, 8, 1, .rw, 0⟩
def ZP.LCTL.DL_QUIET : Field := ⟨0x100, 9, 1, .rw, 0⟩
def ZP.LCTL.LOOP : Field := ⟨0x100, 10, 2, .rw, 0⟩
def ZP.LCTL.LOOP_LANE : Field := ⟨0x100, 12, 3, .rw, 0⟩
def ZP.LCTL.ERR_LIMIT : Field := ⟨0x100, 16, 6, .rw, 16⟩
def ZP.LCTL.RETRAIN : Field := ⟨0x100, 24, 8, .wo, 0⟩
def ZP.LSTATm.STATE : Field := ⟨0x104, 0, 3, .ro, 0⟩
def ZP.LSTATm.MARGINAL : Field := ⟨0x104, 3, 1, .ro, 0⟩
def ZP.LSTATm.LOOPED : Field := ⟨0x104, 4, 1, .ro, 0⟩
def ZP.LSTATm.PRESET : Field := ⟨0x104, 5, 3, .ro, 0⟩
def ZP.LSTATm.SKEW : Field := ⟨0x104, 8, 8, .ro, 0⟩
def ZP.LSTATm.CRC_ERR : Field := ⟨0x104, 16, 16, .rc, 0⟩
def ZP.DLSTAT.STATE : Field := ⟨0x124, 0, 3, .ro, 0⟩
def ZP.DLSTAT.QUIET : Field := ⟨0x124, 3, 1, .ro, 0⟩
def ZP.DLSTAT.CAP_REFUSED : Field := ⟨0x124, 4, 1, .w1c, 0⟩
def ZP.DLSTAT.SLEEP_REFUSED : Field := ⟨0x124, 5, 1, .w1c, 0⟩
def ZP.DLSTAT.RETRAIN : Field := ⟨0x124, 6, 1, .wo, 0⟩
def ZP.DLSTAT.FAR_STEPPING : Field := ⟨0x124, 8, 16, .ro, 0⟩
def ZP.DLSTAT.FAR_PROTO : Field := ⟨0x124, 24, 8, .ro, 0⟩
def ZP.PRBS.PATTERN : Field := ⟨0x128, 0, 2, .rw, 3⟩
def ZP.PRBS.BLOCK : Field := ⟨0x128, 2, 1, .rw, 0⟩
def ZP.PRBS.GEN_EN : Field := ⟨0x128, 3, 1, .rw, 0⟩
def ZP.PRBS.CHK_EN : Field := ⟨0x128, 4, 8, .rw, 0⟩
def ZP.PRBS.CLEAR : Field := ⟨0x128, 12, 1, .wo, 0⟩
def ZP.PRBS.LOCKED : Field := ⟨0x128, 13, 8, .ro, 0⟩
def ZP.PRBS.SEL : Field := ⟨0x128, 21, 3, .rw, 0⟩
def ZP.PRBS_ERR.ERRORS : Field := ⟨0x12C, 0, 32, .ro, 0⟩
def ZP.PRBS_BITS.BITS : Field := ⟨0x130, 0, 64, .ro, 0⟩
def ZP.EYE.WIDTH : Field := ⟨0x138, 0, 6, .ro, 0⟩
def ZP.EYE.HEIGHT : Field := ⟨0x138, 6, 8, .ro, 0⟩
def ZP.EYE.LANE : Field := ⟨0x138, 14, 3, .ro, 0⟩
def ZP.EYE.VALID : Field := ⟨0x138, 17, 1, .ro, 0⟩
def ZP.EYE.BELOW_MIN : Field := ⟨0x138, 18, 1, .ro, 0⟩
def ZP.EYE.LAP : Field := ⟨0x138, 19, 13, .ro, 0⟩
def ZP.CTL.MERGE_EN : Field := ⟨0x0, 0, 1, .rw, 0⟩
def ZP.CTL.PRIM_FWD : Field := ⟨0x0, 1, 1, .rw, 0⟩
def ZP.CTL.RESYNC : Field := ⟨0x0, 2, 1, .wo, 0⟩
def ZP.STAT.STATE : Field := ⟨0x4, 0, 3, .ro, 0⟩
def ZP.STAT.LINK : Field := ⟨0x4, 3, 1, .ro, 0⟩
def ZP.STAT.LANE_MASK : Field := ⟨0x4, 4, 8, .ro, 0⟩
def ZP.STAT.MARK_PEND : Field := ⟨0x4, 12, 1, .ro, 0⟩
def ZP.LASTF.FRAME : Field := ⟨0x8, 0, 40, .ro, 0⟩
def ZP.QSTAT.OCC : Field := ⟨0x10, 0, 15, .ro, 0⟩
def ZP.QSTAT.SIDE : Field := ⟨0x10, 16, 13, .ro, 0⟩
def ZP.REASM.MISSING : Field := ⟨0x14, 0, 16, .rc, 0⟩
def ZP.REASM.RESYNC : Field := ⟨0x14, 16, 8, .rc, 0⟩
def ZP.REASM.STALE : Field := ⟨0x14, 24, 8, .rc, 0⟩
def ZP.BYTES.BYTES : Field := ⟨0x18, 0, 64, .ro, 0⟩
def ZP.FRAMES.COUNT : Field := ⟨0x20, 0, 32, .rc, 0⟩
def ZP.ABSENT.COUNT : Field := ⟨0x24, 0, 32, .rc, 0⟩
def ZP.LATE.HITS : Field := ⟨0x28, 0, 24, .rc, 0⟩
def ZP.LATE.FRAMES : Field := ⟨0x28, 24, 8, .rc, 0⟩
def ZP.ERR.RECORD : Field := ⟨0x2C, 0, 16, .rc, 0⟩
def ZP.ERR.FRAME : Field := ⟨0x2C, 16, 16, .rc, 0⟩
def ZP.QDROP.HITS : Field := ⟨0x30, 0, 24, .rc, 0⟩
def ZP.QDROP.QRESET : Field := ⟨0x30, 24, 8, .rc, 0⟩
def ZP.FESHAVE.HITS : Field := ⟨0x34, 0, 28, .rc, 0⟩
def ZP.FESHAVE.UNKNOWN : Field := ⟨0x34, 28, 4, .rc, 0⟩
def ZP.FEHDR.CHIP_STATUS : Field := ⟨0x38, 0, 16, .ro, 0⟩
def ZP.FEHDR.LANE_MASK : Field := ⟨0x38, 16, 8, .ro, 0⟩
def ZP.FESTATk.HW_LO : Field := ⟨0x3C, 0, 16, .ro, 0⟩
def ZP.FESTATk.HW_HI : Field := ⟨0x3C, 16, 16, .ro, 0⟩
def ZP.EVSTAT.PEND : Field := ⟨0x4C, 0, 20, .w1c, 0⟩
def ZP.EVEN.EN : Field := ⟨0x50, 0, 20, .rw, 0xFFFFF⟩
def ZP.ECHO_CTL.EN : Field := ⟨0x180, 0, 1, .rw, 1⟩
def ZP.ECHO_CTL.AVG_LOG2 : Field := ⟨0x180, 4, 4, .rw, 4⟩
def ZP.ECHO_CTL.PERIOD : Field := ⟨0x180, 8, 8, .rw, 10⟩
def ZP.ECHO_ASYM.ASYM : Field := ⟨0x184, 0, 24, .rw, 0⟩
def ZP.OFFSET.OFFSET : Field := ⟨0x188, 0, 32, .ro, 0⟩
def ZP.ECHO_STAT.RTT : Field := ⟨0x18C, 0, 24, .ro, 0⟩
def ZP.ECHO_STAT.VALID : Field := ⟨0x18C, 24, 1, .ro, 0⟩
def ZP.ECHO_STAT.LOADED : Field := ⟨0x18C, 25, 1, .ro, 0⟩
def ZP.ECHO_STAT.SLIP : Field := ⟨0x18C, 26, 1, .w1c, 0⟩

def ZP.rows0 : List Row := [
  ⟨ZP.LCTL.LANE_EN, 0, 1⟩,
  ⟨ZP.LCTL.UL_SLEEP, 0, 1⟩,
  ⟨ZP.LCTL.DL_QUIET, 0, 1⟩,
  ⟨ZP.LCTL.LOOP, 0, 1⟩,
  ⟨ZP.LCTL.LOOP_LANE, 0, 1⟩,
  ⟨ZP.LCTL.ERR_LIMIT, 0, 1⟩,
  ⟨ZP.LCTL.RETRAIN, 0, 1⟩,
  ⟨ZP.LSTATm.STATE, 0x4, 8⟩,
  ⟨ZP.LSTATm.MARGINAL, 0x4, 8⟩,
  ⟨ZP.LSTATm.LOOPED, 0x4, 8⟩,
  ⟨ZP.LSTATm.PRESET, 0x4, 8⟩,
  ⟨ZP.LSTATm.SKEW, 0x4, 8⟩,
  ⟨ZP.LSTATm.CRC_ERR, 0x4, 8⟩,
  ⟨ZP.DLSTAT.STATE, 0, 1⟩,
  ⟨ZP.DLSTAT.QUIET, 0, 1⟩,
  ⟨ZP.DLSTAT.CAP_REFUSED, 0, 1⟩,
  ⟨ZP.DLSTAT.SLEEP_REFUSED, 0, 1⟩,
  ⟨ZP.DLSTAT.RETRAIN, 0, 1⟩,
  ⟨ZP.DLSTAT.FAR_STEPPING, 0, 1⟩,
  ⟨ZP.DLSTAT.FAR_PROTO, 0, 1⟩,
  ⟨ZP.PRBS.PATTERN, 0, 1⟩,
  ⟨ZP.PRBS.BLOCK, 0, 1⟩,
  ⟨ZP.PRBS.GEN_EN, 0, 1⟩,
  ⟨ZP.PRBS.CHK_EN, 0, 1⟩,
  ⟨ZP.PRBS.CLEAR, 0, 1⟩,
  ⟨ZP.PRBS.LOCKED, 0, 1⟩,
  ⟨ZP.PRBS.SEL, 0, 1⟩,
  ⟨ZP.PRBS_ERR.ERRORS, 0, 1⟩,
  ⟨ZP.PRBS_BITS.BITS, 0, 1⟩,
  ⟨ZP.EYE.WIDTH, 0, 1⟩,
  ⟨ZP.EYE.HEIGHT, 0, 1⟩,
  ⟨ZP.EYE.LANE, 0, 1⟩,
  ⟨ZP.EYE.VALID, 0, 1⟩,
  ⟨ZP.EYE.BELOW_MIN, 0, 1⟩,
  ⟨ZP.EYE.LAP, 0, 1⟩,
  ⟨ZP.CTL.MERGE_EN, 0, 1⟩,
  ⟨ZP.CTL.PRIM_FWD, 0, 1⟩,
  ⟨ZP.CTL.RESYNC, 0, 1⟩,
  ⟨ZP.STAT.STATE, 0, 1⟩,
  ⟨ZP.STAT.LINK, 0, 1⟩]
def ZP.rows1 : List Row := [
  ⟨ZP.STAT.LANE_MASK, 0, 1⟩,
  ⟨ZP.STAT.MARK_PEND, 0, 1⟩,
  ⟨ZP.LASTF.FRAME, 0, 1⟩,
  ⟨ZP.QSTAT.OCC, 0, 1⟩,
  ⟨ZP.QSTAT.SIDE, 0, 1⟩,
  ⟨ZP.REASM.MISSING, 0, 1⟩,
  ⟨ZP.REASM.RESYNC, 0, 1⟩,
  ⟨ZP.REASM.STALE, 0, 1⟩,
  ⟨ZP.BYTES.BYTES, 0, 1⟩,
  ⟨ZP.FRAMES.COUNT, 0, 1⟩,
  ⟨ZP.ABSENT.COUNT, 0, 1⟩,
  ⟨ZP.LATE.HITS, 0, 1⟩,
  ⟨ZP.LATE.FRAMES, 0, 1⟩,
  ⟨ZP.ERR.RECORD, 0, 1⟩,
  ⟨ZP.ERR.FRAME, 0, 1⟩,
  ⟨ZP.QDROP.HITS, 0, 1⟩,
  ⟨ZP.QDROP.QRESET, 0, 1⟩,
  ⟨ZP.FESHAVE.HITS, 0, 1⟩,
  ⟨ZP.FESHAVE.UNKNOWN, 0, 1⟩,
  ⟨ZP.FEHDR.CHIP_STATUS, 0, 1⟩,
  ⟨ZP.FEHDR.LANE_MASK, 0, 1⟩,
  ⟨ZP.FESTATk.HW_LO, 0x4, 4⟩,
  ⟨ZP.FESTATk.HW_HI, 0x4, 4⟩,
  ⟨ZP.EVSTAT.PEND, 0, 1⟩,
  ⟨ZP.EVEN.EN, 0, 1⟩,
  ⟨ZP.ECHO_CTL.EN, 0, 1⟩,
  ⟨ZP.ECHO_CTL.AVG_LOG2, 0, 1⟩,
  ⟨ZP.ECHO_CTL.PERIOD, 0, 1⟩,
  ⟨ZP.ECHO_ASYM.ASYM, 0, 1⟩,
  ⟨ZP.OFFSET.OFFSET, 0, 1⟩,
  ⟨ZP.ECHO_STAT.RTT, 0, 1⟩,
  ⟨ZP.ECHO_STAT.VALID, 0, 1⟩,
  ⟨ZP.ECHO_STAT.LOADED, 0, 1⟩,
  ⟨ZP.ECHO_STAT.SLIP, 0, 1⟩]

/-- Every field of the Z_PORTn registers. -/
def ZP.rows : List Row := ZP.rows0 ++ ZP.rows1

def ZS.CTL.SERVICE : Field := ⟨0x0, 0, 1, .ro, 0⟩
def ZS.CTL.TRAIN_BOTH : Field := ⟨0x0, 1, 1, .rw, 1⟩
def ZS.CTL.RETRAIN_EN : Field := ⟨0x0, 2, 1, .rw, 1⟩
def ZS.CTL.OUT : Field := ⟨0x0, 3, 1, .wo, 0⟩
def ZS.DPT.TARGET : Field := ⟨0x4, 0, 1, .rw, 0⟩
def ZS.DPT.POINT : Field := ⟨0x4, 1, 1, .ro, 0⟩
def ZS.DPT.DEFERRED : Field := ⟨0x4, 2, 1, .w1c, 0⟩
def ZS.DPT.EMERG : Field := ⟨0x4, 3, 1, .ro, 0⟩
def ZS.DPT.SWITCHING : Field := ⟨0x4, 4, 1, .ro, 0⟩
def ZS.DPT.TEMP : Field := ⟨0x4, 8, 8, .ro, 0⟩
def ZS.DPT.T_EMERG : Field := ⟨0x4, 16, 8, .rw, 95⟩
def ZS.DPT.T_CLEAR : Field := ⟨0x4, 24, 8, .rw, 88⟩
def ZS.CHSTATc.STATE : Field := ⟨0x8, 0, 3, .ro, 0⟩
def ZS.CHSTATc.MARGINAL : Field := ⟨0x8, 3, 1, .ro, 0⟩
def ZS.CHSTATc.SET_32 : Field := ⟨0x8, 4, 1, .ro, 0⟩
def ZS.CHSTATc.SET_16 : Field := ⟨0x8, 5, 1, .ro, 0⟩
def ZS.CHSTATc.SLICE : Field := ⟨0x8, 6, 1, .ro, 0⟩
def ZS.CHSTATc.AGE : Field := ⟨0x8, 8, 8, .ro, 0⟩
def ZS.CHSTATc.MARGIN_W : Field := ⟨0x8, 16, 8, .ro, 0⟩
def ZS.CHSTATc.MARGIN_H : Field := ⟨0x8, 24, 8, .ro, 0⟩
def ZS.TRAINc.DONE : Field := ⟨0x18, 0, 16, .rc, 0⟩
def ZS.TRAINc.NOSET : Field := ⟨0x18, 16, 8, .rc, 0⟩
def ZS.TRAINc.ABORTED : Field := ⟨0x18, 24, 8, .rc, 0⟩
def ZS.REFR.HOT : Field := ⟨0x28, 0, 1, .ro, 0⟩
def ZS.WBYTES.BYTES : Field := ⟨0x2C, 0, 64, .ro, 0⟩
def ZS.RBYTES.BYTES : Field := ⟨0x34, 0, 64, .ro, 0⟩
def ZS.BILLETS.ROT : Field := ⟨0x3C, 0, 18, .ro, 0⟩
def ZS.ICTL.HARD_LIMIT : Field := ⟨0x100, 0, 8, .rw, 16⟩
def ZS.ICTL.SPARE : Field := ⟨0x100, 8, 2, .ro, 0⟩
def ZS.ICTL.SPARE_RANK : Field := ⟨0x100, 10, 3, .ro, 0⟩
def ZS.ICTL.RANK_SEL : Field := ⟨0x100, 16, 3, .rw, 0⟩
def ZS.ICTL.RETIRE : Field := ⟨0x100, 19, 1, .wo, 0⟩
def ZS.MIG.PAGES : Field := ⟨0x104, 0, 21, .ro, 0⟩
def ZS.MIG.RANK : Field := ⟨0x104, 21, 3, .ro, 0⟩
def ZS.MIG.ACTIVE : Field := ⟨0x104, 24, 1, .ro, 0⟩
def ZS.ECNT.CE : Field := ⟨0x108, 0, 16, .rc, 0⟩
def ZS.ECNT.UE : Field := ⟨0x108, 16, 16, .rc, 0⟩
def ZS.HARD0.COUNT : Field := ⟨0x10C, 0, 32, .ro, 0⟩
def ZS.HARD1.COUNT : Field := ⟨0x110, 0, 32, .ro, 0⟩
def ZS.FRZ.FROZEN : Field := ⟨0x114, 0, 4, .ro, 0⟩
def ZS.FRZ.SEL : Field := ⟨0x114, 4, 2, .rw, 0⟩
def ZS.FRZ.IDX : Field := ⟨0x114, 6, 6, .rw, 0⟩
def ZS.FRZ.RELEASE : Field := ⟨0x114, 12, 1, .wo, 0⟩
def ZS.FRZ.CAUSE : Field := ⟨0x114, 13, 3, .ro, 0⟩
def ZS.FRZ_ADDR.L : Field := ⟨0x118, 0, 32, .ro, 0⟩
def ZS.FRZ_DATA.DATA : Field := ⟨0x11C, 0, 32, .ro, 0⟩
def ZS.EVSTAT.PEND : Field := ⟨0x40, 0, 12, .w1c, 0⟩
def ZS.EVEN.EN : Field := ⟨0x44, 0, 12, .rw, 4095⟩

def ZS.rows0 : List Row := [
  ⟨ZS.CTL.SERVICE, 0, 1⟩,
  ⟨ZS.CTL.TRAIN_BOTH, 0, 1⟩,
  ⟨ZS.CTL.RETRAIN_EN, 0, 1⟩,
  ⟨ZS.CTL.OUT, 0, 1⟩,
  ⟨ZS.DPT.TARGET, 0, 1⟩,
  ⟨ZS.DPT.POINT, 0, 1⟩,
  ⟨ZS.DPT.DEFERRED, 0, 1⟩,
  ⟨ZS.DPT.EMERG, 0, 1⟩,
  ⟨ZS.DPT.SWITCHING, 0, 1⟩,
  ⟨ZS.DPT.TEMP, 0, 1⟩,
  ⟨ZS.DPT.T_EMERG, 0, 1⟩,
  ⟨ZS.DPT.T_CLEAR, 0, 1⟩,
  ⟨ZS.CHSTATc.STATE, 0x4, 4⟩,
  ⟨ZS.CHSTATc.MARGINAL, 0x4, 4⟩,
  ⟨ZS.CHSTATc.SET_32, 0x4, 4⟩,
  ⟨ZS.CHSTATc.SET_16, 0x4, 4⟩,
  ⟨ZS.CHSTATc.SLICE, 0x4, 4⟩,
  ⟨ZS.CHSTATc.AGE, 0x4, 4⟩,
  ⟨ZS.CHSTATc.MARGIN_W, 0x4, 4⟩,
  ⟨ZS.CHSTATc.MARGIN_H, 0x4, 4⟩,
  ⟨ZS.TRAINc.DONE, 0x4, 4⟩,
  ⟨ZS.TRAINc.NOSET, 0x4, 4⟩,
  ⟨ZS.TRAINc.ABORTED, 0x4, 4⟩,
  ⟨ZS.REFR.HOT, 0, 1⟩,
  ⟨ZS.WBYTES.BYTES, 0, 1⟩,
  ⟨ZS.RBYTES.BYTES, 0, 1⟩,
  ⟨ZS.BILLETS.ROT, 0, 1⟩,
  ⟨ZS.ICTL.HARD_LIMIT, 0, 1⟩,
  ⟨ZS.ICTL.SPARE, 0, 1⟩,
  ⟨ZS.ICTL.SPARE_RANK, 0, 1⟩,
  ⟨ZS.ICTL.RANK_SEL, 0, 1⟩,
  ⟨ZS.ICTL.RETIRE, 0, 1⟩,
  ⟨ZS.MIG.PAGES, 0, 1⟩,
  ⟨ZS.MIG.RANK, 0, 1⟩,
  ⟨ZS.MIG.ACTIVE, 0, 1⟩,
  ⟨ZS.ECNT.CE, 0, 1⟩,
  ⟨ZS.ECNT.UE, 0, 1⟩,
  ⟨ZS.HARD0.COUNT, 0, 1⟩,
  ⟨ZS.HARD1.COUNT, 0, 1⟩,
  ⟨ZS.FRZ.FROZEN, 0, 1⟩]
def ZS.rows1 : List Row := [
  ⟨ZS.FRZ.SEL, 0, 1⟩,
  ⟨ZS.FRZ.IDX, 0, 1⟩,
  ⟨ZS.FRZ.RELEASE, 0, 1⟩,
  ⟨ZS.FRZ.CAUSE, 0, 1⟩,
  ⟨ZS.FRZ_ADDR.L, 0, 1⟩,
  ⟨ZS.FRZ_DATA.DATA, 0, 1⟩,
  ⟨ZS.EVSTAT.PEND, 0, 1⟩,
  ⟨ZS.EVEN.EN, 0, 1⟩]

/-- Every field of the Z_STACKn registers. -/
def ZS.rows : List Row := ZS.rows0 ++ ZS.rows1

def ZC.CTL.EN : Field := ⟨0x0, 0, 1, .rw, 1⟩
def ZC.DVFS.TARGET : Field := ⟨0x4, 0, 2, .rw, 3⟩
def ZC.DVFS.LEVEL : Field := ⟨0x4, 2, 2, .ro, 0⟩
def ZC.DVFS.CAPPED : Field := ⟨0x4, 4, 1, .ro, 0⟩
def ZC.DVFS.SWITCHING : Field := ⟨0x4, 5, 1, .ro, 0⟩
def ZC.STATEk.STATE : Field := ⟨0x8, 0, 32, .ro, 0x11111111⟩
def ZC.RUN.MASK : Field := ⟨0x14, 0, 24, .ro, 0⟩
def ZC.FAULTED.MASK : Field := ⟨0x18, 0, 24, .ro, 0⟩
def ZC.SHM_ECC.CE : Field := ⟨0x1C, 0, 16, .rc, 0⟩
def ZC.SHM_ECC.UE : Field := ⟨0x1C, 16, 16, .rc, 0⟩
def ZC.SHM_CONFL.CYCLES : Field := ⟨0x20, 0, 32, .rc, 0⟩
def ZC.FEED.HALFWORDS : Field := ⟨0x24, 0, 64, .ro, 0⟩
def ZC.EVSTAT.PEND : Field := ⟨0x2C, 0, 24, .w1c, 0⟩
def ZC.EVEN.EN : Field := ⟨0x30, 0, 24, .rw, 0xFFFFFF⟩
def ZC.CYCLES.COUNT : Field := ⟨0x34, 0, 64, .ro, 0⟩

def ZC.rows0 : List Row := [
  ⟨ZC.CTL.EN, 0, 1⟩,
  ⟨ZC.DVFS.TARGET, 0, 1⟩,
  ⟨ZC.DVFS.LEVEL, 0, 1⟩,
  ⟨ZC.DVFS.CAPPED, 0, 1⟩,
  ⟨ZC.DVFS.SWITCHING, 0, 1⟩,
  ⟨ZC.STATEk.STATE, 0x4, 3⟩,
  ⟨ZC.RUN.MASK, 0, 1⟩,
  ⟨ZC.FAULTED.MASK, 0, 1⟩,
  ⟨ZC.SHM_ECC.CE, 0, 1⟩,
  ⟨ZC.SHM_ECC.UE, 0, 1⟩,
  ⟨ZC.SHM_CONFL.CYCLES, 0, 1⟩,
  ⟨ZC.FEED.HALFWORDS, 0, 1⟩,
  ⟨ZC.EVSTAT.PEND, 0, 1⟩,
  ⟨ZC.EVEN.EN, 0, 1⟩,
  ⟨ZC.CYCLES.COUNT, 0, 1⟩]

/-- Every field of the Z_GCLn registers. -/
def ZC.rows : List Row := ZC.rows0

def ZE.CTL.OFF : Field := ⟨0x0, 0, 1, .rw, 0⟩
def ZE.CTL.DEST : Field := ⟨0x0, 1, 1, .rw, 0⟩
def ZE.CTL.REFUSED : Field := ⟨0x0, 2, 1, .w1c, 0⟩
def ZE.STAT.STATE : Field := ⟨0x4, 0, 3, .ro, 1⟩
def ZE.STAT.ROLE : Field := ⟨0x4, 3, 2, .ro, 0⟩
def ZE.STAT.PROG : Field := ⟨0x4, 5, 7, .ro, 0⟩
def ZE.STAT.FAULT : Field := ⟨0x4, 12, 3, .ro, 0⟩
def ZE.STAT.MSG_OPEN : Field := ⟨0x4, 15, 1, .ro, 0⟩
def ZE.FPC.PC : Field := ⟨0x8, 0, 15, .ro, 0⟩
def ZE.FINFO.INFO : Field := ⟨0xC, 0, 32, .ro, 0⟩
def ZE.FILT.PORTS : Field := ⟨0x10, 0, 16, .rw, 0xFFFF⟩
def ZE.FILT.KINDS : Field := ⟨0x10, 17, 7, .rw, 1⟩
def ZE.FILT.HEADS_ONLY : Field := ⟨0x10, 24, 1, .rw, 0⟩
def ZE.DIV.N : Field := ⟨0x14, 0, 8, .rw, 1⟩
def ZE.DIV.K : Field := ⟨0x14, 8, 8, .rw, 0⟩
def ZE.WD.LOG2 : Field := ⟨0x18, 0, 5, .rw, 24⟩
def ZE.OUTLIM.EXTRA : Field := ⟨0x1C, 0, 16, .rw, 256⟩
def ZE.MSGS.COUNT : Field := ⟨0x20, 0, 32, .rc, 0⟩
def ZE.INSTR.COUNT : Field := ⟨0x24, 0, 64, .ro, 0⟩
def ZE.FEED.DROPPED : Field := ⟨0x2C, 0, 16, .rc, 0⟩
def ZE.FEED.SKIPPED : Field := ⟨0x2C, 16, 16, .rc, 0⟩
def ZE.ECC.CE : Field := ⟨0x30, 0, 16, .rc, 0⟩
def ZE.ECC.UE : Field := ⟨0x30, 16, 16, .rc, 0⟩
def ZE.EVVAL.VALUE : Field := ⟨0x34, 0, 32, .ro, 0⟩
def ZE.SKIP.COUNT : Field := ⟨0x38, 0, 32, .rc, 0⟩

def ZE.rows0 : List Row := [
  ⟨ZE.CTL.OFF, 0, 1⟩,
  ⟨ZE.CTL.DEST, 0, 1⟩,
  ⟨ZE.CTL.REFUSED, 0, 1⟩,
  ⟨ZE.STAT.STATE, 0, 1⟩,
  ⟨ZE.STAT.ROLE, 0, 1⟩,
  ⟨ZE.STAT.PROG, 0, 1⟩,
  ⟨ZE.STAT.FAULT, 0, 1⟩,
  ⟨ZE.STAT.MSG_OPEN, 0, 1⟩,
  ⟨ZE.FPC.PC, 0, 1⟩,
  ⟨ZE.FINFO.INFO, 0, 1⟩,
  ⟨ZE.FILT.PORTS, 0, 1⟩,
  ⟨ZE.FILT.KINDS, 0, 1⟩,
  ⟨ZE.FILT.HEADS_ONLY, 0, 1⟩,
  ⟨ZE.DIV.N, 0, 1⟩,
  ⟨ZE.DIV.K, 0, 1⟩,
  ⟨ZE.WD.LOG2, 0, 1⟩,
  ⟨ZE.OUTLIM.EXTRA, 0, 1⟩,
  ⟨ZE.MSGS.COUNT, 0, 1⟩,
  ⟨ZE.INSTR.COUNT, 0, 1⟩,
  ⟨ZE.FEED.DROPPED, 0, 1⟩,
  ⟨ZE.FEED.SKIPPED, 0, 1⟩,
  ⟨ZE.ECC.CE, 0, 1⟩,
  ⟨ZE.ECC.UE, 0, 1⟩,
  ⟨ZE.EVVAL.VALUE, 0, 1⟩,
  ⟨ZE.SKIP.COUNT, 0, 1⟩]

/-- Every field of the Z_GENGn registers. -/
def ZE.rows : List Row := ZE.rows0

def ZR.BASE.BASE : Field := ⟨0x0, 12, 52, .rw, 0⟩
def ZR.CFG.LOG2SIZE : Field := ⟨0x8, 0, 5, .rw, 6⟩
def ZR.CFG.EN : Field := ⟨0x8, 8, 1, .rw, 0⟩
def ZR.CFG.ERR : Field := ⟨0x8, 9, 1, .ro, 0⟩
def ZR.CFG.REFUSED : Field := ⟨0x8, 10, 1, .w1c, 0⟩
def ZR.CFG.VECTOR : Field := ⟨0x8, 16, 6, .rw, 0⟩
def ZR.PIDX.INDEX : Field := ⟨0xC, 0, 32, .ro, 0⟩
def ZR.CIDX.INDEX : Field := ⟨0x10, 0, 32, .ro, 0⟩
def ZR.COAL.TIMEOUT_US : Field := ⟨0x14, 0, 16, .rw, 20⟩
def ZR.COAL.COUNT : Field := ⟨0x14, 16, 8, .rw, 16⟩

def ZR.rows0 : List Row := [
  ⟨ZR.BASE.BASE, 0, 1⟩,
  ⟨ZR.CFG.LOG2SIZE, 0, 1⟩,
  ⟨ZR.CFG.EN, 0, 1⟩,
  ⟨ZR.CFG.ERR, 0, 1⟩,
  ⟨ZR.CFG.REFUSED, 0, 1⟩,
  ⟨ZR.CFG.VECTOR, 0, 1⟩,
  ⟨ZR.PIDX.INDEX, 0, 1⟩,
  ⟨ZR.CIDX.INDEX, 0, 1⟩,
  ⟨ZR.COAL.TIMEOUT_US, 0, 1⟩,
  ⟨ZR.COAL.COUNT, 0, 1⟩]

/-- Every field of the Z_RINGr registers. -/
def ZR.rows : List Row := ZR.rows0

def ZI.LOW.LOW : Field := ⟨0x0, 0, 24, .rw, 0⟩
def ZI.HIGH.HIGH : Field := ⟨0x4, 0, 24, .rw, 0⟩
def ZI.PAIR.THR : Field := ⟨0x8, 0, 24, .rw, 2560⟩
def ZI.PAIR.N : Field := ⟨0x8, 24, 4, .rw, 4⟩
def ZI.PAIR.POLICY : Field := ⟨0x8, 28, 1, .rw, 0⟩
def ZI.PAIR.EN : Field := ⟨0x8, 29, 1, .rw, 0⟩
def ZI.STAT.CODE : Field := ⟨0xC, 0, 12, .ro, 3994⟩
def ZI.STAT.FAULT : Field := ⟨0xC, 12, 1, .ro, 1⟩
def ZI.STAT.HOLD : Field := ⟨0xC, 13, 1, .ro, 0⟩
def ZI.STAT.PAIR_FAULT : Field := ⟨0xC, 14, 1, .ro, 0⟩
def ZI.STAT.SINGLE : Field := ⟨0xC, 15, 1, .ro, 0⟩
def ZI.STAT.CAUSE : Field := ⟨0xC, 16, 3, .ro, 1⟩

def ZI.rows0 : List Row := [
  ⟨ZI.LOW.LOW, 0, 1⟩,
  ⟨ZI.HIGH.HIGH, 0, 1⟩,
  ⟨ZI.PAIR.THR, 0, 1⟩,
  ⟨ZI.PAIR.N, 0, 1⟩,
  ⟨ZI.PAIR.POLICY, 0, 1⟩,
  ⟨ZI.PAIR.EN, 0, 1⟩,
  ⟨ZI.STAT.CODE, 0, 1⟩,
  ⟨ZI.STAT.FAULT, 0, 1⟩,
  ⟨ZI.STAT.HOLD, 0, 1⟩,
  ⟨ZI.STAT.PAIR_FAULT, 0, 1⟩,
  ⟨ZI.STAT.SINGLE, 0, 1⟩,
  ⟨ZI.STAT.CAUSE, 0, 1⟩]

/-- Every field of the Z_MON_ILm registers. -/
def ZI.rows : List Row := ZI.rows0

def P.FE_CFG.FE_EN : Field := ⟨0x10, 0, 1, .sh, 0⟩
def P.FE_CFG.POL : Field := ⟨0x10, 1, 1, .sh, 0⟩
def P.FE_CFG.AMASK_EN : Field := ⟨0x10, 2, 1, .rw, 1⟩
def P.FE_CFG.LEAK_COMP : Field := ⟨0x10, 3, 1, .sh, 1⟩
def P.THR.THR : Field := ⟨0x11, 0, 10, .sh, 100⟩
def P.TRIM_CFG.STEP : Field := ⟨0x12, 0, 2, .sh, 3⟩
def P.IFB.IFB : Field := ⟨0x13, 0, 6, .sh, 32⟩
def P.PIXADDR.COL : Field := ⟨0x20, 0, 9, .rw, 0⟩
def P.PIXADDR.INC : Field := ⟨0x20, 9, 2, .rw, 0⟩
def P.PIXROW.ROW : Field := ⟨0x21, 0, 9, .rw, 0⟩
def P.PIXDATA.DATA : Field := ⟨0x22, 0, 16, .rw, 0⟩
def P.PIXSTAT.AUTOMASKED : Field := ⟨0x23, 0, 1, .ro, 0⟩
def P.PIXSTAT.DISC_HIGH : Field := ⟨0x23, 1, 1, .ro, 0⟩
def P.DCn_CFG.DC_MASK : Field := ⟨0x400, 0, 1, .rw, 0⟩
def P.DCn_CFG.DC_OFF : Field := ⟨0x400, 1, 1, .rw, 0⟩
def P.AMASK_CTRL.CLEAR_ALL : Field := ⟨0x18, 0, 1, .wo, 0⟩
def P.AMASK_COUNT.COUNT : Field := ⟨0x19, 0, 16, .ro, 0⟩
def P.INJ_CFG.PAT : Field := ⟨0x14, 0, 2, .rw, 0⟩
def P.INJ_CFG.PHASE_C : Field := ⟨0x14, 2, 3, .rw, 0⟩
def P.INJ_CFG.PHASE_R : Field := ⟨0x14, 5, 3, .rw, 0⟩
def P.INJ_CFG.RANGE : Field := ⟨0x14, 8, 1, .rw, 0⟩
def P.INJ_CFG.GO_LOST : Field := ⟨0x14, 12, 1, .w1c, 0⟩
def P.INJ_CFG.BUSY : Field := ⟨0x14, 13, 1, .ro, 0⟩
def P.INJ_CFG.STOP : Field := ⟨0x14, 14, 1, .wo, 0⟩
def P.INJ_CFG.GO : Field := ⟨0x14, 15, 1, .wo, 0⟩
def P.INJ_DAC.CODE : Field := ⟨0x15, 0, 12, .rw, 0⟩
def P.INJ_TIME.COARSE : Field := ⟨0x16, 0, 12, .rw, 0⟩
def P.INJ_CNT.COUNT : Field := ⟨0x17, 0, 16, .rw, 1⟩
def P.FOR_CFG.WIDTH : Field := ⟨0x1C, 0, 4, .rw, 0⟩
def P.FOR_CFG.SETTLE_BLANK : Field := ⟨0x1C, 4, 1, .rw, 0⟩
def P.FOR_CFG.CAL_BLANK : Field := ⟨0x1C, 5, 1, .rw, 1⟩
def P.FOR_EN.REG_EN : Field := ⟨0x1D, 0, 16, .rw, 0⟩
def P.DCn_DLL.LOCK : Field := ⟨0x401, 0, 1, .ro, 0⟩
def P.DCn_DLL.LOCK_LOST : Field := ⟨0x401, 1, 1, .w1c, 0⟩
def P.DCn_DLL.CTRL : Field := ⟨0x401, 2, 8, .ro, 128⟩
def P.DCn_PILEUP.COUNT : Field := ⟨0x402, 0, 16, .rc, 0⟩
def P.TDC_CFG.CAL_EN : Field := ⟨0x100, 0, 1, .rw, 1⟩
def P.TDC_CFG.CAL_RESET : Field := ⟨0x100, 1, 1, .wo, 0⟩
def P.TDC_CFG.FINE_EN : Field := ⟨0x100, 2, 1, .rw, 1⟩
def P.PLL_STAT.LOCK : Field := ⟨0x101, 0, 1, .ro, 0⟩
def P.PLL_STAT.LOCK_LOST : Field := ⟨0x101, 1, 1, .w1c, 0⟩
def P.CAL_STAT0.UNCONV : Field := ⟨0x102, 0, 16, .ro, 0xFFFF⟩
def P.CAL_STAT1.AT_LIMIT : Field := ⟨0x103, 0, 16, .ro, 0⟩
def P.CAL_STAT2.MAX_AGE : Field := ⟨0x104, 0, 8, .ro, 0⟩
def P.CAL_STAT2.LAG : Field := ⟨0x104, 8, 1, .w1c, 0⟩
def P.CAL_COLLIDE.COUNT : Field := ⟨0x105, 0, 16, .rc, 0⟩
def P.TDC_STAT.DLL_UNLOCKED : Field := ⟨0x106, 0, 9, .ro, 256⟩
def P.QTRIM_ADDR.DC : Field := ⟨0x108, 0, 8, .rw, 0⟩
def P.QTRIM_ADDR.QUAD : Field := ⟨0x108, 8, 8, .rw, 0⟩
def P.QTRIM_DATA.GAIN : Field := ⟨0x109, 0, 5, .ro, 16⟩
def P.QTRIM_DATA.OFFSET : Field := ⟨0x109, 5, 5, .ro, 16⟩
def P.QTRIM_DATA.CONV : Field := ⟨0x109, 10, 1, .ro, 0⟩
def P.QTRIM_DATA.LIMIT : Field := ⟨0x109, 11, 1, .ro, 0⟩
def P.CSU_CTRL.GO : Field := ⟨0x110, 0, 1, .wo, 0⟩
def P.CSU_CTRL.STOP : Field := ⟨0x110, 1, 1, .wo, 0⟩
def P.CSU_CTRL.BUSY : Field := ⟨0x110, 2, 1, .ro, 0⟩
def P.CSU_CTRL.DONE : Field := ⟨0x110, 3, 1, .w1c, 0⟩
def P.CSU_CTRL.GO_LOST : Field := ⟨0x110, 4, 1, .w1c, 0⟩
def P.CSU_CTRL.LOST : Field := ⟨0x110, 5, 1, .w1c, 0⟩
def P.CSU_N.NM1 : Field := ⟨0x111, 0, 16, .rw, 1023⟩
def P.CSU_SLOT.SLOT : Field := ⟨0x112, 0, 6, .rw, 0⟩
def P.CSU_COL.COL : Field := ⟨0x113, 0, 9, .rw, 0⟩
def P.CSU_COL.VALID : Field := ⟨0x113, 15, 1, .rw, 0⟩
def P.CSU_ROW.ROW : Field := ⟨0x114, 0, 9, .rw, 0⟩
def P.DCn_DROP.COUNT : Field := ⟨0x403, 0, 16, .rc, 0⟩
def P.FRAME_CFG.CLOSE : Field := ⟨0x30, 0, 4, .rw, 4⟩
def P.FRAME_CFG.PRIM_EN : Field := ⟨0x30, 4, 1, .rw, 0⟩
def P.FRAME_CFG.STATUS_ALL : Field := ⟨0x30, 5, 1, .rw, 0⟩
def P.CLU_CFG.HOLD : Field := ⟨0x31, 0, 8, .rw, 128⟩
def P.CLU_CFG.BYPASS : Field := ⟨0x31, 8, 1, .rw, 0⟩
def P.PRIM_EN.REGION : Field := ⟨0x32, 0, 16, .rw, 0xFFFF⟩
def P.ACTIVE_LANES.MASK : Field := ⟨0x33, 0, 8, .rw, 255⟩
def P.LATE_COUNT.COUNT : Field := ⟨0x34, 0, 16, .rc, 0⟩
def P.QRESET_COUNT.COUNT : Field := ⟨0x35, 0, 8, .rc, 0⟩
def P.QRESET_COUNT.LAST_DC : Field := ⟨0x35, 8, 8, .ro, 0⟩
def P.STORE_STAT.PEAK : Field := ⟨0x36, 0, 11, .rc, 0⟩
def P.STORE_STAT.FULL : Field := ⟨0x36, 11, 1, .w1c, 0⟩
def P.LINK_CTL.SLEEP_EN : Field := ⟨0x200, 0, 1, .rw, 1⟩
def P.LINK_CTL.AUTO_WAKE : Field := ⟨0x200, 1, 1, .rw, 1⟩
def P.LINK_CTL.LOOP : Field := ⟨0x200, 2, 2, .rw, 0⟩
def P.LINK_CTL.LOOP_LANE : Field := ⟨0x200, 4, 3, .rw, 0⟩
def P.LINK_STAT.DL_STATE : Field := ⟨0x201, 0, 3, .ro, 0⟩
def P.LINK_STAT.UL_ASLEEP : Field := ⟨0x201, 3, 1, .ro, 0⟩
def P.LINK_STAT.FAR_LOOP : Field := ⟨0x201, 4, 1, .ro, 0⟩
def P.LINK_STAT.SLEEP_REFUSED : Field := ⟨0x201, 5, 1, .w1c, 0⟩
def P.LINK_STAT.DL_LOST : Field := ⟨0x201, 6, 1, .st, 0⟩
def P.PRBS_CFG.PATTERN : Field := ⟨0x202, 0, 2, .rw, 3⟩
def P.PRBS_CFG.BLOCK : Field := ⟨0x202, 2, 1, .rw, 0⟩
def P.PRBS_CFG.GEN_EN : Field := ⟨0x202, 3, 8, .rw, 0⟩
def P.PRBS_CFG.CHK_EN : Field := ⟨0x202, 11, 1, .rw, 0⟩
def P.PRBS_CFG.LOCKED : Field := ⟨0x202, 12, 1, .ro, 0⟩
def P.PRBS_CFG.CLEAR : Field := ⟨0x202, 13, 1, .wo, 0⟩
def P.PRBS_ERR.COUNT : Field := ⟨0x203, 0, 16, .ro, 0⟩
def P.EYE.WIDTH : Field := ⟨0x204, 0, 6, .ro, 0⟩
def P.EYE.HEIGHT : Field := ⟨0x204, 6, 8, .ro, 0⟩
def P.EYE.VALID : Field := ⟨0x204, 14, 1, .ro, 0⟩
def P.EYE.BELOW_MIN : Field := ⟨0x204, 15, 1, .ro, 0⟩
def P.SLEEP_FRAMES.COUNT : Field := ⟨0x205, 0, 16, .rc, 0⟩
def P.DL_ERR.COUNT : Field := ⟨0x206, 0, 16, .rc, 0⟩
def P.SYNC_STAT.LOADED : Field := ⟨0x40, 0, 1, .ro, 0⟩
def P.SYNC_STAT.HOLD : Field := ⟨0x40, 1, 1, .ro, 0⟩
def P.SYNC_STAT.SLIP : Field := ⟨0x40, 2, 1, .w1c, 0⟩
def P.SYNC_STAT.SLIPS : Field := ⟨0x40, 8, 8, .rc, 0⟩
def P.PWR_STAT.WARN : Field := ⟨0x50, 0, 1, .ro, 0⟩
def P.PWR_STAT.DIP : Field := ⟨0x50, 1, 1, .w1c, 0⟩
def P.PWR_STAT.POR : Field := ⟨0x50, 2, 1, .w1c, 1⟩
def P.PWR_STAT.MODE : Field := ⟨0x50, 3, 1, .ro, 0⟩
def P.PWR_DIPS.COUNT : Field := ⟨0x51, 0, 16, .rc, 0⟩
def P.PWR_MIN.MIN : Field := ⟨0x52, 0, 12, .rc, 4095⟩
def P.MON_CTL.EN : Field := ⟨0x300, 0, 1, .rw, 0⟩
def P.MON_CTL.RECORD : Field := ⟨0x300, 1, 1, .rw, 0⟩
def P.MON_CTL.PERIOD : Field := ⟨0x300, 2, 8, .rw, 16⟩
def P.MON_EN0.CH : Field := ⟨0x301, 0, 16, .rw, 15⟩
def P.MON_EN1.CH : Field := ⟨0x302, 0, 8, .rw, 0⟩
def P.MON_DATAk.CODE : Field := ⟨0x310, 0, 12, .ro, 0⟩
def P.MON_DATAk.OVR : Field := ⟨0x310, 12, 1, .rc, 0⟩
def P.MON_DATAk.VALID : Field := ⟨0x310, 13, 1, .ro, 0⟩
def P.SNAP_CTL.ARM : Field := ⟨0x60, 0, 1, .rw, 0⟩
def P.SNAP_CTL.TAKEN : Field := ⟨0x60, 1, 1, .ro, 0⟩
def P.SNAP_FRAME.FRAME : Field := ⟨0x61, 0, 16, .rw, 0⟩
def P.SNAP_COARSE.COARSE : Field := ⟨0x62, 0, 12, .rw, 0⟩
def P.SNAP_PILEUP.HALF : Field := ⟨0x64, 0, 16, .ro, 0⟩
def P.SNAP_DROP.HALF : Field := ⟨0x66, 0, 16, .ro, 0⟩
def P.SNAP_COPYk.IMAGE : Field := ⟨0x68, 0, 16, .ro, 0⟩
def P.SNAP_DCn_1.IMAGE : Field := ⟨0x801, 0, 16, .ro, 0⟩
def P.SNAP_DCn_2.IMAGE : Field := ⟨0x802, 0, 16, .ro, 0⟩
def P.SNAP_DCn_3.IMAGE : Field := ⟨0x803, 0, 16, .ro, 0⟩
def P.SNAP_MONk.IMAGE : Field := ⟨0x330, 0, 16, .ro, 0⟩
def P.RST.SOFT : Field := ⟨0x1, 0, 1, .wo, 0⟩
def P.RST.SOFT_DONE : Field := ⟨0x1, 1, 1, .w1c, 0⟩

def P.rows0 : List Row := [
  ⟨P.FE_CFG.FE_EN, 0, 1⟩,
  ⟨P.FE_CFG.POL, 0, 1⟩,
  ⟨P.FE_CFG.AMASK_EN, 0, 1⟩,
  ⟨P.FE_CFG.LEAK_COMP, 0, 1⟩,
  ⟨P.THR.THR, 0, 1⟩,
  ⟨P.TRIM_CFG.STEP, 0, 1⟩,
  ⟨P.IFB.IFB, 0, 1⟩,
  ⟨P.PIXADDR.COL, 0, 1⟩,
  ⟨P.PIXADDR.INC, 0, 1⟩,
  ⟨P.PIXROW.ROW, 0, 1⟩,
  ⟨P.PIXDATA.DATA, 0, 1⟩,
  ⟨P.PIXSTAT.AUTOMASKED, 0, 1⟩,
  ⟨P.PIXSTAT.DISC_HIGH, 0, 1⟩,
  ⟨P.DCn_CFG.DC_MASK, 0x4, 256⟩,
  ⟨P.DCn_CFG.DC_OFF, 0x4, 256⟩,
  ⟨P.AMASK_CTRL.CLEAR_ALL, 0, 1⟩,
  ⟨P.AMASK_COUNT.COUNT, 0, 1⟩,
  ⟨P.INJ_CFG.PAT, 0, 1⟩,
  ⟨P.INJ_CFG.PHASE_C, 0, 1⟩,
  ⟨P.INJ_CFG.PHASE_R, 0, 1⟩,
  ⟨P.INJ_CFG.RANGE, 0, 1⟩,
  ⟨P.INJ_CFG.GO_LOST, 0, 1⟩,
  ⟨P.INJ_CFG.BUSY, 0, 1⟩,
  ⟨P.INJ_CFG.STOP, 0, 1⟩,
  ⟨P.INJ_CFG.GO, 0, 1⟩,
  ⟨P.INJ_DAC.CODE, 0, 1⟩,
  ⟨P.INJ_TIME.COARSE, 0, 1⟩,
  ⟨P.INJ_CNT.COUNT, 0, 1⟩,
  ⟨P.FOR_CFG.WIDTH, 0, 1⟩,
  ⟨P.FOR_CFG.SETTLE_BLANK, 0, 1⟩,
  ⟨P.FOR_CFG.CAL_BLANK, 0, 1⟩,
  ⟨P.FOR_EN.REG_EN, 0, 1⟩,
  ⟨P.DCn_DLL.LOCK, 0x4, 256⟩,
  ⟨P.DCn_DLL.LOCK_LOST, 0x4, 256⟩,
  ⟨P.DCn_DLL.CTRL, 0x4, 256⟩,
  ⟨P.DCn_PILEUP.COUNT, 0x4, 256⟩,
  ⟨P.TDC_CFG.CAL_EN, 0, 1⟩,
  ⟨P.TDC_CFG.CAL_RESET, 0, 1⟩,
  ⟨P.TDC_CFG.FINE_EN, 0, 1⟩,
  ⟨P.PLL_STAT.LOCK, 0, 1⟩]
def P.rows1 : List Row := [
  ⟨P.PLL_STAT.LOCK_LOST, 0, 1⟩,
  ⟨P.CAL_STAT0.UNCONV, 0, 1⟩,
  ⟨P.CAL_STAT1.AT_LIMIT, 0, 1⟩,
  ⟨P.CAL_STAT2.MAX_AGE, 0, 1⟩,
  ⟨P.CAL_STAT2.LAG, 0, 1⟩,
  ⟨P.CAL_COLLIDE.COUNT, 0, 1⟩,
  ⟨P.TDC_STAT.DLL_UNLOCKED, 0, 1⟩,
  ⟨P.QTRIM_ADDR.DC, 0, 1⟩,
  ⟨P.QTRIM_ADDR.QUAD, 0, 1⟩,
  ⟨P.QTRIM_DATA.GAIN, 0, 1⟩,
  ⟨P.QTRIM_DATA.OFFSET, 0, 1⟩,
  ⟨P.QTRIM_DATA.CONV, 0, 1⟩,
  ⟨P.QTRIM_DATA.LIMIT, 0, 1⟩,
  ⟨P.CSU_CTRL.GO, 0, 1⟩,
  ⟨P.CSU_CTRL.STOP, 0, 1⟩,
  ⟨P.CSU_CTRL.BUSY, 0, 1⟩,
  ⟨P.CSU_CTRL.DONE, 0, 1⟩,
  ⟨P.CSU_CTRL.GO_LOST, 0, 1⟩,
  ⟨P.CSU_CTRL.LOST, 0, 1⟩,
  ⟨P.CSU_N.NM1, 0, 1⟩,
  ⟨P.CSU_SLOT.SLOT, 0, 1⟩,
  ⟨P.CSU_COL.COL, 0, 1⟩,
  ⟨P.CSU_COL.VALID, 0, 1⟩,
  ⟨P.CSU_ROW.ROW, 0, 1⟩,
  ⟨P.DCn_DROP.COUNT, 0x4, 256⟩,
  ⟨P.FRAME_CFG.CLOSE, 0, 1⟩,
  ⟨P.FRAME_CFG.PRIM_EN, 0, 1⟩,
  ⟨P.FRAME_CFG.STATUS_ALL, 0, 1⟩,
  ⟨P.CLU_CFG.HOLD, 0, 1⟩,
  ⟨P.CLU_CFG.BYPASS, 0, 1⟩,
  ⟨P.PRIM_EN.REGION, 0, 1⟩,
  ⟨P.ACTIVE_LANES.MASK, 0, 1⟩,
  ⟨P.LATE_COUNT.COUNT, 0, 1⟩,
  ⟨P.QRESET_COUNT.COUNT, 0, 1⟩,
  ⟨P.QRESET_COUNT.LAST_DC, 0, 1⟩,
  ⟨P.STORE_STAT.PEAK, 0, 1⟩,
  ⟨P.STORE_STAT.FULL, 0, 1⟩,
  ⟨P.LINK_CTL.SLEEP_EN, 0, 1⟩,
  ⟨P.LINK_CTL.AUTO_WAKE, 0, 1⟩,
  ⟨P.LINK_CTL.LOOP, 0, 1⟩]
def P.rows2 : List Row := [
  ⟨P.LINK_CTL.LOOP_LANE, 0, 1⟩,
  ⟨P.LINK_STAT.DL_STATE, 0, 1⟩,
  ⟨P.LINK_STAT.UL_ASLEEP, 0, 1⟩,
  ⟨P.LINK_STAT.FAR_LOOP, 0, 1⟩,
  ⟨P.LINK_STAT.SLEEP_REFUSED, 0, 1⟩,
  ⟨P.LINK_STAT.DL_LOST, 0, 1⟩,
  ⟨P.PRBS_CFG.PATTERN, 0, 1⟩,
  ⟨P.PRBS_CFG.BLOCK, 0, 1⟩,
  ⟨P.PRBS_CFG.GEN_EN, 0, 1⟩,
  ⟨P.PRBS_CFG.CHK_EN, 0, 1⟩,
  ⟨P.PRBS_CFG.LOCKED, 0, 1⟩,
  ⟨P.PRBS_CFG.CLEAR, 0, 1⟩,
  ⟨P.PRBS_ERR.COUNT, 0, 1⟩,
  ⟨P.EYE.WIDTH, 0, 1⟩,
  ⟨P.EYE.HEIGHT, 0, 1⟩,
  ⟨P.EYE.VALID, 0, 1⟩,
  ⟨P.EYE.BELOW_MIN, 0, 1⟩,
  ⟨P.SLEEP_FRAMES.COUNT, 0, 1⟩,
  ⟨P.DL_ERR.COUNT, 0, 1⟩,
  ⟨P.SYNC_STAT.LOADED, 0, 1⟩,
  ⟨P.SYNC_STAT.HOLD, 0, 1⟩,
  ⟨P.SYNC_STAT.SLIP, 0, 1⟩,
  ⟨P.SYNC_STAT.SLIPS, 0, 1⟩,
  ⟨P.PWR_STAT.WARN, 0, 1⟩,
  ⟨P.PWR_STAT.DIP, 0, 1⟩,
  ⟨P.PWR_STAT.POR, 0, 1⟩,
  ⟨P.PWR_STAT.MODE, 0, 1⟩,
  ⟨P.PWR_DIPS.COUNT, 0, 1⟩,
  ⟨P.PWR_MIN.MIN, 0, 1⟩,
  ⟨P.MON_CTL.EN, 0, 1⟩,
  ⟨P.MON_CTL.RECORD, 0, 1⟩,
  ⟨P.MON_CTL.PERIOD, 0, 1⟩,
  ⟨P.MON_EN0.CH, 0, 1⟩,
  ⟨P.MON_EN1.CH, 0, 1⟩,
  ⟨P.MON_DATAk.CODE, 0x1, 24⟩,
  ⟨P.MON_DATAk.OVR, 0x1, 24⟩,
  ⟨P.MON_DATAk.VALID, 0x1, 24⟩,
  ⟨P.SNAP_CTL.ARM, 0, 1⟩,
  ⟨P.SNAP_CTL.TAKEN, 0, 1⟩,
  ⟨P.SNAP_FRAME.FRAME, 0, 1⟩]
def P.rows3 : List Row := [
  ⟨P.SNAP_COARSE.COARSE, 0, 1⟩,
  ⟨P.SNAP_PILEUP.HALF, 0x1, 2⟩,
  ⟨P.SNAP_DROP.HALF, 0x1, 2⟩,
  ⟨P.SNAP_COPYk.IMAGE, 0x1, 23⟩,
  ⟨P.SNAP_DCn_1.IMAGE, 0x4, 256⟩,
  ⟨P.SNAP_DCn_2.IMAGE, 0x4, 256⟩,
  ⟨P.SNAP_DCn_3.IMAGE, 0x4, 256⟩,
  ⟨P.SNAP_MONk.IMAGE, 0x1, 24⟩,
  ⟨P.RST.SOFT, 0, 1⟩,
  ⟨P.RST.SOFT_DONE, 0, 1⟩]

/-- Every field of the Pelnos registers. -/
def P.rows : List Row := P.rows0 ++ P.rows1 ++ P.rows2 ++ P.rows3

end Sys2Proof.Machine
end

