-- ==== Sys2Proof/Machine/Tab.lean ====
section
/-!
DEFINITION. Sparse tables: what the chip has many of (pixels, quads, memory bytes, register fields), held as a list of
key and value pairs in one canonical form: keys strictly rising, and no entry equal to the default `d`, which is what
every unlisted key holds.  Equal tables are equal lists.
-/

namespace Sys2Proof.Machine

/-- A sparse table: key and value pairs. -/
abbrev Tab (α : Type) := List (Nat × α)

/-- What stands at key `k`; an unlisted key holds the default `d`. -/
def Tab.get {α : Type} (d : α) : Tab α → Nat → α
  | [], _ => d
  | (a, v) :: t, k => if a = k then v else Tab.get d t k

/-- Place `v` at `k` in a table that keeps its keys rising. -/
def Tab.insert {α : Type} : Tab α → Nat → α → Tab α
  | [], k, v => [(k, v)]
  | (a, w) :: t, k, v =>
    if k < a then (k, v) :: (a, w) :: t
    else if k = a then (k, v) :: t
    else (a, w) :: Tab.insert t k v

/-- The table without key `k`. -/
def Tab.erase {α : Type} : Tab α → Nat → Tab α
  | [], _ => []
  | (a, w) :: t, k => if a = k then Tab.erase t k else (a, w) :: Tab.erase t k

/-- Write `v` at `k`: what stood there goes, and the default is not listed, so that the form stays canonical. -/
def Tab.set {α : Type} [DecidableEq α] (d : α) (t : Tab α) (k : Nat) (v : α) : Tab α :=
  if v = d then Tab.erase t k else Tab.insert (Tab.erase t k) k v

/-- Change the value at `k` by `f`. -/
def Tab.upd {α : Type} [DecidableEq α] (d : α) (t : Tab α) (k : Nat) (f : α → α) : Tab α :=
  t.set d k (f (t.get d k))

/-- Every key of the list is above `k`. -/
def Tab.above {α : Type} (k : Nat) : Tab α → Bool
  | [] => true
  | (a, _) :: t => decide (k < a) && Tab.above k t

/-- The canonical form: keys strictly rising and no entry equal to the default. -/
def Tab.wf {α : Type} [DecidableEq α] (d : α) : Tab α → Bool
  | [] => true
  | (a, v) :: t => Tab.above a t && decide (v ≠ d) && Tab.wf d t

/-- How many entries of the table satisfy `p` (only entries that differ from the default are listed). -/
def Tab.count {α : Type} (p : Nat → α → Bool) (t : Tab α) : Nat :=
  (List.filter (fun e => p e.1 e.2) t).length

/-- Some listed entry satisfies `p`. -/
def Tab.any {α : Type} (p : Nat → α → Bool) (t : Tab α) : Bool :=
  List.any t fun e => p e.1 e.2

/-- Apply `f` to every listed entry, dropping those that become the default. -/
def Tab.mapVals {α : Type} [DecidableEq α] (d : α) (f : Nat → α → α) (t : Tab α) : Tab α :=
  List.filter (fun e => decide (e.2 ≠ d)) (List.map (fun e => (e.1, f e.1 e.2)) t)

/-- Change element `i` of a fixed-size collection. -/
def vupd {α : Type} {n : Nat} (v : Vector α n) (i : Fin n) (f : α → α) : Vector α n :=
  v.set i.val (f v[i.val])

end Sys2Proof.Machine
end

