-- ==== Sys2Proof/Machine/RegFile.lean ====
section
/-!
DEFINITION. Register files: reading and writing fields and words under the access types of R9.

A register file is a table from field keys to numbers.  A field is held as the exclusive or of its value with its reset
value, so that a file right after reset lists nothing and equal register contents are equal data.
Choices of the model: log entry 3 (DESIGN CHOICE).
-/

namespace Sys2Proof.Machine

/-- The value of field `f`. -/
def fget (r : Tab Nat) (f : Field) : Nat := Tab.get 0 r f.key ^^^ f.reset

/-- Set field `f` to `v`, limited to the field's width. -/
def fset (r : Tab Nat) (f : Field) (v : Nat) : Tab Nat := Tab.set 0 r f.key ((v % 2 ^ f.wid) ^^^ f.reset)

/-- Add `n` to a saturating counter. -/
def fadd (r : Tab Nat) (f : Field) (n : Nat) : Tab Nat := fset r f (sat f.wid (fget r f + n))

/-- Add `n` to a counter that wraps at its width. -/
def fwrap (r : Tab Nat) (f : Field) (n : Nat) : Tab Nat := fset r f (fget r f + n)

/-- The bytes that a Zwiuc field's register words take, and the one word that a Pelnos field takes. -/
def Field.span (unit : Nat) (f : Field) : Nat := if unit = 1 then 1 else 4 * ((f.lsb + f.wid + 31) / 32)

/-- The repetition of row `w` that has a bit in the word at `o`, if any; `unit` is 4 for byte offsets, 1 for words. -/
def Row.hit (unit : Nat) (w : Row) (o : Nat) : Option Field :=
  if o < w.f.off then none
  else
    let k := if w.step = 0 then 0 else (o - w.f.off) / w.step
    if k < w.count ∧ o < w.f.off + k * w.step + w.f.span unit then some (w.f.at (k * w.step)) else none

/-- The fields with bits in the word at `o`. -/
def fieldsAt (unit : Nat) (rows : List Row) (o : Nat) : List Field := rows.filterMap fun w => w.hit unit o

/-- Where the bits of field `f` stand against the word at `o`: `v` shifted up by the field's place and down to the word. -/
def Field.place (f : Field) (o v : Nat) : Nat := v * 2 ^ f.lsb / 2 ^ (8 * (o - f.off)) % 2 ^ 32

/-- The word at `o`: its fields in place, write-only fields and reserved bits as zero (R6, R9).  `view` gives the value
of a field, so that a field computed from other state is read as what it shows. -/
def wordOf (fs : List Field) (view : Field → Nat) (o : Nat) : Nat :=
  fs.foldl (fun a f => if f.acc = .wo then a else a + f.place o (view f)) 0

/-- The bits that a write of `w` to the word at `o` gives to field `f` whose value is `old`. -/
def Field.merged (f : Field) (o w old : Nat) : Nat :=
  let sh := 8 * (o - f.off)
  let full := old * 2 ^ f.lsb
  let below := full % 2 ^ sh
  let above := full / 2 ^ (sh + 32)
  (below + w % 2 ^ 32 * 2 ^ sh + above * 2 ^ (sh + 32)) / 2 ^ f.lsb % 2 ^ f.wid

/-- The effect of a write of `w` on field `f`, for the access types whose write needs nothing else (R9): RW and ST take
the value, W1C bits are cleared by ones.  RO, RC, WO and SH fields are left alone here. -/
def fwrite (r : Tab Nat) (f : Field) (o w : Nat) : Tab Nat :=
  match f.acc with
  | .rw | .st => fset r f (f.merged o w (fget r f))
  | .w1c => fset r f (fget r f &&& (2 ^ f.wid - 1 - f.merged o w 0))
  | .ro | .rc | .wo | .sh => r

/-- Clear the RC fields among `fs`: what a read of their word does (R9). -/
def fclear (r : Tab Nat) (fs : List Field) : Tab Nat :=
  fs.foldl (fun r f => if f.acc = .rc then fset r f 0 else r) r

end Sys2Proof.Machine
end

