-- ==== Sys2Proof/Machine/State.lean ====
section
/-!
DEFINITION. The state of a Casmifold system: one Zwiuc and the Pelnos on each of its 16 ports, as plain data.

Register fields stand in register files (`Tab Nat`, see RegFile.lean); the records below hold everything else the spec
gives the chips: what is in progress, what waits in queues, memories, counters without a register.
Choices of the model: log entries 12 (DESIGN CHOICE), 13 (PRESUMED), 14 (DESIGN CHOICE).
-/

namespace Sys2Proof.Machine

/-! ### Pelnos: pixels, time measurement, pipeline (spec/02, 03, 04) -/

/-- One stamped hit: pixel, 64-bit leading-edge tick count (R74), FINE, TOT and the four flags (R52 to R57).
`era` numbers the counter loads (R323): a record of an older era belongs to a frame of the old count. -/
structure Hit where
  col : Nat
  row : Nat
  tick : Nat
  fine : Nat
  tot : Nat
  short : Bool
  long : Bool
  orphan : Bool
  lowres : Bool
  era : Nat
  deriving DecidableEq, Repr

/-- The start a pixel holds while its hit is in progress (R54): leading tick, FINE, LOWRES, and whether the DLL was
locked (R48: unlocked, ToT is measured in whole ticks). -/
structure Meas where
  tick : Nat
  fine : Nat
  lowres : Bool
  dll : Bool
  deriving DecidableEq, Repr

/-- The activity of one pixel (R36, R54 to R61). -/
structure Pixel where
  /-- The discriminator is high. -/
  high : Bool := false
  /-- The hit in progress. -/
  meas : Option Meas := none
  /-- The 25 ns after a leading edge have not passed (R61). -/
  hold : Bool := false
  /-- A timed-out hit keeps the pixel occupied until the fall, which produces nothing (R55). -/
  tail : Bool := false
  /-- A completed hit still in the circuit, waiting for the hit register (R61). -/
  done : Option Hit := none
  /-- The hit register. -/
  reg : Option Hit := none
  /-- The pixel is auto-masked (R36). -/
  amask : Bool := false
  deriving DecidableEq, Repr

/-- What occupies a quad's charge interpolator (R50, R51, R64). -/
inductive Interp where
  | free | pixel | cal
  deriving DecidableEq, Repr

/-- One quad: its interpolator, trims and calibration history (R63 to R66). -/
structure Quad where
  interp : Interp := .free
  gain : Nat := 16
  offset : Nat := 16
  /-- Calibration conversions since the trims were last reset. -/
  convs : Nat := 0
  /-- The result of the last odd-period conversion, the first of the pair. -/
  odd : Option Nat := none
  /-- The trims before each of the last 8 updates, newest first. -/
  gainHist : List Nat := []
  offsetHist : List Nat := []
  /-- The calibration period of the last conversion. -/
  last : Nat := 0
  deriving DecidableEq, Repr

/-- An item of an end-of-column queue: a pixel-hit or a SHAVING marker with its tick count (R74). -/
inductive QItem where
  | hit (h : Hit)
  | mark (tick count era : Nat)
  deriving DecidableEq, Repr

/-- One double-column: its end-of-column queue, the pending marker (tick of the first drop, count) and the register index
that the drain served last (R72, R74). -/
structure DCol where
  queue : List QItem := []
  pend : Option (Nat × Nat × Nat) := none
  served : Nat := 1023
  deriving DecidableEq, Repr

/-- One open cluster (R77, R78): anchor, other members, the tick at which its first pixel reached the builder, and the
HOLD under which it was opened (R92). -/
structure Cluster where
  anchor : Hit
  others : List Hit
  opened : Nat
  hold : Nat
  deriving DecidableEq, Repr

/-- One record on its way to a frame: its halfwords in order, its frame, the pixel-hits it stands for, its
double-column and COARSE (R84), and whether it is a SHAVING marker. -/
structure PRec where
  hws : List Nat
  frame : Nat
  hits : Nat
  src : Nat
  coarse : Nat
  shaving : Bool
  era : Nat
  deriving DecidableEq, Repr

/-- One cluster builder: open clusters in opening order, the queue it served last, and the outputs it holds while
stalled (R76, R77, R85). -/
structure Builder where
  clusters : List Cluster := []
  served : Nat := 15
  stalled : List PRec := []
  deriving DecidableEq, Repr

/-- An open frame of the record store: its records in order of arrival, its trailer flags, and per fast-OR region the
HITS and FIRST of its PRIMITIVE record (R81, R83, R86). -/
structure FrameBuf where
  recs : List PRec := []
  cal : Bool := false
  supply : Bool := false
  qreset : Bool := false
  prims : Tab (Nat × Nat) := []
  deriving DecidableEq, Repr

/-- The pending LATE marker: double-column, COARSE and frame of the first late item, and the count (R84). -/
structure LateMark where
  src : Nat
  coarse : Nat
  frame : Nat
  count : Nat
  deriving DecidableEq, Repr

/-- The values of the fields that take effect at a frame start (R38, R91): they are sampled there. -/
structure Sampled where
  close : Nat := 4
  hold : Nat := 128
  bypass : Bool := false
  pat : Nat := 0
  phaseC : Nat := 0
  phaseR : Nat := 0
  range : Nat := 0
  dac : Nat := 0
  time : Nat := 0
  deriving DecidableEq, Repr

/-- An injection sequence from its accepted GO to its end (R38, R39): `left` pulses remain (none: until STOP). -/
structure InjSeq where
  started : Bool
  stop : Bool
  left : Option Nat
  /-- The pulse of the current frame has been issued. -/
  pulsed : Bool
  deriving DecidableEq, Repr

/-- One slot of the calibration statistics unit: its pixel, VALID, and the accumulated statistics (R67 to R70). -/
structure CsuSlot where
  col : Nat := 0
  row : Nat := 0
  valid : Bool := false
  n : Nat := 0
  sum : Nat := 0
  sumsq : Nat := 0
  lo : Nat := 0
  hi : Nat := 0
  lowres : Bool := false
  deriving DecidableEq, Repr

/-- A run of the calibration statistics unit, from GO until its records have been emitted (R67, R69). -/
structure CsuRun where
  started : Bool
  stop : Bool
  issued : Nat
  total : Nat
  /-- The tick of the last pulse. -/
  pulse : Option Nat
  /-- The pulse of the current frame has been issued. -/
  pulsed : Bool
  /-- A frame has started since STOP: the run issues no more pulses. -/
  ended : Bool
  deriving DecidableEq, Repr

/-- An ECHO response waiting for its slot (R90, R324): its payload. -/
abbrev EchoAnswer := List Byte

/-- One Pelnos.  Its register fields stand in `regs` (each as its difference, by exclusive or, from the reset value of
the field), the staged copies of its SH fields in `staged`. -/
structure Pelnos where
  regs : Tab Nat := []
  /-- Staged copies of SH fields, by field key; none: equal to the committed value (R9, R395). -/
  staged : Tab (Option Nat) := []
  /-- Pixel configuration words at index COL × 512 + ROW; unlisted: the reset word 0x0030 (R24, R31). -/
  pix : Tab Half := []
  pixels : Tab Pixel := []
  /-- Quads at index DC × 256 + quad. -/
  quads : Tab Quad := []
  dcols : Tab DCol := []
  builders : Tab Builder := []
  slots : Tab CsuSlot := []
  csu : Option CsuRun := none
  inj : Option InjSeq := none
  samp : Sampled := {}
  /-- The 32-bit frame number and the coarse counter (R45). -/
  frame : Nat := 0
  coarse : Nat := 0
  /-- How many times the counter has been loaded. -/
  era : Nat := 0
  /-- Settling windows, first and last tick, oldest first (R43). -/
  settle : List (Nat × Nat) := []
  /-- SETTLE_BLANK holds the regions low (R40), CAL_BLANK holds them low. -/
  settleBlank : Bool := false
  calBlank : Bool := false
  /-- The regions whose one-shot pulse is running (R40), one bit each. -/
  forPulse : BitVec 16 := 0
  /-- Calibration periods begun (R64). -/
  calPeriod : Nat := 0
  /-- Auto-mask reports waiting for a STATUS block, and a pending AM_OVF (R88). -/
  amQueue : List (Nat × Nat) := []
  amOvf : Bool := false
  /-- Open frames by frame number, the oldest open frame, and the pending LATE marker (R83, R84). -/
  frames : Tab FrameBuf := []
  nextClose : Nat := 0
  late : Option LateMark := none
  /-- Closed frames not yet cut into blocks: frame number and halfwords. -/
  closed : List (Nat × List Nat) := []
  /-- The store filled since the previous FRAME header (R87). -/
  storeFull : Bool := false
  /-- Blocks of the frame being sent, in dealing order. -/
  sending : List Block := []
  /-- The SEQ of the next block that advances it (R89). -/
  seq : Nat := 0
  /-- The active set in force and the lane dealt last (R90). -/
  laneMask : Nat := 0xFF
  lane : Nat := 7
  echo : List EchoAnswer := []
  /-- Marks sent since activation (R106). -/
  markCnt : Nat := 0
  /-- The port has been activated since the downlink last came up (R105). -/
  active : Bool := false
  /-- The uplink lane of a far-end loop (R117). -/
  loopLane : Nat := 0
  /-- A requested wake or a self-wake is under way (R114). -/
  waking : Bool := false
  /-- Transmit preset of the uplink lanes requested by Zwiuc (R102, R103). -/
  presets : Tab Nat := []
  /-- The pending commit: frame number and COARSE (R395). -/
  commit : Option (Nat × Nat) := none
  /-- Power-on or pad reset is held (R404). -/
  inReset : Bool := false
  /-- Channels left in the running monitor scan, and a scan due behind it (R348). -/
  monScan : List Nat := []
  monDue : Bool := false
  /-- Monitor results not yet read, one bit per channel (R348). -/
  monFresh : BitVec 24 := 0
  deriving DecidableEq, Repr

/-- Pelnos right after reset. -/
def Pelnos.reset : Pelnos := {}
/-! ### Zwiuc: commands in progress (spec/10, 16) -/

/-- What a downlink command was sent for: what its reply goes to (R129, R245). -/
inductive Purpose where
  /-- A write that Zwiuc makes on its own account: a lane mask, the arming of a snapshot. -/
  | own
  /-- CTRL command number `id`. -/
  | cmd (id : Nat)
  /-- The configuration scrub: `count` words from pixel index `first` (R399). -/
  | scrub (first count : Nat)
  /-- A scrub rewrite. -/
  | rewrite
  /-- The read of snapshot word `w` for snapshot number `seq` (R391). -/
  | snap (seq w : Nat)
  deriving DecidableEq, Repr

/-- A downlink command waiting to be sent: its purpose, OP, and payload bytes from byte 2; `sh`: it writes an SH word and
waits while a commit is pending on the port (R396). -/
structure DlItem where
  purpose : Purpose
  op : Nat
  bytes : List Byte
  sh : Bool
  deriving DecidableEq, Repr

/-- An outstanding downlink command: its TAG, purpose, OP, replies still awaited, and sending time (R243, R245). -/
structure Outst where
  tag : Nat
  purpose : Purpose
  op : Nat
  left : Nat
  sent : Nat
  deriving DecidableEq, Repr

/-- A CTRL command from its start to the writing of its completion (R238, R242 to R244). -/
structure Cmd where
  id : Nat
  opcode : Nat
  tag : Nat
  ports : Nat
  arg : List Byte
  /-- The command has started; not: it waits behind a FENCE (R242). -/
  started : Bool := false
  /-- Downlink replies awaited, per port. -/
  left : Tab Nat := []
  /-- PORT_FAIL. -/
  fail : Nat := 0
  /-- RESULT, once the command has finished. -/
  result : Option Nat := none
  cflags : Nat := 0
  rdata : List Byte := []
  /-- The tick, frame or count that the command waits for. -/
  tick : Nat := 0
  /-- COMMIT_AT: the COMMIT blocks have been sent; it was cancelled by a supply warning and waits to be reissued. -/
  armed : Bool := false
  held : Bool := false
  /-- FE_READ: value plus one, per port that replied. -/
  vals : Tab Nat := []
  /-- The image of FE_BULK, ENGINE_LOAD or MON_CFG has been read. -/
  image : Option (List Byte) := none
  /-- A completion without a CTRL entry behind it (the stop of R11). -/
  own : Bool := false
  deriving DecidableEq, Repr

/-- ECHO and alignment of one port (R323, R324). -/
structure EchoSt where
  /-- The acquisition burst is under way; its requests sent so far. -/
  acq : Bool := false
  sent : Nat := 0
  nextId : Nat := 0
  /-- The round trips of the burst (R323). -/
  burst : List Int := []
  /-- Requests outstanding: ID and T1 in units of 2⁻³² ns. -/
  open_ : List (Nat × Nat) := []
  /-- Samples of the running average: count, sums of RTT and OFFSET, in units of 2⁻³² ns. -/
  n : Nat := 0
  sumRtt : Nat := 0
  sumOff : Int := 0
  /-- The average RTT, and the one that the last LOAD SYNC used; a LOAD SYNC has been sent since activation. -/
  rtt : Nat := 0
  loadRtt : Nat := 0
  loadSent : Bool := false
  timeouts : Nat := 0
  /-- The epoch, in units of 2⁻³² ns, from which this port's ticks are counted. -/
  epoch : Nat := 0
  deriving DecidableEq, Repr

/-! ### Zwiuc: lanes and ports (spec/05, 06) -/

/-- Why a lane retrains (R108, R109): the eye below minimum keeps its last good settings; the rest count attempts. -/
inductive RetrainCause where
  | eye | other
  deriving DecidableEq, Repr

/-- What a receiver keeps of its lane beside the registers of R122. -/
structure Lane where
  /-- TRAIN blocks in a row that meet the lock criterion, that carry RX_READY, that carry an intact capability (R101). -/
  good : Nat := 0
  ready : Nat := 0
  cap : Nat := 0
  /-- CAP has been completed since the port came up; a retrain keeps it (R108). -/
  capDone : Bool := false
  /-- NO_RX has been raised in this entry of DETECT (R101). -/
  noRx : Bool := false
  /-- Timeouts in a row in TRAIN or LOCK (R101), failed retrain attempts (R109). -/
  fails : Nat := 0
  attempts : Nat := 0
  /-- A retrain under way, and its cause. -/
  cause : Option RetrainCause := none
  /-- The lane has left the mask register for a retrain or a near-end loop and enters it after the FRAME block that takes
  effect without it (R108). -/
  leaving : Bool := false
  /-- The lane has locked after a retrain and rejoins at its next mark within the span (R108). -/
  rejoin : Bool := false
  /-- Slots in a row with a code error in the kind symbol (R100), the times of the blocks discarded in the last ms (R108), marks lost in
  a row (R107). -/
  badKind : Nat := 0
  errs : List Nat := []
  lost : Nat := 0
  /-- Arrival of the mark being paired, in symbol times (R107). -/
  mark : Option Nat := none
  /-- The preset that the far end requests of this lane's paired transmitter (R102). -/
  presetReq : Nat := 0xFF
  /-- Ring: the far NODE_ID from CAP (R301). -/
  farId : Nat := 0xFF
  /-- PRBS checker: shift register, error-free bits before lock, errors and bits of the last 1,024, totals (R119). -/
  prbsReg : Nat := 0
  prbsRun : Nat := 0
  prbsWinErr : Nat := 0
  prbsWinBits : Nat := 0
  prbsErr : Nat := 0
  prbsBits : Nat := 0
  /-- The lane's generator has replaced its traffic (R119). -/
  gen : Bool := false
  /-- WIDTH and HEIGHT of the lane's last eye scan (R120). -/
  eyeW : Nat := 0
  eyeH : Nat := 0
  deriving DecidableEq, Repr

/-- One item of a port's record queue: its 40-bit frame, its halfwords, the pixel-hits it stands for (0xFFFF: unknown, for
a marker), its COARSE, and whether it is a SHAVING marker (R130, R132). -/
structure QRec where
  frame : Nat
  hws : List Nat
  hits : Nat
  coarse : Nat
  shaving : Bool
  deriving DecidableEq, Repr

/-- A pending or held Zwiuc marker: the frame and COARSE of the first record it counts, and its count (R130, R132, R139). -/
structure ZMark where
  frame : Nat
  coarse : Nat
  count : Nat
  deriving DecidableEq, Repr

/-- A side-queue entry (R133): frame number, the FRAME trailer or its absence, the damage flag. -/
structure SideEntry where
  frame : Nat
  trailer : Option (List Nat)
  damaged : Bool
  /-- A whole frame, not one cut short by a gap: counts in LATE.FRAMES when dropped (R139). -/
  whole : Bool
  /-- When the entry was made (R136). -/
  time : Nat
  deriving DecidableEq, Repr

/-- The frame that the parser has open (R128, R131). -/
structure OpenFrame where
  frame : Nat
  /-- Halfwords of a record that continues in the next block. -/
  carry : List Nat := []
  /-- Records counted against RCOUNT, and bytes of the segment so far. -/
  rcount : Nat := 0
  bytes : Nat := 0
  /-- Pixel-hits discarded beyond the segment limit, once it is reached (R131). -/
  excess : Option Nat := none
  damaged : Bool := false
  /-- INGRESS_Q, REASM_GAP have been raised for this frame (R149). -/
  qEvent : Bool := false
  /-- The frame arrives while the port cannot join: its records are dropped as late (R138). -/
  late : Bool := false
  /-- The frame belongs to no merged frame: the port is no member, or no run is in progress; its records are dropped uncounted. -/
  drop : Bool := false
  /-- The frame lies before the run epoch: its errors are not counted (R128). -/
  quiet : Bool := false
  /-- Late from its FRAME block on: it counts in LATE.FRAMES at its end (R139). -/
  wholeLate : Bool := false
  deriving DecidableEq, Repr

/-- What the receive path of one port keeps beside its registers (R124 to R139). -/
structure PortIn where
  /-- Blocks that passed the block check and wait for reassembly. -/
  arrived : List Block := []
  /-- The expected SEQ and the blocks held in the window. -/
  expect : Nat := 0
  held : List Block := []
  /-- Blocks are discarded until the next FRAME block; on resynchronisation E is set to its SEQ (R125). -/
  discard : Bool := true
  resync : Bool := false
  /-- A GAP marker is held for the next segment (R125). -/
  holdGap : Bool := false
  gapEvent : Bool := false
  /-- The 32-bit number of the last FRAME block accepted, none after a link event (R126). -/
  lastNum : Option Nat := none
  cur : Option OpenFrame := none
  queue : List QRec := []
  pend : Option ZMark := none
  side : List SideEntry := []
  late : Option ZMark := none
  /-- LATE has been raised in this stall episode (R139). -/
  lateEvent : Bool := false
  /-- The STEPPING that the first lane reported in this bring-up (R104), and the 1 ms wait of R105 is running. -/
  stepping : Option Nat := none
  waitMask : Bool := false
  /-- The uplink sleeps, a sleep request waits for its answer (R112, R114). -/
  asleep : Bool := false
  sleepWait : Bool := false
  /-- The lane mask in force: P_ACTIVE_LANES as Zwiuc last wrote it (R105). -/
  mask : Nat := 0
  /-- The downlink's next SEQ and transmit preset (R97, R104). -/
  dlSeq : Nat := 0
  dlPreset : Nat := 3
  /-- Downlink commands waiting to be sent, in order, and those outstanding (R244, R245). -/
  dlWait : List DlItem := []
  outst : List Outst := []
  /-- Writes of SH words wait (R396): a held commit addresses the port; the spindle time of the tick of a pending one, or 0. -/
  commitPend : Bool := false
  commitTill : Nat := 0
  echo : EchoSt := {}
  /-- Marks being paired: their MARK_CNT (R107). -/
  markCnt : Option Nat := none
  /-- MERGE_EN was cleared while a frame was being merged: that frame still expects the port (R143). -/
  heldExpect : Bool := false
  /-- The port is waited for from this frame on (R138). -/
  joinG : Nat := 0
  /-- The configuration scrub: the next pixel index and the start of the lap (R399). -/
  scrubPos : Nat := 0
  scrubStart : Nat := 0
  deriving DecidableEq, Repr

/-! ### Zwiuc: events, host interface (spec/10, 16) -/

/-- An event record waiting in the event queue: source, severity, spindle time in 2⁻³² ns, 12 DETAIL bytes (R246, R382). -/
structure EvRec where
  src : Nat
  sev : Nat
  time : Nat
  detail : List Byte
  deriving DecidableEq, Repr

/-- The event unit beside its registers: the queue of 256 and the records dropped since the last one written (R382). -/
structure EventUnit where
  queue : List EvRec := []
  lost : Nat := 0
  /-- When the next periodic snapshot falls due (R394). -/
  telAt : Nat := 0
  deriving DecidableEq, Repr

/-- An MSI-X table entry (R422): message address, message data and mask bit. -/
structure MsixEntry where
  addr : Nat := 0
  data : Nat := 0
  ctrl : Nat := 1
  deriving DecidableEq, Repr

/-- A CMPL entry waiting to be written (R237, R240): its bytes without PHASE. -/
abbrev CmplEntry := List Byte

/-- The host interface beside its registers. -/
structure HostIf where
  /-- The last doorbell written to a disabled host-written ring (R236). -/
  bell : Tab (Option Nat) := []
  /-- Entries written to CMPL (6) and EVT (7) since the ring's last message (R247). -/
  since : Tab Nat := []
  /-- The latest of the moments from which TIMEOUT_US counts (R247). -/
  waitAt : Tab Nat := []
  /-- The MSI-X table and the pending bits (R422). -/
  msix : Tab MsixEntry := []
  pba : BitVec 64 := 0
  /-- DMA to the host is stopped by the safe state (R336). -/
  dmaStop : Bool := false
  /-- 64-bit pair latches: low-word offset to the latched high word (R7, R421). -/
  latch : Tab (Option Nat) := []
  /-- The AER status registers of configuration space: uncorrectable and correctable (R249, R423). -/
  aerUnc : BitVec 32 := 0
  aerCor : BitVec 32 := 0
  /-- A BUF_STARVE episode has been reported (R249). -/
  starved : Bool := false
  deriving DecidableEq, Repr

/-! ### Zwiuc: the run (spec/10, 13) -/

/-- The run in progress, or the last one (R144, R321). -/
structure RunSt where
  /-- A run has been started and has not ended. -/
  active : Bool := false
  /-- Its epoch in units of 2⁻³² ns; none before the first run. -/
  epoch : Option Nat := none
  id : Nat := 0xFFFF
  /-- The last frame, once a stop is known (R144). -/
  last : Option Nat := none
  /-- The stop asked for partial-array self-refresh (R174). -/
  pasr : Bool := false
  /-- When M last advanced, and WAIT_US and DUE_US as they stood then (R136, R137, R147). -/
  mAt : Nat := 0
  waitUs : Nat := 50
  dueUs : Nat := 40
  /-- Spans of steady rest and of the Zwiuc supply warning that a frame not yet merged may meet, newest first; none: it goes on. -/
  rests : List (Nat × Option Nat) := []
  warns : List (Nat × Option Nat) := []
  deriving DecidableEq, Repr

/-! ### Zwiuc: the event buffer (spec/07, 08) -/

/-- One billet-table entry (R157), and whether the entry itself has been lost (R197). -/
structure Billet where
  gen : Nat := 0
  next : Nat := 0
  pin : Nat := 0
  lost : Bool := false
  deriving DecidableEq, Repr

/-- One directory entry (R161): a run of consecutive frames.  `time` and `last` are the spindle times of the starts of its first
and its newest frame; `endAt` is the run's last frame where `runEnd` is set, which a late stop puts behind the commits (R321). -/
structure DirEnt where
  seq : Nat := 0
  first : Nat := 0
  frames : Nat := 0
  valid : Bool := false
  open_ : Bool := false
  expired : Bool := false
  pinned : Bool := false
  marked : Bool := false
  runEnd : Bool := false
  forced : Bool := false
  billet : Nat := 0
  line : Nat := 0
  lines : Nat := 0
  gen : Nat := 0
  missing : Nat := 0
  damaged : Nat := 0
  late : Nat := 0
  runId : Nat := 0
  time : Nat := 0
  last : Nat := 0
  endAt : Nat := 0
  deriving DecidableEq, Repr

/-- One slot of the pinned-range table (R165): the frames of the range, its run, what has been pinned so far, and the command
that waits for its end. -/
structure PinRange where
  first : Nat
  last : Nat
  runId : Nat
  /-- First and last frame pinned so far. -/
  got : Option (Nat × Nat) := none
  /-- The billets that the range has counted in. -/
  billets : List Nat := []
  clipped : Bool := false
  /-- The PIN has not completed: its command number. -/
  cmd : Option Nat := none
  deriving DecidableEq, Repr

/-- An open page (R182): channel, page number, lines written. -/
structure OpenPage where
  ch : Nat
  page : Nat
  lines : Nat
  deriving DecidableEq, Repr

/-- An entry of the repeat-CE table (R190). -/
structure RceEnt where
  ch : Nat
  addr : Nat
  bits_ : Nat
  count : Nat
  lapFirst : Nat
  lapLast : Nat
  deriving DecidableEq, Repr

/-- A freeze record (R196, R199): cause, address, the syndromes of the 64 columns, the flagged lines, and the commands. -/
structure Freeze where
  cause : Nat
  addr : Nat
  syn : List (Nat × Nat)
  flags : Nat
  cmds : List Nat
  deriving DecidableEq, Repr

/-- What a stack keeps beside its registers (R168 to R175, R192). -/
structure StackSt where
  /-- Per channel: slices gathered in this retrain, the time of the last successful retrain at each point (channel + 4 × point), and
  its freeze record. -/
  slices : Tab Nat := []
  trained : Tab Nat := []
  freeze : Tab (Option Freeze) := []
  /-- A change of point waits for a slice or for start-up training; the point to which a running change leads. -/
  waiting : Bool := false
  since : Nat := 0
  goal : Nat := 0
  /-- Start-up training is running. -/
  training : Bool := false
  /-- Start and cause of the running migration; ranks whose retirement waits (R198), each with its cause. -/
  migStart : Nat := 0
  migCause : Nat := 0
  due : List (Nat × Nat) := []
  /-- The bring-up stage of the stack has ended. -/
  ready : Bool := false
  /-- Ranks whose dies refresh at the doubled rate, one bit each. -/
  hot : Nat := 0
  /-- The stack has been powered down after its loss (R195). -/
  off : Bool := false
  deriving DecidableEq, Repr

/-- A line waiting in the writer's buffer: its buffer address and bytes (R158). -/
structure WLine where
  addr : Nat
  bytes : List Byte
  deriving DecidableEq, Repr

/-- The event buffer beside its registers. -/
structure Buffer where
  /-- DRAM contents: bytes at channel × 2³² + channel-local address (R153); unlisted: 0. -/
  mem : Tab Byte := []
  /-- Damage to stored bytes: the exclusive or against what was stored, check bit in bit 8.  Keys as for `mem`; the spare die of stack
  s stands at (32 + s) × 2³² + address within the rank. -/
  dmg : Tab (BitVec 9) := []
  wbuf : List WLine := []
  /-- The billet being filled and its next free line. -/
  pos : Option (Nat × Nat) := none
  /-- The billet allocated last. -/
  alloc : Option Nat := none
  billets : Tab Billet := []
  /-- Runs in the directory by slot (R163), and the number of runs opened. -/
  dir : Tab DirEnt := []
  dirSeq : Nat := 0
  /-- A run is open: the one opened last. -/
  runOpen : Bool := false
  pins : Tab (Option PinRange) := []
  /-- The pinned directory: range slot and copy of the run's entry. -/
  pdir : List (Nat × DirEnt) := []
  /-- POISONED and RESCRUB bits of pages by the index of R185. -/
  page : Tab (BitVec 2) := []
  opens : List OpenPage := []
  rce : Tab (Option RceEnt) := []
  stks : Tab StackSt := []
  /-- Golden images: word by port × 262,144 + index; none: lost (R197); unlisted: 0x0030. -/
  golden : Tab (Option Half) := []
  /-- The pinned-range table or the snapshot staging has been lost (R197). -/
  pinLost : Bool := false
  stageLost : Bool := false
  /-- Lines of the last 1,024 merged frames (R164). -/
  sizes : List Nat := []
  /-- Start of the last priority lap, end of the one before, start of the full lap, laps completed (R187, R189). -/
  prioStart : Nat := 0
  prioEnd : Nat := 0
  fullStart : Nat := 0
  fullLap : Nat := 0
  deriving DecidableEq, Repr

/-! ### Zwiuc: trued snapshots (spec/16) -/

/-- A snapshot from its execution to the writing of its block (R388 to R393).  `armed` are the ports to which the arming was sent,
`active` the ports in ACTIVE at T, `failed` those whose image timed out, `words` the Pelnos words (each plus one) at port × 32 + word;
`flags` the state at T; `built` the finished block. -/
structure Snap where
  seq : Nat
  tick : Nat
  instant : Nat
  /-- The TRUE command; none: periodic. -/
  cmd : Option Nat
  tag : Nat
  dest : Nat
  runId : Nat
  armed : Nat := 0
  armSent : Bool := false
  latched : Bool := false
  active : Nat := 0
  failed : Nat := 0
  flags : Nat := 0
  words : Tab Nat := []
  built : Option (List Byte) := none
  deriving DecidableEq, Repr

/-! ### Zwiuc: spindle time and the timing ring (spec/13) -/

/-- ECHO on one ring link (R309, R310): the next ID, requests outstanding (ID, T1 in 2⁻³² ns), the last round trips, newest first. -/
structure RingEcho where
  nextId : Nat := 0
  open_ : List (Nat × Int) := []
  rtts : List Int := []
  deriving DecidableEq, Repr

/-- The ring unit and the servo beside their registers. -/
structure RingSt where
  /-- Next SEQ of each transmitter (R97). -/
  seqE : Nat := 0
  seqW : Nat := 0
  echoE : RingEcho := {}
  echoW : RingEcho := {}
  /-- A MAP has been received (R302). -/
  mapSeen : Bool := false
  /-- When EN was last set (R318), and the bypass is closed (R322). -/
  enabled : Nat := 0
  bypass : Bool := true
  /-- Own LEASEs sent and not returned: LSEQ and time; when the last returned one was sent; when a LEASE last renewed (R319). -/
  leases : List (Nat × Nat) := []
  acted : Nat := 0
  renewed : Nat := 0
  /-- L of the lease in force, in ms. -/
  lms : Nat := 10
  /-- The headstock before the present one (R318). -/
  prevHs : Option Nat := none
  /-- SYNC: time of the last one consumed; last HOPS seen east-going and west-going; periods in which the other rotation was shorter
  (R303). -/
  lastSync : Nat := 0
  hopsE : Option Nat := none
  hopsW : Option Nat := none
  better : Nat := 0
  /-- SYNCs in a row within 100 ps in ACQUIRE, or consumed in steady rest (R311, R315). -/
  run16 : Nat := 0
  /-- The integral term in 2⁻³² ppb (R311). -/
  integ : Int := 0
  /-- Entry into LOCKED and into steady rest; outputs hold (R313, R315, R316). -/
  lockedAt : Nat := 0
  restAt : Nat := 0
  hold : Bool := false
  /-- Regression samples, newest first: crystal cycles and spindle time; the last valid estimate in 1/16 ppb and its time (R313, R314). -/
  samples : List (Nat × Nat) := []
  eps0 : Option (Int × Nat) := none
  /-- The S in force (R314): 0 none, 1 positive, 2 negative. -/
  slewNow : Nat := 0
  /-- Mirror items received since item 0, one bit each, and when a complete set was last held (R320). -/
  mirror : Tab (List Byte) := []
  mirrorHave : BitVec 16 := 0
  mirrorAt : Nat := 0
  /-- The STOP_TICK of a pending ring stop (R320). -/
  stopTick : Nat := 0
  /-- TIME_SET words written so far (R314). -/
  set0 : Nat := 0
  set1 : Nat := 0
  deriving DecidableEq, Repr

/-! ### Zwiuc: extraction and compression (spec/09, 11) -/

/-- The part of a section that one port gives: whole and untrusted after a POISON mark (R215), or carved (R217). -/
structure SubSec where
  port : Nat
  poison : Bool
  carved : Bool := false
  hws : List Nat
  deriving DecidableEq, Repr

/-- Where a section stands: waiting for a carving engine, with engine `e`, or ready for the stream. -/
inductive SecStage where
  | carve
  | engine (e : Nat)
  | done
  deriving DecidableEq, Repr

/-- A section that has been read: SFLAGS, masks, port sub-sections (R216); `pinned` whether its frame lies in a pinned range. -/
structure Section where
  frame : Nat
  flags : Nat
  present : Nat := 0
  missing : Nat := 0
  damaged : Nat := 0
  late : Nat := 0
  subs : List SubSec := []
  stage : SecStage := .done
  pinned : Bool := false
  deriving DecidableEq, Repr

/-- The states of a context (R206). -/
inductive CtxPhase where
  | lookup | wait | read | carve | compress | output | held
  deriving DecidableEq, Repr

/-- A BUFQ buffer in use by a stream: address, size, identifier, bytes used, SEQ. -/
structure HostBuf where
  addr : Nat
  size : Nat
  id : Nat
  used : Nat
  seq : Nat
  deriving DecidableEq, Repr

/-- A buffer on its way back in a BUF entry (R240). -/
structure BufRet where
  id : Nat
  used : Nat
  seq : Nat
  last : Bool
  bad : Bool
  deriving DecidableEq, Repr

/-- An extraction context (R206): the request, the sections read, the stream, and its delivery. -/
structure Ctx where
  num : Nat
  order : Nat
  cls : Nat
  ring : Bool
  tag : Nat
  wstart : Nat
  len : Nat
  ports : Nat
  carve : Nat
  comp : Bool
  level : Nat
  aux : Bool
  nowait : Bool
  runId : Nat
  phase : CtxPhase
  /-- When the context entered READ. -/
  since : Nat := 0
  /-- STATUS, once decided (R222). -/
  status : Option Nat := none
  waited : Bool := false
  /-- Touched frames that were unexpired at the look-up. -/
  live : List Nat := []
  /-- Spindle time of the epoch of its run. -/
  epoch : Nat := 0
  /-- Sections read and not yet in the stream, ascending; the next frame of the stream. -/
  secs : List Section := []
  next : Nat := 0
  /-- The extraction stream not yet cut into chunks, or not yet in a Deflate block; in it, the offsets of section headers and of section
  ends; and whether every section is in it. -/
  ready : List Byte := []
  hdrs : List Nat := []
  ends : List Nat := []
  complete : Bool := false
  /-- A marker of R220 has been inserted and no section header has followed it. -/
  qmark : Bool := false
  /-- What the completion reports (R223, R224). -/
  present : Nat := 0
  incomplete : Nat := 0
  nsect : Nat := 0
  nexp : Nat := 0
  nbey : Nat := 0
  poison : Bool := false
  raw : Bool := false
  skipped : Bool := false
  shaved : Bool := false
  qreset : Bool := false
  /-- Every present section is pinned and every expired one is not (R224). -/
  clipped : Bool := true
  /-- The compression stream held, with SECT_FLUSH, CHECK_EN and IDLE_US as they stood when it began (R267); its history, newest byte
  first; bits not yet cut into chunks; a flush lets them leave as a short chunk; the final block is written. -/
  zs : Option Nat := none
  zsect : Bool := false
  zcheck : Bool := false
  zidle : Nat := 0
  hist : List Byte := []
  zbits : List Bool := []
  zflush : Bool := false
  zdone : Bool := false
  /-- Stream offset of the block in progress, for COMP_CHECK. -/
  zoff : Nat := 0
  /-- Bytes granted to DMA that wait for a buffer; the last chunk has been granted; a separator buffer is due (R261). -/
  dma : List Byte := []
  granted : Bool := false
  sep : Bool := false
  /-- The last chunk has been pushed; the stream bits in its last byte. -/
  pushed : Bool := false
  endBits : Nat := 0
  buf : Option HostBuf := none
  seq : Nat := 0
  nbuf : Nat := 0
  bytes : Nat := 0
  /-- BUF entries that wait for CMPL. -/
  rets : List BufRet := []
  /-- Its place among the host requests fetched (R242); a ring request has none. -/
  fetched : Option Nat := none
  deriving DecidableEq, Repr

/-- A chunk in the output priority queue (R219): its context, bytes, arrival, and whether it is the stream's last. -/
structure Chunk where
  ctx : Nat
  bytes : List Byte
  time : Nat
  last : Bool
  deriving DecidableEq, Repr

/-- The extraction path beside its registers: contexts in order of arrival, the output priority queue in order of arrival, grants since
class 3 was last served at the queue and at the reads, the CARVE engine chosen last for each program, and host requests fetched. -/
structure Extract where
  ctxs : List Ctx := []
  queue : List Chunk := []
  turn : Nat := 0
  readTurn : Nat := 0
  chosen : Tab Nat := []
  fetched : Nat := 0
  deriving DecidableEq, Repr

/-! ### Zwiuc: gouge engines (spec/12) -/

/-- What the current message of a CARVE engine is: a section of a context. -/
structure Job where
  ctx : Nat
  frame : Nat
  deriving DecidableEq, Repr

/-- An input message (R280 to R283): its items that have not been popped, how many there were, the frame it carries, and the section it
stands for; `whole` while its EOM item has not been popped. -/
structure EngMsg where
  items : List Nat
  size : Nat
  frame : Nat
  job : Option Job := none
  /-- Ports of a CARVE section's input. -/
  ports : List Nat := []
  deriving DecidableEq, Repr

/-- An engine beside its registers (R270 to R272).  Memories are tables over addresses; what is not listed reads 0. -/
structure Engine where
  pc : Nat := 0
  regs : Tab Word := []
  imem : Tab Word := []
  dmem : Tab Byte := []
  /-- The current input message, and those behind it (R281, R284). -/
  cur : Option EngMsg := none
  inq : List EngMsg := []
  /-- The engine waits in YIELD. -/
  yielded : Bool := false
  /-- Items of the open output message, and the state of a CARVE message's output (R282). -/
  out : List Nat := []
  opened : Bool := false
  ended : Bool := false
  /-- FRAME_NUM of the last message that became current (R275). -/
  frame : Nat := 0
  deriving DecidableEq, Repr

/-- Where a change of level stands (R339): the clock is stopped in the two relocks. -/
inductive DvfsPhase where
  | idle | rampUp | relockUp | relockDown | rampDown
  deriving DecidableEq, Repr

/-- Power and level of a cluster beside its registers (R334, R335, R339, R340): the change in progress and the level it leads to, an
attempt that failed, a tripped PLL, cluster cycles in sixteenths, and the level to whose voltage the rail has settled. -/
structure GclSt where
  phase : DvfsPhase := .idle
  goal : Nat := 0
  failed : Bool := false
  tripped : Bool := false
  cyc : Nat := 0
  rail : Nat := 0
  deriving DecidableEq, Repr

/-! ### Zwiuc: environment monitor, clocks and power (spec/14, 15) -/

/-- One group's part of the dwell in progress (R358, R362 to R364): valid outputs, the last output, the flags that outputs carried, the
outputs that still carry SETTLE for a range change, and the range change that waits for the next period boundary. -/
structure MonGroup where
  vals : List Nat := []
  last : Nat := 0
  range : Bool := false
  limit : Bool := false
  limitRaised : Bool := false
  supply : Bool := false
  broken : Bool := false
  settle : Nat := 0
  pend : Option Nat := none
  /-- An ADC code of 0 or 4,095 in the interval of the coming output. -/
  clip : Bool := false
  deriving DecidableEq, Repr

/-- The monitor beside its registers. -/
structure MonSt where
  /-- A dwell is in progress, of index Z_MON_SCAN.INDEX; outputs that still carry SETTLE in both groups. -/
  dwell : Bool := false
  settle : Nat := 0
  g0 : MonGroup := {}
  g1 : MonGroup := {}
  /-- Z_MON_FILT and Z_MON_CHCFGc as they are in force (R361). -/
  filt : Nat := 705839
  chcfg : Tab Nat := []
  /-- Range last used, plus one, per channel (R358). -/
  rng : Tab Nat := []
  /-- Results not yet read. -/
  unread : BitVec 32 := 0
  injUnread : BitVec 8 := 0
  /-- Injected requests that wait, and the time of the last automatic request. -/
  injPend : BitVec 8 := 0
  injAt : Nat := 0
  /-- When REFBUF_EN was set, when the pass began. -/
  refAt : Nat := 0
  passAt : Nat := 0
  /-- Latest usable result plus one, per channel; time plus one of the latest usable module value; length of the pair's row of equal
  verdicts against PAIR_FAULT (R370, R372, R373). -/
  res : Tab Nat := []
  good : Tab Nat := []
  pairCnt : Tab Nat := []
  /-- A supply warning has been in force since the last output. -/
  sup : Bool := false
  /-- The hold, by its beginning, for which HOLD_LONG has been raised. -/
  long : Option Nat := none
  /-- The monitor SRAM (R368), by byte. -/
  sram : Tab Byte := []
  deriving DecidableEq, Repr

/-- Clocks, feeds and rails beside their registers (R333 to R344). -/
structure PwrSt where
  /-- The hold of R341: in force, since when; the feed whose loss began the gap, and the end of the gap. -/
  hold : Bool := false
  holdAt : Nat := 0
  gapFeed : Nat := 0
  gapEnd : Option Nat := none
  /-- Rails in warning: time of entry, plus one, and the minimum so far in 1/1,000 of nominal. -/
  warnAt : Tab Nat := []
  warnMin : Tab Nat := []
  /-- When the last warning cleared. -/
  clearAt : Nat := 0
  /-- The monitor clock has tripped and not returned (R335). -/
  monTrip : Bool := false
  /-- The clock that caused the safe state. -/
  safeCause : Nat := 0
  /-- The stacks whose contents a warm reset keeps (R403). -/
  kept : BitVec 8 := 0
  /-- PERST_N is low; the endpoint has started training (R411). -/
  perst : Bool := true
  training : Bool := false
  deriving DecidableEq, Repr

/-! ### The whole block -/

/-- The model raises no machine fault: the spec stops the block nowhere without saying what it does then. -/
inductive Fault where
  /-- Raised by no command; safe. -/
  | none
  deriving DecidableEq, Repr

/-- Why a command has no meaning. -/
inductive Refusal where
  /-- Raised by the dispatcher for a command whose meaning is not written; safe. -/
  | notModelled (mnemonic : String)
  deriving DecidableEq, Repr

/-- What the block gives off: what a pin, a link or the host receives, oldest first. -/
inductive Out where
  /-- A word read from a Pelnos window (R32). -/
  | chipWord (p : Port) (w : Half)
  /-- A charge, in electrons, put into the selected pixels of a Pelnos (R37, R67). -/
  | inject (p : Port) (charge : Nat)
  /-- A block on uplink lane `lane` of port `p` (R90). -/
  | uplink (p : Port) (lane : Nat) (b : Block) (crc : Half)
  /-- A block on the downlink of port `p` (R97). -/
  | downlink (p : Port) (b : Block) (crc : Half)
  /-- An ordered set in three slots (R111): SLEEP_REQ or WAKE with its OP, on the downlink or on the uplink lanes. -/
  | orderedSet (p : Port) (uplink wake : Bool) (op : Nat)
  /-- A symbol stream of K30.7 in place of the rest of a block (R99). -/
  | abort (k : Link)
  /-- A block on a ring port (R97). -/
  | ring (d : Side) (b : Block) (crc : Half)
  /-- A DRAM line delivered to its reader: channel, channel-local address, bytes, POISON (R183, R186). -/
  | line (ch addr : Nat) (bytes : List Byte) (poison : Bool)
  /-- A write to host memory (R248). -/
  | hostWrite (addr : Nat) (bytes : List Byte)
  /-- An MSI-X message (R247): the write of the vector's message data. -/
  | msix (vector addr data : Nat)
  /-- The data that a read of BAR0, BAR2 or BAR4 returns. -/
  | readData (bytes : List Byte)
  deriving DecidableEq, Repr

structure State where
  /-- The commands that wait, first in, first out. -/
  pending : List Instr := []
  /-- What has been given off (the model's own record). -/
  out : List Out := []
  /-- How many free values have been drawn (the model's own counter). -/
  free : Nat := 0
  /-- The Zwiuc register file and the snapshot mirror (R390), by field key. -/
  zreg : Tab Nat := []
  mirror : Tab Nat := []
  /-- Spindle time in 2⁻³² ns since the TAI origin (R298). -/
  time : Nat := 0
  run : RunSt := {}
  ring : RingSt := {}
  buf : Buffer := {}
  ev : EventUnit := {}
  host : HostIf := {}
  /-- Receivers: uplink lane l of port p at 8p + l, downlinks at 128 + p, RING_E 144, RING_W 145. -/
  lanes : Tab Lane := []
  /-- CTRL commands in CTRL order, and how many have been fetched. -/
  cmds : List Cmd := []
  cmdCount : Nat := 0
  xtr : Extract := {}
  /-- Engines 0 to 95, cluster-shared memories at cluster × 2²⁰ + address, and clusters. -/
  engines : Tab Engine := []
  shm : Tab Byte := []
  gcls : Tab GclSt := []
  mon : MonSt := {}
  pwr : PwrSt := {}
  /-- Snapshots in progress, oldest first (R388). -/
  snaps : List Snap := []
  ports : Vector PortIn 16 := Vector.replicate 16 {}
  chips : Vector Pelnos 16 := Vector.replicate 16 Pelnos.reset
  deriving DecidableEq, Repr

def State.reset : State := {}

end Sys2Proof.Machine
end

