-- ==== Sys2Proof/Machine/Pelnos.lean ====
section
/-!
DEFINITION. What the meanings on a Pelnos share: its registers and their views, its counter, settling windows, fast-OR
regions, frames and record store, and the CRCs of records and blocks (spec/02, 03, 04, 05).
Choices of the model: log entries 3 (DESIGN CHOICE), 5 (DEDUCED).
-/

namespace Sys2Proof.Machine

/-! ### Registers, time -/

/-- The stored value of a register field. -/
def Pelnos.get (c : Pelnos) (f : Field) : Nat := fget c.regs f

/-- Set a register field. -/
def Pelnos.put (c : Pelnos) (f : Field) (v : Nat) : Pelnos := { c with regs := fset c.regs f v }

/-- Count in a saturating register field. -/
def Pelnos.bump (c : Pelnos) (f : Field) (n : Nat) : Pelnos := { c with regs := fadd c.regs f n }

/-- The current tick count: frame number × 4,096 + COARSE (R45). -/
def Pelnos.now (c : Pelnos) : Nat := c.frame * 4096 + c.coarse

/-- Tick counts wrap with the 32-bit frame number. -/
def tickMod : Nat := 2 ^ 44

/-- How far tick `a` lies after tick `b`, around the wrap of the frame number. -/
def ticksSince (a b : Nat) : Nat := (a % tickMod + tickMod - b % tickMod) % tickMod

/-- How far frame `a` lies after frame `b`, around the 32-bit wrap. -/
def framesSince (a b : Nat) : Nat := (a % 2 ^ 32 + 2 ^ 32 - b % 2 ^ 32) % 2 ^ 32

/-- The matrix PLL is locked and the counter has been loaded since (R35, R44, R346): stamping is possible. -/
def Pelnos.locked (c : Pelnos) : Bool := c.get P.PLL_STAT.LOCK == 1 && c.get P.SYNC_STAT.LOADED == 1

/-! ### Pixels -/

/-- The index of a pixel (R24). -/
def pixIdx (col row : Nat) : Nat := col * 512 + row

/-- The configuration word of a pixel; 0x0030 after reset (R31). -/
def Pelnos.pixWord (c : Pelnos) (i : Nat) : Half := Tab.get 0x0030#16 c.pix i

def Pelnos.pixel (c : Pelnos) (i : Nat) : Pixel := Tab.get {} c.pixels i

def Pelnos.setPixel (c : Pelnos) (i : Nat) (p : Pixel) : Pelnos := { c with pixels := Tab.set {} c.pixels i p }

def Pelnos.dcol (c : Pelnos) (n : Nat) : DCol := Tab.get {} c.dcols n

def Pelnos.setDcol (c : Pelnos) (n : Nat) (d : DCol) : Pelnos := { c with dcols := Tab.set {} c.dcols n d }

def Pelnos.quad (c : Pelnos) (k : Nat) : Quad := Tab.get {} c.quads k

def Pelnos.setQuad (c : Pelnos) (k : Nat) (q : Quad) : Pelnos := { c with quads := Tab.set {} c.quads k q }

def Pelnos.builder (c : Pelnos) (g : Nat) : Builder := Tab.get {} c.builders g

def Pelnos.setBuilder (c : Pelnos) (g : Nat) (b : Builder) : Pelnos := { c with builders := Tab.set {} c.builders g b }

/-- The double-column of a pixel index and its quad (R24), the quad as DC × 256 + quad. -/
def dcOf (i : Nat) : Nat := i / 1024
def quadOf (i : Nat) : Nat := i / 1024 * 256 + i % 512 / 2

/-- The fast-OR region of a pixel index (R24). -/
def regionOf (i : Nat) : Nat := 4 * (i % 512 / 128) + i / 512 / 128

/-- R35: the conditions under which pixel `i` produces hits. -/
def Pelnos.enabled (c : Pelnos) (i : Nat) : Bool :=
  c.get P.FE_CFG.FE_EN == 1 && !bitAt (c.pixWord i).toNat 5 && !(c.pixel i).amask
    && c.get (P.DCn_CFG.DC_MASK.at (4 * dcOf i)) == 0 && c.get (P.DCn_CFG.DC_OFF.at (4 * dcOf i)) == 0 && c.locked

/-- The pixel takes no leading edge (R61). -/
def Pixel.occupied (p : Pixel) : Bool := p.meas.isSome || p.hold || p.tail || p.done.isSome

/-! ### Fast-OR regions (R40) -/

/-- The OR of region `r`: an enabled pixel with FOR_EN whose discriminator is high. -/
def Pelnos.forOr (c : Pelnos) (r : Nat) : Bool :=
  Tab.any (fun i p => p.high && regionOf i == r && c.enabled i && bitAt (c.pixWord i).toNat 8) c.pixels

/-- A blanking interval holds every region low. -/
def Pelnos.forBlank (c : Pelnos) : Bool :=
  (c.settleBlank && c.get P.FOR_CFG.SETTLE_BLANK == 1) || (c.calBlank && c.get P.FOR_CFG.CAL_BLANK == 1)

/-- The level of pad FOR_r. -/
def Pelnos.forPad (c : Pelnos) (r : Nat) : Bool :=
  bitAt (c.get P.FOR_EN.REG_EN) r && c.locked && !c.forBlank
    && (if c.get P.FOR_CFG.WIDTH = 0 then c.forOr r else c.forPulse.getLsbD r)

/-- The regions among `rs` whose OR rises from `c` to `c'` without blanking: each starts its one-shot pulse. -/
def forRisen (c c' : Pelnos) : List Nat → BitVec 16 → BitVec 16
  | [], m => m
  | r :: rs, m =>
    forRisen c c' rs
      (if c'.get P.FOR_CFG.WIDTH ≠ 0 ∧ c'.forOr r ∧ ¬ c.forOr r then m ||| BitVec.ofNat 16 (2 ^ r) else m)

/-- Carry the fast-OR one-shots over a change from `c` to `c'`: rising edges of an OR start pulses, an edge during a pulse
is merged into it, and blanking or an unlocked downlink cuts every pulse short (R40). -/
def forAfter (c c' : Pelnos) : Pelnos :=
  if c'.forBlank ∨ ¬ c'.locked then { c' with forPulse := 0 }
  else { c' with forPulse := forRisen c c' (List.range 16) c'.forPulse }

/-! ### Settling windows (R42, R43) -/

/-- The class of a change to the operating point: the length of its window in ticks, 0 for none. -/
def gainClass : Nat := 8192
def threshClass : Nat := 4096

/-- Open a settling window of `len` ticks now, or extend the open one to the later end. -/
def openSettle (ws : List (Nat × Nat)) (now len : Nat) : List (Nat × Nat) :=
  match ws.reverse with
  | (a, e) :: older =>
    if now ≤ e then older.reverse ++ [(a, max e (now + len - 1))] else ws ++ [(now, now + len - 1)]
  | [] => [(now, now + len - 1)]

/-- A change of class `len` takes effect now. -/
def Pelnos.settleBy (c : Pelnos) (len : Nat) : Pelnos :=
  if len = 0 then c else forAfter c { c with settle := openSettle c.settle c.now len, settleBlank := true }

/-- Frame `f` overlaps a settling window. -/
def Pelnos.settling (c : Pelnos) (f : Nat) : Bool :=
  c.settle.any fun w => decide (w.1 < (f + 1) * 4096) && decide (f * 4096 ≤ w.2)

/-! ### CRCs and record layouts (R79, R89) -/

/-- One step of the CRC-5: bit `b` enters. -/
def crc5Step (crc : Nat) (b : Nat) : Nat :=
  let fb := (crc / 16 % 2 + b) % 2
  let c := crc * 2 % 32
  if fb = 1 then c ^^^ 5 else c

/-- CRC-5 over the top `n` bits of a record of `w` bits, most significant first. -/
def crc5From (v : Nat) : Nat → Nat → Nat → Nat
  | 0, _, crc => crc
  | n + 1, w, crc => crc5From v n (w - 1) (crc5Step crc (v / 2 ^ (w - 1) % 2))

/-- A 64-bit record with its CRC-5 in [4:0]. -/
def seal64 (v : Nat) : Nat := v / 32 * 32 + crc5From v 59 64 0

/-- A 128-bit record with its CRC-5 in [4:0]. -/
def seal128 (v : Nat) : Nat := v / 32 * 32 + crc5From v 123 128 0

/-- The `n` halfwords of a record, most significant first (R5). -/
def halves (v : Nat) : Nat → List Nat
  | 0 => []
  | n + 1 => (v / 2 ^ (16 * n) % 65536) :: halves v n

/-- The bytes of a list of halfwords, each most significant byte first. -/
def halvesBytes (hs : List Nat) : List Byte :=
  hs.flatMap fun h => [BitVec.ofNat 8 (h / 256), BitVec.ofNat 8 h]

/-- `n` bytes of `v`, most significant first. -/
def beBytes (v : Nat) : Nat → List Byte
  | 0 => []
  | n + 1 => BitVec.ofNat 8 (v / 2 ^ (8 * n)) :: beBytes v n

/-- `n` bytes of `v`, least significant first. -/
def leBytes (v : Nat) : Nat → List Byte
  | 0 => []
  | n + 1 => BitVec.ofNat 8 v :: leBytes (v / 256) n

/-- The number that bytes spell, most significant first. -/
def beNat (bs : List Byte) : Nat := bs.foldl (fun a b => a * 256 + b.toNat) 0

/-- The number that bytes spell, least significant first. -/
def leNat (bs : List Byte) : Nat := bs.foldr (fun b a => a * 256 + b.toNat) 0

/-- `n` bytes of `bs` from position `i`. -/
def slice (bs : List Byte) (i n : Nat) : List Byte := (bs.drop i).take n

/-- One bit enters the CRC-16 (polynomial 0x1021). -/
def crc16Bit (crc : Nat) (b : Nat) : Nat :=
  let c := crc * 2 % 65536
  if (crc / 32768 + b) % 2 = 1 then c ^^^ 0x1021 else c

/-- The low `n` bits of `v` enter the CRC-16, most significant first. -/
def crc16Bits (crc v : Nat) : Nat → Nat
  | 0 => crc
  | n + 1 => crc16Bits (crc16Bit crc (v / 2 ^ n % 2)) v n

/-- The CRC-16 of a block: over SEQ and the payload, initial value 0xFFFF (R89). -/
def blockCrc (b : Block) : Half :=
  BitVec.ofNat 16 (b.payload.foldl (fun c x => crc16Bits c x.toNat 8) (crc16Bits 0xFFFF (b.seq % 256) 8))

/-- A payload of 16 bytes: `bs` followed by zeros. -/
def pad16 (bs : List Byte) : List Byte := (bs ++ List.replicate 16 0).take 16

/-- The CLUSTER head of an anchor with `nx` extra pixels (R80). -/
def headRec (h : Hit) (nx : Nat) : Nat :=
  seal64 (2 ^ 60 + h.col * 2 ^ 51 + h.row * 2 ^ 42 + h.tick % 4096 * 2 ^ 30 + h.fine * 2 ^ 22 + h.tot * 2 ^ 13
    + (b2n h.short + 2 * b2n h.long + 4 * b2n h.orphan + 8 * b2n h.lowres) * 2 ^ 9 + nx * 2 ^ 5)

/-- A SHAVING record (R81). -/
def shavingRec (src coarse count : Nat) (late : Bool) (age : Nat) : Nat :=
  seal64 (2 * 2 ^ 60 + src * 2 ^ 52 + coarse * 2 ^ 40 + count * 2 ^ 24 + b2n late * 2 ^ 23 + age * 2 ^ 20)

/-- The FRAME trailer (R81). -/
def trailerRec (frame rcount : Nat) (cal settling supply drop qreset : Bool) : Nat :=
  seal64 (3 * 2 ^ 60 + frame % 65536 * 2 ^ 44 + rcount % 2 ^ 20 * 2 ^ 24
    + (16 * b2n cal + 8 * b2n settling + 4 * b2n supply + 2 * b2n drop + b2n qreset) * 2 ^ 19)

/-- A MONITOR record (R81). -/
def monitorRec (chan code : Nat) (ovr : Bool) (coarse : Nat) : Nat :=
  seal64 (4 * 2 ^ 60 + chan * 2 ^ 54 + code * 2 ^ 42 + b2n ovr * 2 ^ 41 + coarse * 2 ^ 29)

/-- A READBACK record (R81). -/
def readbackRec (pix staged : Bool) (addr data tag : Nat) (err : Bool) : Nat :=
  seal64 (6 * 2 ^ 60 + b2n pix * 2 ^ 59 + b2n staged * 2 ^ 58 + addr * 2 ^ 40 + data * 2 ^ 24 + tag * 2 ^ 16
    + b2n err * 2 ^ 15)

/-- A PRIMITIVE record (R81). -/
def primitiveRec (region hits first : Nat) : Nat :=
  seal64 (7 * 2 ^ 60 + region * 2 ^ 56 + hits * 2 ^ 40 + first * 2 ^ 28)

/-! ### The record store (R83 to R85) -/

/-- Bytes a frame buffer takes. -/
def FrameBuf.bytes (f : FrameBuf) : Nat := f.recs.foldl (fun a r => a + 2 * r.hws.length) 0

/-- The bytes of the store that a block frees when it is handed to the distributor (R83): half of a FRAME block is header. -/
def blockStore (b : Block) : Nat :=
  match b.kind with
  | .frame => 8
  | .data => 16
  | _ => 0

/-- Bytes of the record store in use: open frames, closed frames, and blocks not yet handed to the distributor. -/
def Pelnos.storeBytes (c : Pelnos) : Nat :=
  c.frames.foldl (fun a f => a + f.2.bytes) 0 + c.closed.foldl (fun a f => a + 2 * f.2.length) 0 + c.sending.foldl (fun a b => a + blockStore b) 0

/-- P_STORE_STAT.PEAK: the highest occupancy since the last read, the present one included, in units of 256 bytes (R91). -/
def Pelnos.peak (c : Pelnos) : Nat := max (c.get P.STORE_STAT.PEAK) (min (c.storeBytes / 256) 1024)

/-- Keep P_STORE_STAT.PEAK. -/
def Pelnos.notePeak (c : Pelnos) : Pelnos := c.put P.STORE_STAT.PEAK c.peak

/-- The frame has closed: it lies behind the oldest open frame, or belongs to an older count (R84, R323). -/
def Pelnos.isClosed (c : Pelnos) (frame era : Nat) : Bool :=
  decide (era ≠ c.era) || decide (2 ^ 31 ≤ framesSince frame c.nextClose)

def Pelnos.frameBuf (c : Pelnos) (f : Nat) : FrameBuf := Tab.get {} c.frames f

def Pelnos.updFrame (c : Pelnos) (f : Nat) (g : FrameBuf → FrameBuf) : Pelnos :=
  { c with frames := Tab.upd {} c.frames f g }

/-- Append a record to its frame. -/
def Pelnos.addRec (c : Pelnos) (f : Nat) (r : PRec) : Pelnos :=
  (c.updFrame f fun b => { b with recs := b.recs ++ [r] }).notePeak

/-- Count a late item into P_LATE_COUNT and the pending LATE marker (R84). -/
def Pelnos.addLate (c : Pelnos) (r : PRec) : Pelnos :=
  let m : LateMark := match c.late with
    | some m => { m with count := sat 16 (m.count + r.hits) }
    | none => { src := r.src, coarse := r.coarse, frame := r.frame, count := sat 16 r.hits }
  { c.bump P.LATE_COUNT.COUNT r.hits with late := some m }

/-- The builders' share of the store: all but the last 4 KiB (R85). -/
def builderShare : Nat := 262144 - 4096

/-- A builder output reaches the assembler: late under R84, or held by a full store (R85), or placed in its frame. -/
def Pelnos.assemble (c : Pelnos) (g : Nat) (r : PRec) : Pelnos :=
  if c.isClosed r.frame r.era then c.addLate r
  else if (c.builder g).stalled ≠ [] ∨ builderShare < c.storeBytes + 2 * r.hws.length then
    { (c.put P.STORE_STAT.FULL 1).setBuilder g
        { c.builder g with stalled := (c.builder g).stalled ++ [r] } with storeFull := true }
  else c.addRec r.frame r

/-- The frame in which the periphery places a record now; a frame before frame 0 of an epoch hold sends nothing, so its
records go into frame 0 (R323). -/
def Pelnos.recFrame (c : Pelnos) : Nat :=
  if c.get P.SYNC_STAT.HOLD = 1 ∧ 2 ^ 31 ≤ c.frame then 0 else c.frame

/-- A record that the periphery places: READBACK, MONITOR, CAL_STAT (R85): its 64 or 128 bits as `n` halfwords. -/
def Pelnos.periph (c : Pelnos) (v n : Nat) : Pelnos :=
  c.addRec c.recFrame
    { hws := halves v n, frame := c.recFrame, hits := 0, src := 0, coarse := c.coarse, shaving := false, era := c.era }

end Sys2Proof.Machine
end

