-- ==== Sys2Proof/Machine/Ops.lean ====
section
/-!
DEFINITION. The operations that the meanings share: access to the parts of the state, free values, events (R381 to R383),
host writes, ring entries, the shadow area and MSI-X messages (R232 to R235, R246, R247).
Choices of the model: log entries 1 (DESIGN CHOICE), 12 (DESIGN CHOICE), 23 (DEDUCED).
-/

namespace Sys2Proof.Machine

/-- The outcome of a meaning. -/
abbrev Result := Host.Outcome State Fault Refusal

/-! ### Parts of the state: one updater per field, through which every meaning changes the state -/

def State.updOut (s : State) (f : List Out → List Out) : State := { s with out := f s.out }
def State.updFree (s : State) (f : Nat → Nat) : State := { s with free := f s.free }
def State.updZreg (s : State) (f : Tab Nat → Tab Nat) : State := { s with zreg := f s.zreg }
def State.updMirror (s : State) (f : Tab Nat → Tab Nat) : State := { s with mirror := f s.mirror }
def State.updTime (s : State) (f : Nat → Nat) : State := { s with time := f s.time }
def State.updRun (s : State) (f : RunSt → RunSt) : State := { s with run := f s.run }
def State.updRing (s : State) (f : RingSt → RingSt) : State := { s with ring := f s.ring }
def State.updBuf (s : State) (f : Buffer → Buffer) : State := { s with buf := f s.buf }
def State.updEv (s : State) (f : EventUnit → EventUnit) : State := { s with ev := f s.ev }
def State.updHost (s : State) (f : HostIf → HostIf) : State := { s with host := f s.host }
def State.updLanes (s : State) (f : Tab Lane → Tab Lane) : State := { s with lanes := f s.lanes }
def State.updCmds (s : State) (f : List Cmd → List Cmd) : State := { s with cmds := f s.cmds }
def State.updCmdCount (s : State) (f : Nat → Nat) : State := { s with cmdCount := f s.cmdCount }
def State.updXtr (s : State) (f : Extract → Extract) : State := { s with xtr := f s.xtr }
def State.updEngines (s : State) (f : Tab Engine → Tab Engine) : State := { s with engines := f s.engines }
def State.updShm (s : State) (f : Tab Byte → Tab Byte) : State := { s with shm := f s.shm }
def State.updGcls (s : State) (f : Tab GclSt → Tab GclSt) : State := { s with gcls := f s.gcls }
def State.updMon (s : State) (f : MonSt → MonSt) : State := { s with mon := f s.mon }
def State.updPwr (s : State) (f : PwrSt → PwrSt) : State := { s with pwr := f s.pwr }
def State.updSnaps (s : State) (f : List Snap → List Snap) : State := { s with snaps := f s.snaps }
def State.updPorts (s : State) (f : Vector PortIn 16 → Vector PortIn 16) : State := { s with ports := f s.ports }
def State.updChips (s : State) (f : Vector Pelnos 16 → Vector Pelnos 16) : State := { s with chips := f s.chips }

/-! ### Access to the parts -/

/-- The Pelnos on port `p`. -/
def State.chip (s : State) (p : Port) : Pelnos := s.chips[p.val]

/-- Change the Pelnos on port `p`. -/
def State.updChip (s : State) (p : Port) (f : Pelnos → Pelnos) : State := s.updChips fun v => vupd v p f

/-- The receive path of port `p`. -/
def State.port (s : State) (p : Port) : PortIn := s.ports[p.val]

/-- Change the receive path of port `p`. -/
def State.updPort (s : State) (p : Port) (f : PortIn → PortIn) : State := s.updPorts fun v => vupd v p f

/-- Give something off. -/
def State.emit (s : State) (o : Out) : State := s.updOut (· ++ [o])

/-- Draw a free value: the index under which `Config.free` is asked, which no draw before has used. -/
def State.draw (s : State) : Nat × State := (s.free, s.updFree (· + 1))

/-- The stored value of a Zwiuc register field. -/
def State.zget (s : State) (f : Field) : Nat := fget s.zreg f

/-- Set a Zwiuc register field. -/
def State.zput (s : State) (f : Field) (v : Nat) : State := s.updZreg fun r => fset r f v

/-- Count in a saturating Zwiuc register field. -/
def State.zbump (s : State) (f : Field) (n : Nat) : State := s.updZreg fun r => fadd r f n

/-- Count in a wrapping Zwiuc register field. -/
def State.zwrap (s : State) (f : Field) (n : Nat) : State := s.updZreg fun r => fwrap r f n

/-! ### Strided blocks (R425) -/

def Field.port (f : Field) (p : Nat) : Field := f.at (0x10000 + p * 0x400)
def Field.stack (f : Field) (n : Nat) : Field := f.at (0x20000 + n * 0x1000)
def Field.gcl (f : Field) (n : Nat) : Field := f.at (0x30000 + n * 0x800)
def Field.geng (f : Field) (e : Nat) : Field := f.at (0x34000 + e * 0x40)
def Field.hring (f : Field) (r : Nat) : Field := f.at (0x7000 + r * 0x20)
def Field.il (f : Field) (m : Nat) : Field := f.at (0x6200 + m * 0x10)

/-- A port lane field in the lane set of a ring port (R428). -/
def Field.ringLane (f : Field) (d : Side) : Field :=
  f.at (match d with | .east => 0x5000 | .west => 0x5040)

/-! ### Events (R381 to R383) -/

/-- Severities (R246). -/
def sevInfo : Nat := 0
def sevWarn : Nat := 1
def sevError : Nat := 2
def sevFatal : Nat := 3

/-- The fixed severity of a source (R381).  Where the table makes it depend on the detail, the raising rule gives it. -/
def sevOf (src : Nat) : Nat :=
  if src < 320 then
    let i := src % 20
    if i = 0 ∨ i = 5 ∨ i = 12 ∨ i = 17 ∨ i = 19 then sevInfo
    else if i = 2 ∨ i = 15 ∨ i = 16 then sevError else sevWarn
  else if src < 416 then
    let j := (src - 320) % 12
    if j = 3 ∨ j = 8 then sevInfo else if j = 1 ∨ j = 4 ∨ j = 5 then sevError else sevWarn
  else if src < 512 then sevInfo
  else if src = 515 ∨ src = 518 ∨ src = 521 ∨ src = 522 ∨ src = 534 ∨ src = 537 then sevInfo
  else if src = 525 ∨ src = 527 ∨ src = 529 ∨ src = 532 ∨ src = 536 ∨ src = 538 then sevError
  else sevWarn

/-- The PEND field, the EN field and the bit of a source in its block (R148, R177, R296, R326 and the tables they cite). -/
def evBits (src : Nat) : Field × Field × Nat :=
  if src < 320 then (ZP.EVSTAT.PEND.port (src / 20), ZP.EVEN.EN.port (src / 20), src % 20)
  else if src < 416 then
    (ZS.EVSTAT.PEND.stack ((src - 320) / 12), ZS.EVEN.EN.stack ((src - 320) / 12), (src - 320) % 12)
  else if src < 512 then (ZC.EVSTAT.PEND.gcl ((src - 416) / 24), ZC.EVEN.EN.gcl ((src - 416) / 24), (src - 416) % 24)
  else if src < 518 then (Z.RING_EVSTAT.PEND, Z.RING_EVEN.EN, src - 512)
  else if src < 524 then (Z.TIME_EVSTAT.PEND, Z.TIME_EVEN.EN, src - 518)
  else if src < 530 then (Z.HOST_EVSTAT.PEND, Z.HOST_EVEN.EN, src - 524)
  else if src < 536 then (Z.MON_EVSTAT.PEND, Z.MON_EVEN.EN, src - 530)
  else if src < 542 then (Z.PWR_EVSTAT.PEND, Z.PWR_EVEN.EN, src - 536)
  else (Z.COMP_EVSTAT.PEND, Z.COMP_EVEN.EN, src - 542)

/-- The vector and the DIRECT bit of a source (R383). -/
def State.evMap (s : State) (src : Nat) : Nat × Bool :=
  let v := match src % 4 with
    | 0 => (Z.EVT_MAPk.VECTOR0, Z.EVT_MAPk.DIRECT0)
    | 1 => (Z.EVT_MAPk.VECTOR1, Z.EVT_MAPk.DIRECT1)
    | 2 => (Z.EVT_MAPk.VECTOR2, Z.EVT_MAPk.DIRECT2)
    | _ => (Z.EVT_MAPk.VECTOR3, Z.EVT_MAPk.DIRECT3)
  (s.zget (v.1.at (4 * (src / 4))), s.zget (v.2.at (4 * (src / 4))) == 1)

/-- Send vector `v`, or set its pending bit while it is masked (R247, R422). -/
def State.message (s : State) (v : Nat) : State :=
  let e := Tab.get {} s.host.msix v
  if e.ctrl % 2 = 1 then s.updHost fun h => { h with pba := h.pba ||| BitVec.ofNat 64 (2 ^ v) }
  else s.emit (.msix v e.addr e.data)

/-- The messages due together: one per vector (R247). -/
def State.messages (s : State) (vs : List Nat) : State := vs.dedup.foldl (fun s v => s.message v) s

/-- R382: source `src` fires with severity `sev` and the given detail. -/
def State.raiseSev (s : State) (src sev : Nat) (detail : List Byte) : State :=
  let b := evBits src
  let s := s.zput b.1 (s.zget b.1 ||| 2 ^ b.2.2)
  if ¬ bitAt (s.zget b.2.1) b.2.2 then s
  else if sev < s.zget Z.EVT_CFG.MIN_SEV then s.zbump Z.EVT_STAT.FILTERED 1
  else if s.ev.queue.length < 256 then
    s.updEv fun e => { e with queue := e.queue ++ [⟨src, sev, s.time, (detail ++ List.replicate 12 0).take 12⟩] }
  else
    let s := s.updEv fun e => { e with lost := sat 16 (e.lost + 1) }
    if (s.evMap src).2 then s.message (s.evMap src).1 else s

/-- Fire with the fixed severity of the source. -/
def State.raise (s : State) (src : Nat) (detail : List Byte) : State := s.raiseSev src (sevOf src) detail

/-- A port event (R385) and a stack event (R386). -/
def State.raisePort (s : State) (p : Port) (i : Nat) (detail : List Byte) : State := s.raise (p * 20 + i) detail
def State.raiseStack (s : State) (n j : Nat) (detail : List Byte) : State := s.raise (320 + 12 * n + j) detail

/-- One byte. -/
def b8 (v : Nat) : Byte := BitVec.ofNat 8 v

/-! ### Host rings (R231 to R235) -/

/-- Entries between two free-running 32-bit indices. -/
def idxDiff (a b : Nat) : Nat := (a + 2 ^ 32 - b) % 2 ^ 32

def State.ringSize (s : State) (r : Nat) : Nat := 2 ^ s.zget (ZR.CFG.LOG2SIZE.hring r)

/-- The address of entry count `i` of ring `r`. -/
def State.ringAddr (s : State) (r i : Nat) : Nat := s.zget (ZR.BASE.BASE.hring r) * 4096 + 32 * (i % s.ringSize r)

/-- Zwiuc can reach host memory: the link is up (R249: contexts and commands wait while it is down), no safe state stops DMA. -/
def State.dmaOk (s : State) : Bool := s.zget Z.HOST_LINK.SPEED != 0 && !s.host.dmaStop

/-- The ring is enabled and not stopped by an error. -/
def State.ringUp (s : State) (r : Nat) : Bool :=
  s.zget (ZR.CFG.EN.hring r) == 1 && s.zget (ZR.CFG.ERR.hring r) == 0 && s.dmaOk

/-- A Zwiuc-written ring can take an entry (R232). -/
def State.ringRoom (s : State) (r : Nat) : Bool :=
  s.ringUp r && decide (idxDiff (s.zget (ZR.PIDX.INDEX.hring r)) (s.zget (ZR.CIDX.INDEX.hring r)) < s.ringSize r)

/-- The 64 bytes of the shadow area (R234). -/
def State.shadowBytes (s : State) : List Byte :=
  [0, 1, 2, 3, 4, 5].flatMap (fun r => leBytes (s.zget (ZR.CIDX.INDEX.hring r)) 4)
    ++ leBytes (s.zget (ZR.PIDX.INDEX.hring 6)) 4 ++ leBytes (s.zget (ZR.PIDX.INDEX.hring 7)) 4 ++ List.replicate 32 0

/-- SHADOW_UPDATE: after an index advance the whole shadow area is written (R234). -/
def State.shadow (s : State) : State :=
  if s.zget Z.HOST_SHADOW.EN = 1 ∧ s.dmaOk then
    s.emit (.hostWrite (s.zget Z.HOST_SHADOW.ADDR * 64) s.shadowBytes)
  else s

/-- PHASE of entry count `i` (R235): 1 in the first pass, toggling at every wrap. -/
def State.phase (s : State) (r i : Nat) : Nat := 1 - i / s.ringSize r % 2

/-- Write one entry to a Zwiuc-written ring: 31 bytes and the PHASE byte in one write, then the index and the shadow. -/
def State.ringPut (s : State) (r : Nat) (bytes : List Byte) : State :=
  let i := s.zget (ZR.PIDX.INDEX.hring r)
  let s := s.emit (.hostWrite (s.ringAddr r i) (((bytes ++ List.replicate 31 0).take 31) ++ [b8 (128 * s.phase r i)]))
  let s := s.zput (ZR.PIDX.INDEX.hring r) (i + 1)
  let at_ := if Tab.get 0 s.host.since r = 0 then Tab.set 0 s.host.waitAt r s.time else s.host.waitAt
  let s := s.updHost fun h => { h with since := Tab.upd 0 h.since r (· + 1), waitAt := at_ }
  s.shadow

/-- The vector of ring `r` is due by COUNT (R247): COUNT entries since its last message; 0 acts as 1. -/
def State.countDue (s : State) (r : Nat) : Bool :=
  decide (max 1 (s.zget (ZR.COAL.COUNT.hring r)) ≤ Tab.get 0 s.host.since r)

/-- The ring's message is sent: its count and its timeout start again. -/
def State.clearSince (s : State) (r : Nat) : State :=
  s.updHost fun h => { h with since := Tab.set 0 h.since r 0, waitAt := Tab.set 0 h.waitAt r s.time }

/-- Write an entry to CMPL, with its message when COUNT is reached. -/
def State.cmplPut (s : State) (bytes : List Byte) : State :=
  let s := s.ringPut 6 bytes
  if s.countDue 6 then (s.clearSince 6).message (s.zget (ZR.CFG.VECTOR.hring 6)) else s

/-- The 31 bytes of an EVT entry (R246). -/
def evtBytes (e : EvRec) (lost : Nat) : List Byte :=
  leBytes e.src 2 ++ [b8 e.sev, 0] ++ leBytes (e.time % 2 ^ 32 / 65536) 2 ++ leBytes (e.time / 2 ^ 32 % 1000000000) 4
    ++ leBytes (e.time / 2 ^ 32 / 1000000000) 6 ++ e.detail ++ leBytes lost 2 ++ [0]

/-! ### Host errors (R249, R250) -/

/-- BAD_ACCESS: bar, size in bytes, write, mirror, offset (R387 source 526). -/
def State.badAccess (s : State) (bar size : Nat) (write mirror : Bool) (off : Nat) : State :=
  (s.zput Z.HOST_ERR.BAD_ACCESS 1).raise 526
    ([b8 bar, b8 size, b8 (b2n write + 2 * b2n mirror), 0] ++ leBytes off 4)

/-- A write of BAR0 with the effect `f` (R336, R410): discarded in the safe state; discarded with BAD_ACCESS set before READY. -/
def State.bar0 (s : State) (f : State → State) : State :=
  if s.zget Z.CLK_SRC.SAFE = 1 then s
  else if s.zget Z.BOOT_STAT.STAGE ≠ 4 then s.zput Z.HOST_ERR.BAD_ACCESS 1
  else f s

/-- RING_ERR: ring, cause, index (R387 source 527). -/
def State.ringErr (s : State) (r cause idx : Nat) : State :=
  (s.zput Z.HOST_ERR.RING_ERR 1).raise 527 ([b8 r, b8 cause, 0, 0] ++ leBytes idx 4)

/-- AER with its cause (R387 source 525): a failed access also sets DMA_ERR. -/
def State.aer (s : State) (unc cor cause : Nat) : State :=
  s.raise 525 (leBytes unc 4 ++ leBytes cor 4 ++ [b8 cause])

/-! ### Time (R298) -/

/-- Units of spindle time, 2⁻³² ns, in a nanosecond and in a tick of 781.25 ps. -/
def nsUnits : Nat := 2 ^ 32
def tickUnits : Nat := 3355443200

/-- Spindle time in whole µs and ms. -/
def State.nowUs (s : State) : Nat := s.time / (1000 * nsUnits)

end Sys2Proof.Machine
end

