-- ==== Sys2Proof/Machine/Buffer.lean ====
section
/-!
DEFINITION. The event buffer: the address map (R153, R154), DRAM lines and their damage (R179), the page code (R180,
R181), page state (R185), reading and writing lines (R183, R184), rank retirement (R192), billets (R156, R159), the
frame directory (R160 to R163).

DRAM damage is held apart from the contents: both codes are linear, so the parity flags and the syndromes S0 and S1 of a
page are those of its damage alone.
Choices of the model: log entries 10 (DEDUCED), 14 (DESIGN CHOICE).
-/

namespace Sys2Proof.Machine

def State.stack (s : State) (n : Nat) : StackSt := Tab.get {} s.buf.stks n

def State.updStack (s : State) (n : Nat) (f : StackSt → StackSt) : State :=
  s.updBuf fun b => { b with stks := Tab.upd {} b.stks n f }

/-- A status field of channel `c` of stack `n`. -/
def chanF (f : Field) (n c : Nat) : Field := (f.at (4 * c)).stack n

/-! ### The address map (R154) -/

/-- H(k): the exclusive or of the 3-bit groups of `k`. -/
def hashK (k : Nat) : Nat := (List.range 6).foldl (fun a i => a ^^^ (k / 8 ^ i % 8)) 0

/-- The stack of billet `b`. -/
def State.billetStack (s : State) (b : Nat) : Nat :=
  if s.zget Z.BUF_MAP.HASH = 1 then (b % 8) ^^^ hashK (b / 8) else b % 8

/-- log₂ of the grain. -/
def State.grainLog (s : State) : Nat := 8 + min 8 (s.zget Z.BUF_MAP.GRAIN)

/-- The channel and the channel-local address of an event-region address. -/
def State.place (s : State) (a : Nat) : Nat × Nat :=
  let b := a / 65536
  let k := b / 8
  let g := s.grainLog
  let q := k % 4 * 65536 + a % 65536
  (4 * s.billetStack b + q / 2 ^ g % 4, k / 4 * 65536 + q / 2 ^ (g + 2) * 2 ^ g + q % 2 ^ g)

/-! ### Where a byte lies: dies and the spare (R193) -/

/-- The rank number 2 × channel + rank of a channel-local address of channel `ch`. -/
def rankOf (ch l : Nat) : Nat := 2 * (ch % 4) + l / 2 ^ 31

/-- The page within its rank. -/
def rankPage (l : Nat) : Nat := l % 2 ^ 31 / 2048

/-- Reads of this address are served by the stack's spare: a retired rank, or the part of it already copied. -/
def State.onSpare (s : State) (ch l : Nat) : Bool :=
  let n := ch / 4
  let sp := s.zget (ZS.ICTL.SPARE.stack n)
  s.zget (ZS.ICTL.SPARE_RANK.stack n) == rankOf ch l
    && (sp == 2 || (sp == 1 && decide (rankPage l < s.zget (ZS.MIG.PAGES.stack n))))

def oldKey (ch l : Nat) : Nat := ch * 2 ^ 32 + l
def spareKey (ch l : Nat) : Nat := (32 + ch / 4) * 2 ^ 32 + l % 2 ^ 31

/-- The damage key of the byte that a read of (ch, l) meets. -/
def State.dieKey (s : State) (ch l : Nat) : Nat := if s.onSpare ch l then spareKey ch l else oldKey ch l

/-- The damage that a read of (ch, l) meets. -/
def State.damage (s : State) (ch l : Nat) : BitVec 9 := Tab.get 0 s.buf.dmg (s.dieKey ch l)

/-- Set the damage of a byte: in the die that serves it, or, while its rank migrates, in both dies (R193). -/
def State.setDamage (s : State) (ch l : Nat) (m : BitVec 9) : State :=
  let mig := s.zget (ZS.ICTL.SPARE.stack (ch / 4)) == 1 && s.zget (ZS.ICTL.SPARE_RANK.stack (ch / 4)) == rankOf ch l
  s.updBuf fun b =>
    if mig then { b with dmg := Tab.set 0 (Tab.set 0 b.dmg (oldKey ch l) m) (spareKey ch l) m }
    else { b with dmg := Tab.set 0 b.dmg (s.dieKey ch l) m }

/-- The channel-local address of line `i` of a page: 0 to 31 data, 32 P, 33 Q (R180). -/
def pageAddr (page i : Nat) : Nat :=
  if i < 32 then page * 2048 + 64 * i
  else if page < 0x1E0000 then 0xF0000000 + 128 * page + 64 * (i - 32)
  else 0xFFF00000 + 128 * (page - 0x1FE000) + 64 * (i - 32)

/-- The page lies in the event region, in the metadata region. -/
def isEventPage (page : Nat) : Bool := decide (page < 0x1E0000)
def isMetaPage (page : Nat) : Bool := decide (0x1FE000 ≤ page ∧ page < 0x1FFE00)

/-- One upset strikes a page of channel `ch`. -/
def State.upset (s : State) (ch page : Nat) (u : Upset) : State :=
  let l := pageAddr page u.pos.val + u.col.val
  s.updBuf fun b => { b with dmg := Tab.upd 0 b.dmg (s.dieKey ch l) (· ^^^ u.mask) }

/-! ### The page code (R180, R181) -/

/-- Multiply by α. -/
def gfX (a : Nat) : Nat := if 128 ≤ a % 256 then (2 * a % 256) ^^^ 0x1D else 2 * a % 256

/-- Multiply by the low `n` bits of `b` in GF(2⁸). -/
def gfMulN (a b : Nat) : Nat → Nat
  | 0 => 0
  | n + 1 => (if b % 2 = 1 then a else 0) ^^^ gfMulN (gfX a) (b / 2) n

def gfMul (a b : Nat) : Nat := gfMulN a b 8

/-- α^k. -/
def gfPow : Nat → Nat
  | 0 => 1
  | k + 1 => gfX (gfPow k)

/-- The inverse of `a`: its 254th power. -/
def gfInvN (a : Nat) : Nat → Nat
  | 0 => 1
  | n + 1 => gfMul a (gfInvN a n)

def gfInv (a : Nat) : Nat := gfInvN a 254

/-- A 9-bit mask turns an odd number of bits: parity flags the byte (R179). -/
def oddMask (m : BitVec 9) : Bool := (List.range 9).foldl (fun a i => a != m.getLsbD i) false

/-- The mask of data bits `e` whose check bit goes with them: parity does not flag it. -/
def evenMask (e : Nat) : BitVec 9 :=
  let m := BitVec.ofNat 9 (e % 256)
  if oddMask m then m ||| 0x100#9 else m

/-- The code position of line `i` of a page. -/
def codePos (i : Nat) : Nat := 33 - i

/-- Decode one column from the damage of its symbols (line and mask): the errors to take out, or none (R181). -/
def decodeCol (ds : List (Nat × BitVec 9)) : Option (List (Nat × Nat)) :=
  let s0 := ds.foldl (fun a d => a ^^^ d.2.toNat % 256) 0
  let s1 := ds.foldl (fun a d => a ^^^ gfMul (d.2.toNat % 256) (gfPow (codePos d.1))) 0
  match (ds.filter fun d => oddMask d.2).map (·.1) with
  | [] =>
    if s0 = 0 ∧ s1 = 0 then some []
    else if s0 = 0 then none
    else ((List.range 34).find? fun k => gfMul s0 (gfPow k) == s1).map fun k => [(33 - k, s0)]
  | [i] => if s1 ^^^ gfMul s0 (gfPow (codePos i)) ≠ 0 then none else some [(i, s0)]
  | [i, j] =>
    let a := gfPow (codePos i)
    let e := gfMul (s1 ^^^ gfMul s0 a) (gfInv (a ^^^ gfPow (codePos j)))
    some [(i, s0 ^^^ e), (j, e)]
  | _ => none

/-- The damage of line `i` of a page: column and mask. -/
def State.lineDamage (s : State) (ch page i : Nat) : List (Nat × BitVec 9) :=
  let k := s.dieKey ch (pageAddr page i)
  (List.filter (fun e => decide (k ≤ e.1 ∧ e.1 < k + 64)) s.buf.dmg).map fun e => (e.1 - k, e.2)

/-- The page is open: its check symbols are the writer's accumulator (R182). -/
def State.openPage (s : State) (ch page : Nat) : Bool := s.buf.opens.any fun o => o.ch == ch && o.page == page

/-- The damage of a page: line, column, mask.  An open page has no stored check lines. -/
def State.pageDamage (s : State) (ch page : Nat) : List (Nat × Nat × BitVec 9) :=
  (List.range (if s.openPage ch page then 32 else 34)).flatMap fun i =>
    (s.lineDamage ch page i).map fun d => (i, d.1, d.2)

/-- Decode a page: the corrections (line, column, error), or none when a column is uncorrectable. -/
def decodeCols (ds : List (Nat × Nat × BitVec 9)) : List Nat → Option (List (Nat × Nat × Nat))
  | [] => some []
  | c :: cs =>
    match decodeCol ((ds.filter fun d => d.2.1 == c).map fun d => (d.1, d.2.2)), decodeCols ds cs with
    | some xs, some ys => some (xs.map (fun x => (x.1, c, x.2)) ++ ys)
    | _, _ => none

def decodePage (ds : List (Nat × Nat × BitVec 9)) : Option (List (Nat × Nat × Nat)) :=
  decodeCols ds (ds.map fun d => d.2.1).dedup

/-- The syndromes S0 and S1 of the 64 columns (R196). -/
def pageSyn (ds : List (Nat × Nat × BitVec 9)) : List (Nat × Nat) :=
  (List.range 64).map fun c =>
    (ds.filter fun d => d.2.1 == c).foldl (fun a d =>
      (a.1 ^^^ d.2.2.toNat % 256, a.2 ^^^ gfMul (d.2.2.toNat % 256) (gfPow (codePos d.1)))) (0, 0)

/-- The lines that parity flags, one bit each. -/
def pageFlags (ds : List (Nat × Nat × BitVec 9)) : Nat :=
  ds.foldl (fun a d => if oddMask d.2.2 then a ||| 2 ^ d.1 else a) 0

/-! ### Page state (R185) -/

/-- The page-state index of a page. -/
def pageIdx (ch page : Nat) : Nat :=
  if page < 0x1E0000 then ch * 1966080 + page else 62914560 + ch * 7680 + (page - 0x1FE000)

def State.pageBits (s : State) (ch page : Nat) : BitVec 2 := Tab.get 0 s.buf.page (pageIdx ch page)

def State.poisoned (s : State) (ch page : Nat) : Bool := (s.pageBits ch page).getLsbD 0

/-- Set the page-state bits; Z_INT_CNT.POISONED follows. -/
def State.setPageBits (s : State) (ch page : Nat) (v : BitVec 2) : State :=
  let s := s.updBuf fun b => { b with page := Tab.set 0 b.page (pageIdx ch page) v }
  s.zput Z.INT_CNT.POISONED (sat 16 (Tab.count (fun _ w => w.getLsbD 0) s.buf.page))

def State.setPoison (s : State) (ch page : Nat) : State := s.setPageBits ch page (s.pageBits ch page ||| 1#2)
def State.setRescrub (s : State) (ch page : Nat) : State := s.setPageBits ch page (s.pageBits ch page ||| 2#2)

/-! ### Stacks in service, retirement and loss (R192 to R196) -/

def State.inService (s : State) (n : Nat) : Bool := s.zget (ZS.CTL.SERVICE.stack n) == 1

/-- Set or clear a bit of a register field. -/
def State.zbit (s : State) (f : Field) (i : Nat) (v : Bool) : State :=
  let m := s.zget f
  s.zput f (if v then m ||| 2 ^ i else if bitAt m i then m - 2 ^ i else m)

def State.pasr (s : State) : Bool := s.zget Z.BUF_STAT.PASR == 1 || s.zget Z.BUF_STAT.GATHER == 1

/-- Scrubbing pauses while any migration runs (R187). -/
def State.scrubPause (s : State) : State :=
  s.zput Z.SCRUB_POS.PAUSED (b2n ((List.range 8).any fun n => s.zget (ZS.MIG.ACTIVE.stack n) == 1))

/-- The hard count of rank `r` of stack `n` (R199). -/
def hardF (n r : Nat) : Field :=
  let f := (if r < 4 then ZS.HARD0.COUNT else ZS.HARD1.COUNT).stack n
  { f with lsb := 0, wid := 32 }

def State.hard (s : State) (n r : Nat) : Nat := bits (s.zget (hardF n r)) (8 * (r % 4)) 8

def State.setHard (s : State) (n r v : Nat) : State :=
  let w := s.zget (hardF n r)
  let sh := 2 ^ (8 * (r % 4))
  s.zput (hardF n r) (w - s.hard n r * sh + v * sh)

def dirSlots : Nat := 196875

/-- The slot of the open run. -/
def State.openSlot (s : State) : Nat := (s.buf.dirSeq + dirSlots - 1) % dirSlots

/-- The open run closes and the billet being filled is left: the next frame opens a run in a new billet (R195). -/
def State.closeRun (s : State) : State :=
  let s := if s.buf.runOpen then
      s.updBuf fun b => { b with dir := Tab.upd {} b.dir s.openSlot fun e => { e with open_ := false }, runOpen := false }
    else s
  s.updBuf fun b => { b with pos := none }

/-- A stack leaves service (R195): its migration ends, its billets leave rotation, the open run closes if it is being filled
there, and STACK_LOSS names the cause. -/
def State.stackLoss (s : State) (n cause rank : Nat) : State :=
  if ¬ s.inService n then s
  else
    let here : Bool := match s.buf.pos with
      | some (b, _) => s.billetStack b == n
      | none => false
    let s := ((s.zput (ZS.CTL.SERVICE.stack n) 0).zbit Z.BUF_STAT.IN_SERVICE n false).zput (ZS.MIG.ACTIVE.stack n) 0
    let s := s.scrubPause.updStack n fun x => { x with due := [] }
    let s := if here then s.closeRun else s
    s.raiseStack n 4 [b8 cause, b8 rank]

/-- Rank `r` of stack `n` is retired (R192): the spare starts its migration, or the second retirement takes the stack out
(R194).  Errors in the rank being migrated start nothing; in partial-array self-refresh or a gather it waits (R198). -/
def State.retireRank (s : State) (n r cause : Nat) : State :=
  if ¬ s.inService n then s
  else if s.zget (ZS.MIG.ACTIVE.stack n) = 1 ∧ s.zget (ZS.MIG.RANK.stack n) = r then s
  else if s.pasr then
    s.updStack n fun x => { x with due := if x.due.any (fun d => d.1 == r) then x.due else x.due ++ [(r, cause)] }
  else if s.zget (ZS.ICTL.SPARE.stack n) = 0 then
    let s := ((s.zput (ZS.ICTL.SPARE.stack n) 1).zput (ZS.ICTL.SPARE_RANK.stack n) r).zput (ZS.MIG.PAGES.stack n) 0
    let s := ((s.zput (ZS.MIG.RANK.stack n) r).zput (ZS.MIG.ACTIVE.stack n) 1).scrubPause
    (s.updStack n fun x => { x with migStart := s.time, migCause := cause }).raiseStack n 2 [b8 r, b8 cause]
  else s.stackLoss n 0 r

/-- A channel of a stack that is not in service freezes (R196): refresh only, a latched record, FREEZE.  The command history is
open: the spec codes no command, so its words are free values. -/
def State.freeze (s : State) (n c cause l : Nat) (ds : List (Nat × Nat × BitVec 9)) : State :=
  if (Tab.get none (s.stack n).freeze c).isSome then s
  else
    let cmds := (List.range 16).map fun i => Config.free (s.free + i) % 2 ^ 30
    let s := s.updFree (· + 16)
    let rec_ : Freeze :=
      if cause = 4 then { cause := 4, addr := l, syn := [], flags := 0, cmds := [] }
      else { cause := cause, addr := l, syn := pageSyn ds, flags := pageFlags ds, cmds := cmds }
    let s := s.updStack n fun x => { x with freeze := Tab.set none x.freeze c (some rec_) }
    let s := (s.zput (chanF ZS.CHSTATc.STATE n c) 4).zbit (ZS.FRZ.FROZEN.stack n) c true
    s.raiseStack n 5 ([b8 (4 * n + c), b8 cause] ++ leBytes l 4)

/-- An uncorrectable page is found (R183, R184, R188, R193): POISONED, UE, and retirement of the rank or a freeze.
`finder`: 0 read, 1 write, 2 scrub, 3 copy. -/
def State.uncorrectable (s : State) (ch l finder : Nat) (ds : List (Nat × Nat × BitVec 9)) : State :=
  let n := ch / 4
  let s := (s.setPoison ch (l / 2048)).zbump (ZS.ECNT.UE.stack n) 1
  let s := s.raiseStack n 1 ([b8 ch] ++ leBytes l 4 ++ [b8 finder])
  if s.inService n then s.retireRank n (rankOf ch l) 1
  else if (s.stack n).ready then s
  else s.freeze n (ch % 4) (if finder = 0 then 0 else if finder = 2 then 1 else 2) l ds

/-! ### Corrections and hard bits (R190) -/

/-- The table entry of a location. -/
def State.rceFind (s : State) (ch l : Nat) : Option (Nat × RceEnt) :=
  s.buf.rce.findSome? fun e => match e.2 with
    | some r => if r.ch = ch ∧ r.addr = l then some (e.1, r) else none
    | none => none

/-- A correction of byte (ch, l) by error `e`: it counts in the table entry of the location, or in CE. -/
def State.countCorrection (s : State) (ch l e : Nat) : State :=
  match s.rceFind ch l with
  | some (k, r) =>
    let r' : RceEnt := { r with count := sat 32 (r.count + 1), bits_ := r.bits_ ||| e, lapLast := s.buf.fullLap % 65536 }
    s.updBuf fun b => { b with rce := Tab.set none b.rce k (some r') }
  | none => s.zbump (ZS.ECNT.CE.stack (ch / 4)) 1

/-- A location proves hard: it enters the table or overflows it, its rank's hard count rises, and a rank over its limit is
retired (R190, R192). -/
def State.makeHard (s : State) (ch l e : Nat) : State :=
  if (s.rceFind ch l).isSome then s
  else
    let n := ch / 4
    let r := rankOf ch l
    let h := min 255 (s.hard n r + 1)
    let s := s.setHard n r h
    let s := match (List.range 64).find? fun k => Tab.get none s.buf.rce k = none with
      | some k =>
        let ent : RceEnt := { ch := ch, addr := l, bits_ := e, count := 0, lapFirst := s.buf.fullLap % 65536,
                              lapLast := s.buf.fullLap % 65536 }
        (s.updBuf fun b => { b with rce := Tab.set none b.rce k (some ent) }).raiseStack n 0
          ([b8 ch] ++ leBytes l 4 ++ [b8 e, b8 r, b8 h])
      | none => (s.zbump Z.RCE_STAT.OVF 1).raiseStack n 11 ([b8 ch] ++ leBytes l 4)
    if s.zget (ZS.ICTL.HARD_LIMIT.stack n) < h then s.retireRank n r 0 else s

/-! ### Reading a line (R183, R186) -/

/-- The stored byte at a channel-local address. -/
def State.memByte (s : State) (ch l : Nat) : Byte := Tab.get 0 s.buf.mem (oldKey ch l)

/-- A corrected or raw byte: the stored one with what is left of its damage. -/
def dmgByte (b : Byte) (m e : Nat) : Byte := b ^^^ BitVec.ofNat 8 (m ^^^ e)

/-- The 64 bytes of the line at `l` with the errors `cs` (column, error) taken out. -/
def State.lineBytes (s : State) (ch l : Nat) (cs : List (Nat × Nat)) : List Byte :=
  let ds := s.lineDamage ch (l / 2048) (l % 2048 / 64)
  (List.range 64).map fun j =>
    let m := (ds.find? fun d => d.1 == j).elim 0 fun d => d.2.toNat % 256
    let e := (cs.find? fun c => c.1 == j).elim 0 (·.2)
    dmgByte (s.memByte ch (l + j)) m e

/-- A line is read: its bytes as delivered, and whether they carry POISON.  A flagged line escalates to a page decode; a
correction is counted and the page gets RESCRUB; an uncorrectable page is handled. -/
def State.readLine (s : State) (ch l : Nat) : (List Byte × Bool) × State :=
  let page := l / 2048
  let i := l % 2048 / 64
  let s := s.zwrap (ZS.RBYTES.BYTES.stack (ch / 4)) 64
  if ¬ (s.lineDamage ch page i).any fun d => oddMask d.2 then ((s.lineBytes ch l [], s.poisoned ch page), s)
  else
    let ds := s.pageDamage ch page
    let s := s.zwrap (ZS.RBYTES.BYTES.stack (ch / 4)) (if s.openPage ch page then 2048 else 2176)
    match decodePage ds with
    | some cs =>
      let mine := (cs.filter fun c => c.1 == i).map fun c => (c.2.1, c.2.2)
      let t := mine.foldl (fun t c => t.countCorrection ch (l + c.1) c.2) s
      ((s.lineBytes ch l mine, s.poisoned ch page), t.setRescrub ch page)
    | none => ((s.lineBytes ch l [], true), s.uncorrectable ch l 0 ds)

/-! ### Writing lines (R182) -/

/-- Store the bytes of a line: both dies of a migrating rank get them, and their damage ends. -/
def State.storeLine (s : State) (ch l : Nat) (bytes : List Byte) : State :=
  let s := s.updBuf fun b => { b with mem := bytes.zipIdx.foldl (fun m x => Tab.set 0 m (oldKey ch (l + x.2)) x.1) b.mem }
  let k := s.dieKey ch l
  let clear (d : Tab (BitVec 9)) (k : Nat) : Tab (BitVec 9) := List.filter (fun e => decide (e.1 < k ∨ k + 64 ≤ e.1)) d
  let mig := s.zget (ZS.ICTL.SPARE.stack (ch / 4)) == 1 && s.zget (ZS.ICTL.SPARE_RANK.stack (ch / 4)) == rankOf ch l
  let s := s.updBuf fun b =>
    if mig then { b with dmg := clear (clear b.dmg (oldKey ch l)) (spareKey ch l) } else { b with dmg := clear b.dmg k }
  s.zwrap (ZS.WBYTES.BYTES.stack (ch / 4)) 64

/-- Both check lines of a page are written: their damage ends (R182). -/
def State.sealPage (s : State) (ch page : Nat) : State :=
  let s := s.updBuf fun b => { b with opens := b.opens.filter fun o => !(o.ch == ch && o.page == page) }
  let clear (s : State) (l : Nat) : State :=
    (List.range 64).foldl (fun s j => s.setDamage ch (l + j) 0) s
  (clear (clear s (pageAddr page 32)) (pageAddr page 33)).zwrap (ZS.WBYTES.BYTES.stack (ch / 4)) 128

/-- The writer writes a whole line of the event region: line 0 opens its page and clears its page-state bits, line 31 seals
it (R182, R185). -/
def State.writeEventLine (s : State) (ch l : Nat) (bytes : List Byte) : State :=
  let page := l / 2048
  let i := l % 2048 / 64
  let s := if i = 0 then
      (s.updBuf fun b => { b with opens := b.opens ++ [(⟨ch, page, 0⟩ : OpenPage)] }).setPageBits ch page 0
    else s
  let s := s.storeLine ch l bytes
  let s := s.updBuf fun b => { b with opens := b.opens.map fun (o : OpenPage) =>
    if o.ch = ch ∧ o.page = page then { o with lines := i + 1 } else o }
  if i = 31 then s.sealPage ch page else s

/-! ### Billets (R156 to R159) -/

def billetCount : Nat := 1966080

def State.billet (s : State) (b : Nat) : Billet := Tab.get {} s.buf.billets b

def State.updBillet (s : State) (b : Nat) (f : Billet → Billet) : State :=
  s.updBuf fun x => { x with billets := Tab.upd {} x.billets b f }

/-- The billet is in rotation: not pinned, not lost, its stack in service and not skipped. -/
def State.inRotation (s : State) (b : Nat) : Bool :=
  let n := s.billetStack b
  (s.billet b).pin == 0 && !(s.billet b).lost && s.inService n && !bitAt (s.zget Z.BUF_STAT.SKIPPED) n

/-- The billets that hold the lines of a directory entry, following NEXT. -/
def State.chain (s : State) (b : Nat) : Nat → List Nat
  | 0 => []
  | n + 1 => b :: s.chain (s.billet b).next n

def State.entBillets (s : State) (e : DirEnt) : List Nat :=
  if e.lines = 0 then [] else s.chain e.billet ((e.line + e.lines + 1023) / 1024)

/-- A run expires (R162). -/
def State.expireSlot (s : State) (slot : Nat) (forced : Bool) : State :=
  s.updBuf fun b => { b with dir := Tab.upd {} b.dir slot fun e =>
    { e with expired := true, forced := e.forced || forced, open_ := false } }

/-- Every unexpired run with a line in billet `b` expires. -/
def State.expireBillet (s : State) (b : Nat) : State :=
  let slots := (List.filter (fun x => x.2.valid && !x.2.expired && (s.entBillets x.2).contains b) s.buf.dir).map (·.1)
  slots.foldl (fun s k => s.expireSlot k false) s

/-- The next billet in rotation at or after `b`, and the billets of stacks out of service that the allocator passes. -/
def State.findBillet (s : State) (b : Nat) : Nat → List Nat → Option Nat × List Nat
  | 0, ps => (none, ps)
  | n + 1, ps =>
    if s.inRotation b then (some b, ps)
    else
      let ps := if ¬ s.inService (s.billetStack b) ∧ (s.billet b).pin = 0 then b :: ps else ps
      s.findBillet ((b + 1) % billetCount) n ps

/-- The allocator hands out the next billet in rotation: GEN counts, the billet before it links to it, and the runs in it
expire; so do runs in unpinned billets passed over on a stack that is out of service (R156, R157, R162, R195). -/
def State.allocate (s : State) : State × Option Nat :=
  let start := match s.buf.alloc with
    | some b => (b + 1) % billetCount
    | none => 0
  let r := s.findBillet start billetCount []
  match r.1 with
  | none => (s, none)
  | some b =>
    let s := r.2.foldl (fun s x => s.expireBillet x) s
    let s := s.expireBillet b
    let s := match s.buf.alloc with
      | some a => s.updBillet a fun x => { x with next := b }
      | none => s
    let s := s.updBillet b fun x => { x with gen := (x.gen + 1) % 2 ^ 32 }
    (s.updBuf fun x => { x with alloc := some b, pos := some (b, 0) }, some b)

/-- The billet and line for the next line of the writer, allocating when the billet is full. -/
def State.nextLine (s : State) : State × Option (Nat × Nat) :=
  match s.buf.pos with
  | some (b, l) => if l < 1024 then (s, some (b, l)) else
      match s.allocate with
      | (t, some b) => (t, some (b, 0))
      | (t, none) => (t, none)
  | none =>
    match s.allocate with
    | (t, some b) => (t, some (b, 0))
    | (t, none) => (t, none)

/-- Place the lines of a frame after the previous one, in the writer's buffer; the answer is where its header stands. -/
def State.placeLines (s : State) : List (List Byte) → State
  | [] => s
  | x :: xs =>
    match s.nextLine with
    | (t, some (b, l)) =>
      (t.updBuf fun y => { y with wbuf := y.wbuf ++ [{ addr := b * 65536 + 64 * l, bytes := x }], pos := some (b, l + 1) })
        |>.placeLines xs
    | (t, none) => t

/-- A line of the event region as a reader sees it: from the writer's buffer, or read from DRAM. -/
def State.readEvent (s : State) (a : Nat) : (List Byte × Bool) × State :=
  match s.buf.wbuf.find? fun w => w.addr == a with
  | some w => ((w.bytes, false), s)
  | none => s.readLine (s.place a).1 (s.place a).2

/-! ### The frame directory (R160, R161, R210) -/

/-- The unexpired entries of run `id`, oldest first. -/
def State.runEntries (s : State) (id : Nat) : List DirEnt :=
  ((List.filter (fun x => x.2.valid && x.2.runId == id) s.buf.dir).map (·.2)).insertionSort fun a b => a.seq ≤ b.seq

/-- The entry that lists frame `f` of run `id`: the newest; expired ones are answered too. -/
def State.findFrame (s : State) (id f : Nat) : Option DirEnt :=
  ((s.runEntries id).reverse).find? fun e => decide (e.first ≤ f ∧ f < e.first + e.frames)

/-- The copy of an entry in the pinned directory that lists frame `f` of run `id` within its range. -/
def State.findPinned (s : State) (id f : Nat) : Option DirEnt :=
  s.buf.pdir.findSome? fun x => match Tab.get none s.buf.pins x.1 with
    | some r => match r.got with
      | some g =>
        if r.runId = id ∧ g.1 ≤ f ∧ f ≤ g.2 ∧ x.2.first ≤ f ∧ f < x.2.first + x.2.frames then some x.2 else none
      | none => none
    | none => none

/-- The position `k` lines after line `l` of billet `b`, following NEXT. -/
def State.stepLines (s : State) (b l : Nat) : Nat → Nat × Nat
  | 0 => (b, l)
  | k + 1 => if l + 1 < 1024 then s.stepLines b (l + 1) k else s.stepLines (s.billet b).next 0 k

def lineAddr (x : Nat × Nat) : Nat := x.1 * 65536 + 64 * x.2

/-- The header line of the `n`-th frame after the one at `x`, following TOTAL_LINES (R161). -/
def State.frameAt (s : State) (x : Nat × Nat) : Nat → Nat × Nat
  | 0 => x
  | n + 1 => s.frameAt (s.stepLines x.1 x.2 (max 1 (leNat (slice (s.readEvent (lineAddr x)).1.1 36 4)))) n

/-! ### Metadata (R155) -/

/-- Any access to a kept rank brings the kept ranks out of self-refresh (R175). -/
def State.touchKept (s : State) : State :=
  if s.zget Z.BUF_PASR.ACTIVE = 1 then s.zput Z.BUF_PASR.AWAKE 1 else s

/-- The golden word of a pixel; none while lost. -/
def State.goldenWord (s : State) (p i : Nat) : Option Half := Tab.get (some 0x0030#16) s.buf.golden (p * 262144 + i)

def State.setGolden (s : State) (p i : Nat) (w : Half) : State :=
  s.updBuf fun b => { b with golden := Tab.set (some 0x0030#16) b.golden (p * 262144 + i) (some (w &&& 0x01FF#16)) }

end Sys2Proof.Machine
end

