-- ==== Sys2Proof/Machine/Downlink.lean ====
section
/-!
DEFINITION. Sending on a downlink: blocks and their SEQ (R97), quiet (R115), the queue of downlink commands with its TAGs
and its order (R244, R245, R396), and what a port's failure does to the commands that address it (R243).
Choices of the model: log entries 8 (DEDUCED), 11 (DEDUCED).
-/

namespace Sys2Proof.Machine

/-- The port is in ACTIVE. -/
def State.linkUp (s : State) (p : Port) : Bool := s.zget (ZP.STAT.LINK.port p) == 1

/-- The downlink leaves quiet: WAKE(0xA5) goes out before the next block (R115). -/
def State.dlLeaveQuiet (s : State) (p : Port) : State :=
  if s.zget (ZP.DLSTAT.QUIET.port p) = 1 then
    (s.zput (ZP.DLSTAT.QUIET.port p) 0).emit (.orderedSet p false true 0xA5)
  else s

/-- Send a block on the downlink; SYNC and DATA blocks advance SEQ, the others carry the last one (R97). -/
def State.dlBlock (s : State) (p : Port) (kind : BlkKind) (payload : List Byte) : State :=
  let s := s.dlLeaveQuiet p
  let n := (s.port p).dlSeq
  if kind = .sync ∨ kind = .data then
    let b : Block := { kind := kind, seq := n, payload := pad16 payload }
    (s.updPort p fun q => { q with dlSeq := (n + 1) % 256 }).emit (.downlink p b (blockCrc b))
  else
    let b : Block := { kind := kind, seq := (n + 255) % 256, payload := pad16 payload }
    s.emit (.downlink p b (blockCrc b))

/-- The lowest TAG not outstanding on a port (R245). -/
def freeTag (os : List Outst) : Option Nat := (List.range 256).find? fun t => !os.any fun o => o.tag == t

/-- How many READBACK replies a downlink command brings (R245). -/
def replies (op : Nat) (bytes : List Byte) : Nat := if op = 4 then (bytes.headD 0).toNat else 1

/-- A commit is pending on the port (R396). -/
def State.shWaits (s : State) (p : Port) : Bool :=
  (s.port p).commitPend || ((s.port p).commitTill != 0 && decide (s.time ≤ (s.port p).commitTill))

/-- Send the waiting downlink commands of port `p` in order, at most `fuel` of them: while the port is in ACTIVE, a TAG is
free, and the next one is not an SH write behind a pending commit. -/
def State.dlPump (s : State) (p : Port) : Nat → State
  | 0 => s
  | fuel + 1 =>
    match (s.port p).dlWait, freeTag (s.port p).outst with
    | i :: rest, some t =>
      if s.linkUp p ∧ ¬ (i.sh ∧ s.shWaits p) then
        let o : Outst := { tag := t, purpose := i.purpose, op := i.op, left := replies i.op i.bytes, sent := s.time }
        let s := s.updPort p fun q => { q with dlWait := rest, outst := q.outst ++ [o] }
        (s.dlBlock p .data ([b8 i.op, b8 t] ++ i.bytes)).dlPump p fuel
      else s
    | _, _ => s

/-- Queue downlink commands on port `p` and send what can be sent. -/
def State.dlSend (s : State) (p : Port) (is : List DlItem) : State :=
  let s := s.updPort p fun q => { q with dlWait := q.dlWait ++ is }
  s.dlPump p (s.port p).dlWait.length

/-- The payload of a REG_WR from byte 2 (R245): up to three address and data pairs. -/
def regWrBytes (pairs : List (Nat × Nat)) : List Byte :=
  [b8 pairs.length, 0] ++ pairs.flatMap fun x => beBytes x.1 2 ++ beBytes x.2 2

/-- The word addresses whose fields have staged copies (R439, R440). -/
def isShWord (a : Nat) : Bool := decide (0x10 ≤ a ∧ a ≤ 0x13)

/-- A REG_WR of `pairs` as a queue item. -/
def regWr (pu : Purpose) (pairs : List (Nat × Nat)) : DlItem :=
  { purpose := pu, op := 1, bytes := regWrBytes pairs, sh := pairs.any fun x => isShWord x.1 }

/-- Write P_ACTIVE_LANES (R105, R108). -/
def State.writeMask (s : State) (p : Port) (m : Nat) : State :=
  (s.updPort p fun q => { q with mask := m }).dlSend p [regWr .own [(0x033, m)]]

/-! ### Commands and their ports (R243) -/

/-- A command that waits for replies finishes when none is awaited: OK, or PORT_FAIL with the ports that failed. -/
def Cmd.settle (c : Cmd) : Cmd :=
  if c.started ∧ c.result = none ∧ c.left = [] ∧ ((1 ≤ c.opcode ∧ c.opcode ≤ 3) ∨ (c.opcode = 4 ∧ c.armed ∧ ¬ c.held)) then
    { c with result := some (if c.fail = 0 then 0 else 1) }
  else c

/-- Port `p` fails the command. -/
def Cmd.failPort (c : Cmd) (p : Nat) : Cmd :=
  { c with fail := c.fail ||| 2 ^ p, left := Tab.set 0 c.left p 0 }.settle

/-- Change the command with number `id`. -/
def State.updCmd (s : State) (id : Nat) (f : Cmd → Cmd) : State :=
  s.updCmds fun l => l.map fun (c : Cmd) => if c.id = id then f c else c

/-- The commands that a port's outstanding and waiting downlink traffic belongs to. -/
def PortIn.cmdIds (q : PortIn) : List Nat :=
  (q.outst.map (·.purpose) ++ q.dlWait.map (·.purpose)).filterMap fun x =>
    match x with
    | .cmd i => some i
    | _ => none

/-- The port has left ACTIVE: every command with traffic on it fails there, and the traffic is dropped (R243). -/
def State.failTraffic (s : State) (p : Port) : State :=
  let ids := (s.port p).cmdIds
  let s := s.updCmds fun l => l.map fun (c : Cmd) => if c.id ∈ ids then c.failPort p else c
  s.updPort p fun q => { q with dlWait := [], outst := [], commitPend := false, commitTill := 0 }

end Sys2Proof.Machine
end

