-- ==== Sys2Proof/Machine/Pixel.lean ====
section
/-!
DEFINITION. The pixel matrix and its time measurement: edges, occupation, masking, pixel words, injection, fast-OR
(spec/02 and the per-hit part of spec/03).
Choices of the model: log entries 1 (DESIGN CHOICE), 5 (DEDUCED).
-/

namespace Sys2Proof.Machine

/-! ### Stamping (R47, R48, R50, R51) -/

/-- The tick an edge lies in: `latched` is the count latched at the sampling clock edge, `k` the taps passed; with 32 or 33
taps the edge lies in the tick before (R47). -/
def edgeTick (latched k : Nat) : Nat := if 32 ≤ k then latched + tickMod - 1 else latched

/-- The tap within its tick. -/
def edgeTap (k : Nat) : Nat := if 32 ≤ k then 63 - k else 31 - k

/-- FINE of an edge with taps `k` and interpolator code `m` (R47). -/
def edgeFine (k m : Nat) : Nat := if 32 ≤ k then 511 - (8 * k + m) else 255 - (8 * k + m)

/-- Latch a tick count around the wrap. -/
def wrapTick (t : Nat) : Nat := t % tickMod

/-- The DLL of the pixel's double-column is locked. -/
def Pelnos.dllLocked (c : Pelnos) (dc : Nat) : Bool := c.get (P.DCn_DLL.LOCK.at (4 * dc)) == 1

/-- The start that a leading edge gives (R47, R48, R51): with an unlocked DLL FINE is 0x80 and LOWRES is set; without the
interpolator FINE[2:0] is 0b100 and LOWRES is set. -/
def startOf (tick k m : Nat) (dll won : Bool) : Meas :=
  if ¬ dll then { tick := wrapTick (edgeTick tick k), fine := 0x80, lowres := true, dll := false }
  else if won then { tick := wrapTick (edgeTick tick k), fine := edgeFine k m, lowres := false, dll := true }
  else { tick := wrapTick (edgeTick tick k), fine := 8 * edgeTap k + 4, lowres := true, dll := true }

/-! ### The calibration statistics of a slot pixel (R68) -/

/-- The slot statistics after a hit with relative time `t`. -/
def CsuSlot.count (x : CsuSlot) (t : Nat) : CsuSlot :=
  { x with n := x.n + 1, sum := x.sum + t, sumsq := x.sumsq + t * t,
           lo := if x.n = 0 then t else min x.lo t, hi := max x.hi t }

/-- A stamped hit of pixel `(col, row)` meets the statistics unit: within 65,536 bins after the pulse it counts, or sets
LOWRES_SEEN when it carries LOWRES. -/
def Pelnos.csuHit (c : Pelnos) (col row : Nat) (h : Meas) : Pelnos :=
  match c.csu with
  | some { started := true, pulse := some t0, .. } =>
    let d := ticksSince h.tick t0
    if d < 2 ^ 43 ∧ d * 256 + h.fine < 65536 then
      { c with slots := Tab.mapVals {} (fun _ x =>
          if x.valid ∧ x.col = col ∧ x.row = row then
            (if h.lowres then { x with lowres := true } else x.count (d * 256 + h.fine))
          else x) c.slots }
    else c
  | _ => c

/-! ### Hits -/

/-- The hit of a start with the given ToT (R54 to R56). -/
def hitOf (i tot : Nat) (long : Bool) (m : Meas) (era : Nat) : Hit :=
  { col := i / 512, row := i % 512, tick := m.tick, fine := m.fine, tot := tot, short := tot == 0, long := long,
    orphan := false, lowres := m.lowres, era := era }

/-- A completed hit goes to the hit register, or waits in the circuit while the register is occupied (R61). -/
def Pixel.complete (p : Pixel) (h : Hit) : Pixel :=
  match p.reg with
  | none => { p with reg := some h }
  | some _ => { p with done := some h }

/-- The time over threshold of a start with a trailing edge at tick `t`, sub-bin `s` (R48, R54), saturating at 511. -/
def totOf (m : Meas) (t s : Nat) : Nat :=
  let d := if m.dll then (8 * ticksSince t m.tick + s) - m.fine / 32 else 8 * ticksSince t m.tick
  min d 0x1FF

/-- R61, R50: a leading edge at pixel `i`: lost to occupation and counted, or stamped; it claims a free interpolator. -/
def Pelnos.leadingEdge (c : Pelnos) (i tick k m : Nat) : Pelnos :=
  let p := c.pixel i
  let up := { p with high := true }
  if p.high then c
  else if ¬ c.enabled i then c.setPixel i up
  else if p.occupied then (c.setPixel i up).bump (P.DCn_PILEUP.COUNT.at (4 * dcOf i)) 1
  else
    let q := c.quad (quadOf i)
    let fineEn := c.get P.TDC_CFG.FINE_EN == 1
    let won := fineEn && decide (q.interp = .free)
    let start := startOf tick k m (c.dllLocked (dcOf i)) won
    let c : Pelnos := c.setPixel i { up with meas := some start, hold := true }
    let c : Pelnos := if won then c.setQuad (quadOf i) { q with interp := .pixel } else c
    let c : Pelnos := if fineEn && decide (q.interp = .cal) then c.bump P.CAL_COLLIDE.COUNT 1 else c
    c.csuHit (i / 512) (i % 512) start

/-- R54 to R58: a falling discriminator completes the hit in progress, ends a timed-out occupation without a record, or
yields an ORPHAN when the pixel holds no valid start. -/
def Pelnos.trailingEdge (c : Pelnos) (i tick k : Nat) : Pelnos :=
  let p := c.pixel i
  let dn := { p with high := false }
  if ¬ p.high then c
  else match p.meas with
    | some m =>
      let tot := totOf m (wrapTick (edgeTick tick k)) (edgeTap k / 4)
      c.setPixel i ({ dn with meas := none }.complete (hitOf i tot (tot == 0x1FF) m c.era))
    | none =>
      if p.tail then c.setPixel i { dn with tail := false }
      else if p.occupied ∨ ¬ c.enabled i then c.setPixel i dn
      else
        c.setPixel i (dn.complete
          { col := i / 512, row := i % 512, tick := wrapTick (edgeTick tick k), fine := 32 * (edgeTap k / 4) + 16,
            tot := 0, short := false, long := false, orphan := true, lowres := false, era := c.era })

/-- R55: no trailing edge within 49.90 ns: the hit is emitted with TOT 0x1FF and LONG, and the pixel stays occupied. -/
def Pelnos.totTimeout (c : Pelnos) (i : Nat) : Pelnos :=
  let p := c.pixel i
  match p.meas with
  | some m => c.setPixel i ({ p with meas := none, tail := true }.complete (hitOf i 0x1FF true m c.era))
  | none => c

/-- R61: the 25 ns after the leading edge end; a hit waiting in the circuit moves to a free hit register. -/
def Pelnos.occupationEnd (c : Pelnos) (i : Nat) : Pelnos :=
  let p := c.pixel i
  match p.reg, p.done with
  | none, some h => c.setPixel i { p with hold := false, reg := some h, done := none }
  | _, _ => c.setPixel i { p with hold := false }

/-- R36, R88: a pixel held high with its output enabled is auto-masked; its report is queued, or AM_OVF becomes pending. -/
def Pelnos.autoMask (c : Pelnos) (i : Nat) : Pelnos :=
  let p := c.pixel i
  if c.get P.FE_CFG.AMASK_EN = 1 ∧ p.high ∧ c.enabled i then
    let c : Pelnos := c.setPixel i { p with amask := true }
    if c.amQueue.length < 16 then { c with amQueue := c.amQueue ++ [(i / 512, i % 512)] } else { c with amOvf := true }
  else c

/-- R36: release every auto-masked pixel. -/
def Pelnos.clearAll (c : Pelnos) : Pelnos :=
  { c with pixels := Tab.mapVals {} (fun _ p => { p with amask := false }) c.pixels }

/-! ### Pixel words (R31 to R34) -/

/-- The class of a pixel-word change (R42): GAIN_LO gain, TRIM threshold; none in a powered-down double-column (R34). -/
def Pelnos.pixClass (c : Pelnos) (i : Nat) (old new : Half) : Nat :=
  if c.get (P.DCn_CFG.DC_OFF.at (4 * dcOf i)) = 1 then 0
  else if old.getLsbD 7 ≠ new.getLsbD 7 then gainClass
  else if old.extractLsb' 0 5 ≠ new.extractLsb' 0 5 then threshClass
  else 0

/-- Store a pixel word: reserved bits stay zero (R6), the auto-mask is released (R36), and a change of the operating point
opens its settling window (R43). -/
def Pelnos.writePix (c : Pelnos) (i : Nat) (w : Half) : Pelnos :=
  let new := w &&& 0x01FF#16
  let len := c.pixClass i (c.pixWord i) new
  forAfter c
    ((({ c with pix := Tab.set 0x0030#16 c.pix i new }).setPixel i { c.pixel i with amask := false }).settleBy len)

/-- The pixel index after `i` under step `inc` (R32): by row, by column, wrapping; 0 does not step. -/
def pixStep (inc i : Nat) : Nat :=
  if inc = 0 then i
  else if inc = 2 then ((i / 512 + 1) % 512) * 512 + (if i / 512 = 511 then (i % 512 + 1) % 512 else i % 512)
  else (i + 1) % 262144

/-- The window's index, and the window moved to an index. -/
def Pelnos.window (c : Pelnos) : Nat := pixIdx (c.get P.PIXADDR.COL) (c.get P.PIXROW.ROW)
def Pelnos.setWindow (c : Pelnos) (i : Nat) : Pelnos := (c.put P.PIXADDR.COL (i / 512)).put P.PIXROW.ROW (i % 512)

/-- A P_PIXDATA access steps the window by INC. -/
def Pelnos.stepWindow (c : Pelnos) : Pelnos := c.setWindow (pixStep (c.get P.PIXADDR.INC) c.window)

/-- A write of P_PIXDATA: the word goes to the window's pixel, then the window steps (R32). -/
def Pelnos.writePixdata (c : Pelnos) (w : Half) : Pelnos := (c.writePix c.window w).stepWindow

/-- R35, R42: a write of P_DCn_CFG.  Setting DC_OFF stops the DLL without LOCK_LOST (R48); clearing it opens a gain-class
window. -/
def Pelnos.writeDcCfg (c : Pelnos) (n : Nat) (w : Half) : Pelnos :=
  let wasOff := c.get (P.DCn_CFG.DC_OFF.at (4 * n)) == 1
  let off := w.getLsbD 1
  let c1 := (c.put (P.DCn_CFG.DC_MASK.at (4 * n)) (b2n (w.getLsbD 0))).put (P.DCn_CFG.DC_OFF.at (4 * n)) (b2n off)
  let c2 := if off then c1.put (P.DCn_DLL.LOCK.at (4 * n)) 0 else c1
  forAfter c (c2.settleBy (if wasOff && !off then gainClass else 0))

/-- R43: the last frame that carries SETTLING for the open window has ended; SETTLE_BLANK lets go. -/
def Pelnos.settleEnd (c : Pelnos) : Pelnos :=
  if c.settling c.frame then c else { c with settleBlank := false }

/-! ### Injection (R37 to R39) -/

def Pelnos.injBusy (c : Pelnos) : Bool := c.inj.isSome
def Pelnos.csuBusy (c : Pelnos) : Bool := c.csu.isSome

/-- A write of P_INJ_CFG.GO and STOP: STOP wins over GO; a GO while a sequence or the statistics unit runs is lost. -/
def Pelnos.injCtl (c : Pelnos) (go stop : Bool) : Pelnos :=
  if stop then { c with inj := c.inj.map fun q => { q with stop := true } }
  else if ¬ go then c
  else if c.injBusy ∨ c.csuBusy then c.put P.INJ_CFG.GO_LOST 1
  else { c with inj := some { started := false, stop := false, left := none, pulsed := false } }

/-- The end of a sequence: its pulses are issued or STOP was written (R38, R39). -/
def InjSeq.over (q : InjSeq) : Bool := q.stop || q.left == some 0

/-- A frame start: the sampled fields are taken (R38, R91), a pending sequence starts or is cancelled, a finished one ends,
and the flags that a running dip gives this frame are set (R86). -/
def Pelnos.frameStart (c : Pelnos) : Pelnos :=
  let c : Pelnos := { c with samp :=
    { close := max 1 (c.get P.FRAME_CFG.CLOSE), hold := max 1 (c.get P.CLU_CFG.HOLD), bypass := c.get P.CLU_CFG.BYPASS == 1,
      pat := c.get P.INJ_CFG.PAT, phaseC := c.get P.INJ_CFG.PHASE_C, phaseR := c.get P.INJ_CFG.PHASE_R,
      range := c.get P.INJ_CFG.RANGE, dac := c.get P.INJ_DAC.CODE, time := c.get P.INJ_TIME.COARSE } }
  let c : Pelnos := match c.inj with
    | some q =>
      if q.stop then { c with inj := none }
      else if ¬ q.started then
        let n := c.get P.INJ_CNT.COUNT
        { c with inj := some { q with started := true, pulsed := false, left := if n = 0 then none else some n } }
      else if q.over then { c with inj := none }
      else { c with inj := some { q with pulsed := false } }
    | none => c
  let c : Pelnos := { c with csu := c.csu.map fun r => { r with pulsed := false, ended := r.ended || r.stop } }
  if c.get P.PWR_STAT.WARN = 1 then c.updFrame c.frame fun b => { b with supply := true } else c

/-- A pulse is issued in the current frame: it carries CAL, and CAL_BLANK holds the regions low (R39, R40). -/
def Pelnos.pulse (c : Pelnos) : Pelnos :=
  forAfter c { c.updFrame c.frame fun b => { b with cal := true } with calBlank := true }

/-- R37: the charge of a pulse in electrons. -/
def Sampled.charge (m : Sampled) : Nat := m.dac * (if m.range = 0 then 5 else 20)

/-- The pixel is in the pattern of the sampled injection settings (R37). -/
def Sampled.selects (m : Sampled) (col row : Nat) : Bool :=
  (m.pat % 2 == 0 || col % 8 == m.phaseC) && (m.pat / 2 == 0 || row % 8 == m.phaseR)

/-- R37 to R39: a started sequence issues the pulse of this frame; none while the downlink is unlocked. -/
def Pelnos.injPulse (c : Pelnos) : Option Pelnos :=
  match c.inj with
  | some q =>
    if q.started ∧ ¬ q.pulsed ∧ q.left ≠ some 0 ∧ c.locked then
      some ({ c with inj := some { q with pulsed := true, left := q.left.map (· - 1) } }.pulse)
    else none
  | none => none

/-- BUSY clears when the sequence is over (R38). -/
def Pelnos.injEnd (c : Pelnos) : Pelnos :=
  match c.inj with
  | some q => if q.started ∧ q.over then { c with inj := none } else c
  | none => c

/-! ### The meanings -/

/-- PIXEL_LEADING_EDGE (R61, R50, R51, R64, R68): the tick is the counter's, `sub` ticks into the spindle cycle. -/
def execPixelLeadingEdge (p : Port) (col row : Fin 512) (sub : Fin 4) (k : Fin 34) (m : Fin 8) (s : State) : Result :=
  .next (s.updChip p fun c => forAfter c (c.leadingEdge (pixIdx col row) (c.now + sub) k m))

/-- PIXEL_TRAILING_EDGE (R54 to R58). -/
def execPixelTrailingEdge (p : Port) (col row : Fin 512) (sub : Fin 4) (k : Fin 34) (s : State) : Result :=
  .next (s.updChip p fun c => c.trailingEdge (pixIdx col row) (c.now + sub) k)

/-- TOT_TIMEOUT (R55). -/
def execTotTimeout (p : Port) (col row : Fin 512) (s : State) : Result :=
  .next (s.updChip p fun c => c.totTimeout (pixIdx col row))

/-- OCCUPATION_END (R61). -/
def execOccupationEnd (p : Port) (col row : Fin 512) (s : State) : Result :=
  .next (s.updChip p fun c => c.occupationEnd (pixIdx col row))

/-- AUTO_MASK (R36, R88). -/
def execAutoMask (p : Port) (col row : Fin 512) (s : State) : Result :=
  .next (s.updChip p fun c => c.autoMask (pixIdx col row))

/-- CLEAR_ALL (R36). -/
def execClearAll (p : Port) (s : State) : Result :=
  .next (s.updChip p fun c => forAfter c c.clearAll)

/-- PIXDATA_WRITE (R32). -/
def execPixdataWrite (p : Port) (data : Half) (s : State) : Result :=
  .next (s.updChip p fun c => c.writePixdata data)

/-- PIXDATA_READ (R32): the word at the window is returned and the window steps. -/
def execPixdataRead (p : Port) (s : State) : Result :=
  .next ((s.emit (.chipWord p ((s.chip p).pixWord (s.chip p).window))).updChip p fun c => c.stepWindow)

/-- DC_CFG_WRITE (R35, R42). -/
def execDcCfgWrite (p : Port) (dc : Fin 256) (v : Half) (s : State) : Result :=
  .next (s.updChip p fun c => c.writeDcCfg dc v)

/-- SETTLING_WINDOW_END (R43). -/
def execSettlingWindowEnd (p : Port) (s : State) : Result :=
  .next (s.updChip p fun c => c.settleEnd)

/-- INJ_GO (R38, R39). -/
def execInjGo (p : Port) (s : State) : Result :=
  .next (s.updChip p fun c => c.injCtl true false)

/-- INJ_STOP (R38, R39). -/
def execInjStop (p : Port) (s : State) : Result :=
  .next (s.updChip p fun c => c.injCtl false true)

/-- INJECTION_PULSE (R37): the charge goes into every selected pixel, which is the matrix's analogue side. -/
def execInjectionPulse (p : Port) (s : State) : Result :=
  .next (match (s.chip p).injPulse with
    | some c => (s.emit (.inject p (s.chip p).samp.charge)).updChip p fun _ => c
    | none => s)

/-- INJ_SEQUENCE_END (R38). -/
def execInjSequenceEnd (p : Port) (s : State) : Result :=
  .next (s.updChip p fun c => c.injEnd)

/-- FOR_PULSE_END (R40): the one-shot pulse of a region ends. -/
def execForPulseEnd (p : Port) (region : Fin 16) (s : State) : Result :=
  .next (s.updChip p fun c => { c with forPulse := c.forPulse &&& ~~~ BitVec.ofNat 16 (2 ^ region.val) })

/-- CAL_BLANK_END (R40): 64 ticks after the injection tick. -/
def execCalBlankEnd (p : Port) (s : State) : Result :=
  .next (s.updChip p fun c => { c with calBlank := false })

end Sys2Proof.Machine
end

