-- ==== Sys2Proof/Machine/Tdc.lean ====
section
/-!
DEFINITION. DLLs, interpolators, background calibration and the calibration statistics unit (spec/03).
Choices of the model: log entry 1 (DESIGN CHOICE).
-/

namespace Sys2Proof.Machine

/-! ### DLLs (R48, R49) -/

/-- The DLL of double-column `n` locks: only while the matrix PLL is locked and the double-column is powered. -/
def Pelnos.dllLock (c : Pelnos) (n ctrl : Nat) : Pelnos :=
  if c.get P.PLL_STAT.LOCK = 1 ∧ c.get (P.DCn_CFG.DC_OFF.at (4 * n)) = 0 then
    (c.put (P.DCn_DLL.LOCK.at (4 * n)) 1).put (P.DCn_DLL.CTRL.at (4 * n)) ctrl
  else c

/-- A locked DLL loses lock: LOCK_LOST is set. -/
def Pelnos.dllLost (c : Pelnos) (n : Nat) : Pelnos :=
  if c.dllLocked n then (c.put (P.DCn_DLL.LOCK.at (4 * n)) 0).put (P.DCn_DLL.LOCK_LOST.at (4 * n)) 1 else c

/-- Double-columns whose DLL is unlocked (R66). -/
def Pelnos.dllUnlocked (c : Pelnos) : Nat := ((List.range 256).filter fun n => !c.dllLocked n).length

/-! ### Background calibration (R63 to R66) -/

/-- A trim step of ±1 within 0 to 31: `hi` steps down, `lo` steps up. -/
def trimStep (t : Nat) (hi lo : Bool) : Nat := if hi then t - 1 else if lo then min 31 (t + 1) else t

/-- One more entry in front of a history of at most 8. -/
def hist8 (t : Nat) (h : List Nat) : List Nat := (t :: h).take 8

/-- The trims after the pair of results `a` (odd period) and `b` (even period) (R64). -/
def Quad.update (q : Quad) (a b : Nat) : Quad :=
  { q with gain := trimStep q.gain (decide (a + 49 < b)) (decide (b < a + 47)),
           offset := trimStep q.offset (decide (66 < a + b)) (decide (a + b < 62)),
           gainHist := hist8 q.gain q.gainHist, offsetHist := hist8 q.offset q.offsetHist }

/-- R65: at least 32 conversions, and neither trim has moved by more than one step over its last 8 updates. -/
def Quad.converged (q : Quad) : Bool :=
  let near (t : Nat) (h : List Nat) := match h[7]? with
    | some o => decide (t ≤ o + 1 ∧ o ≤ t + 1)
    | none => false
  decide (32 ≤ q.convs) && near q.gain q.gainHist && near q.offset q.offsetHist

/-- A trim stands at 0 or 31. -/
def Quad.atLimit (q : Quad) : Bool := q.gain == 0 || q.gain == 31 || q.offset == 0 || q.offset == 31

/-- The largest age over all 65,536 quads; unlisted quads have not converted yet (R66). -/
def Pelnos.maxAge (c : Pelnos) : Nat :=
  let listed := c.quads.foldl (fun a e => max a (c.calPeriod - e.2.last)) 0
  if c.quads.length < 65536 then max listed c.calPeriod else listed

def Pelnos.unconverged (c : Pelnos) : Nat := 65536 - Tab.count (fun _ q => q.converged) c.quads
def Pelnos.limited (c : Pelnos) : Nat := Tab.count (fun _ q => q.atLimit) c.quads

/-- No enabled pixel of quad `k` has its discriminator high (R64). -/
def Pelnos.quadQuiet (c : Pelnos) (k : Nat) : Bool :=
  !Tab.any (fun i p => quadOf i == k && p.high && c.enabled i) c.pixels

/-- Quad `k` holds a slot pixel of a running statistics run, which suspends its calibration (R67). -/
def Pelnos.csuHolds (c : Pelnos) (k : Nat) : Bool :=
  match c.csu with
  | some r => r.started && Tab.any (fun _ x => x.valid && quadOf (pixIdx x.col x.row) == k) c.slots
  | none => false

/-- R64: a calibration period begins while the PLL is locked; an age above 10 sets LAG. -/
def Pelnos.calStart (c : Pelnos) : Pelnos :=
  if c.get P.PLL_STAT.LOCK = 1 then
    let c : Pelnos := { c with calPeriod := c.calPeriod + 1 }
    if 10 < c.maxAge then c.put P.CAL_STAT2.LAG 1 else c
  else c

/-- R64: quad `k` takes the calibration conversion of the period, with 6-bit result `code`. -/
def Pelnos.calConvert (c : Pelnos) (k code : Nat) : Pelnos :=
  let q := c.quad k
  if c.get P.PLL_STAT.LOCK = 1 ∧ c.get P.TDC_CFG.CAL_EN = 1 ∧ c.get P.TDC_CFG.FINE_EN = 1 ∧ q.last < c.calPeriod
      ∧ q.interp = .free ∧ c.quadQuiet k ∧ ¬ c.csuHolds k then
    let q := { q with interp := .cal, last := c.calPeriod, convs := q.convs + 1 }
    let q := if c.calPeriod % 2 = 1 then { q with odd := some code }
      else match q.odd with
        | some a => q.update a code
        | none => q
    c.setQuad k q
  else c

/-- CAL_RESET: every quad's trims go to 16 and every quad is unconverged (R66). -/
def Pelnos.calReset (c : Pelnos) : Pelnos :=
  { c with quads := Tab.mapVals {} (fun _ q =>
      { q with gain := 16, offset := 16, convs := 0, odd := none, gainHist := [], offsetHist := [] }) c.quads }

/-! ### The calibration statistics unit (R67 to R70) -/

def Pelnos.slot (c : Pelnos) (k : Nat) : CsuSlot := Tab.get {} c.slots k

/-- A write of P_CSU_CTRL.GO and STOP (R69). -/
def Pelnos.csuCtl (c : Pelnos) (go stop : Bool) : Pelnos :=
  if stop then { c with csu := c.csu.map fun r => { r with stop := true } }
  else if ¬ go then c
  else if c.csuBusy ∨ c.injBusy ∨ ¬ Tab.any (fun _ x => x.valid) c.slots then c.put P.CSU_CTRL.GO_LOST 1
  else
    { c with csu := some { started := false, stop := false, issued := 0, total := max 15 (c.get P.CSU_N.NM1) + 1,
                           pulse := none, pulsed := false, ended := false } }

/-- The first frame start after GO: the run starts with fresh statistics (R67). -/
def Pelnos.csuStart (c : Pelnos) : Pelnos :=
  match c.csu with
  | some r =>
    if r.started ∨ r.stop then c
    else
      { c with csu := some { r with started := true },
               slots := Tab.mapVals {} (fun _ x => { col := x.col, row := x.row, valid := x.valid }) c.slots }
  | none => c

/-- R67: a started run issues the pulse of this frame. -/
def Pelnos.csuFire (c : Pelnos) : Option Pelnos :=
  match c.csu with
  | some r =>
    if r.started ∧ ¬ r.ended ∧ ¬ r.pulsed ∧ r.issued < r.total ∧ c.locked then
      let r := { r with issued := r.issued + 1, pulse := some (c.frame * 4096 + c.samp.time), pulsed := true }
      some ({ c with csu := some r }.pulse)
    else none
  | none => none

/-- The integer square root, bit by bit. -/
def isqrt (v : Nat) : Nat → Nat → Nat
  | 0, r => r
  | n + 1, r => if (r + 2 ^ n) * (r + 2 ^ n) ≤ v then isqrt v n (r + 2 ^ n) else isqrt v n r

/-- `a / b` rounded to nearest. -/
def divRound (a b : Nat) : Nat := (2 * a + b) / (2 * b)

/-- MEAN and SD of a slot in 1/16 bin, rounded to nearest (R68). -/
def CsuSlot.mean (x : CsuSlot) : Nat := if x.n = 0 then 0 else divRound (16 * x.sum) x.n
def CsuSlot.sd (x : CsuSlot) : Nat :=
  if x.n = 0 then 0 else (isqrt (1024 * (x.n * x.sumsq - x.sum * x.sum)) 40 0 / x.n + 1) / 2

/-- The CAL_STAT record of a slot (R70). -/
def calStatRec (x : CsuSlot) (issued : Nat) (aborted : Bool) : Nat :=
  seal128 (5 * 2 ^ 124 + x.col * 2 ^ 115 + x.row * 2 ^ 106 + x.n * 2 ^ 89 + x.mean * 2 ^ 69 + min x.sd 0xFFF * 2 ^ 57
    + x.lo * 2 ^ 41 + x.hi * 2 ^ 25 + b2n aborted * 2 ^ 24 + b2n (decide (x.n < issued ∨ x.n = 0)) * 2 ^ 23
    + b2n (decide (0xFFF < x.sd)) * 2 ^ 22 + b2n x.lowres * 2 ^ 21)

/-- The run has finished: all pulses issued, or STOP has taken effect (R69, R70). -/
def CsuRun.over (r : CsuRun) : Bool := r.issued == r.total || (r.stop && (r.ended || !r.started))

/-- R70: one CAL_STAT record per valid slot, in slot order, into the current frame; then DONE. -/
def Pelnos.csuEmit (c : Pelnos) : Pelnos :=
  match c.csu with
  | some r =>
    if r.over then
      let c := ((List.range 64).filter fun k => (c.slot k).valid).foldl
        (fun c k => c.periph (calStatRec (c.slot k) r.issued r.stop) 8) c
      ({ c with csu := none }).put P.CSU_CTRL.DONE 1
    else c
  | none => c

/-- A write of P_CSU_ROW: the addressed slot's row, then SLOT steps; ignored while BUSY (R69). -/
def Pelnos.csuRow (c : Pelnos) (w : Nat) : Pelnos :=
  if c.csuBusy then c
  else
    let k := c.get P.CSU_SLOT.SLOT
    { c.put P.CSU_SLOT.SLOT ((k + 1) % 64) with slots := Tab.upd {} c.slots k fun x => { x with row := w % 512 } }

/-- A write of P_CSU_COL: the addressed slot's column and VALID; ignored while BUSY (R69). -/
def Pelnos.csuCol (c : Pelnos) (w : Nat) : Pelnos :=
  if c.csuBusy then c
  else
    { c with slots := Tab.upd {} c.slots (c.get P.CSU_SLOT.SLOT) fun x =>
        { x with col := w % 512, valid := bitAt w 15 } }

/-! ### The meanings -/

/-- INTERP_CONVERSION_DONE (R50). -/
def execInterpConversionDone (p : Port) (dc quad : Fin 256) (s : State) : Result :=
  .next (s.updChip p fun c => c.setQuad (dc * 256 + quad) { c.quad (dc * 256 + quad) with interp := .free })

/-- DLL_LOCK (R48, R49). -/
def execDllLock (p : Port) (dc : Fin 256) (ctrl : Byte) (s : State) : Result :=
  .next (s.updChip p fun c => c.dllLock dc ctrl.toNat)

/-- DLL_LOCK_LOST (R48, R49). -/
def execDllLockLost (p : Port) (dc : Fin 256) (s : State) : Result :=
  .next (s.updChip p fun c => c.dllLost dc)

/-- CAL_PERIOD_START (R64). -/
def execCalPeriodStart (p : Port) (s : State) : Result :=
  .next (s.updChip p fun c => c.calStart)

/-- CAL_CONVERSION (R64, R65). -/
def execCalConversion (p : Port) (dc quad : Fin 256) (code : Fin 64) (s : State) : Result :=
  .next (s.updChip p fun c => c.calConvert (dc * 256 + quad) code)

/-- CAL_RESET (R66). -/
def execCalReset (p : Port) (s : State) : Result :=
  .next (s.updChip p fun c => c.calReset)

/-- CSU_GO (R69). -/
def execCsuGo (p : Port) (s : State) : Result :=
  .next (s.updChip p fun c => c.csuCtl true false)

/-- CSU_STOP (R69). -/
def execCsuStop (p : Port) (s : State) : Result :=
  .next (s.updChip p fun c => c.csuCtl false true)

/-- CSU_RUN_START (R67). -/
def execCsuRunStart (p : Port) (s : State) : Result :=
  .next (s.updChip p fun c => c.csuStart)

/-- CSU_PULSE (R67). -/
def execCsuPulse (p : Port) (s : State) : Result :=
  .next (match (s.chip p).csuFire with
    | some c => (s.emit (.inject p (s.chip p).samp.charge)).updChip p fun _ => c
    | none => s)

/-- CSU_RECORDS_EMIT (R70). -/
def execCsuRecordsEmit (p : Port) (s : State) : Result :=
  .next (s.updChip p fun c => c.csuEmit)

/-- CSU_ROW_WRITE (R69). -/
def execCsuRowWrite (p : Port) (row : Half) (s : State) : Result :=
  .next (s.updChip p fun c => c.csuRow row.toNat)

end Sys2Proof.Machine
end

