-- ==== Sys2Proof/Machine/Pipeline.lean ====
section
/-!
DEFINITION. The Pelnos hit pipeline: column drain, end-of-column queues, cluster builders, frame assembler and lane
distributor (spec/04), and the LANE_MARK of spec/05.
Choices of the model: log entry 1 (DESIGN CHOICE).
-/

namespace Sys2Proof.Machine

/-! ### Column drain and end-of-column queue (R72 to R75) -/

/-- How far register index `i` lies behind the one served last, going round 1,024 registers. -/
def roundDist (n served i : Nat) : Nat := (i + n - served % n - 1) % n

/-- The occupied hit register of double-column `n` that the drain serves next. -/
def Pelnos.nextReg (c : Pelnos) (n : Nat) : Option (Nat × Hit) :=
  (c.pixels.foldl (fun (best : Option (Nat × Hit)) e =>
    match e.2.reg with
    | some h =>
      if dcOf e.1 = n then
        match best with
        | some b =>
          if roundDist 1024 (c.dcol n).served (e.1 % 1024) < roundDist 1024 (c.dcol n).served (b.1 % 1024)
          then some (e.1, h) else best
        | none => some (e.1, h)
      else best
    | none => best) none)

/-- R81: the drained hit counts in the PRIMITIVE of its region and frame; ORPHANs do not. -/
def Pelnos.countPrim (c : Pelnos) (i : Nat) (h : Hit) : Pelnos :=
  if h.orphan ∨ c.isClosed (h.tick / 4096) h.era then c
  else
    c.updFrame (h.tick / 4096) fun b =>
      { b with prims := Tab.upd (0, 0) b.prims (regionOf i) fun x =>
          (sat 16 (x.1 + 1), if x.1 = 0 then h.tick % 4096 else min x.2 (h.tick % 4096)) }

/-- R74: push a hit into the end-of-column queue of double-column `n`, or count it into the pending marker. -/
def Pelnos.eocPush (c : Pelnos) (n : Nat) (h : Hit) : Pelnos :=
  let d := c.dcol n
  match d.pend with
  | some (t, k, e) => (c.setDcol n { d with pend := some (t, sat 16 (k + 1), e) }).bump (P.DCn_DROP.COUNT.at (4 * n)) 1
  | none =>
    if d.queue.length < 64 then c.setDcol n { d with queue := d.queue ++ [.hit h] }
    else (c.setDcol n { d with pend := some (h.tick, 1, h.era) }).bump (P.DCn_DROP.COUNT.at (4 * n)) 1

/-- R72: one readout cycle of the drain of double-column `n`. -/
def Pelnos.drain (c : Pelnos) (n : Nat) : Pelnos :=
  match c.nextReg n with
  | none => c
  | some (i, h) =>
    let p := c.pixel i
    let c := c.setPixel i { p with reg := p.done, done := none }
    let c := c.setDcol n { c.dcol n with served := i % 1024 }
    (c.countPrim i h).eocPush n h

/-- R74: the pointers of queue `n` disagree: the queue holds one marker of 0xFFFF, and the current frame carries QRESET. -/
def Pelnos.eocReset (c : Pelnos) (n : Nat) : Pelnos :=
  let c := c.setDcol n { c.dcol n with queue := [.mark c.now 0xFFFF c.era], pend := none }
  let c := c.updFrame c.frame fun b => { b with qreset := true }
  (c.bump P.QRESET_COUNT.COUNT 1).put P.QRESET_COUNT.LAST_DC n

/-! ### Cluster builders (R76 to R78) -/

/-- The time of hit `h` less the time of hit `a`, in bins. -/
def binDiff (h a : Hit) : Int :=
  let t := ticksSince h.tick a.tick
  (if t < 2 ^ 43 then (t : Int) else (t : Int) - 2 ^ 44) * 256 + (h.fine : Int) - a.fine

/-- The offsets of `h` from anchor `a` both lie in −4 to +3. -/
def nearHit (h a : Hit) : Bool :=
  decide (h.col + 4 ≥ a.col) && decide (h.col ≤ a.col + 3) && decide (h.row + 4 ≥ a.row) && decide (h.row ≤ a.row + 3)

/-- `h` lies near `a` and 0 to 120 bins after it (R77 step 2). -/
def fitsHit (h a : Hit) : Bool := nearHit h a && decide (0 ≤ binDiff h a ∧ binDiff h a ≤ 120)

def Cluster.pixels (k : Cluster) : Nat := k.others.length + 1

/-- R77 step 2. -/
def Cluster.fits (k : Cluster) (h : Hit) : Bool := fitsHit h k.anchor && decide (k.pixels < 16)

/-- Every member of the cluster fits relative to `h`. -/
def Cluster.allFit (k : Cluster) (h : Hit) : Bool := fitsHit k.anchor h && k.others.all fun m => fitsHit m h

/-- R77 step 4: the cluster fails only because `h` is earlier, and would fit around `h`. -/
def Cluster.reanchors (k : Cluster) (h : Hit) : Bool :=
  nearHit h k.anchor && decide (binDiff h k.anchor < 0) && decide (k.pixels < 16) && k.allFit h

/-- Anchor `a` is earlier than `b`; ties go to the lower COL, then the lower ROW. -/
def anchorBefore (a b : Hit) : Bool :=
  decide (binDiff a b < 0) ||
    (decide (binDiff a b = 0) && (decide (a.col < b.col) || (decide (a.col = b.col) && decide (a.row < b.row))))

/-- The position of the cluster with the earliest anchor among those that satisfy `p`. -/
def bestCluster (p : Cluster → Bool) (ks : List Cluster) : Option Nat :=
  ((ks.zipIdx.filter fun e => p e.1).foldl (fun (b : Option (Cluster × Nat)) e =>
    match b with
    | some x => if anchorBefore e.1.anchor x.1.anchor then some e else b
    | none => some e) none).map (·.2)

/-- R77 steps 3 and 6: `h` joins the cluster; it takes the anchor over on a tie with a lower pixel when all still fit. -/
def Cluster.join (k : Cluster) (h : Hit) : Cluster :=
  if binDiff h k.anchor = 0 ∧ anchorBefore h k.anchor ∧ k.allFit h then
    { k with anchor := h, others := k.others ++ [k.anchor] }
  else { k with others := k.others ++ [h] }

/-- TOTC of an extra pixel (R78). -/
def totC (tot : Nat) : Nat := if tot = 0x1FF then 63 else min (tot / 8) 62

/-- The extra-pixel halfword of `h` against anchor `a` (R78, R80). -/
def extraHalf (a h : Hit) : Nat :=
  (h.col + 8 - a.col) % 8 * 2 ^ 13 + (h.row + 8 - a.row) % 8 * 2 ^ 10 + (binDiff h a).toNat / 8 * 2 ^ 6 + totC h.tot

/-- The order of the extra pixels: ascending d, then COL, then ROW (R78). -/
def extraKey (a h : Hit) : Nat := (binDiff h a).toNat * 2 ^ 18 + h.col * 512 + h.row

/-- The record of a closed cluster (R78). -/
def Cluster.toRec (k : Cluster) : PRec :=
  let es := k.others.insertionSort fun x y => extraKey k.anchor x ≤ extraKey k.anchor y
  { hws := halves (headRec k.anchor es.length) 4 ++ es.map (extraHalf k.anchor), frame := k.anchor.tick / 4096,
    hits := es.length + 1, src := k.anchor.col / 2, coarse := k.anchor.tick % 4096, shaving := false, era := k.anchor.era }

/-- A record of one pixel-hit alone: an ORPHAN, or a hit under BYPASS. -/
def loneRec (h : Hit) : PRec := Cluster.toRec { anchor := h, others := [], opened := 0, hold := 0 }

/-- Close the cluster at position `i` of builder `g` and emit its record (R78). -/
def Pelnos.closeAt (c : Pelnos) (g i : Nat) : Pelnos :=
  match (c.builder g).clusters[i]? with
  | some k => (c.setBuilder g { c.builder g with clusters := (c.builder g).clusters.eraseIdx i }).assemble g k.toRec
  | none => c

/-- Replace the cluster at position `i` of builder `g`; a cluster of 16 pixels closes (R78). -/
def Pelnos.putCluster (c : Pelnos) (g i : Nat) (k : Cluster) : Pelnos :=
  let c := c.setBuilder g { c.builder g with clusters := (c.builder g).clusters.set i k }
  if k.pixels < 16 then c else c.closeAt g i

/-- R77: builder `g` places a pixel-hit. -/
def Pelnos.place (c : Pelnos) (g : Nat) (h : Hit) : Pelnos :=
  let ks := (c.builder g).clusters
  if h.orphan ∨ c.samp.bypass then c.assemble g (loneRec h)
  else match bestCluster (fun k => k.fits h) ks with
    | some i => match ks[i]? with
      | some k => c.putCluster g i (k.join h)
      | none => c
    | none => match bestCluster (fun k => k.reanchors h) ks with
      | some i => match ks[i]? with
        | some k => c.putCluster g i { k with anchor := h, others := k.others ++ [k.anchor] }
        | none => c
      | none =>
        let c := if ks.length < 32 then c
          else match bestCluster (fun _ => true) ks with
            | some i => c.closeAt g i
            | none => c
        let k : Cluster := { anchor := h, others := [], opened := c.now, hold := c.samp.hold }
        c.setBuilder g { c.builder g with clusters := (c.builder g).clusters ++ [k] }

/-- The record of a SHAVING marker of queue `n` (R74, R81). -/
def markRec (n tick count era : Nat) : PRec :=
  { hws := halves (shavingRec n (tick % 4096) count false 0) 4, frame := tick / 4096, hits := count, src := n,
    coarse := tick % 4096, shaving := true, era := era }

/-- The non-empty queue of group `g` that its builder serves next (R76). -/
def Pelnos.nextQueue (c : Pelnos) (g : Nat) : Option Nat :=
  ((List.range 16).map fun j => ((c.builder g).served + 1 + j) % 16).find? fun j => (c.dcol (16 * g + j)).queue ≠ []

/-- R76: builder `g` pops one item, unless a full store stalls it; a pending marker takes the freed slot (R74). -/
def Pelnos.builderPop (c : Pelnos) (g : Nat) : Pelnos :=
  if (c.builder g).stalled ≠ [] then c
  else match c.nextQueue g with
    | none => c
    | some j =>
      let n := 16 * g + j
      let d := c.dcol n
      match d.queue with
      | [] => c
      | x :: rest =>
        let d' := match d.pend with
          | some (t, k, e) => { d with queue := rest ++ [.mark t k e], pend := none }
          | none => { d with queue := rest }
        let c := (c.setDcol n d').setBuilder g { c.builder g with served := j }
        match x with
        | .hit h => c.place g h
        | .mark t k e => c.assemble g (markRec n t k e)

/-- R78: the first cluster of builder `g` whose HOLD has passed closes. -/
def Pelnos.clusterClose (c : Pelnos) (g : Nat) : Pelnos :=
  match (c.builder g).clusters.findIdx? fun k => decide (k.hold ≤ ticksSince c.now k.opened) with
  | some i => c.closeAt g i
  | none => c

/-- R85: the outputs of a stalled builder that now fit, or are late, go on, in order. -/
def Pelnos.unstall (c : Pelnos) (g : Nat) : List PRec → Pelnos
  | [] => c.setBuilder g { c.builder g with stalled := [] }
  | r :: rs =>
    if c.isClosed r.frame r.era then (c.addLate r).unstall g rs
    else if builderShare < c.storeBytes + 2 * r.hws.length then c.setBuilder g { c.builder g with stalled := r :: rs }
    else (c.addRec r.frame r).unstall g rs

/-! ### Frames (R83 to R88) -/

/-- The LATE marker as a record of frame `f` (R84). -/
def lateRec (m : LateMark) (f era : Nat) : PRec :=
  { hws := halves (shavingRec m.src m.coarse m.count true (min 7 (framesSince f m.frame))) 4, frame := f, hits := m.count,
    src := m.src, coarse := m.coarse, shaving := true, era := era }

/-- The PRIMITIVE records of a frame buffer (R83). -/
def FrameBuf.primRecs (b : FrameBuf) (en : Nat) (f era : Nat) : List PRec :=
  (List.range 16).filterMap fun r =>
    let x := Tab.get (0, 0) b.prims r
    if bitAt en r ∧ 0 < x.1 then
      some { hws := halves (primitiveRec r x.1 x.2) 4, frame := f, hits := 0, src := 0, coarse := 0, shaving := false,
             era := era }
    else none

/-- The records of frame `f` at its close, before the trailer (R83). -/
def Pelnos.closeRecs (c : Pelnos) (f : Nat) : List PRec :=
  let b := c.frameBuf f
  let late := match c.late with
    | some m => [lateRec m f c.era]
    | none => []
  let prims := if c.get P.FRAME_CFG.PRIM_EN = 1 then b.primRecs (c.get P.PRIM_EN.REGION) f c.era else []
  b.recs ++ late ++ prims

/-- The halfwords of frame `f` at its close: records and trailer with the flags of R86. -/
def Pelnos.closeHalves (c : Pelnos) (f : Nat) : List Nat :=
  let b := c.frameBuf f
  let rs := c.closeRecs f
  rs.flatMap (·.hws) ++
    halves (trailerRec f rs.length b.cal (c.settling f) b.supply (rs.any (·.shaving)) b.qreset) 4

/-- A closed frame is not sent: uplink asleep, a far-end loop, or a frame before frame 0 of an epoch hold (R113). -/
def Pelnos.unsent (c : Pelnos) (f : Nat) : Bool :=
  c.get P.LINK_STAT.UL_ASLEEP == 1 || c.get P.LINK_STAT.FAR_LOOP == 1
    || (c.get P.SYNC_STAT.HOLD == 1 && decide (2 ^ 31 ≤ f))

/-- The oldest open frame closes: it is listed for sending, counted in P_SLEEP_FRAMES, or, before the port's activation,
dropped (R83, R105, R113). -/
def Pelnos.closeOne (c : Pelnos) : Pelnos :=
  let f := c.nextClose
  let hs := c.closeHalves f
  let rest := { c with frames := Tab.set {} c.frames f {}, late := none, nextClose := (f + 1) % 2 ^ 32,
                       settle := c.settle.filter fun w => decide ((f + 1) * 4096 ≤ w.2) }
  if c.unsent f then rest.bump P.SLEEP_FRAMES.COUNT 1
  else if c.active then { rest with closed := c.closed ++ [(f, hs)] }.notePeak
  else rest

/-- R83: frame F closes at the start of frame F + 1 + CLOSE; no frame closes before the counter is loaded (R323). -/
def Pelnos.frameClose (c : Pelnos) : Pelnos :=
  let d := framesSince c.frame c.nextClose
  if c.get P.SYNC_STAT.LOADED = 1 ∧ 1 + c.samp.close ≤ d ∧ d < 2 ^ 31 then c.closeOne else c

/-- Frames that have begun and are still open: from the oldest to the current one. -/
def Pelnos.openCount (c : Pelnos) : Nat := framesSince c.frame c.nextClose + 1

/-- Close `n` open frames at once, in ascending order. -/
def Pelnos.closeMany (c : Pelnos) : Nat → Pelnos
  | 0 => c
  | n + 1 => c.closeOne.closeMany n

/-- Close every open cluster of builder `g`. -/
def Pelnos.closeClusters (c : Pelnos) (g : Nat) : Pelnos :=
  (c.builder g).clusters.foldl (fun c _ => c.closeAt g 0) c

/-- R323: a load of a different count closes every frame held open, open clusters first. -/
def Pelnos.closeAll (c : Pelnos) : Pelnos :=
  let c := (List.range 16).foldl (fun c g => c.closeClusters g) c
  if c.get P.SYNC_STAT.LOADED = 1 ∧ c.openCount < 2 ^ 31 then c.closeMany c.openCount else c

/-- CHIP_STATUS of the FRAME header (R87). -/
def Pelnos.chipStatus (c : Pelnos) : Nat :=
  b2n ((List.range 256).all fun n => c.dllLocked n || c.get (P.DCn_CFG.DC_OFF.at (4 * n)) == 1)
    + 2 * b2n (c.unconverged == 0) + 4 * c.get P.CAL_STAT2.LAG + 8 * b2n c.injBusy + 16 * b2n c.csuBusy
    + 32 * b2n (decide (c.amQueue ≠ []) || c.amOvf) + 64 * b2n (decide (c.staged ≠ [])) + 128 * b2n c.storeFull

/-- P_AMASK_COUNT. -/
def Pelnos.amaskCount (c : Pelnos) : Nat := sat 16 (Tab.count (fun _ p => p.amask) c.pixels)

/-- The payload of the STATUS block behind frame `f` (R88). -/
def Pelnos.statusPayload (c : Pelnos) (f : Nat) : List Byte :=
  let am := match c.amQueue with
    | (x, y) :: _ => (2 ^ 15 + b2n c.amOvf * 2 ^ 14 + x, y)
    | [] => (b2n c.amOvf * 2 ^ 14, 0)
  halvesBytes [sat 16 c.unconverged, sat 16 c.limited, sat 8 c.maxAge + 256 * c.get P.CAL_STAT2.LAG, c.dllUnlocked,
    am.1, am.2, c.amaskCount, f % 65536]

/-- A STATUS block follows frame `f` (R88). -/
def Pelnos.statusDue (c : Pelnos) (f : Nat) : Bool :=
  f % 16 == 15 || decide (c.amQueue ≠ []) || c.amOvf || c.get P.FRAME_CFG.STATUS_ALL == 1

/-- Cut a byte stream into payloads of 16 bytes, the last padded with BLANKs; `fuel` bounds the count. -/
def cut16 : Nat → List Byte → List (List Byte)
  | 0, _ => []
  | _, [] => []
  | n + 1, b :: bs => pad16 (b :: bs) :: cut16 n ((b :: bs).drop 16)

/-- Number payloads as blocks from SEQ `seq`, the first a FRAME block, the rest DATA blocks (R89). -/
def numberBlocks (seq : Nat) (ps : List (List Byte)) : List Block :=
  ps.zipIdx.map fun e =>
    { kind := if e.2 = 0 then .frame else .data, seq := (seq + e.2) % 256, payload := e.1 }

/-- The blocks of a closed frame: FRAME, DATA and, where due, STATUS (R87 to R89). -/
def Pelnos.frameBlocks (c : Pelnos) (f : Nat) (hs : List Nat) : List Block :=
  let header := beBytes f 4 ++ beBytes c.chipStatus 2 ++ [BitVec.ofNat 8 (c.get P.ACTIVE_LANES.MASK), 0]
  let bs := numberBlocks c.seq (cut16 (hs.length + 2) (header ++ halvesBytes hs))
  if c.statusDue f then
    bs ++ [{ kind := .status, seq := (c.seq + bs.length) % 256, payload := c.statusPayload f }]
  else bs

/-- R83, R87 to R89: the oldest closed frame begins transmission, once the one before has been sent; the active set of its
header is in force from its FRAME block on (R90). -/
def Pelnos.frameSend (c : Pelnos) : Pelnos :=
  match c.closed with
  | [] => c
  | (f, hs) :: rest =>
    if c.sending ≠ [] ∨ ¬ c.active then c
    else
      let bs := c.frameBlocks f hs
      let c' := { c with closed := rest, sending := bs, seq := (c.seq + bs.length) % 256, storeFull := false,
                         laneMask := c.get P.ACTIVE_LANES.MASK }
      if c.statusDue f then { c' with amQueue := c.amQueue.drop 1, amOvf := false } else c'

/-! ### The lane distributor (R90) -/

/-- The lanes of a mask in ascending order. -/
def lanesOf (mask : Nat) : List Nat := (List.range 8).filter fun l => bitAt mask l

/-- The lowest lane of the active set. -/
def Pelnos.lowLane (c : Pelnos) : Nat := (lanesOf c.laneMask).headD 0

/-- The active lane after lane `l`, cyclically. -/
def Pelnos.laneAfter (c : Pelnos) (l : Nat) : Nat :=
  match (lanesOf c.laneMask).find? fun x => decide (l < x) with
  | some x => x
  | none => c.lowLane

/-- The next slot of the distributor: an ECHO response takes a slot of the lowest lane, otherwise the next block goes to
its lane, a FRAME block to the lowest.  The answer is the lane and block that leave. -/
def Pelnos.dealOne (c : Pelnos) : Option (Nat × Block × Pelnos) :=
  let target := match c.sending with
    | b :: _ => if b.kind = .frame then c.lowLane else c.laneAfter c.lane
    | [] => c.lowLane
  match c.echo, c.sending with
  | e :: es, _ =>
    if target = c.lowLane then
      some (c.lowLane, { kind := .echo, seq := (c.seq + 255) % 256, payload := pad16 e },
        { c with echo := es, lane := c.lowLane })
    else match c.sending with
      | b :: rest => some (target, b, { c with sending := rest, lane := target })
      | [] => none
  | [], b :: rest => some (target, b, { c with sending := rest, lane := target })
  | [], [] => none

/-- A LANE_MARK payload (R106). -/
def markPayload (lane cnt mask : Nat) : List Byte :=
  pad16 (beBytes lane 1 ++ [0] ++ beBytes cnt 4 ++ beBytes mask 1)

/-- The SEQ that a block carries which does not advance it (R97). -/
def Pelnos.lastSeq (c : Pelnos) : Nat := (c.seq + 255) % 256

/-! ### The meanings -/

/-- COLUMN_DRAIN_MOVE (R72, R74). -/
def execColumnDrainMove (p : Port) (dc : Fin 256) (s : State) : Result := .next (s.updChip p fun c => c.drain dc)

/-- EOC_QUEUE_PTR_RESET (R74). -/
def execEocQueuePtrReset (p : Port) (dc : Fin 256) (s : State) : Result := .next (s.updChip p fun c => c.eocReset dc)

/-- BUILDER_POP (R76, R77). -/
def execBuilderPop (p : Port) (g : Fin 16) (s : State) : Result := .next (s.updChip p fun c => c.builderPop g)

/-- CLUSTER_CLOSE (R78). -/
def execClusterClose (p : Port) (g : Fin 16) (s : State) : Result := .next (s.updChip p fun c => c.clusterClose g)

/-- BUILDER_STALL_END (R85). -/
def execBuilderStallEnd (p : Port) (g : Fin 16) (s : State) : Result :=
  .next (s.updChip p fun c => c.unstall g (c.builder g).stalled)

/-- FRAME_CLOSE (R83). -/
def execFrameClose (p : Port) (s : State) : Result := .next (s.updChip p fun c => c.frameClose)

/-- FRAME_SEND_START (R83, R87 to R89). -/
def execFrameSendStart (p : Port) (s : State) : Result := .next (s.updChip p fun c => c.frameSend)

/-- UPLINK_BLOCK_TRANSMIT (R90). -/
def execUplinkBlockTransmit (p : Port) (s : State) : Result :=
  .next (match (s.chip p).dealOne with
    | some (l, b, c) => (s.emit (.uplink p l b (blockCrc b))).updChip p fun _ => c
    | none => s)

/-- LANE_MARK_SEND (R106): every uplink lane in ACTIVE sends its mark, unless its generator runs; no mark is
sent or counted while the uplink sleeps, its announcement included (R116). -/
def execLaneMarkSend (p : Port) (s : State) : Result :=
  let c := s.chip p
  let ls := (List.range 8).filter fun l => s.zget ((ZP.LSTATm.STATE.at (4 * l)).port p) == 5
    && !(Tab.get {} s.lanes (8 * p + l)).gen
  .next (if ls = [] ∨ c.get P.LINK_STAT.UL_ASLEEP = 1 then s
    else
      (ls.foldl (fun s l =>
        let b : Block := { kind := .laneMark, seq := c.lastSeq, payload := markPayload l c.markCnt c.laneMask }
        s.emit (.uplink p l b (blockCrc b))) s).updChip p fun c => { c with markCnt := (c.markCnt + 1) % 2 ^ 32 })

/-- A write of P_ACTIVE_LANES; a mask of 0 is ignored (R90). -/
def Pelnos.writeLanes (c : Pelnos) (w : Nat) : Pelnos := if w % 256 = 0 then c else c.put P.ACTIVE_LANES.MASK w

/-- ACTIVE_LANES_WRITE (R90). -/
def execActiveLanesWrite (p : Port) (mask : Half) (s : State) : Result :=
  .next (s.updChip p fun c => c.writeLanes mask.toNat)

end Sys2Proof.Machine
end

