-- ==== Sys2Proof/Machine/PelnosRegs.lean ====
section
/-!
DEFINITION. The Pelnos register space (R438 to R442): what a word reads as, what a write does, staged copies, commits
(R395), snapshot copies (R391), resets (R404), and what downlink loss discards (R345, R92).
Choices of the model: log entries 3 (DESIGN CHOICE), 4 (DEDUCED).
-/

namespace Sys2Proof.Machine

/-! ### Reading -/

/-- The quad that P_QTRIM_ADDR names. -/
def Pelnos.trimQuad (c : Pelnos) : Quad := c.quad (c.get P.QTRIM_ADDR.DC * 256 + c.get P.QTRIM_ADDR.QUAD)

/-- The value that a read of field `f` shows: the stored one, or for a field that follows other state, what that state
gives (R32, R36, R38, R66, R69, R91). -/
def Pelnos.view (c : Pelnos) (f : Field) : Nat :=
  if f = P.PIXDATA.DATA then (c.pixWord c.window).toNat
  else if f = P.PIXSTAT.AUTOMASKED then b2n (c.pixel c.window).amask
  else if f = P.PIXSTAT.DISC_HIGH then b2n (c.pixel c.window).high
  else if f = P.AMASK_COUNT.COUNT then c.amaskCount
  else if f = P.INJ_CFG.BUSY then b2n c.injBusy
  else if f = P.CSU_CTRL.BUSY then b2n c.csuBusy
  else if f = P.CSU_COL.COL then (c.slot (c.get P.CSU_SLOT.SLOT)).col
  else if f = P.CSU_COL.VALID then b2n (c.slot (c.get P.CSU_SLOT.SLOT)).valid
  else if f = P.CSU_ROW.ROW then (c.slot (c.get P.CSU_SLOT.SLOT)).row
  else if f = P.CAL_STAT0.UNCONV then sat 16 c.unconverged
  else if f = P.CAL_STAT1.AT_LIMIT then sat 16 c.limited
  else if f = P.CAL_STAT2.MAX_AGE then sat 8 c.maxAge
  else if f = P.TDC_STAT.DLL_UNLOCKED then c.dllUnlocked
  else if f = P.QTRIM_DATA.GAIN then c.trimQuad.gain
  else if f = P.QTRIM_DATA.OFFSET then c.trimQuad.offset
  else if f = P.QTRIM_DATA.CONV then b2n c.trimQuad.converged
  else if f = P.QTRIM_DATA.LIMIT then b2n c.trimQuad.atLimit
  else if f = P.STORE_STAT.PEAK then c.peak
  else c.get f

/-- The word address decodes (R439, R442). -/
def pDecodes (a : Nat) : Bool :=
  decide (fieldsAt 1 P.rows a ≠ []) || (decide (0x800 ≤ a) && decide (a < 0xC00) && a % 4 == 0)

/-- The word at `a`. -/
def Pelnos.word (c : Pelnos) (a : Nat) : Nat := wordOf (fieldsAt 1 P.rows a) c.view a

/-- The staged copy of an SH field; any other field shows its current value (R439). -/
def Pelnos.stagedView (c : Pelnos) (f : Field) : Nat :=
  match f.acc, Tab.get none c.staged f.key with
  | .sh, some v => v
  | _, _ => c.view f

def Pelnos.stagedWord (c : Pelnos) (a : Nat) : Nat := wordOf (fieldsAt 1 P.rows a) c.stagedView a

/-- What a read of word `a` does besides returning it: RC fields are cleared, P_PWR_MIN is re-armed (R349), the window
steps (R32), and a monitor result counts as read (R348). -/
def Pelnos.afterRead (c : Pelnos) (a : Nat) : Pelnos :=
  if a = 0x22 then c.stepWindow
  else if a = 0x52 then c.put P.PWR_MIN.MIN 0xFFF
  else
    let c : Pelnos := { c with regs := fclear c.regs (fieldsAt 1 P.rows a) }
    if 0x310 ≤ a ∧ a < 0x328 then { c with monFresh := c.monFresh &&& ~~~ BitVec.ofNat 24 (2 ^ (a - 0x310)) } else c

/-! ### Commits and staged copies (R9, R395) -/

/-- The SH fields and the class of a change to each (R42). -/
def shFields : List (Field × Nat) :=
  [(P.FE_CFG.FE_EN, 0), (P.FE_CFG.POL, gainClass), (P.FE_CFG.LEAK_COMP, gainClass), (P.THR.THR, threshClass),
    (P.TRIM_CFG.STEP, threshClass), (P.IFB.IFB, gainClass)]

/-- Write the staged copy of field `f`; a copy equal to the committed value is none. -/
def Pelnos.stage (c : Pelnos) (f : Field) (v : Nat) : Pelnos :=
  { c with staged := Tab.set none c.staged f.key (if v = c.get f then none else some v) }

/-- The longest window among the changes that the staged copies make. -/
def Pelnos.commitClass (c : Pelnos) : Nat :=
  shFields.foldl (fun a x => match Tab.get none c.staged x.1.key with
    | some v => if v = c.get x.1 then a else max a x.2
    | none => a) 0

/-- Apply every staged value; a settling window of the class of the changes opens (R43). -/
def Pelnos.applyStaged (c : Pelnos) : Pelnos :=
  let c1 := shFields.foldl (fun (d : Pelnos) x => match Tab.get none c.staged x.1.key with
    | some v => d.put x.1 v
    | none => d) c
  forAfter c (({ c1 with staged := [], commit := none } : Pelnos).settleBy c.commitClass)

/-! ### Resets (R404) -/

/-- The soft reset keeps the lane block, P_SYNC_STAT, the supply words, and the status of the undisturbed PLL and DLLs. -/
def softKept (key : Nat) : Bool :=
  let a := key / 64
  let b := key % 64
  decide (0x200 ≤ a ∧ a ≤ 0x206) || a == 0x40 || decide (0x50 ≤ a ∧ a ≤ 0x52) || (a == 0x101 && b == 0)
    || (decide (0x400 ≤ a ∧ a < 0x800) && a % 4 == 1 && b ≠ 1)

/-- The class of the change that a return to the reset values makes to the operating point (R42). -/
def Pelnos.resetClass (c : Pelnos) : Nat :=
  let fs := shFields.foldl (fun a x => if c.get x.1 = x.1.reset then a else max a x.2) 0
  let gain := Tab.any (fun _ w => w.getLsbD 7) c.pix
    || (List.range 256).any fun n => c.get (P.DCn_CFG.DC_OFF.at (4 * n)) == 1
  let trim := Tab.any (fun _ w => w.extractLsb' 0 5 ≠ 0x10#5) c.pix
  max fs (if gain then gainClass else if trim then threshClass else 0)

/-- The soft reset: every register, staged copy, pixel word, trim and slot returns to its reset value, except what
`softKept` names; link, PLLs, counter and frames go on, SOFT_DONE is set, and a pending commit is discarded (R416). -/
def Pelnos.softReset (c : Pelnos) : Pelnos :=
  let d : Pelnos := { c with regs := List.filter (fun e => softKept e.1) c.regs, staged := [], pix := [], quads := [],
                             slots := [], csu := none, inj := none, commit := none, calPeriod := 0, monScan := [],
                             monDue := false, monFresh := 0,
                             pixels := Tab.mapVals {} (fun _ p => { p with amask := false }) c.pixels }
  forAfter c ((d.put P.RST.SOFT_DONE 1).settleBy c.resetClass)

/-! ### Writing -/

/-- A write of P_MON_CTL: setting EN clears every VALID, clearing it ends the scan (R348, R349). -/
def Pelnos.writeMonCtl (c : Pelnos) (w : Nat) : Pelnos :=
  let was := c.get P.MON_CTL.EN
  let c : Pelnos := { c with regs := (fieldsAt 1 P.rows 0x300).foldl (fun r f => fwrite r f 0x300 w) c.regs }
  if was = 0 ∧ w % 2 = 1 then
    (List.range 24).foldl (fun (c : Pelnos) k => c.put (P.MON_DATAk.VALID.at k) 0) { c with monFresh := 0 }
  else if w % 2 = 0 then { c with monScan := [], monDue := false } else c

/-- A write by the access types alone: RW and W1C fields take it, SH fields stage it; the base type of DL_LOST is W1C (R121). -/
def Pelnos.writePlain (c : Pelnos) (a w : Nat) : Pelnos :=
  (fieldsAt 1 P.rows a).foldl (fun (c : Pelnos) f =>
    if f.acc = .sh then c.stage f (bits w f.lsb f.wid)
    else if f = P.LINK_STAT.DL_LOST then { c with regs := fwrite c.regs { f with acc := .w1c } a w }
    else { c with regs := fwrite c.regs f a w }) c

/-- The effect of a register write (R9 and the Effect cells of the register tables). -/
def Pelnos.writeReg (c : Pelnos) (a w : Nat) : Pelnos :=
  if a = 0x22 then c.writePixdata (BitVec.ofNat 16 w)
  else if a = 0x33 then c.writeLanes w
  else if a = 0x111 then (if c.csuBusy then c else c.writePlain a w)
  else if a = 0x113 then c.csuCol w
  else if a = 0x114 then c.csuRow w
  else if a = 0x300 then c.writeMonCtl w
  else if 0x400 ≤ a ∧ a < 0x800 ∧ a % 4 = 0 then c.writeDcCfg ((a - 0x400) / 4) (BitVec.ofNat 16 w)
  else
    let d := forAfter c (c.writePlain a w)
    if a = 0x14 then d.injCtl (bitAt w 15) (bitAt w 14)
    else if a = 0x110 then d.csuCtl (bitAt w 0) (bitAt w 1)
    else if a = 0x18 ∧ w % 2 = 1 then forAfter d d.clearAll
    else if a = 0x100 ∧ bitAt w 1 then d.calReset
    else if a = 0x202 ∧ bitAt w 13 then d.put P.PRBS_ERR.COUNT 0
    else if a = 0x60 ∧ w % 2 = 1 then d.put P.SNAP_CTL.TAKEN 0
    else if a = 0x01 ∧ w % 2 = 1 then d.softReset
    else d

/-! ### Snapshot copies (R391) -/

/-- The words that P_SNAP_COPYk images, in order of k. -/
def snapWords : List Nat :=
  [0x34, 0x35, 0x105, 0x36, 0x205, 0x206, 0x51, 0x52, 0x102, 0x19, 0x40, 0x106, 0x50, 0x103, 0x104, 0x101, 0x14, 0x110,
    0x201, 0x202, 0x203, 0x204, 0x01]

/-- The sum of a counter over the 256 double-columns. -/
def Pelnos.dcSum (c : Pelnos) (f : Field) : Nat := ((List.range 256).map fun n => c.get (f.at (4 * n))).sum

/-- Store the two halves of a 32-bit sum. -/
def Pelnos.putSum (c : Pelnos) (f : Field) (v : Nat) : Pelnos := (c.put f v).put (f.at 1) (v / 65536)

/-- The latch: every copy is taken, ARM clears, TAKEN is set. -/
def Pelnos.snapLatch (c : Pelnos) : Pelnos :=
  let d := (c.putSum P.SNAP_PILEUP.HALF (c.dcSum P.DCn_PILEUP.COUNT)).putSum P.SNAP_DROP.HALF (c.dcSum P.DCn_DROP.COUNT)
  let d := snapWords.zipIdx.foldl (fun (d : Pelnos) x => d.put (P.SNAP_COPYk.IMAGE.at x.2) (c.word x.1)) d
  let d := (List.range 256).foldl (fun (d : Pelnos) n =>
    ((d.put (P.SNAP_DCn_1.IMAGE.at (4 * n)) (c.word (0x401 + 4 * n))).put (P.SNAP_DCn_2.IMAGE.at (4 * n))
      (c.word (0x402 + 4 * n))).put (P.SNAP_DCn_3.IMAGE.at (4 * n)) (c.word (0x403 + 4 * n))) d
  let d := (List.range 24).foldl (fun (d : Pelnos) k => d.put (P.SNAP_MONk.IMAGE.at k) (c.word (0x310 + k))) d
  (d.put P.SNAP_CTL.ARM 0).put P.SNAP_CTL.TAKEN 1

/-! ### Link loss and return (R345, R346, R92) -/

/-- Everything in the hit pipeline and every measurement in progress is discarded, without records or counts. -/
def Pelnos.discardAll (c : Pelnos) : Pelnos :=
  { c with
    pixels := Tab.mapVals {} (fun _ p => { p with meas := none, hold := false, tail := false, done := none, reg := none })
      c.pixels,
    dcols := Tab.mapVals {} (fun _ d => { d with queue := [], pend := none }) c.dcols,
    builders := Tab.mapVals {} (fun _ b => { b with clusters := [], stalled := [] }) c.builders,
    frames := [], late := none, closed := [], sending := [], echo := [], storeFull := false }

/-- Pelnos stops as on a lost downlink (R59, R110): pipeline and sequences end, the fast-OR pads go low, the counter is no
longer loaded, a pending commit is gone and must be sent again (R17), the snapshot latch is disarmed. -/
def Pelnos.linkDown (c : Pelnos) : Pelnos :=
  let c : Pelnos := if c.csuBusy then c.put P.CSU_CTRL.LOST 1 else c
  let c : Pelnos := { c.discardAll with inj := none, csu := none, commit := none, active := false, forPulse := 0 }
  (((c.put P.SYNC_STAT.LOADED 0).put P.SYNC_STAT.HOLD 0).put P.SNAP_CTL.ARM 0).put P.SNAP_CTL.TAKEN 0

/-- R345: downlink loss is declared. -/
def Pelnos.downlinkLost (c : Pelnos) : Pelnos :=
  let c : Pelnos := if c.get P.PLL_STAT.LOCK = 1 then (c.put P.PLL_STAT.LOCK 0).put P.PLL_STAT.LOCK_LOST 1 else c
  let c := (List.range 256).foldl (fun (c : Pelnos) n => c.put (P.DCn_DLL.LOCK.at (4 * n)) 0) c.linkDown
  ((c.put P.LINK_STAT.DL_LOST 1).put P.LINK_STAT.DL_STATE 1).put P.LINK_STAT.FAR_LOOP 0

/-! ### Counter load (R323) -/

/-- The first load after the link has come up: no frame has closed before it, so the records that the periphery has placed meanwhile
go into the frame in which the loaded count places records. -/
def Pelnos.carryRecs (c : Pelnos) : Pelnos :=
  let rs := c.frames.flatMap fun e => e.2.recs.map fun r => { r with frame := c.recFrame, era := c.era }
  { c with frames := Tab.set {} [] c.recFrame { recs := rs } }

/-- The counter is loaded so that it reads `t` now. -/
def Pelnos.load (c : Pelnos) (t : Nat) (epoch : Bool) : Pelnos :=
  let t := t % tickMod
  let old := c.now % tickMod
  let first := c.get P.SYNC_STAT.LOADED == 0
  let c : Pelnos :=
    if t = old ∧ c.get P.SYNC_STAT.LOADED = 1 then c
    else
      let d := c.closeAll
      let shift (x : Nat) : Nat := (x + tickMod + t - old) % tickMod
      { d with frame := t / 4096, coarse := t % 4096, era := d.era + 1, nextClose := t / 4096,
               settle := d.settle.map fun w => (shift w.1, shift w.1 + (w.2 - w.1)),
               csu := d.csu.map fun r => { r with pulse := r.pulse.map shift } }
  let c : Pelnos := c.put P.SYNC_STAT.LOADED 1
  let c : Pelnos := if epoch then c.put P.SYNC_STAT.HOLD 1 else c
  if first then c.carryRecs else c

/-- A SYNC whose kind symbol arrives now: its target tick lies 64 ticks ahead (R323). -/
def Pelnos.sync (c : Pelnos) (frame half : Nat) : Pelnos :=
  let t := (frame * 4096 + half % 4096 + tickMod - 64) % tickMod
  if bitAt half 15 then c.load t (bitAt half 14)
  else if c.now % tickMod = t then c
  else (c.put P.SYNC_STAT.SLIP 1).bump P.SYNC_STAT.SLIPS 1

/-! ### Monitor (R348) -/

/-- The enabled monitor channels in order. -/
def Pelnos.monChans (c : Pelnos) : List Nat :=
  (List.range 24).filter fun k => bitAt (c.get P.MON_EN0.CH + 65536 * c.get P.MON_EN1.CH) k

/-- A scan starts, or waits for the running one. -/
def Pelnos.monStart (c : Pelnos) : Pelnos :=
  if c.get P.MON_CTL.EN = 0 then c
  else if c.monScan = [] then { c with monScan := c.monChans } else { c with monDue := true }

/-- The conversion of the running scan's next channel ends with result `code`. -/
def Pelnos.monConvert (c : Pelnos) (code : Nat) : Pelnos :=
  match c.monScan with
  | [] => c
  | k :: rest =>
    let ovr := if c.monFresh.getLsbD k then 1 else c.get (P.MON_DATAk.OVR.at k)
    let c := ((c.put (P.MON_DATAk.CODE.at k) code).put (P.MON_DATAk.OVR.at k) ovr).put (P.MON_DATAk.VALID.at k) 1
    let c : Pelnos := { c with monFresh := c.monFresh ||| BitVec.ofNat 24 (2 ^ k), monScan := rest }
    let c : Pelnos := if c.get P.MON_CTL.RECORD = 1 then c.periph (monitorRec k code (ovr == 1) c.coarse) 4 else c
    if rest = [] ∧ c.monDue then { c with monScan := c.monChans, monDue := false } else c

end Sys2Proof.Machine
end

