-- ==== Sys2Proof/Machine/Links.lean ====
section
/-!
DEFINITION. What the lane commands share: lane states (R101), the active-lane mask (R105, R108), ports that come up and
leave (R105, R110, R135), the block check (R98), PRBS checking (R119), and retraining (R108, R109).
Choices of the model: log entry 7 (DEDUCED).
-/

namespace Sys2Proof.Machine

/-! ### Lanes and their states -/

def laneKey : Link → Nat
  | .up p l => 8 * p + l
  | .down p => 128 + p
  | .ring .east => 144
  | .ring .west => 145

def State.lane (s : State) (k : Link) : Lane := Tab.get {} s.lanes (laneKey k)
def State.updLane (s : State) (k : Link) (f : Lane → Lane) : State := s.updLanes fun t => Tab.upd {} t (laneKey k) f

/-- The status field of uplink lane `l` of port `p`. -/
def laneF (f : Field) (p : Port) (l : Nat) : Field := (f.at (4 * l)).port p

/-- The STATE of a lane (R101): of an uplink lane at Zwiuc, of the downlink at its transmitter, of a ring link. -/
def State.lst (s : State) : Link → Nat
  | .up p l => s.zget (laneF ZP.LSTATm.STATE p l)
  | .down p => s.zget (ZP.DLSTAT.STATE.port p)
  | .ring d => s.zget (ZP.LSTATm.STATE.ringLane d)

/-- RING_E 0, RING_W 1, as the events name them (R387). -/
def sideNo : Side → Nat
  | .east => 0
  | .west => 1

/-- Raise LINK of a ring side (R387 source 512). -/
def State.ringLink (s : State) (d : Side) (cause extra : Nat) : State :=
  s.raise 512 [b8 (sideNo d), b8 cause, b8 (s.lane (.ring d)).farId, b8 extra]

/-- A ring link joins or leaves service: LINK for the link and for the wrap that ends or starts (R302, R329). -/
def State.ringMoved (s : State) (d : Side) (was now : Bool) : State :=
  if was && !now then (s.ringLink d 1 0).ringLink d 2 0
  else if !was && now then (s.ringLink d 0 0).ringLink d 3 0
  else s

/-- Move a lane to state `v`.  The downlink's state shows at both ends; a ring link that joins or leaves ACTIVE raises its
events. -/
def State.setLst (s : State) (k : Link) (v : Nat) : State :=
  match k with
  | .up p l => s.zput (laneF ZP.LSTATm.STATE p l) v
  | .down p => (s.zput (ZP.DLSTAT.STATE.port p) v).updChip p fun c => c.put P.LINK_STAT.DL_STATE v
  | .ring d =>
    (s.zput (ZP.LSTATm.STATE.ringLane d) v).ringMoved d (s.zget (ZP.LSTATm.STATE.ringLane d) == 5) (v == 5)

/-- Ports may come up: READY, and not in the safe state. -/
def State.portsUp (s : State) : Bool := s.zget Z.BOOT_STAT.STAGE == 4 && s.zget Z.CLK_SRC.SAFE == 0

/-- The lane may leave DISABLED (R122): a LANE_EN bit; for the downlink, any lane of the port; for a ring link also EN.  Before READY
every port stays DISABLED (R406), and no transmitter runs in the safe state (R336). -/
def State.laneEnabled (s : State) : Link → Bool
  | .up p l => s.portsUp && bitAt (s.zget (ZP.LCTL.LANE_EN.port p)) l
  | .down p => s.portsUp && s.zget (ZP.LCTL.LANE_EN.port p) != 0
  | .ring d => s.zget Z.CLK_SRC.SAFE == 0 && s.zget Z.RING_CFG.EN == 1 && bitAt (s.zget (ZP.LCTL.LANE_EN.ringLane d)) 0

/-- A lane enters DETECT afresh. -/
def State.enterDetect (s : State) (k : Link) : State :=
  (s.updLane k fun x => { x with good := 0, ready := 0, cap := 0, capDone := false, noRx := false, cause := none,
                                 leaving := false, rejoin := false, badKind := 0, errs := [], lost := 0, mark := none })
    |>.setLst k 1

/-- A lane enters TRAIN, keeping its capability. -/
def State.enterTrain (s : State) (k : Link) : State :=
  (s.updLane k fun x => { x with good := 0, ready := 0, cap := 0, leaving := false, rejoin := false, badKind := 0,
                                 errs := [], lost := 0, mark := none }).setLst k 2

/-- A lane re-enters LOCK, keeping its capability (R100, R118). -/
def State.enterLock (s : State) (k : Link) : State :=
  (s.updLane k fun x => { x with ready := 0, badKind := 0, leaving := false, lost := 0, mark := none }).setLst k 3

/-- The lane stands outside DISABLED and RETIRED only when enabled; a lane that is not enabled goes to DISABLED. -/
def State.freshLane (s : State) (k : Link) : State :=
  if s.laneEnabled k then s.enterDetect k else s.setLst k 0

def fins8 : List (Fin 8) := [0, 1, 2, 3, 4, 5, 6, 7]
def ports16 : List Port := [0, 1, 2, 3, 4, 5, 6, 7, 8, 9, 10, 11, 12, 13, 14, 15]

/-- The uplink lanes of a port that stand in ACTIVE. -/
def State.activeLanes (s : State) (p : Port) : List (Fin 8) := fins8.filter fun l => s.lst (.up p l) == 5

/-- The mask with the given lanes. -/
def maskOf (ls : List (Fin 8)) : Nat := ls.foldl (fun m l => m ||| 2 ^ l.val) 0

/-- One bit taken out of a mask. -/
def clearBit (m i : Nat) : Nat := if bitAt m i then m - 2 ^ i else m

/-! ### The merge state of a port (R135) -/

/-- The port leaves ACTIVE or its uplink sleeps: a member goes to DOWN. -/
def State.mergeDown (s : State) (p : Port) : State :=
  if s.zget (ZP.STAT.STATE.port p) = 0 then s else s.zput (ZP.STAT.STATE.port p) 1

/-- The port reaches ACTIVE or its uplink wakes: DOWN becomes SYNC. -/
def State.mergeUp (s : State) (p : Port) : State :=
  if s.zget (ZP.STAT.STATE.port p) = 1 ∧ s.linkUp p ∧ ¬ (s.port p).asleep then s.zput (ZP.STAT.STATE.port p) 2 else s

/-! ### Ports (R104, R105, R110) -/

/-- The port leaves ACTIVE (R145, R243): PORT_DOWN, the open frame and the blocks in reassembly are dropped, commands on
its downlink fail, the merger stops waiting for it, and Pelnos stops as under R59. -/
def State.portLeave (s : State) (p : Port) (cause : Nat) : State :=
  if ¬ s.linkUp p then s
  else
    let mask := (s.port p).mask
    let s := s.zput (ZP.STAT.LINK.port p) 0
    let s := s.raisePort p 1 [b8 cause, b8 mask]
    let s := s.updPort p fun q =>
      let mine (f : Nat) : Bool := q.cur.elim false fun o => o.frame == f
      { q with queue := q.queue.filter fun x => !mine x.frame, pend := q.pend.filter fun x => !mine x.frame,
               arrived := [], held := [], discard := true, resync := true, cur := none, holdGap := false, lastNum := none,
               mask := 0, waitMask := false, asleep := false, sleepWait := false, markCnt := none,
               echo := { epoch := q.echo.epoch } }
    ((s.failTraffic p).mergeDown p).updChip p Pelnos.linkDown

/-- The port begins bring-up from DETECT (R104, R110): the downlink, and the uplink lanes when the Pelnos PLLs are locked;
retired lanes train afresh. -/
def State.restartPort (s : State) (p : Port) : State :=
  let s := s.updPort p fun q => { q with stepping := none, dlPreset := 3 }
  let s := (s.updLane (.down p) fun x => { x with fails := 0 }).freshLane (.down p)
  fins8.foldl (fun s l =>
    let s := s.updLane (.up p l) fun x => { x with fails := 0, attempts := 0 }
    if (s.chip p).get P.PLL_STAT.LOCK = 1 then s.freshLane (.up p l) else s.setLst (.up p l) 0) s

/-- Pelnos's receiver has recovered the clock: its PLLs lock and its uplink lanes enter DETECT (R104 step 2). -/
def State.pllUp (s : State) (p : Port) : State :=
  if (s.chip p).get P.PLL_STAT.LOCK = 1 ∨ (s.chip p).inReset then s
  else
    let s := s.updChip p fun c => c.put P.PLL_STAT.LOCK 1
    fins8.foldl (fun s l => if s.lst (.up p l) = 0 then s.freshLane (.up p l) else s) s

/-! ### The active-lane mask (R105, R108) -/

/-- A lane joins the mask: LANE_IN, and the mask is written. -/
def State.laneIn (s : State) (p : Port) (l : Fin 8) : State :=
  let m := (s.port p).mask ||| 2 ^ l.val
  if bitAt (s.port p).mask l then s
  else (s.writeMask p m).raisePort p 5 [b8 l, b8 m]

/-- A lane leaves the mask: LANE_OUT with its cause, and the mask is written. -/
def State.laneOut (s : State) (p : Port) (l : Fin 8) (cause : Nat) : State :=
  let m := clearBit (s.port p).mask l
  (s.writeMask p m).raisePort p 4 [b8 l, b8 cause, b8 m]

/-- The lane goes to RETIRED: LANE_OUT with cause retire (R109, R149). -/
def State.retire (s : State) (p : Port) (l : Fin 8) : State :=
  (s.setLst (.up p l) 7).raisePort p 4 [b8 l, 1, b8 (s.port p).mask]

/-- R108: an uplink lane is retrained; `out` is the LANE_OUT cause.  The only lane of the mask takes the port down; a lane
of the mask leaves it first and trains once a FRAME block takes effect without it; any other lane trains at once. -/
def State.retrainLane (s : State) (p : Port) (l : Fin 8) (cause : RetrainCause) (out : Nat) : State :=
  let m := (s.port p).mask
  if bitAt m l then
    if m = 2 ^ l.val then (s.portLeave p 1).restartPort p
    else (s.laneOut p l out).updLane (.up p l) fun x => { x with cause := some cause, leaving := true }
  else if (s.lane (.up p l)).leaving then s
  else (s.updLane (.up p l) fun x => { x with cause := some cause }).enterTrain (.up p l)

/-- A FRAME header shows mask `m`: a lane that was waiting to leave now trains, or is disabled (R108, R122), or enters its
near-end loop (R118). -/
def State.headerMask (s : State) (p : Port) (m : Nat) : State :=
  fins8.foldl (fun s l =>
    if (s.lane (.up p l)).leaving ∧ ¬ bitAt m l then
      if ¬ s.laneEnabled (.up p l) then (s.updLane (.up p l) fun x => { x with leaving := false }).setLst (.up p l) 0
      else if s.zget (laneF ZP.LSTATm.LOOPED p l) = 1 then s.updLane (.up p l) fun x => { x with leaving := false }
      else s.enterTrain (.up p l)
    else s) s

/-- A failed retrain attempt: the third retires the lane, otherwise it trains again (R109). -/
def State.failAttempt (s : State) (p : Port) (l : Fin 8) : State :=
  let n := (s.lane (.up p l)).attempts + 1
  let s := s.updLane (.up p l) fun x => { x with attempts := n, rejoin := false }
  if 3 ≤ n then (s.updLane (.up p l) fun x => { x with attempts := 0, cause := none }).retire p l
  else s.enterTrain (.up p l)

/-! ### The block check (R98) -/

/-- The kinds valid on a lane kind (R96).  On the uplink K28.1 is the FRAME block, on the downlink the SYNC block. -/
def kindValid : Link → BlkKind → Bool
  | .up _ _, k => k ≠ .sync
  | .down _, k => k ≠ .frame ∧ k ≠ .status ∧ k ≠ .laneMark
  | .ring _, k => k ≠ .frame ∧ k ≠ .sync ∧ k ≠ .status ∧ k ≠ .laneMark

/-- The block passes the check. -/
def intact (k : Link) (b : RxBlock) : Bool :=
  !b.damaged && !b.kindErr && b.crc == blockCrc b.blk && kindValid k b.blk.kind && b.blk.payload.length == 16

/-- Count a discarded block in the lane's CRC_ERR. -/
def State.countDiscard (s : State) (k : Link) : State :=
  match k with
  | .up p l => s.zbump (laneF ZP.LSTATm.CRC_ERR p l) 1
  | .down p => s.updChip p fun c => c.bump P.DL_ERR.COUNT 1
  | .ring d => s.zbump (ZP.LSTATm.CRC_ERR.ringLane d) 1

/-- The ERR_LIMIT that holds for a lane; the downlink has none. -/
def State.errLimit (s : State) : Link → Nat
  | .up p _ => s.zget (ZP.LCTL.ERR_LIMIT.port p)
  | .down _ => 0
  | .ring d => s.zget (ZP.LCTL.ERR_LIMIT.ringLane d)

/-- A retrain of an uplink lane or a ring link by one of the causes of R108; a downlink has none (R110). -/
def State.retrainLink (s : State) (k : Link) (cause : RetrainCause) : State :=
  match k with
  | .up p l => s.retrainLane p l cause 0
  | .down _ => s
  | .ring d => (s.updLane (.ring d) fun x => { x with cause := some cause }).enterTrain (.ring d)

/-- The discarded block counts toward ERR_LIMIT within 1 ms while the lane is in ACTIVE (R108). -/
def State.limitErrors (s : State) (k : Link) : State :=
  let s := s.updLane k fun x =>
    { x with errs := s.time :: x.errs.filter fun t => decide (s.time < t + 1000000 * nsUnits) }
  let n := s.errLimit k
  if n ≠ 0 ∧ n < (s.lane k).errs.length ∧ s.lst k = 5 then
    (s.updLane k fun x => { x with errs := [] }).retrainLink k .other
  else s

/-- A block fails the check (R98, R100): it is counted, and what counts blocks in a row starts again. -/
def State.discardBlock (s : State) (k : Link) (b : RxBlock) : State :=
  let s := s.countDiscard k
  let s := s.updLane k fun x => { x with good := 0, ready := 0, cap := if x.cap < 4 then 0 else x.cap,
                                         badKind := if b.kindErr then x.badKind + 1 else 0 }
  s.limitErrors k

/-- A block passed the check: the run of kind-symbol errors ends. -/
def State.goodBlock (s : State) (k : Link) : State :=
  if (s.lane k).badKind = 0 then s else s.updLane k fun x => { x with badKind := 0 }

/-! ### PRBS (R119) -/

/-- The two taps of a pattern. -/
def prbsTaps : Nat → Nat × Nat
  | 0 => (7, 6)
  | 1 => (15, 14)
  | 2 => (23, 18)
  | _ => (31, 28)

/-- The next bit that the last 31 bits predict. -/
def prbsNext (pat reg : Nat) : Nat := (reg / 2 ^ ((prbsTaps pat).1 - 1) + reg / 2 ^ ((prbsTaps pat).2 - 1)) % 2

/-- One received bit at the checker: unlocked, it counts error-free bits; locked, it counts errors and compared bits. -/
def Lane.prbsBit (locked : Bool) (pat : Nat) (x : Lane) (b : Nat) : Lane :=
  let e := prbsNext pat x.prbsReg
  if locked then
    let bad := b2n (decide (e ≠ b))
    let fresh := x.prbsWinBits == 1024
    { x with prbsReg := (2 * x.prbsReg + e) % 2 ^ 31, prbsErr := sat 32 (x.prbsErr + bad), prbsBits := sat 64 (x.prbsBits + 1),
             prbsWinErr := (if fresh then 0 else x.prbsWinErr) + bad,
             prbsWinBits := (if fresh then 0 else x.prbsWinBits) + 1 }
  else { x with prbsReg := (2 * x.prbsReg + b) % 2 ^ 31, prbsRun := if e = b then x.prbsRun + 1 else 0 }

/-- The bits of a byte, most significant first. -/
def byteBits (b : Byte) : List Nat := [7, 6, 5, 4, 3, 2, 1, 0].map fun i => b.toNat / 2 ^ i % 2

/-- The checker enable, its pattern and its lock. -/
def State.prbsCfg (s : State) : Link → Bool × Nat × Bool
  | .up p l => (bitAt (s.zget (ZP.PRBS.CHK_EN.port p)) l, s.zget (ZP.PRBS.PATTERN.port p),
      bitAt (s.zget (ZP.PRBS.LOCKED.port p)) l)
  | .down p => ((s.chip p).get P.PRBS_CFG.CHK_EN == 1, (s.chip p).get P.PRBS_CFG.PATTERN,
      (s.chip p).get P.PRBS_CFG.LOCKED == 1)
  | .ring d => (bitAt (s.zget (ZP.PRBS.CHK_EN.ringLane d)) 0, s.zget (ZP.PRBS.PATTERN.ringLane d),
      bitAt (s.zget (ZP.PRBS.LOCKED.ringLane d)) 0)

/-- Errors on the downlink checker show in P_PRBS_ERR (R121). -/
def State.showPrbs (s : State) (k : Link) : State :=
  match k with
  | .down p => s.updChip p fun c => c.put P.PRBS_ERR.COUNT (sat 16 (s.lane k).prbsErr)
  | _ => s

/-- The payload of an intact DATA block meets the lane's checker, when it is enabled. -/
def State.prbsCheck (s : State) (k : Link) (b : Block) : State :=
  let c := s.prbsCfg k
  if c.1 ∧ b.kind = .data then
    (s.updLane k fun x => (b.payload.flatMap byteBits).foldl (Lane.prbsBit c.2.2 c.2.1) x).showPrbs k
  else s

/-- Set or clear the checker's lock. -/
def State.setPrbsLock (s : State) (k : Link) (v : Bool) : State :=
  let put (m : Nat) (i : Nat) : Nat := if v then m ||| 2 ^ i else clearBit m i
  match k with
  | .up p l => s.zput (ZP.PRBS.LOCKED.port p) (put (s.zget (ZP.PRBS.LOCKED.port p)) l)
  | .down p => s.updChip p fun c => c.put P.PRBS_CFG.LOCKED (b2n v)
  | .ring d => s.zput (ZP.PRBS.LOCKED.ringLane d) (put (s.zget (ZP.PRBS.LOCKED.ringLane d)) 0)

/-! ### Receiving on a link in service -/

/-- A block on link `k`: discarded and counted (none), or passed on after the PRBS checker has seen it. -/
def State.receive (s : State) (k : Link) (b : RxBlock) : State × Option Block :=
  if intact k b then ((s.goodBlock k).prbsCheck k b.blk, some b.blk) else (s.discardBlock k b, none)

/-- A block arrives at Pelnos on the downlink of port `p`.  In reset it is ignored (R404); in a far-end loop an intact block
other than LOOP goes back on the looped lane (R117).  It is passed on while the downlink is in ACTIVE. -/
def State.dlReceive (s : State) (p : Port) (b : RxBlock) : State × Option Block :=
  if (s.chip p).inReset then (s, none)
  else
    let r := s.receive (.down p) b
    match r.2 with
    | none => r
    | some x =>
      let t := if (r.1.chip p).get P.LINK_STAT.FAR_LOOP = 1 ∧ x.kind ≠ .loop then
          r.1.emit (.uplink p (r.1.chip p).loopLane x b.crc) else r.1
      (t, if t.lst (.down p) = 5 ∧ (t.chip p).get P.LINK_STAT.DL_STATE = 5 then some x else none)

/-! ### Background lag (R398) -/

/-- Latch the lag bit of activity `i`. -/
def State.bgLag (s : State) (i : Nat) : State := s.zput Z.BG_LAG.LAG (s.zget Z.BG_LAG.LAG ||| 2 ^ i)

/-- A write against the gating tree: GATE_REFUSED names the register and the bit (R338). -/
def State.gateRefused (s : State) (off bit : Nat) : State := s.raise 539 (leBytes off 4 ++ [b8 bit])

end Sys2Proof.Machine
end

