-- ==== Sys2Proof/Machine/Dram.lean ====
section
/-!
DEFINITION. DRAM training and operating points (R168 to R173), the gather and partial-array self-refresh (R174, R175), the
writer (R156, R158, R159), and the register writes of R176.
Choices of the model: log entries 10 (DEDUCED), 24 (DESIGN CHOICE).
-/

namespace Sys2Proof.Machine

/-! ### Channels -/

/-- STATE codes of a channel (R178). -/
def chOff : Nat := 0
def chTraining : Nat := 1
def chActive : Nat := 2
def chStalled : Nat := 3
def chFrozen : Nat := 4
def chRefresh : Nat := 5

def State.chState (s : State) (n c : Nat) : Nat := s.zget (chanF ZS.CHSTATc.STATE n c)
def State.setChState (s : State) (n c v : Nat) : State := s.zput (chanF ZS.CHSTATc.STATE n c) v

/-- Apply `f` to the four channels of a stack. -/
def State.chans (s : State) (f : State → Nat → State) : State := [0, 1, 2, 3].foldl f s

/-- Move every channel of stack `n` that is in state `a` to state `b`. -/
def State.chMove (s : State) (n a b : Nat) : State :=
  s.chans fun s c => if s.chState n c = a then s.setChState n c b else s

/-- A slice gathers data on some channel of the stack. -/
def State.slicing (s : State) (n : Nat) : Bool := [0, 1, 2, 3].any fun c => s.zget (chanF ZS.CHSTATc.SLICE n c) == 1

/-- The valid-set flag of channel `c` at a point. -/
def setF (n c point : Nat) : Field := chanF (if point = 0 then ZS.CHSTATc.SET_32 else ZS.CHSTATc.SET_16) n c

/-- The stack is skipped from the next allocation (R159). -/
def State.skip (s : State) (n : Nat) (v : Bool) : State := s.zbit Z.BUF_STAT.SKIPPED n v

/-! ### Operating points (R172, R173) -/

/-- The point that the stack is to be at. -/
def State.wantedPoint (s : State) (n : Nat) : Nat :=
  if s.zget (ZS.DPT.EMERG.stack n) = 1 then 1 else s.zget (ZS.DPT.TARGET.stack n)

/-- A change of point starts: the four channels stall. -/
def State.startPoint (s : State) (n goal : Nat) : State :=
  let s := (s.zput (ZS.DPT.SWITCHING.stack n) 1).updStack n fun x => { x with goal := goal, waiting := false }
  s.chMove n chActive chStalled

/-- TARGET and the emergency are evaluated: a change starts now, or waits for a slice, for start-up training, or for the exit from
partial-array self-refresh (R173, R175); during a change they are evaluated again at its end. -/
def State.evalPoint (s : State) (n : Nat) : State :=
  let want := s.wantedPoint n
  if s.zget (ZS.DPT.SWITCHING.stack n) = 1 then s
  else if want = s.zget (ZS.DPT.POINT.stack n) then s.updStack n fun x => { x with waiting := false }
  else if s.zget Z.BUF_STAT.PASR = 1 then s
  else if (s.stack n).training ∨ s.slicing n then
    if (s.stack n).waiting then s
    else (s.zput (ZS.DPT.DEFERRED.stack n) 1).updStack n fun x => { x with waiting := true, since := s.time }
  else s.startPoint n want

/-- What a waiting change does when the slice it waited for has ended: FREQ_DEFERRED with the wait, and the change. -/
def State.slicesOver (s : State) (n : Nat) : State :=
  if (s.stack n).waiting ∧ ¬ s.slicing n ∧ ¬ (s.stack n).training then
    let wait := (s.time - (s.stack n).since) / (1000 * nsUnits)
    let s := s.raiseStack n 8 ([b8 (s.wantedPoint n)] ++ leBytes (min wait 65535) 2)
    (s.updStack n fun x => { x with waiting := false }).evalPoint n
  else s

/-- The end of the 4 µs stall: the stored set of the new point is used, and the retrain period restarts.  A channel without a set
at 1.6 Gb/s stays stalled for its full training. -/
def State.pointDone (s : State) (n : Nat) : State :=
  if s.zget (ZS.DPT.SWITCHING.stack n) = 0 then s
  else
    let goal := (s.stack n).goal
    let s := (s.zput (ZS.DPT.SWITCHING.stack n) 0).zput (ZS.DPT.POINT.stack n) goal
    let s := s.updStack n fun x => { x with slices := [] }
    let s := s.chans fun s c =>
      if s.chState n c = chStalled ∧ s.zget (setF n c goal) = 1 then s.setChState n c chActive else s
    s.evalPoint n

/-- A thermal emergency begins (R172, R173). -/
def State.thermalEntry (s : State) (n temp stall : Nat) : State :=
  if s.zget (ZS.DPT.EMERG.stack n) = 1 ∨ temp < s.zget (ZS.DPT.T_EMERG.stack n) then
    s.zput (ZS.DPT.TEMP.stack n) temp
  else
    let s := (s.zput (ZS.DPT.TEMP.stack n) temp).zput (ZS.DPT.EMERG.stack n) 1
    let training := (s.stack n).training
    let full : Bool := !training && s.zget (ZS.DPT.POINT.stack n) == 0
      && [0, 1, 2, 3].any fun c => s.chState n c == chActive && s.zget (setF n c 1) == 0
    let s := s.raiseStack n 9 ([1, b8 temp] ++ leBytes (if full then stall else 0) 4)
    let s := s.chans fun s c =>
      if s.zget (chanF ZS.CHSTATc.SLICE n c) = 1 then
        (s.zput (chanF ZS.CHSTATc.SLICE n c) 0).zbump (chanF ZS.TRAINc.ABORTED n c) 1
      else s
    if training then s.zput (ZS.DPT.POINT.stack n) 1
    else (if full then s.skip n true else s).evalPoint n

/-- A thermal emergency ends: the stack returns to TARGET by an ordinary change (R172). -/
def State.thermalExit (s : State) (n temp : Nat) : State :=
  let s := s.zput (ZS.DPT.TEMP.stack n) temp
  if s.zget (ZS.DPT.EMERG.stack n) = 0 ∨ s.zget (ZS.DPT.T_CLEAR.stack n) < temp then s
  else ((s.zput (ZS.DPT.EMERG.stack n) 0).raiseStack n 9 ([0, b8 temp] ++ leBytes 0 4)).evalPoint n

/-! ### Periodic retraining (R170, R171) -/

/-- A slice starts: retraining is enabled, the channel carries traffic, no other channel of the stack is in a slice, and at most 16
slices make a retrain. -/
def State.sliceStart (s : State) (n c : Nat) : State :=
  if s.zget (ZS.CTL.RETRAIN_EN.stack n) = 1 ∧ s.chState n c = chActive ∧ ¬ s.slicing n
      ∧ Tab.get 0 (s.stack n).slices c < 16 ∧ s.zget Z.BUF_STAT.PASR = 0 then
    s.zput (chanF ZS.CHSTATc.SLICE n c) 1
  else s

/-- A slice ends with its data. -/
def State.sliceEnd (s : State) (n c : Nat) : State :=
  if s.zget (chanF ZS.CHSTATc.SLICE n c) = 1 then
    ((s.zput (chanF ZS.CHSTATc.SLICE n c) 0).updStack n fun x => { x with slices := Tab.upd 0 x.slices c (· + 1) }).slicesOver n
  else s

/-- The retrain of channel `c` has its last slice: the worst data bit has an eye of `w`/64 UI and 4 mV × `h`.  A setting that meets
R170 is applied; otherwise the old one stays (R171). -/
def State.retrained (s : State) (n c w h : Nat) : State :=
  if Tab.get 0 (s.stack n).slices c = 0 ∨ s.zget (chanF ZS.CHSTATc.SLICE n c) = 1 then s
  else
    let point := s.zget (ZS.DPT.POINT.stack n)
    let s := s.updStack n fun x => { x with slices := Tab.set 0 x.slices c 0 }
    let s := (s.zput (chanF ZS.CHSTATc.MARGIN_W n c) w).zput (chanF ZS.CHSTATc.MARGIN_H n c) h
    let s := if s.chState n c = chStalled ∧ s.zget (ZS.DPT.SWITCHING.stack n) = 0 then s.setChState n c chActive else s
    let s := s.zbump (chanF ZS.TRAINc.DONE n c) 1
    if 16 ≤ w ∧ 10 ≤ h then
      ((s.zput (chanF ZS.CHSTATc.MARGINAL n c) 0).zput (setF n c point) 1).updStack n fun x =>
        { x with trained := Tab.set 0 x.trained (c + 4 * point) s.time }
    else
      ((s.zput (chanF ZS.CHSTATc.MARGINAL n c) 1).zbump (chanF ZS.TRAINc.NOSET n c) 1).raiseStack n 7
        [b8 (4 * n + c), b8 w, b8 h]

/-- A skipped stack accepts writes again: its stalled channels have completed their full training (R159, R173). -/
def State.skipEnd (s : State) (n : Nat) : State :=
  if bitAt (s.zget Z.BUF_STAT.SKIPPED) n then
    let point := s.zget (ZS.DPT.POINT.stack n)
    let s := s.chans fun s c =>
      if s.chState n c = chStalled then (s.zput (setF n c point) 1).setChState n c chActive else s
    s.skip n false
  else s

/-! ### The gather and partial-array self-refresh (R174, R175) -/

/-- The billet lies in a rank that is kept. -/
def State.keptBillet (s : State) (b : Nat) : Bool :=
  decide (32768 ≤ b / 32) || bitAt (s.zget Z.BUF_KEEP.RANK0) (s.billetStack b)

/-- The pinned billets that the gather must move, ascending. -/
def State.gatherList (s : State) : List Nat :=
  (List.filter (fun e => decide (e.2.pin ≠ 0) && s.inService (s.billetStack e.1) && !s.keptBillet e.1) s.buf.billets).map
    (·.1)

/-- The next destination at or after billet `b`: in rotation and kept. -/
def State.gatherDest (s : State) (b : Nat) : Nat → Option Nat
  | 0 => none
  | n + 1 => if s.inRotation b ∧ s.keptBillet b then some b else s.gatherDest ((b + 1) % billetCount) n

/-- Copy the lines of billet `a` to billet `d`; a poisoned line poisons the page it is written to. -/
def State.copyBillet (s : State) (a d : Nat) : State :=
  (List.range 1024).foldl (fun s i =>
    let r := s.readEvent (a * 65536 + 64 * i)
    let x := r.2.place (d * 65536 + 64 * i)
    let t := r.2.writeEventLine x.1 x.2 r.1.1
    if r.1.2 then t.setPoison x.1 (x.2 / 2048) else t) s

/-- Rename billet `a` as `d` in the billet table, the NEXT links, the ranges and the pinned directory. -/
def State.renameBillet (s : State) (a d : Nat) : State :=
  let src := s.billet a
  let gen := ((s.billet d).gen + 1) % 2 ^ 32
  let s := s.updBuf fun b => { b with
    billets := Tab.mapVals {} (fun _ x => if x.pin ≠ 0 ∧ x.next = a then { x with next := d } else x) b.billets,
    pins := Tab.mapVals none (fun _ r => r.map fun (r : PinRange) =>
      { r with billets := r.billets.map fun x => if x = a then d else x }) b.pins,
    pdir := b.pdir.map fun x => if x.2.billet = a then (x.1, { x.2 with billet := d, gen := gen }) else x }
  (s.updBillet d fun x => { x with gen := gen, next := src.next, pin := src.pin }).updBillet a fun x => { x with pin := 0 }

/-- Move the billets of the list, and answer the destinations used. -/
def State.gatherAll (s : State) (cur : Nat) : List Nat → State × List Nat
  | [] => (s, [])
  | a :: rest =>
    match s.gatherDest cur billetCount with
    | some d =>
      let r := ((s.copyBillet a d).renameBillet a d).gatherAll ((d + 1) % billetCount) rest
      (r.1, d :: r.2)
    | none => (s, [])

/-- Memory and damage of the ranks that are powered down are gone; what they hold afterwards reads as memory never written. -/
def State.loseRanks (s : State) : State :=
  let gone (k : Nat) : Bool :=
    decide (k / 2 ^ 32 < 32 ∧ k % 2 ^ 32 < 2 ^ 31) && !bitAt (s.zget Z.BUF_KEEP.RANK0) (k / 2 ^ 32 / 4)
  s.updBuf fun b => { b with mem := List.filter (fun e => !gone e.1) b.mem, dmg := List.filter (fun e => !gone e.1) b.dmg }

/-- Every channel in service goes to self-refresh. -/
def State.enterPasr (s : State) : State :=
  let s := (s.zput Z.BUF_STAT.PASR 1).zput Z.BUF_PASR.ACTIVE 1
  (List.range 8).foldl (fun s n => if s.inService n then (s.chMove n chActive chRefresh).chMove n chStalled chRefresh else s) s

/-- GATHER_COMPLETE: the copies, the expiry and the power states of R174. -/
def State.gatherDone (s : State) : State :=
  if s.zget Z.BUF_STAT.GATHER = 0 then s
  else
    let start := s.buf.alloc.elim 0 fun b => (b + 1) % billetCount
    let todo := s.gatherList
    let r := s.gatherAll start todo
    let s := (r.1.zput Z.BUF_STAT.GATHER 0).zput Z.BUF_GATHER.DONE 1
    let s := s.zput Z.BUF_GATHER.MOVED r.2.length
    let dead := (List.filter (fun x => x.2.valid && !x.2.expired
      && (s.entBillets x.2).any fun b => !s.keptBillet b || r.2.contains b) s.buf.dir).map (·.1)
    let s := dead.foldl (fun s k => s.expireSlot k false) s
    s.loseRanks.enterPasr

/-- The retirements that waited start (R198). -/
def State.runDue (s : State) : State :=
  (List.range 8).foldl (fun s n =>
    let ds := (s.stack n).due
    ds.foldl (fun s d => s.retireRank n d.1 d.2) (s.updStack n fun x => { x with due := [] })) s

/-- R175: the state ends: every channel runs one complete retrain, whose slices are gathered back to back, before traffic; waiting
retirements and changes of point go on, and scrubbing resumes with a priority lap. -/
def State.exitPasr (s : State) : State :=
  if s.zget Z.BUF_STAT.PASR = 0 then s
  else
    let s := ((s.zput Z.BUF_STAT.PASR 0).zput Z.BUF_PASR.ACTIVE 0).zput Z.BUF_PASR.AWAKE 0
    let s := (List.range 8).foldl (fun s n =>
      if s.inService n then
        (s.chMove n chRefresh chStalled).updStack n fun x =>
          { x with slices := [(0, 16), (1, 16), (2, 16), (3, 16)] }
      else s) s
    let s := s.updBuf fun b => { b with prioStart := s.time }
    ((List.range 8).foldl (fun s n => s.evalPoint n) s).runDue

/-- Every channel in service carries traffic: what a RUN_START that ends self-refresh waits for (R175). -/
def State.buffersReady (s : State) : Bool :=
  !s.pasr && (List.range 8).all fun n => !s.inService n || [0, 1, 2, 3].all fun c => s.chState n c == chActive

/-! ### The writer (R158) -/

/-- The line's channel takes a write now: in service or still completing a frame, not stalled. -/
def State.takesWrite (s : State) (a : Nat) : Bool :=
  let x := s.place a
  s.chState (x.1 / 4) (x.1 % 4) == chActive && s.zget (chanF ZS.CHSTATc.SLICE (x.1 / 4) (x.1 % 4)) == 0

/-- Write at most `n` lines from the head of the writer's buffer to DRAM. -/
def State.writeLines (s : State) : Nat → State
  | 0 => s
  | n + 1 =>
    match s.buf.wbuf with
    | w :: rest =>
      if s.takesWrite w.addr then
        let x := s.place w.addr
        ((s.writeEventLine x.1 x.2 w.bytes).updBuf fun b => { b with wbuf := rest }).writeLines n
      else s
    | [] => s

/-! ### Register writes (R176) -/

/-- Something is pinned. -/
def State.anyPin (s : State) : Bool :=
  Tab.any (fun _ r => Option.isSome r) s.buf.pins || Tab.any (fun _ x => decide (x.pin ≠ 0)) s.buf.billets

/-- A write of Z_BUF_MAP (R176, R461). -/
def State.writeBufMap (s : State) (w : Nat) : State :=
  let s := if bitAt w 8 then s.zput Z.BUF_MAP.REFUSED 0 else s
  if w % 32 = s.zget Z.BUF_MAP.GRAIN + 16 * s.zget Z.BUF_MAP.HASH then s
  else if s.run.active ∨ s.anyPin then s.zput Z.BUF_MAP.REFUSED 1
  else (s.zput Z.BUF_MAP.GRAIN (w % 16)).zput Z.BUF_MAP.HASH (w / 16 % 2)

/-! ### The meanings -/

/-- BILLET_ALLOCATE (R156, R162): the billet being filled has no line free. -/
def execBilletAllocate (s : State) : Result :=
  .next (match s.buf.pos with
    | some (_, l) => if l < 1024 then s else s.allocate.1
    | none => s.allocate.1)

/-- MERGED_FRAME_WRITE (R158, R182): `n` lines go from the writer's buffer to DRAM. -/
def execMergedFrameWrite (n : Nat) (s : State) : Result := .next (s.writeLines (min n s.buf.wbuf.length))

/-- STACK_SKIP_END (R159). -/
def execStackSkipEnd (n : Fin 8) (s : State) : Result := .next (s.skipEnd n)

/-- DRAM_REFRESH (R168): a refresh keeps what is stored; it changes no state that the model holds. -/
def execDramRefresh (_n _rank : Fin 8) (_bank : Nat) (s : State) : Result := .next s

/-- RETRAIN_SLICE (R170): a slice starts or ends. -/
def execRetrainSlice (n : Fin 8) (c : Fin 4) (start : Bool) (s : State) : Result :=
  .next (if start then s.sliceStart n c else s.sliceEnd n c)

/-- RETRAIN_COMPLETE (R170, R171). -/
def execRetrainComplete (n : Fin 8) (c : Fin 4) (width height : Byte) (s : State) : Result :=
  .next (s.retrained n c width.toNat height.toNat)

/-- POINT_TARGET_WRITE (R172, R173). -/
def execPointTargetWrite (n : Fin 8) (target : Bool) (s : State) : Result :=
  .next (s.bar0 fun s =>
    (s.zput (ZS.DPT.TARGET.stack n) (b2n target)).evalPoint n)

/-- THERMAL_EMERGENCY_ENTRY (R172, R173): the hottest die is at `temp`; a full training that follows stalls for `stall` µs. -/
def execThermalEmergencyEntry (n : Fin 8) (temp : Byte) (stall : Fin 20001) (s : State) : Result :=
  .next (s.thermalEntry n temp.toNat stall)

/-- THERMAL_EMERGENCY_EXIT (R172). -/
def execThermalEmergencyExit (n : Fin 8) (temp : Byte) (s : State) : Result := .next (s.thermalExit n temp.toNat)

/-- POINT_CHANGE_DONE (R172, R173). -/
def execPointChangeDone (n : Fin 8) (s : State) : Result := .next (s.pointDone n)

/-- GATHER_COMPLETE (R174). -/
def execGatherComplete (s : State) : Result := .next s.gatherDone

/-- PASR_WAKE (R175). -/
def execPasrWake (s : State) : Result := .next s.touchKept

/-- PASR_IDLE_REENTRY (R175). -/
def execPasrIdleReentry (s : State) : Result := .next (s.zput Z.BUF_PASR.AWAKE 0)

/-- PASR_EXIT (R175). -/
def execPasrExit (s : State) : Result := .next (s.bar0 State.exitPasr)

/-- BUF_MAP_WRITE (R176). -/
def execBufMapWrite (w : Word) (s : State) : Result :=
  .next (s.bar0 fun s =>
    s.writeBufMap w.toNat)

/-- REFRESH_HOT (R168): a rank's dies cross 85 °C. -/
def execRefreshHot (n rank : Fin 8) (hot : Bool) (s : State) : Result :=
  let h := (s.stack n).hot
  let m := if hot then h ||| 2 ^ rank.val else clearBit h rank
  .next ((s.updStack n fun x => { x with hot := m }).zput (ZS.REFR.HOT.stack n) (b2n (m != 0)))

/-- The age of the training in use of a channel, in ms (R178). -/
def State.trainAge (s : State) (n c : Nat) : Nat :=
  (s.time - Tab.get 0 (s.stack n).trained (c + 4 * s.zget (ZS.DPT.POINT.stack n))) / (1000000 * nsUnits)

/-- RETRAIN_AGE_LAG (R398): the age of a channel's training reaches 200 ms. -/
def execRetrainAgeLag (n : Fin 8) (c : Fin 4) (s : State) : Result :=
  .next ((s.bgLag 1).raiseStack n 6 ([3, b8 (4 * n + c)] ++ leBytes (max 200 (s.trainAge n c)) 4))

end Sys2Proof.Machine
end

