-- ==== Sys2Proof/Machine/CmdBase.lean ====
section
/-!
DEFINITION. The command unit (R238 to R245): finishing commands, matching READBACK replies to outstanding downlink commands,
reply timeouts; and the sending side of ring messages (R302, R304).
Choices of the model: log entry 11 (DEDUCED).
-/

namespace Sys2Proof.Machine

/-! ### Ticks (R210) -/

/-- The spindle time from which ticks are counted: the run epoch, 0 before the first run. -/
def State.epochTime (s : State) : Nat := s.run.epoch.getD 0

/-- The current tick. -/
def State.nowTick (s : State) : Nat := (s.time - s.epochTime) / tickUnits

/-- The spindle time of the start of tick `t`. -/
def State.tickTime (s : State) (t : Nat) : Nat := s.epochTime + t * tickUnits

/-! ### Commands -/

/-- RESULT codes (R243). -/
def resOk : Nat := 0
def resPortFail : Nat := 1
def resParam : Nat := 2
def resLate : Nat := 3
def resRefused : Nat := 4
def resDma : Nat := 5
def resAborted : Nat := 6
def resFuture : Nat := 7

def State.cmd? (s : State) (id : Nat) : Option Cmd := s.cmds.find? fun c => c.id == id

/-- The command finishes with `result` and the RDATA bytes. -/
def State.finish (s : State) (id result : Nat) (rdata : List Byte) : State :=
  s.updCmd id fun c => if c.result = none then { c with result := some result, rdata := rdata, left := [] } else c

/-- A command that a port fails settles under R243. -/
def State.failCmd (s : State) (id : Nat) (p : Port) : State := s.updCmd id fun c => c.failPort p.val

/-! ### READBACK (R129, R245) -/

/-- A scrub word has been read: a mismatch with the golden image is rewritten, counted and raised (R399). -/
def State.scrubWord (s : State) (p : Port) (i data : Nat) : State :=
  match s.goldenWord p i with
  | none => s
  | some g =>
    if g.toNat = data then s
    else
      let col := i / 512
      let row := i % 512
      let item : DlItem := { purpose := .rewrite, op := 3, sh := false,
                             bytes := [0, 0] ++ beBytes col 2 ++ beBytes row 2 ++ beBytes g.toNat 2 }
      let s := s.zbump (Z.CSCRUB_LAPp.REWRITES.at (4 * p.val)) 1
      let s := s.raisePort p 19 ([0] ++ leBytes col 2 ++ leBytes row 2 ++ leBytes g.toNat 2)
      s.dlSend p [item]

/-- What a matched reply does for its command. -/
def State.replied (s : State) (p : Port) (o : Outst) (v : Nat) : State :=
  let data := bits v 24 16
  let err := bitAt v 15
  match o.purpose with
  | .own => s
  | .cmd id =>
    if err then s.failCmd id p
    else s.updCmd id fun c =>
      ({ c with left := Tab.upd 0 c.left p.val (· - 1),
                vals := if c.opcode = 2 then Tab.set 0 c.vals p.val (data + 1) else c.vals } : Cmd).settle
  | .scrub _ _ => if err then s else s.scrubWord p (bits v 40 18) data
  | .rewrite => s
  | .snap seq w =>
    if err then s
    else
      s.updSnaps fun l => l.map fun (x : Snap) =>
        if x.seq = seq then { x with words := Tab.set 0 x.words (p.val * 32 + w) (data + 1) } else x

/-- A READBACK record reaches the command unit: its TAG names the outstanding command; with none it is dropped. -/
def State.readback (s : State) (p : Port) (v : Nat) : State :=
  let tag := bits v 16 8
  match (s.port p).outst.find? fun o => o.tag == tag with
  | none => s
  | some o =>
    let s := s.updPort p fun q =>
      { q with outst := if o.left ≤ 1 ∨ bitAt v 15 then q.outst.filter fun x => x.tag != tag
                        else q.outst.map fun (x : Outst) => if x.tag = tag then { x with left := x.left - 1 } else x }
    (s.replied p o v).dlSend p []

/-- FE_REPLY_TIMEOUT (R243): Z_HOST_TMO.FE_US after its sending, the outstanding command with TAG `tag` is given up. -/
def State.replyTimeout (s : State) (p : Port) (tag : Nat) : State :=
  match (s.port p).outst.find? fun o => o.tag == tag && decide (o.sent + s.zget Z.HOST_TMO.FE_US * 1000 * nsUnits ≤ s.time) with
  | none => s
  | some o =>
    let s := s.updPort p fun q => { q with outst := q.outst.filter fun x => x.tag != tag }
    let s := match o.purpose with
      | .cmd id => s.failCmd id p
      | .snap seq _ =>
        s.updSnaps fun l => l.map fun (x : Snap) => if x.seq = seq then { x with failed := x.failed ||| 2 ^ p.val } else x
      | _ => s
    s.dlSend p []

/-- FE_REPLY_TIMEOUT (R243). -/
def execFeReplyTimeout (p : Port) (tag : Byte) (s : State) : Result := .next (s.replyTimeout p tag.toNat)

/-! ### Ring transmission (R302 to R304) -/

/-- The link of a side is in service; otherwise the side wraps (R302). -/
def State.ringServes (s : State) (d : Side) : Bool :=
  s.zget Z.RING_CFG.EN == 1 && s.lst (.ring d) == 5 && s.zget (ZP.LSTATm.LOOPED.ringLane d) == 0

/-- Send a message block on side `d`: DATA blocks advance SEQ. -/
def State.ringBlock (s : State) (d : Side) (payload : List Byte) : State :=
  match d with
  | .east =>
    let b : Block := { kind := .data, seq := s.ring.seqE, payload := pad16 payload }
    (s.updRing fun r => { r with seqE := (r.seqE + 1) % 256 }).emit (.ring .east b (blockCrc b))
  | .west =>
    let b : Block := { kind := .data, seq := s.ring.seqW, payload := pad16 payload }
    (s.updRing fun r => { r with seqW := (r.seqW + 1) % 256 }).emit (.ring .west b (blockCrc b))

/-- Send a message east-going: on RING_E, or turned at an east wrap on RING_W; with both sides wrapped it comes back at once. -/
def State.ringEast (s : State) (payload : List Byte) : State :=
  if s.ringServes .east then s.ringBlock .east payload
  else if s.ringServes .west then s.ringBlock .west payload
  else s

/-- A PRIM message (R306): its originator, 1 to 5 halfwords, and the frame number. -/
def State.primMessage (s : State) (origin : Nat) (hws : List Nat) (frame : Nat) : State :=
  s.ringEast ([6, b8 (s.zget Z.RING_CFG.NODE_ID), b8 origin, b8 hws.length] ++ halvesBytes ((hws ++ [0, 0, 0, 0, 0]).take 5)
    ++ beBytes (frame % 65536) 2)

end Sys2Proof.Machine
end

