-- ==== Sys2Proof/Machine/Inflate.lean ====
section
/-!
DEFINITION. Decoding a Deflate bit stream (R254, R264, R266; RFC 1951): stored, fixed and dynamic blocks.  Bits stand as a list, bit 0 of
each byte first.  A failure answers the code of R266 and how many bits had been read.
-/

namespace Sys2Proof.Machine

/-- The bits of bytes in stream order: bit 0 first. -/
def lsbBits (bs : List Byte) : List Bool := bs.flatMap fun b => (List.range 8).map fun i => b.getLsbD i

/-- The value of bits, the first the least significant. -/
def bitsVal : List Bool → Nat
  | [] => 0
  | b :: t => b2n b + 2 * bitsVal t

/-- The bytes of a bit stream; the bits of the last byte that the stream does not reach are zero (R259). -/
def bitBytes (bs : List Bool) : Nat → List Byte
  | 0 => []
  | n + 1 => if bs = [] then [] else BitVec.ofNat 8 (bitsVal (bs.take 8)) :: bitBytes (bs.drop 8) n

/-- A decoder under way: the bits ahead, the bits read, and the output with what precedes it, newest byte first, and its length. -/
structure Inf where
  bits : List Bool
  used : Nat
  out : List Byte
  made : Nat
  deriving DecidableEq, Repr

/-- A failure: the code of R266 and the bits read. -/
abbrev InfM (α : Type) := Except (Nat × Nat) (α × Inf)

def Inf.fail {α : Type} (x : Inf) (code : Nat) : InfM α := .error (code, x.used)

/-- Take `n` bits as a number. -/
def Inf.take (x : Inf) (n : Nat) : InfM Nat :=
  if x.bits.length < n then x.fail 6
  else .ok (bitsVal (x.bits.take n), { x with bits := x.bits.drop n, used := x.used + n })

/-- A Huffman code: the code length of each symbol. -/
abbrev Lens := List Nat

/-- How many symbols have code length `n`. -/
def Lens.count (l : Lens) (n : Nat) : Nat := (List.filter (· == n) l).length

/-- The `i`-th symbol of code length `n`. -/
def Lens.sym (l : Lens) (n i : Nat) : Nat := (((l.zipIdx).filter fun e => e.1 == n).map (·.2)).getD i 0

/-- What is left of the code space after the codes of 1 to 15 bits: none when the code is over-subscribed. -/
def Lens.space (l : Lens) : Nat → Nat → Option Nat
  | 0, left => some left
  | k + 1, left => let n := l.count (15 - k); if 2 * left < n then none else l.space k (2 * left - n)

/-- The code is complete. -/
def Lens.complete (l : Lens) : Bool := l.space 15 1 == some 0

/-- Decode one symbol: `code` and `first` grow by a bit at each length. -/
def Inf.symbol (x : Inf) (l : Lens) (bad : Nat) : Nat → Nat → Nat → InfM Nat
  | 0, _, _ => x.fail bad
  | k + 1, code, first =>
    match x.take 1 with
    | .error e => .error e
    | .ok (b, y) =>
      let n := 15 - k
      let c := code + b
      if c < first + l.count n then .ok (l.sym n (c - first), y)
      else Inf.symbol y l bad k (2 * c) (2 * (first + l.count n))

/-- Base and extra bits of length symbols 257 to 285, and of distance symbols 0 to 29. -/
def lenBase (i : Nat) : Nat × Nat :=
  if i < 8 then (3 + i, 0)
  else if i = 28 then (258, 0)
  else let e := (i - 4) / 4; (3 + (4 + i % 4) * 2 ^ e, e)

def distBase (i : Nat) : Nat × Nat := if i < 4 then (1 + i, 0) else let e := (i - 2) / 2; (1 + (2 + i % 2) * 2 ^ e, e)

/-- Put a byte out; more than `limit` bytes fail (R266 code 7). -/
def Inf.put (x : Inf) (limit : Nat) (b : Byte) : InfM Unit :=
  if limit ≤ x.made then x.fail 7 else .ok ((), { x with out := b :: x.out, made := x.made + 1 })

/-- Copy `n` bytes from distance `d`. -/
def Inf.copy (x : Inf) (limit d : Nat) : Nat → InfM Unit
  | 0 => .ok ((), x)
  | n + 1 =>
    match x.out[d - 1]? with
    | none => x.fail 5
    | some b =>
      match x.put limit b with
      | .error e => .error e
      | .ok (_, y) => y.copy limit d n

/-- One literal, match or end of block: answers whether the block has ended. -/
def Inf.item (x : Inf) (ll dl : Lens) (limit : Nat) : InfM Bool :=
  match x.symbol ll 4 15 0 0 with
  | .error e => .error e
  | .ok (v, y) =>
    if v < 256 then
      match y.put limit (BitVec.ofNat 8 v) with
      | .error e => .error e
      | .ok (_, z) => .ok (false, z)
    else if v = 256 then .ok (true, y)
    else if 285 < v then y.fail 4
    else
      match y.take (lenBase (v - 257)).2 with
      | .error e => .error e
      | .ok (xl, y) =>
        match y.symbol dl 4 15 0 0 with
        | .error e => .error e
        | .ok (d, y) =>
          if 29 < d then y.fail 4
          else
            match y.take (distBase d).2 with
            | .error e => .error e
            | .ok (xd, y) =>
              match y.copy limit ((distBase d).1 + xd) ((lenBase (v - 257)).1 + xl) with
              | .error e => .error e
              | .ok (_, z) => .ok (false, z)

/-- The items of a block up to its end-of-block code. -/
def Inf.items (x : Inf) (ll dl : Lens) (limit : Nat) : Nat → InfM Unit
  | 0 => x.fail 6
  | n + 1 =>
    match x.item ll dl limit with
    | .error e => .error e
    | .ok (true, y) => .ok ((), y)
    | .ok (false, y) => y.items ll dl limit n

/-- The fixed codes. -/
def fixedLens : Lens :=
  List.replicate 144 8 ++ List.replicate 112 9 ++ List.replicate 24 7 ++ List.replicate 8 8
def fixedDist : Lens := List.replicate 32 5

/-- A stored block: padding to the byte boundary, LEN, NLEN, and the bytes. -/
def Inf.stored (x : Inf) (limit : Nat) : InfM Unit :=
  match x.take ((8 - x.used % 8) % 8) with
  | .error e => .error e
  | .ok (_, y) =>
    match y.take 16 with
    | .error e => .error e
    | .ok (n, y) =>
      match y.take 16 with
      | .error e => .error e
      | .ok (m, y) =>
        if n + m ≠ 65535 then y.fail 2
        else if y.bits.length < 8 * n then y.fail 6
        else if limit < y.made + n then y.fail 7
        else
          .ok ((), { bits := y.bits.drop (8 * n), used := y.used + 8 * n, made := y.made + n,
                     out := (bitBytes (y.bits.take (8 * n)) n).reverse ++ y.out })

/-- The order in which the code lengths of the code-length code come. -/
def clOrder : List Nat := [16, 17, 18, 0, 8, 7, 9, 6, 10, 5, 11, 4, 12, 3, 13, 2, 14, 1, 15]

/-- Take `n` code lengths of 3 bits. -/
def Inf.take3 (x : Inf) : Nat → InfM (List Nat)
  | 0 => .ok ([], x)
  | n + 1 =>
    match x.take 3 with
    | .error e => .error e
    | .ok (v, y) =>
      match y.take3 n with
      | .error e => .error e
      | .ok (vs, z) => .ok (v :: vs, z)

/-- Decode code lengths until `total` stand in `acc` (newest first). -/
def Inf.lens (x : Inf) (cl : Lens) (total : Nat) : Nat → List Nat → InfM Lens
  | 0, _ => x.fail 3
  | n + 1, acc =>
    if acc.length = total then .ok (acc.reverse, x)
    else if total < acc.length then x.fail 3
    else
      match x.symbol cl 3 15 0 0 with
      | .error e => .error e
      | .ok (v, y) =>
        if v < 16 then y.lens cl total n (v :: acc)
        else
          let p := if v = 16 then (2, 3, acc.head?) else if v = 17 then (3, 3, some 0) else (7, 11, some 0)
          match p.2.2 with
          | none => y.fail 3
          | some w =>
            match y.take p.1 with
            | .error e => .error e
            | .ok (r, z) => z.lens cl total n (List.replicate (p.2.1 + r) w ++ acc)

/-- A distance code may also be one code of length 1, or no code. -/
def distOk (l : Lens) : Bool :=
  l.complete || (l.count 1 == 1 && (List.filter (· != 0) l).length == 1) || l.all (· == 0)

/-- A dynamic block: the code tables and the items. -/
def Inf.dynamic (x : Inf) (limit : Nat) : InfM Unit :=
  match x.take 5 with
  | .error e => .error e
  | .ok (hlit, y) =>
    match y.take 5 with
    | .error e => .error e
    | .ok (hdist, y) =>
      match y.take 4 with
      | .error e => .error e
      | .ok (hclen, y) =>
        match y.take3 (hclen + 4) with
        | .error e => .error e
        | .ok (vs, y) =>
          let cl : Lens := (List.range 19).map fun i => vs.getD (clOrder.findIdx (· == i)) 0
          if ¬ cl.complete then y.fail 3
          else
            match y.lens cl (hlit + 257 + hdist + 1) (hlit + hdist + 259) [] with
            | .error e => .error e
            | .ok (ls, y) =>
              let ll : Lens := ls.take (hlit + 257)
              let dl : Lens := ls.drop (hlit + 257)
              if ¬ ll.complete ∨ ¬ distOk dl then y.fail 3 else y.items ll dl limit (y.bits.length + 1)

/-- One block: answers BFINAL and the block type. -/
def Inf.block (x : Inf) (limit : Nat) : InfM (Bool × Nat) :=
  match x.take 1 with
  | .error e => .error e
  | .ok (f, y) =>
    match y.take 2 with
    | .error e => .error e
    | .ok (t, y) =>
      let r : InfM Unit := match t with
        | 0 => y.stored limit
        | 1 => y.items fixedLens fixedDist limit (y.bits.length + 1)
        | 2 => y.dynamic limit
        | _ => y.fail 1
      match r with
      | .error e => .error e
      | .ok (_, z) => .ok ((f == 1, t), z)

/-- The blocks of a stream up to the first with BFINAL = 1. -/
def Inf.blocks (x : Inf) (limit : Nat) : Nat → InfM Unit
  | 0 => x.fail 6
  | n + 1 =>
    match x.block limit with
    | .error e => .error e
    | .ok ((true, _), y) => .ok ((), y)
    | .ok ((false, _), y) => y.blocks limit n

/-- Decode a whole source (R264): the bytes, or the failure code and the byte offset of the failure. -/
def inflate (src : List Byte) (limit : Nat) : Except (Nat × Nat) (List Byte) :=
  match Inf.blocks { bits := lsbBits src, used := 0, out := [], made := 0 } limit (8 * src.length + 1) with
  | .error e => .error (e.1, e.2 / 8)
  | .ok (_, y) => .ok y.out.reverse

/-- A block coded at bit position `pos` decodes to `input` after the history `hist` (newest first), with nothing left over (R262). -/
def blockDecodes (coded : List Bool) (hist input : List Byte) (final : Bool) (type : Nat) : Bool :=
  match Inf.block { bits := coded, used := 0, out := hist, made := 0 } input.length with
  | .error _ => false
  | .ok (ft, y) => ft == (final, type) && y.bits == [] && y.out == input.reverse ++ hist

/-- The bits of one stored block at bit position `pos`: header, padding, LEN, NLEN, bytes. -/
def storedBits (pos : Nat) (final : Bool) (bs : List Byte) : List Bool :=
  [final, false, false] ++ List.replicate ((8 - (pos + 3) % 8) % 8) false
    ++ (List.range 16).map (fun i => bitAt bs.length i) ++ (List.range 16).map (fun i => !bitAt bs.length i) ++ lsbBits bs

/-- Input as stored blocks of at most 65,535 bytes, the first as large as possible (R257); BFINAL on the last. -/
def storedBlocks (pos : Nat) (final : Bool) (bs : List Byte) : Nat → List Bool
  | 0 => []
  | n + 1 =>
    if bs.length ≤ 65535 then storedBits pos final bs
    else
      let x := storedBits pos false (bs.take 65535)
      x ++ storedBlocks (pos + x.length) final (bs.drop 65535) n

/-- The empty stored block of a flush (R258), and the empty fixed block that ends a stream. -/
def flushBits (pos : Nat) : List Bool := storedBits pos false []
def endBlock : List Bool := [true, true, false, false, false, false, false, false, false, false]

end Sys2Proof.Machine
end

