-- ==== Sys2Proof/Machine/Lanes.lean ====
section
/-!
DEFINITION. Serial lanes (spec/05): bring-up, activation, deskew, retraining, sleep, loops, PRBS and the eye monitor.
Choices of the model: log entry 7 (DEDUCED).
-/

namespace Sys2Proof.Machine

/-! ### Bring-up (R101 to R105) -/

/-- RECEIVER_DETECT: an enabled lane in DISABLED or DETECT sees the far termination and enters TRAIN. -/
def State.detect (s : State) (k : Link) : State :=
  if (s.lst k = 0 ∨ s.lst k = 1) ∧ s.laneEnabled k then s.enterTrain k else s

/-- NO_RX, once per entry of DETECT; a ring link has no such source (R149). -/
def State.noRx (s : State) (k : Link) : State :=
  if s.lst k = 1 ∧ ¬ (s.lane k).noRx then
    let t := s.updLane k fun x => { x with noRx := true }
    match k with
    | .up p l => t.raisePort p 3 [b8 l]
    | .down p => t.raisePort p 3 [8]
    | .ring _ => t
  else s

/-- Byte `i` of a payload as a number. -/
def pbyte (b : Block) (i : Nat) : Nat := (b.payload.getD i 0).toNat

/-- What a TRAIN block says of presets (R102, R103): the far preset in use, and the request for the paired transmitter. -/
def State.trainPresets (s : State) (k : Link) (b : Block) : State :=
  let req := pbyte b 3
  match k with
  | .up p l =>
    let s := s.zput (laneF ZP.LSTATm.PRESET p l) (pbyte b 2)
    if req = 0xFF then s else s.updPort p fun q => { q with dlPreset := req % 8 }
  | .down p =>
    if req = 0xFF then s else s.updChip p fun c => { c with presets := Tab.set 0 c.presets (pbyte b 0 % 8) (req % 8) }
  | .ring d =>
    let s := s.zput (ZP.LSTATm.PRESET.ringLane d) (pbyte b 2)
    if req = 0xFF then s else s.updLane k fun x => { x with presetReq := req % 8 }

/-- A lane that completed its training enters ACTIVE.  An uplink lane of a port in ACTIVE joins the mask: at once after CAP,
or, after a retrain, at its next mark (R105, R108). -/
def State.laneDone (s : State) (k : Link) (retrained : Bool) : State :=
  let s := (s.updLane k fun x => { x with capDone := true, fails := 0, rejoin := retrained, ready := 0, cap := 0 })
    |>.setLst k 5
  match k with
  | .up p l =>
    if retrained ∧ s.linkUp p then s
    else
      let s := s.updLane k fun x => { x with rejoin := false }
      if s.linkUp p ∧ ¬ (s.port p).waitMask then s.laneIn p l else s
  | .down _ => s
  | .ring d => s.zput (ZP.LSTATm.MARGINAL.ringLane d) 0

/-- The lane is refused: it stays in CAP, and the refusal is reported once (R104, R301). -/
def State.refusePort (s : State) (p : Port) (l : Fin 8) (b : Block) : State :=
  (s.zput (ZP.DLSTAT.CAP_REFUSED.port p) 1).raisePort p 2
    (leBytes (pbyte b 5 * 256 + pbyte b 6) 2 ++ [b8 (pbyte b 9), b8 (pbyte b 7), b8 (pbyte b 8), b8 l])

/-- The STEPPING of a capability: two characters, first in the upper byte. -/
def steppingOf (b : Block) : Nat := pbyte b 7 * 256 + pbyte b 8

/-- R104 step 5: Zwiuc's judgement of a Pelnos capability. -/
def State.portAccepts (s : State) (p : Port) (b : Block) : Bool :=
  pbyte b 5 * 256 + pbyte b 6 == 0x0512 && pbyte b 9 == 1 &&
    match (s.port p).stepping with
    | some x => x == steppingOf b
    | none => true

/-- The reasons for which a ring capability is refused (R301): key, NODE_ID, PROTO. -/
def State.ringRefusal (s : State) (b : Block) : Nat :=
  b2n (decide (pbyte b 14 * 256 + pbyte b 15 ≠ s.zget Z.RING_CFG.RING_KEY))
    + 2 * b2n (pbyte b 12 % 64 == s.zget Z.RING_CFG.NODE_ID) + 4 * b2n (pbyte b 9 != 1)

/-- CAP_ACCEPT or CAP_REFUSED: the far capability has been received intact four times. -/
def State.judgeCap (s : State) (k : Link) (b : Block) : State :=
  match k with
  | .up p l =>
    let ok := s.portAccepts p b
    let s := (s.zput (ZP.DLSTAT.FAR_STEPPING.port p) (steppingOf b)).zput (ZP.DLSTAT.FAR_PROTO.port p) (pbyte b 9)
    let s := s.updPort p fun q => { q with stepping := q.stepping <|> some (steppingOf b) }
    if ok then s.laneDone k false else s.refusePort p l b
  | .down _ => s.laneDone k false
  | .ring d =>
    let why := s.ringRefusal b
    let s := (s.zput (ZP.DLSTAT.FAR_STEPPING.ringLane d) (steppingOf b)).zput (ZP.DLSTAT.FAR_PROTO.ringLane d) (pbyte b 9)
    let s := s.updLane k fun x => { x with farId := pbyte b 12 % 64 }
    if why = 0 then s.laneDone k false
    else (s.zput (ZP.DLSTAT.CAP_REFUSED.ringLane d) 1).ringLink d 4 why

/-- An intact TRAIN block on a lane in TRAIN, LOCK or CAP (R101). -/
def State.train (s : State) (k : Link) (b : Block) : State :=
  let s := s.trainPresets k b
  match s.lst k with
  | 2 =>
    let n := (s.lane k).good + 1
    let s := s.updLane k fun x => { x with good := n }
    if n < 16 then s
    else
      let s := s.enterLock k
      match k with
      | .down p => s.pllUp p
      | _ => s
  | 3 =>
    let n := if pbyte b 4 % 2 = 1 then (s.lane k).ready + 1 else 0
    let s := s.updLane k fun x => { x with ready := n }
    if n < 8 then s
    else if (s.lane k).capDone then s.laneDone k true
    else (s.updLane k fun x => { x with cap := 0 }).setLst k 4
  | 4 =>
    if pbyte b 1 ≠ 4 then s
    else
      let n := (s.lane k).cap + 1
      let s := s.updLane k fun x => { x with cap := min n 5 }
      if n = 4 then s.judgeCap k b else s
  | _ => s

/-- TRAIN_BLOCK_RECEIVE: a held-in-reset Pelnos ignores its downlink (R404). -/
def State.trainReceive (s : State) (k : Link) (b : RxBlock) : State :=
  let dead := match k with
    | .down p => (s.chip p).inReset
    | _ => false
  if dead then s
  else
    let r := s.receive k b
    match r.2 with
    | some x => if x.kind = .train then r.1.train k x else r.1
    | none => r.1

/-- TRAIN_TIMEOUT (R101): TRAIN and LOCK count toward the three timeouts in a row; CAP goes back to DETECT, unless the far
capability has been refused, which keeps the lane in CAP (R104). -/
def State.trainTimeout (s : State) (k : Link) : State :=
  let st := s.lst k
  if st = 4 then (if 4 ≤ (s.lane k).cap then s else s.freshLane k)
  else if st = 2 ∨ st = 3 then
    let n := (s.lane k).fails + 1
    let s := s.updLane k fun x => { x with fails := if 3 ≤ n then 0 else n }
    if 3 ≤ n then
      match k with
      | .up p l => s.retire p l
      | .down _ => s.freshLane k
      | .ring _ => s.setLst k 7
    else if st = 2 then s.freshLane k
    else s.enterTrain k
  else s

/-- The epoch from which a port's ticks are counted at its activation (R323). -/
def State.portEpoch (s : State) : Nat := s.run.epoch.getD (s.time / (1000000000 * nsUnits) * (1000000000 * nsUnits))

/-- PORT_ACTIVATE (R105): the downlink and at least one uplink lane have completed CAP. -/
def State.activate (s : State) (p : Port) : State :=
  if s.linkUp p ∨ s.lst (.down p) ≠ 5 ∨ s.activeLanes p = [] then s
  else
    let s := s.zput (ZP.STAT.LINK.port p) 1
    let s := s.updChip p fun c => { c with active := true, seq := 0, markCnt := 0 }
    let s := s.updPort p fun q =>
      { q with arrived := [], expect := 0, held := [], discard := false, resync := false, holdGap := false,
               lastNum := none, cur := none, mask := 0, waitMask := true, asleep := false, dlSeq := 0, markCnt := none,
               echo := { acq := true, epoch := s.portEpoch }, scrubPos := 0, scrubStart := s.time }
    (s.mergeUp p).raisePort p 0 [b8 (maskOf (s.activeLanes p))]

/-- ACTIVATION_WAIT_EXPIRY (R105): P_ACTIVE_LANES gets the lanes that completed CAP. -/
def State.activationEnd (s : State) (p : Port) : State :=
  if ¬ (s.port p).waitMask then s
  else
    let ls := s.activeLanes p
    let s := (s.updPort p fun q => { q with waitMask := false }).writeMask p (maskOf ls)
    ls.foldl (fun s l => s.raisePort p 5 [b8 l, b8 (maskOf ls)]) s

/-! ### Deskew (R107) -/

/-- The lanes whose mark of the current MARK_CNT has arrived, with its arrival. -/
def State.marks (s : State) (p : Port) : List (Fin 8 × Nat) :=
  (s.activeLanes p).filterMap fun l => (s.lane (.up p l)).mark.map fun t => (l, t)

/-- The marks within 16 symbols of arrival `t`, none of them earlier. -/
def spanAt (ms : List (Fin 8 × Nat)) (t : Nat) : List (Fin 8 × Nat) :=
  ms.filter fun x => decide (t ≤ x.2 ∧ x.2 ≤ t + 16)

/-- The weight of a span: how many lanes of the mask it holds, then how low its lowest one is. -/
def spanWeight (mask : Nat) (sp : List (Fin 8 × Nat)) : Nat :=
  let inMask := sp.filter fun x => bitAt mask x.1
  inMask.length * 16 + (8 - inMask.foldl (fun a x => min a x.1.val) 8)

/-- The reference span. -/
def refSpan (mask : Nat) (ms : List (Fin 8 × Nat)) : List (Fin 8 × Nat) :=
  ms.foldl (fun best x =>
    if spanWeight mask best < spanWeight mask (spanAt ms x.2) then spanAt ms x.2 else best) []

/-- A lane whose mark lies within the span: its delay, and its return to the mask after a retrain. -/
def State.markInside (s : State) (p : Port) (latest : Nat) (x : Fin 8 × Nat) : State :=
  let s := s.zput (laneF ZP.LSTATm.SKEW p x.1) (latest - x.2)
  let s := s.updLane (.up p x.1) fun y => { y with lost := 0 }
  if (s.lane (.up p x.1)).rejoin then
    let s := s.updLane (.up p x.1) fun y => { y with rejoin := false, cause := none, attempts := 0 }
    (s.zput (laneF ZP.LSTATm.MARGINAL p x.1) 0).laneIn p x.1
  else s

/-- A lane whose mark lies outside the span: of the mask, it is retrained; waiting to rejoin, its attempt failed. -/
def State.markOutside (s : State) (p : Port) (l : Fin 8) : State :=
  if bitAt (s.port p).mask l then s.retrainLane p l .other 2
  else if (s.lane (.up p l)).rejoin then s.failAttempt p l
  else s.updLane (.up p l) fun x => { x with lost := 0 }

/-- A lost mark: the third in a row starts a retrain. -/
def State.markLost (s : State) (p : Port) (l : Fin 8) : State :=
  let n := (s.lane (.up p l)).lost + 1
  let s := s.updLane (.up p l) fun x => { x with lost := n % 3 }
  if 3 ≤ n then s.retrainLane p l .other 2 else s

/-- Evaluate the marks received for the current MARK_CNT. -/
def State.evalMarks (s : State) (p : Port) : State :=
  let ms := s.marks p
  let sp := refSpan (s.port p).mask ms
  let latest := sp.foldl (fun a x => max a x.2) 0
  let missing := (s.activeLanes p).filter fun l => !ms.any fun x => x.1 == l
  let s := s.updPort p fun q => { q with markCnt := none }
  let s := fins8.foldl (fun s l => s.updLane (.up p l) fun x => { x with mark := none }) s
  let s := sp.foldl (fun s x => s.markInside p latest x) s
  let s := (ms.filter fun x => !sp.contains x).foldl (fun s x => s.markOutside p x.1) s
  missing.foldl (fun s l => s.markLost p l) s

/-- An intact mark of lane `l` arrives at symbol time `t`: a new MARK_CNT ends the pairing of the one before; when every
lane in ACTIVE has delivered its mark, the marks are evaluated. -/
def State.takeMark (s : State) (p : Port) (l : Fin 8) (t : Nat) (b : Block) : State :=
  let n := beNat (slice b.payload 2 4)
  let s := match (s.port p).markCnt with
    | some m => if m = n then s else s.evalMarks p
    | none => s
  let s := s.updPort p fun q => { q with markCnt := some n }
  let s := s.updLane (.up p l) fun x => { x with mark := some t }
  if (s.activeLanes p).all fun l => (s.lane (.up p l)).mark.isSome then s.evalMarks p else s

/-! ### Sleep (R111 to R116) -/

/-- Zwiuc asks the uplink to wake. -/
def State.askWake (s : State) (p : Port) : State :=
  s.emit (.orderedSet p false true 0x5A)

/-- R112: Pelnos accepts a sleep request; R116 refuses it while a lane of the port trains. -/
def State.sleepOk (s : State) (p : Port) : Bool :=
  let c := s.chip p
  c.get P.LINK_CTL.SLEEP_EN == 1 && c.get P.FE_CFG.FE_EN == 0 && !c.injBusy && !c.csuBusy
    && fins8.all fun l => !(decide (2 ≤ s.lst (.up p l)) && decide (s.lst (.up p l) ≤ 4))

/-- Pelnos falls asleep: frames not yet sent are counted and SEQ continues from the last block sent (R113). -/
def Pelnos.fallAsleep (c : Pelnos) : Pelnos :=
  let n := c.closed.length + b2n (decide (c.sending ≠ []))
  let seq := match c.sending with
    | b :: _ => b.seq
    | [] => c.seq
  let c : Pelnos := { c with closed := [], sending := [], seq := seq }
  (c.bump P.SLEEP_FRAMES.COUNT n).put P.LINK_STAT.UL_ASLEEP 1

/-- A record of kind MONITOR, CAL_STAT or READBACK. -/
def PRec.wakes (r : PRec) : Bool :=
  let k := r.hws.headD 0 / 4096
  k == 4 || k == 5 || k == 6

/-- R114: what wakes the uplink by itself. -/
def Pelnos.wakeCause (c : Pelnos) : Bool :=
  c.get P.FE_CFG.FE_EN == 1 || decide (c.amQueue ≠ []) || c.amOvf || Tab.any (fun _ f => f.recs.any PRec.wakes) c.frames

/-- A lane order on a sleeping uplink wakes it first (R116); the order is carried out when the lane wakes. -/
def State.orderRetrain (s : State) (p : Port) (l : Fin 8) : State :=
  let st := s.lst (.up p l)
  if st = 0 then s
  else if st = 6 then (s.updLane (.up p l) fun x => { x with cause := some .other }).askWake p
  else if st = 5 then s.retrainLane p l .other 0
  else
    (s.updLane (.up p l) fun x => { x with fails := 0, attempts := 0, cause := some .other }).enterTrain (.up p l)

/-! ### Loops (R117, R118) -/

/-- A near-end loop is set on an uplink lane: a lane of the mask leaves it first. -/
def State.nearLoopOn (s : State) (p : Port) (l : Fin 8) : State :=
  let s := s.zput (laneF ZP.LSTATm.LOOPED p l) 1
  if bitAt (s.port p).mask l then
    if (s.port p).mask = 2 ^ l.val then (s.portLeave p 1).restartPort p
    else (s.laneOut p l 0).updLane (.up p l) fun x => { x with leaving := true }
  else s

/-- A near-end loop is released: the lane rejoins through LOCK. -/
def State.nearLoopOff (s : State) (p : Port) (l : Fin 8) : State :=
  if s.zget (laneF ZP.LSTATm.LOOPED p l) = 0 then s
  else (s.zput (laneF ZP.LSTATm.LOOPED p l) 0).enterLock (.up p l)

/-- A change of a near-end loop setting: the old loop is released and the new one set; codes 1 and 2 loop. -/
def State.nearLoop (s : State) (p : Port) (was : Bool) (wasLane : Fin 8) (on : Bool) (lane : Fin 8) : State :=
  if was ∧ on ∧ wasLane = lane then s
  else
    let s := if was then s.nearLoopOff p wasLane else s
    if on then s.nearLoopOn p lane else s

/-- A number below 8. -/
def fin8 (n : Nat) : Fin 8 := Fin.ofNat 8 n

/-- P_PRBS_CFG was written: each lane's generator stops, runs, or waits for its lane to leave the mask (R119), and CLEAR
zeroes the downlink checker's count. -/
def State.prbsCfgWritten (s : State) (p : Port) (w : Nat) : State :=
  let s := fins8.foldl (fun s (l : Fin 8) => s.updLane (.up p l) fun x =>
    { x with gen := bitAt ((s.chip p).get P.PRBS_CFG.GEN_EN) l.val && (x.gen || !bitAt (s.chip p).laneMask l.val) }) s
  if bitAt w 13 then s.updLane (.down p) fun x => { x with prbsErr := 0 } else s

/-- A write to a Pelnos word, with what it does beyond that chip's registers: a near-end loop and the PRBS generators act on
the lanes (R117, R119). -/
def State.pWrite (s : State) (p : Port) (a w : Nat) : State :=
  let c := s.chip p
  let t := s.updChip p fun c => c.writeReg a w
  if a = 0x200 then
    let near (c : Pelnos) : Bool := c.get P.LINK_CTL.LOOP == 1 || c.get P.LINK_CTL.LOOP == 2
    let d := t.chip p
    t.nearLoop p (near c) (fin8 (c.get P.LINK_CTL.LOOP_LANE)) (near d) (fin8 (d.get P.LINK_CTL.LOOP_LANE))
  else if a = 0x202 then t.prbsCfgWritten p w
  else t

/-- A LOOP block payload: lane and OP. -/
def loopPayload (lane op : Nat) : List Byte := [b8 lane, b8 op]

/-- A write of Z_PORTn_LCTL.LOOP and LOOP_LANE (R117, R118): a far-end loop is refused during a run. -/
def State.portLoop (s : State) (p : Port) (loop : Nat) (lane : Fin 8) : State :=
  let was := s.zget (ZP.LCTL.LOOP.port p)
  let wasLane := fin8 (s.zget (ZP.LCTL.LOOP_LANE.port p))
  if loop = 3 ∧ was ≠ 3 ∧ s.run.active then s.raisePort p 8 [3, b8 lane]
  else
    let s := if (s.port p).asleep then s.askWake p else s
    let s := (s.zput (ZP.LCTL.LOOP.port p) loop).zput (ZP.LCTL.LOOP_LANE.port p) lane
    let s := s.nearLoop p (was == 1 || was == 2) wasLane (loop == 1 || loop == 2) lane
    let s := if was = 3 ∧ (loop ≠ 3 ∨ wasLane ≠ lane) then s.dlBlock p .loop (loopPayload wasLane 0) else s
    if loop = 3 ∧ (was ≠ 3 ∨ wasLane ≠ lane) then s.dlBlock p .loop (loopPayload lane 1) else s

/-- A LOOP block reaches Pelnos: the loop starts or ends, and the block goes back. -/
def State.loopAtPelnos (s : State) (p : Port) (b : Block) (crc : Half) : State :=
  let on := pbyte b 1 == 1
  let s := s.updChip p fun c =>
    if on then { (c.put P.LINK_STAT.FAR_LOOP 1) with loopLane := pbyte b 0 % 8 }
    else { (c.put P.LINK_STAT.FAR_LOOP 0) with active := false }
  s.emit (.uplink p (pbyte b 0 % 8) b crc)

/-- The answer reaches Zwiuc: the lane shows LOOPED; on release the port comes up again from LOCK. -/
def State.loopAnswer (s : State) (p : Port) (l : Fin 8) (b : Block) : State :=
  if pbyte b 1 = 1 then s.zput (laneF ZP.LSTATm.LOOPED p l) 1
  else
    let ls := s.activeLanes p
    let s := (s.zput (laneF ZP.LSTATm.LOOPED p l) 0).portLeave p 1
    (ls.foldl (fun s l => s.enterLock (.up p l)) s).enterLock (.down p)

/-- A LOOP block on a ring port: this node loops that port, or ends the loop, and the block goes back; or it is the answer to this node's own
order.  The link is out of ring
service meanwhile. -/
def State.loopRing (s : State) (d : Side) (b : Block) (crc : Half) : State :=
  let was := s.zget (ZP.LSTATm.LOOPED.ringLane d) == 1
  let on := pbyte b 1 == 1
  let answer : Bool := if on then s.zget (ZP.LCTL.LOOP.ringLane d) == 3 else !was
  let s := s.zput (ZP.LSTATm.LOOPED.ringLane d) (b2n on)
  let s := if on && !was then s.ringLink d 2 0 else if !on && was then s.ringLink d 3 0 else s
  if answer then s else s.emit (.ring d b crc)

/-! ### PRBS and eye (R119, R120) -/

/-- A generator is enabled: it replaces the lane's traffic unless the lane is in the mask in force, when it waits. -/
def State.prbsGen (s : State) (k : Link) : State :=
  match k with
  | .up p l =>
    let g := (s.chip p).get P.PRBS_CFG.GEN_EN
    let s := s.updChip p fun c => c.put P.PRBS_CFG.GEN_EN (g ||| 2 ^ l.val)
    let s := if (s.chip p).get P.LINK_STAT.UL_ASLEEP = 1 then s.updChip p fun c => { c with waking := true } else s
    if bitAt (s.chip p).laneMask l then s else s.updLane k fun x => { x with gen := true }
  | .down p => (s.zput (ZP.PRBS.GEN_EN.port p) 1).updLane k fun x => { x with gen := true }
  | .ring d => (s.zput (ZP.PRBS.GEN_EN.ringLane d) 1).updLane k fun x => { x with gen := true }

/-- The checker locks after 64 error-free bits, and loses lock after more than 256 errors in 1,024 bits. -/
def State.prbsLock (s : State) (k : Link) : State :=
  let x := s.lane k
  if (s.prbsCfg k).2.2 then
    if 256 < x.prbsWinErr then
      (s.updLane k fun y => { y with prbsRun := 0, prbsWinErr := 0, prbsWinBits := 0 }).setPrbsLock k false
    else s
  else if (s.prbsCfg k).1 ∧ 64 ≤ x.prbsRun then
    (s.updLane k fun y => { y with prbsWinErr := 0, prbsWinBits := 0 }).setPrbsLock k true
  else s

/-- BELOW_MIN (R120). -/
def eyeBelow (w h : Nat) : Bool := decide (w < 20) || decide (h < 10)

/-- Show an eye result in a Zwiuc lane register set. -/
def State.putEye (s : State) (sh : Field → Field) (l w h : Nat) (lap : Option (Fin 65536)) : State :=
  let s := (((s.zput (sh ZP.EYE.WIDTH) w).zput (sh ZP.EYE.HEIGHT) h).zput (sh ZP.EYE.LANE) l).zput (sh ZP.EYE.VALID) 1
  let s := s.zput (sh ZP.EYE.BELOW_MIN) (b2n (eyeBelow w h))
  match lap with
  | some t => s.zput (sh ZP.EYE.LAP) (sat 13 t)
  | none => s

/-- EYE_SCAN_COMPLETE: the result is shown; BELOW_MIN or a lap over 1 s raises EYE, and BELOW_MIN retrains the lane. -/
def State.eyeDone (s : State) (k : Link) (w h : Nat) (lap : Option (Fin 65536)) : State :=
  let below := eyeBelow w h
  match k with
  | .up p l =>
    let ms := match lap with
      | some t => t.val
      | none => 0
    let s := s.putEye (fun f => f.port p) l w h lap
    let s := s.updLane k fun x => { x with eyeW := w, eyeH := h }
    let s := if 1000 < ms then s.bgLag 5 else s
    let s := if below ∨ 1000 < ms then
        s.raisePort p 9 ([b8 l, b8 w, b8 h, b8 (b2n below + 2 * b2n (decide (1000 < ms)))] ++ leBytes ms 2) else s
    if below ∧ s.lst k = 5 then s.retrainLane p l .eye 0 else s
  | .down p =>
    s.updChip p fun c => (((c.put P.EYE.WIDTH w).put P.EYE.HEIGHT h).put P.EYE.VALID 1).put P.EYE.BELOW_MIN (b2n below)
  | .ring d =>
    let s := s.putEye (fun f => f.ringLane d) 0 w h lap
    let s := s.updLane k fun x => { x with eyeW := w, eyeH := h }
    if below ∧ s.lst k = 5 then s.retrainLink k .eye else s

/-- RETRAIN_FAIL (R109): an eye retrain keeps its last good settings, is MARGINAL and returns to service; any other counts
an attempt. -/
def State.retrainFail (s : State) (k : Link) : State :=
  let x := s.lane k
  if s.lst k ≠ 2 ∧ s.lst k ≠ 3 then s
  else match k, x.cause with
    | .up p l, some .eye =>
      let s := (s.updLane k fun y => { y with cause := none, attempts := 0 }).setLst k 5
      let s := s.zput (laneF ZP.LSTATm.MARGINAL p l) 1
      (s.raisePort p 6 [b8 l, b8 x.eyeW, b8 x.eyeH]).laneIn p l
    | .up p l, some .other => s.failAttempt p l
    | .ring d, some .eye =>
      ((s.updLane k fun y => { y with cause := none, attempts := 0 }).setLst k 5).zput (ZP.LSTATm.MARGINAL.ringLane d) 1
    | .ring _, some .other =>
      let n := x.attempts + 1
      let s := s.updLane k fun y => { y with attempts := if 3 ≤ n then 0 else n }
      if 3 ≤ n then s.setLst k 7 else s.enterTrain k
    | _, _ => s

/-! ### Lane enables (R122, R338) -/

/-- One LANE_EN bit is written: setting it with the port's gate off is refused; clearing it takes the lane out of the mask
and to DISABLED; setting it starts the lane. -/
def State.laneEnBit (s : State) (p : Port) (v : Bool) (l : Fin 8) : State :=
  let f := ZP.LCTL.LANE_EN.port p
  let old := s.zget f
  if bitAt old l = v then s
  else if v then
    if ¬ bitAt (s.zget Z.CLK_GATE.PORT) p then s.gateRefused f.off l
    else
      let s := s.zput f (old ||| 2 ^ l.val)
      let s := if old = 0 ∧ s.lst (.down p) = 0 then s.freshLane (.down p) else s
      if (s.chip p).get P.PLL_STAT.LOCK = 1 then s.freshLane (.up p l) else s
  else
    let s := s.zput f (clearBit old l)
    if bitAt (s.port p).mask l then
      if (s.port p).mask = 2 ^ l.val then ((s.portLeave p 2).setLst (.up p l) 0).restartPort p
      else (s.laneOut p l 3).updLane (.up p l) fun x => { x with leaving := true }
    else s.setLst (.up p l) 0

/-! ### The meanings -/

/-- RECEIVER_DETECT (R101). -/
def execReceiverDetect (k : Link) (s : State) : Result := .next (s.detect k)

/-- NO_RX_TIMEOUT (R101). -/
def execNoRxTimeout (k : Link) (s : State) : Result := .next (s.noRx k)

/-- TRAIN_BLOCK_RECEIVE (R102 to R104, R301). -/
def execTrainBlockReceive (k : Link) (b : RxBlock) (s : State) : Result := .next (s.trainReceive k b)

/-- TRAIN_TIMEOUT (R101). -/
def execTrainTimeout (k : Link) (s : State) : Result := .next (s.trainTimeout k)

/-- PORT_ACTIVATE (R105). -/
def execPortActivate (p : Port) (s : State) : Result := .next (s.activate p)

/-- ACTIVATION_WAIT_EXPIRY (R105). -/
def execActivationWaitExpiry (p : Port) (s : State) : Result := .next (s.activationEnd p)

/-- UPLINK_BLOCK_RECEIVE (R98, R123): on a lane in ACTIVE that is not looped, an intact FRAME, DATA or STATUS block goes to
reassembly; TRAIN, LANE_MARK and ECHO stay with the commands of their own. -/
def execUplinkBlockReceive (p : Port) (l : Fin 8) (b : RxBlock) (s : State) : Result :=
  .next (if s.lst (.up p l) ≠ 5 then s
    else
      let r := s.receive (.up p l) b
      match r.2 with
      | some x =>
        if (x.kind = .frame ∨ x.kind = .data ∨ x.kind = .status) ∧ r.1.zget (laneF ZP.LSTATm.LOOPED p l) = 0 then
          r.1.updPort p fun q => { q with arrived := q.arrived ++ [x] }
        else r.1
      | none => r.1)

/-- SYMBOL_LOCK_LOSS (R100, R108): four kind symbols in a row were code errors.  An uplink lane or ring link retrains; the
Pelnos downlink receiver re-enters LOCK. -/
def execSymbolLockLoss (k : Link) (s : State) : Result :=
  .next (if (s.lane k).badKind < 4 then s
    else
      let s := s.updLane k fun x => { x with badKind := 0 }
      match k with
      | .down p => s.updChip p fun c => c.put P.LINK_STAT.DL_STATE 3
      | _ => if s.lst k = 5 then s.retrainLink k .other else s)

/-- LANE_MARK_RECEIVE (R106, R107). -/
def execLaneMarkReceive (p : Port) (l : Fin 8) (at_ : Nat) (b : RxBlock) (s : State) : Result :=
  .next (if s.lst (.up p l) ≠ 5 then s
    else
      let r := s.receive (.up p l) b
      match r.2 with
      | some x => if x.kind = .laneMark then r.1.takeMark p l at_ x else r.1
      | none => r.1)

/-- MARK_WAIT_EXPIRY (R107). -/
def execMarkWaitExpiry (p : Port) (s : State) : Result :=
  .next (if (s.port p).markCnt.isSome then s.evalMarks p else s)

/-- RETRAIN_FAIL (R109). -/
def execRetrainFail (k : Link) (s : State) : Result := .next (s.retrainFail k)

/-- LANE_RETRAIN_ORDER (R108, R122): one lane named by a RETRAIN bit.  The downlink has its own order (R110). -/
def execLaneRetrainOrder (k : Link) (s : State) : Result :=
  .next (match k with
    | .up p l => s.bar0 fun s => s.orderRetrain p l
    | .down _ => s
    | .ring d => s.bar0 fun s =>
      if s.lst k = 0 then s
      else (s.updLane k fun x => { x with fails := 0, attempts := 0, cause := some .other }).enterTrain k)

/-- LANE_EN_WRITE (R122, R338). -/
def execLaneEnWrite (p : Port) (mask : Byte) (s : State) : Result :=
  .next (s.bar0 fun s =>
    fins8.foldl (fun s (l : Fin 8) => s.laneEnBit p (bitAt mask.toNat l.val) l) s)

/-- PORT_RETRAIN_ORDER (R110). -/
def execPortRetrainOrder (p : Port) (s : State) : Result :=
  .next (s.bar0 fun s =>
    (s.portLeave p 1).restartPort p)

/-- UL_SLEEP_REQUEST (R112). -/
def execUlSleepRequest (p : Port) (s : State) : Result :=
  .next (s.bar0 fun s =>
    ((s.zput (ZP.LCTL.UL_SLEEP.port p) 1).updPort p fun q => { q with sleepWait := !q.asleep }).emit
      (.orderedSet p false false 0x5A))

/-- SLEEP_REQ_RECEIVE (R112, R116): Pelnos announces sleep and idles its lanes, or refuses. -/
def execSleepReqReceive (p : Port) (s : State) : Result :=
  .next (if (s.chip p).inReset ∨ (s.chip p).get P.LINK_STAT.UL_ASLEEP = 1 then s
    else if s.sleepOk p then (s.updChip p Pelnos.fallAsleep).emit (.orderedSet p true false 0xA5)
    else s.updChip p fun c => c.put P.LINK_STAT.SLEEP_REFUSED 1)

/-- SLEEP_ANNOUNCE_RECEIVE (R112, R135). -/
def execSleepAnnounceReceive (p : Port) (l : Fin 8) (s : State) : Result :=
  .next (if s.lst (.up p l) = 5 then
      ((s.setLst (.up p l) 6).updPort p fun q => { q with asleep := true, sleepWait := false }).mergeDown p
    else s)

/-- SLEEP_REFUSED_TIMEOUT (R112). -/
def execSleepRefusedTimeout (p : Port) (s : State) : Result :=
  .next (if (s.port p).sleepWait then
      ((s.updPort p fun q => { q with sleepWait := false }).zput (ZP.DLSTAT.SLEEP_REFUSED.port p) 1).raisePort p 7 []
    else s)

/-- UL_WAKE_REQUEST (R114). -/
def execUlWakeRequest (p : Port) (s : State) : Result :=
  .next (s.bar0 fun s =>
    (s.zput (ZP.LCTL.UL_SLEEP.port p) 0).askWake p)

/-- WAKE_REQ_RECEIVE (R114). -/
def execWakeReqReceive (p : Port) (s : State) : Result :=
  .next (if (s.chip p).get P.LINK_STAT.UL_ASLEEP = 1 ∧ ¬ (s.chip p).inReset then
      s.updChip p fun c => { c with waking := true } else s)

/-- SELF_WAKE (R114). -/
def execSelfWake (p : Port) (s : State) : Result :=
  .next (if (s.chip p).get P.LINK_CTL.AUTO_WAKE = 1 ∧ (s.chip p).get P.LINK_STAT.UL_ASLEEP = 1 ∧ (s.chip p).wakeCause then
      s.updChip p fun c => { c with waking := true } else s)

/-- WAKE_ANNOUNCE (R114). -/
def execWakeAnnounce (p : Port) (s : State) : Result :=
  .next (if (s.chip p).waking then
      (s.updChip p fun c => { (c.put P.LINK_STAT.UL_ASLEEP 0) with waking := false }).emit (.orderedSet p true true 0xA5)
    else s)

/-- WAKE_RECEIVE (R114): the lane leaves SLEEP; a retrain ordered while it slept follows (R116). -/
def execWakeReceive (p : Port) (l : Fin 8) (s : State) : Result :=
  .next (if s.lst (.up p l) = 6 then
      let s := ((s.setLst (.up p l) 5).updPort p fun q => { q with asleep := false }).mergeUp p
      if (s.lane (.up p l)).cause.isSome then s.retrainLane p l .other 0 else s
    else s)

/-- WAKE_TIMEOUT (R114). -/
def execWakeTimeout (p : Port) (l : Fin 8) (s : State) : Result :=
  .next (if s.lst (.up p l) = 6 then s.retrainLane p l .other 0 else s)

/-- DL_QUIET_ENTER (R115). -/
def execDlQuietEnter (p : Port) (s : State) : Result :=
  .next (if s.zget (ZP.LCTL.DL_QUIET.port p) = 1 ∧ s.zget (ZP.DLSTAT.QUIET.port p) = 0 ∧ (s.port p).dlWait = [] then
      (s.zput (ZP.DLSTAT.QUIET.port p) 1).emit (.orderedSet p false false 0xA5)
    else s)

/-- DL_QUIET_EXIT (R115). -/
def execDlQuietExit (p : Port) (s : State) : Result := .next (s.dlLeaveQuiet p)

/-- NEAR_END_LOOP (R117, R118): P_LINK_CTL.LOOP and LOOP_LANE are written, the other bits keep their values. -/
def execNearEndLoop (p : Port) (loop : Fin 4) (lane : Fin 8) (s : State) : Result :=
  .next (s.pWrite p 0x200 ((s.chip p).word 0x200 % 4 + 4 * loop + 16 * lane))

/-- PORT_LOOP_WRITE (R117, R118). -/
def execPortLoopWrite (p : Port) (loop : Fin 4) (lane : Fin 8) (s : State) : Result :=
  .next (s.bar0 fun s =>
    s.portLoop p loop lane)

/-- LOOP_BLOCK_RECEIVE (R117, R118). -/
def execLoopBlockReceive (k : Link) (b : RxBlock) (s : State) : Result :=
  .next (match k with
    | .down p =>
      let r := s.dlReceive p b
      match r.2 with
      | some x => if x.kind = .loop then r.1.loopAtPelnos p x b.crc else r.1
      | none => r.1
    | .up p l =>
      let r := s.receive k b
      match r.2 with
      | some x => if x.kind = .loop then r.1.loopAnswer p l x else r.1
      | none => r.1
    | .ring d =>
      let r := s.receive k b
      match r.2 with
      | some x => if x.kind = .loop then r.1.loopRing d x b.crc else r.1
      | none => r.1)

/-- PRBS_GEN_ENABLE (R119). -/
def execPrbsGenEnable (k : Link) (s : State) : Result :=
  .next (match k with
    | .up _ _ => s.prbsGen k
    | .down p => s.bar0 fun s => s.prbsGen k
    | .ring d => s.bar0 fun s => s.prbsGen k)

/-- PRBS_CHECKER_LOCK (R119). -/
def execPrbsCheckerLock (k : Link) (s : State) : Result := .next (s.prbsLock k)

/-- P_PRBS_CLEAR (R121). -/
def execPPrbsClear (p : Port) (s : State) : Result :=
  .next ((s.updChip p fun c => c.put P.PRBS_ERR.COUNT 0).updLane (.down p) fun x => { x with prbsErr := 0 })

/-- PORT_PRBS_CLEAR (R122). -/
def execPortPrbsClear (p : Port) (s : State) : Result :=
  .next (s.bar0 fun s =>
    fins8.foldl (fun s l => s.updLane (.up p l) fun x => { x with prbsErr := 0, prbsBits := 0 }) s)

/-- EYE_SCAN_COMPLETE (R120, R108). -/
def execEyeScanComplete (k : Link) (width : Fin 64) (height : Byte) (lap : Option (Fin 65536)) (s : State) : Result :=
  .next (s.eyeDone k width height.toNat lap)

end Sys2Proof.Machine
end

