-- ==== Sys2Proof/Machine/PelnosCmd.lean ====
section
/-!
DEFINITION. What a Pelnos does with the blocks of its downlink: commands (R245, R395), SYNC (R323) and ECHO (R324); its
commits and snapshot latch (R391, R395), its supply, resets and monitor (R345 to R348, R404).
Choices of the model: log entries 7 (DEDUCED), 8 (DEDUCED).
-/

namespace Sys2Proof.Machine

/-! ### Downlink commands (R245) -/

/-- The big-endian halfword at byte `i` of a payload. -/
def half (pl : List Byte) (i : Nat) : Nat := beNat (slice pl i 2)

/-- The byte at `i`. -/
def byteAt (pl : List Byte) (i : Nat) : Nat := (pl.getD i 0).toNat

/-- A READBACK record answers the command with tag `pl[1]`. -/
def State.reply (s : State) (p : Port) (pl : List Byte) (pix staged : Bool) (addr data : Nat) (err : Bool) : State :=
  s.updChip p fun c => c.periph (readbackRec pix staged addr data (byteAt pl 1) err) 4

/-- The address and data pairs of a REG_WR. -/
def regPairs (pl : List Byte) : List (Nat × Nat) :=
  (List.range (byteAt pl 2)).map fun i => (half pl (4 + 4 * i), half pl (6 + 4 * i))

/-- REG_WR: the pairs that decode are applied in order; the reply carries the last pair, or ERR with DATA 0 if one does not decode (R81).  N
outside 1 to 3 applies nothing and is answered with ERR. -/
def State.doRegWr (s : State) (p : Port) (pl : List Byte) : State :=
  let ps := regPairs pl
  if ps = [] ∨ 3 < ps.length then s.reply p pl false false 0 0 true
  else
    let last := ps.getLastD (0, 0)
    let t := ps.foldl (fun s x => if pDecodes x.1 then s.pWrite p x.1 x.2 else s) s
    let ok := ps.all fun x => pDecodes x.1
    t.reply p pl false false last.1 (if ok then last.2 else 0) (!ok)

/-- REG_RD: the committed or the staged value, with the side effects of a read. -/
def State.doRegRd (s : State) (p : Port) (pl : List Byte) : State :=
  let a := half pl 4
  let st := byteAt pl 2 % 2 == 1
  if pDecodes a then
    let v := if st then (s.chip p).stagedWord a else (s.chip p).word a
    (s.updChip p fun c => c.afterRead a).reply p pl false st a v false
  else s.reply p pl false st a 0 true

/-- PIX_WR: a pixel word is written without the window. -/
def State.doPixWr (s : State) (p : Port) (pl : List Byte) : State :=
  let col := half pl 4
  let row := half pl 6
  let w := half pl 8
  if col < 512 ∧ row < 512 then
    (s.updChip p fun c => c.writePix (pixIdx col row) (BitVec.ofNat 16 w)).reply p pl true false (pixIdx col row) w false
  else s.reply p pl true false 0 0 true

/-- The `n` pixel indices from `i` on, stepping as INC = 1 does. -/
def pixRun (i : Nat) : Nat → List Nat
  | 0 => []
  | n + 1 => i :: pixRun (pixStep 1 i) n

/-- PIX_RD: COUNT words, one reply each. -/
def State.doPixRd (s : State) (p : Port) (pl : List Byte) : State :=
  let n := byteAt pl 2
  if 1 ≤ n ∧ n ≤ 16 ∧ half pl 4 < 512 ∧ half pl 6 < 512 then
    (pixRun (pixIdx (half pl 4) (half pl 6)) n).foldl (fun s i =>
      s.reply p pl true false i ((s.chip p).pixWord i).toNat false) s
  else s.reply p pl true false 0 0 true

/-- PIX_STREAM: up to six words to P_PIXDATA, in order. -/
def State.doPixStream (s : State) (p : Port) (pl : List Byte) : State :=
  let n := byteAt pl 2
  let ws := (List.range n).map fun i => half pl (4 + 2 * i)
  if 1 ≤ n ∧ n ≤ 6 then
    (s.updChip p fun c => ws.foldl (fun c w => c.writePixdata (BitVec.ofNat 16 w)) c).reply p pl false false 0x22
      (ws.getLastD 0) false
  else s.reply p pl false false 0x22 0 true

/-- COMMIT (R395): bit 15 of the COARSE halfword cancels; a passed tick is refused; otherwise the pending commit is
replaced. -/
def State.doCommit (s : State) (p : Port) (pl : List Byte) : State :=
  let f := beNat (slice pl 4 4)
  let h := half pl 8
  let ahead := ticksSince (f * 4096 + h % 4096) (s.chip p).now
  if bitAt h 15 then (s.updChip p fun c => { c with commit := none }).reply p pl false false 0 0x8000 false
  else if ahead = 0 ∨ 2 ^ 43 ≤ ahead then s.reply p pl false false 0 0 true
  else (s.updChip p fun c => { c with commit := some (f, h % 4096) }).reply p pl false false 0 0 false

/-- The OP codes of R245. -/
def downlinkOps : List Nat := [1, 2, 3, 4, 5, 6]

/-- A DATA block reaches Pelnos: `f` acts on its payload when its OP is one of `ops`. -/
def State.onCommand (s : State) (p : Port) (b : RxBlock) (ops : Nat → Bool) (f : State → List Byte → State) : State :=
  let r := s.dlReceive p b
  match r.2 with
  | some x => if x.kind = .data ∧ ops (byteAt x.payload 0) then f r.1 x.payload else r.1
  | none => r.1

/-- REG_WR (R245). -/
def execRegWr (p : Port) (b : RxBlock) (s : State) : Result := .next (s.onCommand p b (· == 1) fun s pl => s.doRegWr p pl)

/-- REG_RD (R245). -/
def execRegRd (p : Port) (b : RxBlock) (s : State) : Result := .next (s.onCommand p b (· == 2) fun s pl => s.doRegRd p pl)

/-- PIX_WR (R245). -/
def execPixWr (p : Port) (b : RxBlock) (s : State) : Result := .next (s.onCommand p b (· == 3) fun s pl => s.doPixWr p pl)

/-- PIX_RD (R245). -/
def execPixRd (p : Port) (b : RxBlock) (s : State) : Result := .next (s.onCommand p b (· == 4) fun s pl => s.doPixRd p pl)

/-- PIX_STREAM (R245). -/
def execPixStream (p : Port) (b : RxBlock) (s : State) : Result :=
  .next (s.onCommand p b (· == 5) fun s pl => s.doPixStream p pl)

/-- COMMIT (R245, R395). -/
def execCommit (p : Port) (b : RxBlock) (s : State) : Result :=
  .next (s.onCommand p b (· == 6) fun s pl => s.doCommit p pl)

/-- UNKNOWN_DOWNLINK_OP (R245): ERR with ADDR 0. -/
def execUnknownDownlinkOp (p : Port) (b : RxBlock) (s : State) : Result :=
  .next (s.onCommand p b (fun o => !downlinkOps.contains o) fun s pl => s.reply p pl false false 0 0 true)

/-! ### SYNC and ECHO (R323, R324) -/

/-- DOWNLINK_SYNC_RECEIVE (R323). -/
def execDownlinkSyncReceive (p : Port) (b : RxBlock) (s : State) : Result :=
  let r := s.dlReceive p b
  .next (match r.2 with
    | some x => if x.kind = .sync then r.1.updChip p fun c => c.sync (beNat (slice x.payload 0 4)) (half x.payload 4) else r.1
    | none => r.1)

/-- The ECHO response: ID, F, T2, T3 − T2 and SLIP. -/
def Pelnos.echoAnswer (c : Pelnos) (id : Byte) (fine turn : Nat) : List Byte :=
  [2#8, id] ++ beBytes (c.frame % 2 ^ 32) 4 ++ beBytes (c.coarse * 256 + fine) 3 ++ beBytes turn 3
    ++ [b8 (c.get P.SYNC_STAT.SLIP)]

/-- PELNOS_ECHO_ANSWER (R324): an ECHO REQ has arrived in the present tick at bin `fine`; the response goes out on the lowest
active lane after `turn` bins. -/
def execPelnosEchoAnswer (p : Port) (b : RxBlock) (fine : Byte) (turn : Fin 16777216) (s : State) : Result :=
  let r := s.dlReceive p b
  .next (match r.2 with
    | some x =>
      if x.kind = .echo ∧ byteAt x.payload 0 = 1 then
        r.1.updChip p fun c => { c with echo := c.echo ++ [c.echoAnswer (x.payload.getD 1 0) fine.toNat turn.val] }
      else r.1
    | none => r.1)

/-- EPOCH_HOLD_END (R323): the counter has reached frame 0. -/
def execEpochHoldEnd (p : Port) (s : State) : Result :=
  .next (s.updChip p fun c => if c.frame % 2 ^ 32 < 2 ^ 31 then c.put P.SYNC_STAT.HOLD 0 else c)

/-! ### Commits and snapshots (R391, R395) -/

/-- COMMIT_APPLY (R395): tick T of the pending commit is the present one or begins within the present cycle.  What waits on the port's
downlink for T to pass goes on (R396). -/
def execCommitApply (p : Port) (s : State) : Result :=
  .next ((s.updChip p fun c => match c.commit with
    | some (f, k) => if ticksSince (c.now + 3) (f * 4096 + k) < 2 ^ 43 then c.applyStaged else c
    | none => c).dlSend p [])

/-- SNAPSHOT_ARM (R391): P_SNAP_CTL.ARM is written 1. -/
def execSnapshotArm (p : Port) (s : State) : Result := .next (s.pWrite p 0x60 1)

/-- PELNOS_SNAPSHOT_LATCH (R391): the armed latch meets its tick. -/
def execPelnosSnapshotLatch (p : Port) (s : State) : Result :=
  .next (s.updChip p fun c =>
    if c.get P.SNAP_CTL.ARM = 1 ∧ c.frame % 65536 = c.get P.SNAP_FRAME.FRAME
        ∧ c.coarse / 4 = c.get P.SNAP_COARSE.COARSE / 4 then c.snapLatch else c)

/-! ### Link loss, supply and resets (R345 to R347, R404) -/

/-- DOWNLINK_LOSS (R345, R92). -/
def execDownlinkLoss (p : Port) (s : State) : Result := .next (s.updChip p fun c => c.downlinkLost)

/-- DOWNLINK_RETURN (R346): the port leaves ACTIVE if it has not, the PLLs lock, and bring-up begins at DETECT. -/
def execDownlinkReturn (p : Port) (s : State) : Result := .next (((s.portLeave p 0).pllUp p).restartPort p)

/-- PELNOS_DIP_START (R347, R86): the frame in progress carries SUPPLY; later frames take it at their start. -/
def execPelnosDipStart (p : Port) (s : State) : Result :=
  .next (s.updChip p fun c => (c.put P.PWR_STAT.WARN 1).updFrame c.frame fun b => { b with supply := true })

/-- PELNOS_DIP_END (R347): both rails are back; `low` is the lowest value sampled, in 0.5 mV. -/
def execPelnosDipEnd (p : Port) (low : Fin 4096) (s : State) : Result :=
  .next (s.updChip p fun c =>
    if c.get P.PWR_STAT.WARN = 1 then
      (((c.put P.PWR_STAT.WARN 0).put P.PWR_STAT.DIP 1).bump P.PWR_DIPS.COUNT 1).put P.PWR_MIN.MIN
        (min (c.get P.PWR_MIN.MIN) low)
    else c)

/-- Power-on or pad reset (R404): every register, staged copy and pixel word at its reset value, POR set, the chip held. -/
def Pelnos.hardReset (_ : Pelnos) : Pelnos := { Pelnos.reset with inReset := true }

/-- PELNOS_POWER_ON_RESET (R347, R404). -/
def execPelnosPowerOnReset (p : Port) (s : State) : Result := .next (s.updChip p fun c => c.hardReset)

/-- PELNOS_PAD_RESET (R404). -/
def execPelnosPadReset (p : Port) (s : State) : Result := .next (s.updChip p fun c => c.hardReset)

/-- PELNOS_SOFT_RESET (R404): the write of P_RST.SOFT. -/
def execPelnosSoftReset (p : Port) (s : State) : Result := .next (s.pWrite p 0x01 1)

/-- PELNOS_RESET_RELEASE (R404): the reset ends and PWR_MODE is sampled. -/
def execPelnosResetRelease (p : Port) (mode : Bool) (s : State) : Result :=
  .next (s.updChip p fun c =>
    if c.inReset then { c.put P.PWR_STAT.MODE (b2n mode) with inReset := false } else c)

/-! ### Monitor (R348) -/

/-- PELNOS_MON_SCAN_START (R348). -/
def execPelnosMonScanStart (p : Port) (s : State) : Result := .next (s.updChip p fun c => c.monStart)

/-- PELNOS_MON_CONVERSION (R348): a 1 µs conversion ends with result `code`. -/
def execPelnosMonConversion (p : Port) (code : Fin 4096) (s : State) : Result :=
  .next (s.updChip p fun c => c.monConvert code)

end Sys2Proof.Machine
end

