-- ==== Sys2Proof/Machine/Ingress.lean ====
section
/-!
DEFINITION. Ingress of a port (spec/06): reassembly (R124 to R126), parsing (R127 to R131), the record queue and the side queue
(R132 to R134), joining and late data (R138, R139), membership (R135, R143).
Choices of the model: log entry 9 (DEDUCED).
-/

namespace Sys2Proof.Machine

/-! ### Markers (R130) -/

/-- Causes of a Zwiuc marker. -/
def mkQueue : Nat := 0
def mkGap : Nat := 1
def mkLate : Nat := 2
def mkOverflow : Nat := 3
def mkQreset : Nat := 4
def mkRecord : Nat := 5

/-- A marker that Zwiuc inserts. -/
def zMarker (p : Port) (cause coarse count age : Nat) : Nat :=
  seal64 (2 * 2 ^ 60 + p.val * 2 ^ 52 + coarse * 2 ^ 40 + count * 2 ^ 24 + b2n (cause == mkLate) * 2 ^ 23 + age * 2 ^ 20
    + 2 ^ 19 + cause * 2 ^ 16)

/-- A marker as an item of the record queue. -/
def zItem (p : Port) (cause frame coarse count : Nat) : QRec :=
  { frame := frame, hws := halves (zMarker p cause coarse count 0) 4, hits := count, coarse := coarse, shaving := true }

/-- The item is a marker of Zwiuc (ORIGIN 1), and its cause. -/
def QRec.zCause (r : QRec) : Option Nat :=
  if r.shaving ∧ bitAt (r.hws.getD 2 0) 3 then some (r.hws.getD 2 0 % 8) else none

/-- Add pixel-hits to a count that saturates at 0xFFFF, which also stands for unknown. -/
def addHits (a b : Nat) : Nat := min 0xFFFF (a + b)

/-! ### Late data (R139) -/

/-- The merger's next frame M. -/
def State.mNext (s : State) : Nat := s.zget Z.MERGE_NEXT.NEXT

/-- A record is dropped as late: its hits are counted, and gathered in the port's LATE marker.  A QUEUE marker's hits were counted when
they were dropped and only join the marker (R145). -/
def State.dropLate (s : State) (p : Port) (r : QRec) : State :=
  let s := if (s.port p).lateEvent then s
    else (s.updPort p fun q => { q with lateEvent := true }).raisePort p 13 (leBytes r.frame 5)
  let s := if r.zCause = some mkQueue then s else s.zbump (ZP.LATE.HITS.port p) r.hits
  s.updPort p fun q => { q with late := match q.late with
    | some m => some { m with count := addHits m.count r.hits }
    | none => some { frame := r.frame, coarse := r.coarse, count := min 0xFFFF r.hits } }

/-- A whole frame has been dropped as late. -/
def State.lateFrame (s : State) (p : Port) : State := s.zbump (ZP.LATE.FRAMES.port p) 1

/-- Queue content and side entries of frames below M are removed as late (R136, R139); a frame without hits raises nothing. -/
def State.purgeLate (s : State) (p : Port) : State :=
  let m := s.mNext
  let old := (s.port p).queue.filter fun r => decide (r.frame < m)
  let gone := (s.port p).side.filter fun e => decide (e.frame < m)
  let s := s.updPort p fun q =>
    { q with queue := q.queue.filter fun r => decide (m ≤ r.frame), side := q.side.filter fun e => decide (m ≤ e.frame) }
  let s := old.foldl (fun s r => s.dropLate p r) s
  gone.foldl (fun s e => if e.whole then s.lateFrame p else s) s

/-! ### The record queue (R132) -/

/-- Bytes in a record queue; its capacity. -/
def queueBytes (q : List QRec) : Nat := q.foldl (fun a r => a + 2 * r.hws.length) 0
def queueCap : Nat := 1048576

/-- A record is pushed: late when its frame lies below M, into the pending marker while one waits or the queue is full. -/
def State.pushRec (s : State) (p : Port) (r : QRec) : State :=
  if r.frame < s.mNext then s.dropLate p r
  else
    let q := s.port p
    if q.pend.isSome ∨ queueCap < queueBytes q.queue + 2 * r.hws.length then
      let s := s.zbump (ZP.QDROP.HITS.port p) r.hits
      let first : Bool := q.cur.elim false fun o => !o.qEvent
      let s := if first then s.raisePort p 14 (leBytes r.frame 5 ++ [0]) else s
      s.updPort p fun q =>
        { q with cur := q.cur.map fun (o : OpenFrame) => { o with qEvent := true },
                 pend := match q.pend with
                   | some m => some { m with count := addHits m.count r.hits }
                   | none => some { frame := r.frame, coarse := r.coarse, count := min 0xFFFF r.hits } }
    else s.updPort p fun q => { q with queue := q.queue ++ [r] }

/-- The pending QUEUE marker enters the queue. -/
def State.placePend (s : State) (p : Port) : State :=
  match (s.port p).pend with
  | some m =>
    let r := zItem p mkQueue m.frame m.coarse m.count
    let s := s.updPort p fun q => { q with pend := none }
    if m.frame < s.mNext then s.dropLate p r else s.updPort p fun q => { q with queue := q.queue ++ [r] }
  | none => s

/-! ### Frames at the parser -/

/-- The open frame is kept: its records go to the record queue. -/
def OpenFrame.kept (o : OpenFrame) : Bool := !o.late && !o.drop

/-- A record of the open frame goes on: to the queue, to the late count, or nowhere. -/
def State.keep (s : State) (p : Port) (o : OpenFrame) (hws : List Nat) (hits coarse : Nat) (shaving : Bool) : State :=
  let r : QRec := { frame := o.frame, hws := hws, hits := hits, coarse := coarse, shaving := shaving }
  if o.drop then s
  else if o.late then s.dropLate p r
  else s.pushRec p r

/-- FRAME_ERR, counted `n` times. -/
def State.frameErr (s : State) (p : Port) (frame check n : Nat) : State :=
  (s.zbump (ZP.ERR.FRAME.port p) n).raisePort p 16 (leBytes frame 5 ++ [b8 check])

/-- The segment of the open frame ends (R133): the OVERFLOW marker and the pending QUEUE marker are placed, and the frame's side
entry is made; a late frame counts. -/
def State.endSegment (s : State) (p : Port) (trailer : Option (List Nat)) (whole : Bool) : State :=
  match (s.port p).cur with
  | none => s
  | some o =>
    let s := match o.excess with
      | some n => s.keep p o (zItem p mkOverflow o.frame 0 n).hws n 0 true
      | none => s
    let s := s.placePend p
    let s := s.updPort p fun q => { q with cur := none }
    if o.drop then s
    else if o.late ∨ o.frame < s.mNext then (if o.wholeLate ∧ whole then s.lateFrame p else s)
    else
      let e : SideEntry := { frame := o.frame, trailer := trailer, whole := whole,
                             damaged := o.damaged || o.excess.isSome || trailer.isNone, time := s.time }
      s.updPort p fun q => { q with side := q.side ++ [e] }

/-- A gap (R125): the open segment ends with a GAP marker, or the marker is held for the next one; the stream is discarded to the next
FRAME block.  A gap in a frame already committed writes no marker (R145).  `cause`: 0 missing, 1 overrun, 2 RESYNC order. -/
def State.gap (s : State) (p : Port) (cause : Nat) : State :=
  let q := s.port p
  let frame := q.cur.elim s.mNext (·.frame)
  let s := if q.gapEvent then s
    else (s.updPort p fun q => { q with gapEvent := true }).raisePort p 10 (leBytes frame 5 ++ [b8 cause])
  let s := match q.cur with
    | some o =>
      let late : Bool := o.late || decide (o.frame < s.mNext)
      let s := if late ∨ o.drop then s else s.keep p o (zItem p mkGap o.frame 0 0xFFFF).hws 0xFFFF 0 true
      let s := s.updPort p fun q => { q with cur := some { o with damaged := true } }
      s.endSegment p none false
    | none => s.updPort p fun q => { q with holdGap := true }
  s.updPort p fun q => { q with discard := true }

/-! ### Records (R129) -/

/-- The length in halfwords of the record that begins `h :: t`; none while too little has arrived to tell. -/
def recLen : List Nat → Option Nat
  | [] => none
  | h :: t =>
    let k := h / 4096
    if k = 0 then some 1
    else if k = 1 then (t[2]?).map fun w => 4 + w / 32 % 16
    else if k = 5 then some 8
    else if k = 15 then some (1 + h % 256)
    else some 4

/-- The record's value, its first `n` halfwords most significant first. -/
def recVal (hws : List Nat) : Nat := hws.foldl (fun a h => a * 65536 + h) 0

/-- The CRC-5 of a record holds; the escape and BLANK carry none. -/
def recOk (k : Nat) (hws : List Nat) : Bool :=
  if k = 0 ∨ k = 15 then true
  else if k = 5 then seal128 (recVal (hws.take 8)) == recVal (hws.take 8)
  else seal64 (recVal (hws.take 4)) == recVal (hws.take 4)

/-- PRIM_FORWARD (R306): a PRIMITIVE record leaves as a ring PRIM message, or in an EVT entry of the form of R297.  The spec names no
source for the latter: its SOURCE is a free value. -/
def State.primForward (s : State) (p : Port) (frame : Nat) (hws : List Nat) : State :=
  if s.zget (ZP.CTL.PRIM_FWD.port p) = 0 then s
  else if s.zget Z.RING_PRIM.PORT_EVT = 0 then s.primMessage (128 + p.val) hws frame
  else if s.ev.queue.length < 256 then
    let r := s.draw
    let e : EvRec := { src := Config.free r.1 % 65536, sev := sevInfo, time := s.time,
                       detail := ([1, b8 hws.length] ++ hws.flatMap (fun h => leBytes h 2) ++ List.replicate 12 0).take 12 }
    r.2.updEv fun u => { u with queue := u.queue ++ [e] }
  else s.updEv fun e => { e with lost := sat 16 (e.lost + 1) }

/-- The pixel-hits of a record (R130). -/
def recHits (k : Nat) (v : Nat) : Nat := if k = 1 then v / 32 % 16 + 1 else if k = 2 then bits v 24 16 else 0

/-- A record error: RECORD marker in place of the record, and the stream is discarded to the next FRAME block. -/
def State.recordErr (s : State) (p : Port) (o : OpenFrame) (k reason : Nat) : State :=
  let s := s.zbump (ZP.ERR.RECORD.port p) 1
  let s := s.raisePort p 15 (leBytes o.frame 5 ++ [b8 k, b8 reason])
  let s := s.keep p o (zItem p mkRecord o.frame 0 0xFFFF).hws 0xFFFF 0 true
  let s := s.updPort p fun q => { q with cur := q.cur.map fun (o : OpenFrame) => { o with damaged := true } }
  (s.endSegment p none false).updPort p fun q => { q with discard := true }

/-- The bytes of a segment that are left for records: the limit less a marker, a LATE marker and the trailer (R131). -/
def segCap : Nat := 262144 - 24

/-- A kept record meets the segment limit. -/
def State.keepLimited (s : State) (p : Port) (o : OpenFrame) (hws : List Nat) (hits coarse : Nat) (shaving : Bool) : State :=
  if o.excess.isSome ∨ segCap < o.bytes + 2 * hws.length then
    s.updPort p fun q => { q with cur := q.cur.map fun (o : OpenFrame) =>
      { o with excess := some (addHits (o.excess.getD 0) hits) } }
  else
    let s := s.updPort p fun q => { q with cur := q.cur.map fun (o : OpenFrame) => { o with bytes := o.bytes + 2 * hws.length } }
    s.keep p o hws hits coarse shaving

/-- The trailer: its checks, and the end of the segment (R128). -/
def State.trailer (s : State) (p : Port) (o : OpenFrame) (hws : List Nat) : State :=
  let v := recVal hws
  let s := if bits v 44 16 = o.frame % 65536 ∨ o.quiet then s else s.frameErr p o.frame 0 1
  let s := if bits v 24 20 = o.rcount % 2 ^ 20 ∨ o.quiet then s else s.frameErr p o.frame 1 1
  s.endSegment p (some hws) true

/-- One complete record of the open frame. -/
def State.parseRec (s : State) (p : Port) (o : OpenFrame) (hws : List Nat) : State :=
  let k := hws.headD 0 / 4096
  let v := recVal (hws.take 4)
  if k = 0 then s
  else if 8 ≤ k ∧ k ≤ 14 then s.recordErr p o k 1
  else if ¬ recOk k hws then s.recordErr p o k 0
  else if k = 3 then s.trailer p o hws
  else
    let s := s.updPort p fun q => { q with cur := q.cur.map fun (o : OpenFrame) => { o with rcount := o.rcount + 1 } }
    let coarse := if k = 1 then bits v 30 12 else if k = 2 then bits v 40 12 else 0
    if k = 6 then
      let s := s.readback p v
      if s.zget Z.MERGE_CFG.KEEP_RB = 1 then s.keepLimited p o hws 0 0 false else s
    else
      let s := if k = 2 then
          (if recHits 2 v = 0xFFFF then s.zbump (ZP.FESHAVE.UNKNOWN.port p) 1
            else s.zbump (ZP.FESHAVE.HITS.port p) (recHits 2 v))
        else if k = 7 then s.primForward p o.frame hws else s
      s.keepLimited p o hws (recHits k v) coarse (k == 2)

/-- Parse halfwords while the frame is open; what does not make a whole record is carried to the next block. -/
def State.parse (s : State) (p : Port) (hws : List Nat) : Nat → State
  | 0 => s
  | fuel + 1 =>
    match (s.port p).cur with
    | none => s
    | some o =>
      match recLen hws with
      | some n =>
        if n ≤ hws.length then (s.parseRec p o (hws.take n)).parse p (hws.drop n) fuel
        else s.updPort p fun q => { q with cur := some { o with carry := hws } }
      | none => s.updPort p fun q => { q with cur := some { o with carry := hws } }

/-- The halfwords of payload bytes. -/
def bytesHalves : List Byte → List Nat
  | a :: b :: t => (a.toNat * 256 + b.toNat) :: bytesHalves t
  | _ => []

/-- Parse the halfwords of a block of the open frame. -/
def State.feed (s : State) (p : Port) (hws : List Nat) : State :=
  let all := ((s.port p).cur.elim [] (·.carry)) ++ hws
  (s.updPort p fun q => { q with cur := q.cur.map fun (o : OpenFrame) => { o with carry := [] } }).parse p all (all.length + 1)

/-! ### FRAME and STATUS blocks (R126 to R128, R138) -/

/-- The 40-bit number of a 32-bit frame number, near M (R128); negative for a frame before the epoch. -/
def extend40 (m n : Nat) : Int :=
  let d : Nat := (n + 2 ^ 32 - m % 2 ^ 32) % 2 ^ 32
  if d ≤ 2 ^ 31 then (m : Int) + d else (m : Int) + d - 2 ^ 32

/-- The port joins with frame `g` (R138): RESUME, and it is waited for from there. -/
def State.join (s : State) (p : Port) (g : Nat) : State :=
  ((s.zput (ZP.STAT.STATE.port p) 3).updPort p fun q => { q with lateEvent := false, joinG := g }).raisePort p 12 (leBytes g 5)

/-- A frame opens at the parser. -/
def State.openFrame (s : State) (p : Port) (o : OpenFrame) : State :=
  let hold := (s.port p).holdGap
  let s := s.updPort p fun q => { q with cur := some o, holdGap := if o.kept then false else q.holdGap, gapEvent := false }
  if hold ∧ o.kept then
    (s.updPort p fun q => { q with cur := q.cur.map fun (o : OpenFrame) => { o with damaged := true } }).keep p o
      (zItem p mkGap o.frame 0 0xFFFF).hws 0xFFFF 0 true
  else s

/-- The frame's place: joined or merging, late, or in no merged frame. -/
def State.frameMode (s : State) (p : Port) (g : Nat) : State × OpenFrame :=
  let st := s.zget (ZP.STAT.STATE.port p)
  if ¬ s.run.active ∨ st ≤ 1 then (s, { frame := g, drop := true })
  else if st = 3 then (s, { frame := g, late := decide (g < s.mNext), wholeLate := decide (g < s.mNext) })
  else if s.mNext ≤ g then (s.join p g, { frame := g })
  else (s, { frame := g, late := true, wholeLate := true })

/-- A FRAME block is passed on. -/
def State.frameBlock (s : State) (p : Port) (pl : List Byte) : State :=
  let n := beNat (slice pl 0 4)
  let cs := half pl 4
  let mask := byteAt pl 6
  let x := extend40 s.mNext n
  let g := x.toNat
  let s := ((s.zput (ZP.FEHDR.CHIP_STATUS.port p) cs).zput (ZP.FEHDR.LANE_MASK.port p) mask).zput
    (ZP.STAT.LANE_MASK.port p) mask
  let s := s.headerMask p mask
  let s := if bitAt cs 2 then s.bgLag 4 else s
  let s := if bitAt cs 2 ∨ ¬ bitAt cs 0 ∨ bitAt cs 7 then s.raisePort p 18 (leBytes cs 2 ++ leBytes (g % 2 ^ 40) 5) else s
  let s := match (s.port p).cur with
    | some o => (if o.quiet then s else s.frameErr p o.frame 2 1).endSegment p none true
    | none => s
  let before : Bool := decide (x < 0) || (s.run.active && decide (s.time < s.epochTime))
  if before then
    let s := s.updPort p fun q => { q with lastNum := none, discard := false }
    (s.openFrame p { frame := g, drop := true, quiet := true }).feed p (bytesHalves (pl.drop 8))
  else
    match (s.port p).lastNum with
    | some l =>
      let d := framesSince n l
      if d = 0 ∨ 2 ^ 31 ≤ d then (s.frameErr p g 3 1).updPort p fun q => { q with discard := true }
      else
        let s := if 1 < d then s.frameErr p g 4 (d - 1) else s
        let s := s.updPort p fun q => { q with lastNum := some n, discard := false }
        let r := s.frameMode p g
        (r.1.openFrame p r.2).feed p (bytesHalves (pl.drop 8))
    | none =>
      let s := s.updPort p fun q => { q with lastNum := some n, discard := false }
      let r := s.frameMode p g
      (r.1.openFrame p r.2).feed p (bytesHalves (pl.drop 8))

/-- A STATUS block is passed on (R127). -/
def State.statusBlock (s : State) (p : Port) (pl : List Byte) : State :=
  let s := [0, 1, 2, 3].foldl (fun s k =>
    (s.zput ((ZP.FESTATk.HW_LO.at (4 * k)).port p) (half pl (4 * k))).zput ((ZP.FESTATk.HW_HI.at (4 * k)).port p)
      (half pl (4 * k + 2))) s
  let w := half pl 8
  if bitAt w 15 ∨ bitAt w 14 then
    s.raisePort p 17 (leBytes (w % 512) 2 ++ leBytes (half pl 10 % 512) 2 ++ [b8 (b2n (bitAt w 15) + 2 * b2n (bitAt w 14))])
  else s

/-- A block leaves reassembly in SEQ order; while discarding, all but a FRAME block is dropped. -/
def State.deliver (s : State) (p : Port) (b : Block) : State :=
  match b.kind with
  | .frame => s.frameBlock p b.payload
  | .status => if (s.port p).discard then s else s.statusBlock p b.payload
  | .data => if (s.port p).discard then s else s.feed p (bytesHalves b.payload)
  | _ => s

/-! ### Reassembly (R124, R125) -/

/-- Pass on the held blocks that follow E without a break. -/
def State.drainHeld (s : State) (p : Port) : Nat → State
  | 0 => s
  | n + 1 =>
    let q := s.port p
    match q.held.find? fun b => b.seq == q.expect with
    | some b =>
      ((s.updPort p fun q => { q with held := q.held.filter (fun x => x.seq != b.seq), expect := (q.expect + 1) % 256 }).deliver p
        b).drainHeld p n
    | none => s

/-- A block enters reassembly. -/
def State.reassemble (s : State) (p : Port) (b : Block) : State :=
  let q := s.port p
  if q.resync ∧ b.kind ≠ .frame then s
  else
    let e := if q.resync then b.seq else q.expect
    let s := s.updPort p fun q => { q with resync := false, expect := e }
    let k := (b.seq + 256 - e) % 256
    if k = 0 then
      ((s.updPort p fun q => { q with expect := (e + 1) % 256 }).deliver p b).drainHeld p 64
    else if k ≤ 63 then
      s.updPort p fun q => { q with held := if q.held.any (fun x => x.seq == b.seq) then q.held else q.held ++ [b] }
    else if k ≤ 127 then
      let s := s.zbump (ZP.REASM.RESYNC.port p) 1
      (s.updPort p fun q => { q with held := [], resync := true }).gap p 1
    else s.zbump (ZP.REASM.STALE.port p) 1

/-- SEQ E is declared missing: a gap, and what follows is passed on. -/
def State.missing (s : State) (p : Port) : State :=
  if (s.port p).held = [] then s
  else
    let s := (s.zbump (ZP.REASM.MISSING.port p) 1).gap p 0
    (s.updPort p fun q => { q with expect := (q.expect + 1) % 256 }).drainHeld p 64

/-! ### Pointer-integrity resets (R134) -/

/-- The record queue is emptied; every frame with records in it, and the one being received, gets a QRESET marker. -/
def State.queueReset (s : State) (p : Port) : State :=
  let q := s.port p
  let cur := q.cur.elim [] fun o => if o.kept ∧ s.mNext ≤ o.frame then [o.frame] else []
  let frames := (q.queue.map (·.frame) ++ q.pend.elim [] (fun m => [m.frame]) ++ cur).dedup
  let s := s.updPort p fun q =>
    { q with queue := frames.map fun f => zItem p mkQreset f 0 0xFFFF, pend := none,
             side := q.side.map fun (e : SideEntry) => if e.frame ∈ frames then { e with damaged := true } else e,
             cur := q.cur.map fun (o : OpenFrame) => if o.frame ∈ frames then { o with damaged := true } else o }
  (s.zbump (ZP.QDROP.QRESET.port p) 1).raisePort p 14 (leBytes (frames.headD s.mNext) 5 ++ [1])

/-- The side queue's pointers disagree: both queues are emptied, the frames are absent, the stream is discarded. -/
def State.sideReset (s : State) (p : Port) : State :=
  let f := (s.port p).side.head?.elim s.mNext (·.frame)
  let s := s.updPort p fun q => { q with queue := [], pend := none, side := [], cur := none, discard := true }
  s.raisePort p 14 (leBytes f 5 ++ [2])

/-! ### Membership (R135, R143) -/

/-- MERGE_EN is written: 0 takes the port out and drops its data as late, its frame being merged expects it still; 1 enters it through
SYNC; setting it with the port's gate off is refused (R338). -/
def State.mergeEn (s : State) (p : Port) (en : Bool) : State :=
  let was := s.zget (ZP.CTL.MERGE_EN.port p) == 1
  if en = was then s
  else if en then
    if ¬ bitAt (s.zget Z.CLK_GATE.PORT) p then s.gateRefused (0x10000 + 0x400 * p.val) 0
    else
      let up : Bool := s.linkUp p && !(s.port p).asleep
      (s.zput (ZP.CTL.MERGE_EN.port p) 1).zput (ZP.STAT.STATE.port p) (if up then 2 else 1)
  else
    let s := (s.zput (ZP.CTL.MERGE_EN.port p) 0).zput (ZP.STAT.STATE.port p) 0
    let q := s.port p
    let s := s.updPort p fun q =>
      { q with queue := [], side := [], pend := none, heldExpect := s.run.active,
               cur := q.cur.map fun (o : OpenFrame) => { o with drop := true } }
    let s := (q.queue ++ q.pend.elim [] fun m => [zItem p mkQueue m.frame m.coarse m.count]).foldl (fun s r => s.dropLate p r) s
    q.side.foldl (fun s e => if e.whole then s.lateFrame p else s) s

/-! ### The meanings -/

/-- REASSEMBLY_BLOCK (R124): the port's next block enters reassembly. -/
def execReassemblyBlock (p : Port) (s : State) : Result :=
  .next (match (s.port p).arrived with
    | b :: rest => (s.updPort p fun q => { q with arrived := rest }).reassemble p b
    | [] => s)

/-- REASSEMBLY_MISSING (R125). -/
def execReassemblyMissing (p : Port) (s : State) : Result := .next (s.missing p)

/-- PORT_QUEUE_PTR_RESET (R134). -/
def execPortQueuePtrReset (p : Port) (s : State) : Result := .next (s.queueReset p)

/-- SIDE_QUEUE_PTR_RESET (R134). -/
def execSideQueuePtrReset (p : Port) (s : State) : Result := .next (s.sideReset p)

/-- MERGE_EN_WRITE (R143, R338). -/
def execMergeEnWrite (p : Port) (en : Bool) (s : State) : Result :=
  .next (s.bar0 fun s =>
    s.mergeEn p en)

/-- PORT_RESYNC (R148): acts as a gap. -/
def execPortResync (p : Port) (s : State) : Result :=
  .next (s.bar0 fun s =>
    (s.zbump (ZP.REASM.RESYNC.port p) 1).gap p 2)

/-- PORT_LEAVE_ACTIVE (R145): for `cause` 0 downlink loss, 1 retrain, 2 disable; a port whose lanes stay enabled comes up again. -/
def execPortLeaveActive (p : Port) (cause : Fin 3) (s : State) : Result :=
  .next ((s.portLeave p cause).restartPort p)

end Sys2Proof.Machine
end

