-- ==== Sys2Proof/Machine/Extract.lean ====
section
/-!
DEFINITION. Extraction (spec/09): requests and contexts (R202 to R210), look-up and reads (R211 to R215, R225), the extraction stream
(R216), the output priority queue (R219, R220), buffers and completions (R221 to R224, R239 to R241).
Choices of the model: log entry 18 (DEDUCED).
-/

namespace Sys2Proof.Machine

/-! ### Contexts (R206, R207) -/

def State.ctx? (s : State) (n : Nat) : Option Ctx := s.xtr.ctxs.find? fun c => c.num == n

def State.updCtx (s : State) (n : Nat) (f : Ctx → Ctx) : State :=
  s.updXtr fun x => { x with ctxs := x.ctxs.map fun (c : Ctx) => if c.num = n then f c else c }

/-- Contexts that class `k` holds. -/
def State.inUse (s : State) (k : Nat) : Nat := (s.xtr.ctxs.filter fun c => c.cls == k).length

/-- The reserve of class `k`. -/
def State.reserve (s : State) (k : Nat) : Nat :=
  match k with
  | 0 => s.zget Z.XTR_RESV.CLASS0
  | 1 => s.zget Z.XTR_RESV.CLASS1
  | 2 => s.zget Z.XTR_RESV2.CLASS2
  | _ => s.zget Z.XTR_RESV2.CLASS3

/-- A request of class `c` may take a context (R207). -/
def State.mayTake (s : State) (c : Nat) : Bool :=
  decide ((([0, 1, 2, 3] : List Nat).filter (· != c)).foldl (fun a k => a + (s.reserve k - s.inUse k)) 0
    < 65536 - s.xtr.ctxs.length)

/-- Entries of ring `r` that the host has posted and Zwiuc has not fetched. -/
def State.unfetched (s : State) (r : Nat) : Nat :=
  idxDiff (s.zget (ZR.PIDX.INDEX.hring r)) (s.zget (ZR.CIDX.INDEX.hring r))

/-- One entry of ring `r` has been read. -/
def State.consume (s : State) (r : Nat) : State :=
  s.zput (ZR.CIDX.INDEX.hring r) (s.zget (ZR.CIDX.INDEX.hring r) + 1)

/-! ### Runs and frames of the buffer (R203, R211, R212) -/

/-- The run that RUN_ID 0xFFFF names: the run in progress, or the last one stopped. -/
def State.currentRun (s : State) : Option Nat := if s.run.epoch.isSome then some s.run.id else none

/-- The run is in progress. -/
def State.runIsOn (s : State) (id : Nat) : Bool := s.run.active && s.run.id == id

/-- The run is in the buffer: in progress, or with an unexpired or a pinned directory entry. -/
def State.runKnown (s : State) (id : Nat) : Bool :=
  s.runIsOn id || (s.runEntries id).any (fun e => !e.expired) || s.buf.pdir.any fun x => x.2.runId == id

/-- The last frame of a run that has been stopped, where it is known. -/
def State.lastFrame (s : State) (id : Nat) : Option Nat :=
  if s.run.epoch.isSome ∧ s.run.id = id then s.run.last
  else (s.runEntries id).reverse.findSome? fun e => if e.runEnd then some e.endAt else none

/-- The spindle time of the epoch of a run. -/
def State.epochOf (s : State) (id : Nat) : Nat :=
  if s.run.id = id then s.epochTime
  else ((s.runEntries id).getLast?.map (fun e => e.time - e.first * 4096 * tickUnits)).getD
    ((s.buf.pdir.find? fun x => x.2.runId == id).elim 0 fun x => x.2.time - x.2.first * 4096 * tickUnits)

/-- Where a touched frame stands (R212). -/
inductive FramePlace where
  | expired
  | beyond
  | at_ (line : Nat × Nat) (pinned : Bool)
  deriving DecidableEq, Repr

/-- The pinned directory is searched first, then the directory; headers are walked from the start of the run. -/
def State.framePlace (s : State) (id f : Nat) : FramePlace :=
  if (s.lastFrame id).elim false fun l => decide (l < f) then .beyond
  else
    match s.findPinned id f with
    | some e => .at_ (s.frameAt (e.billet, e.line) (f - e.first)) true
    | none =>
      match s.findFrame id f with
      | some e => if e.expired then .expired else .at_ (s.frameAt (e.billet, e.line) (f - e.first)) false
      | none => .expired

/-! ### The extraction stream (R216) -/

/-- First and last touched frame. -/
def Ctx.first (c : Ctx) : Nat := c.wstart / 4096
def Ctx.lastTick (c : Ctx) : Nat := c.wstart + c.len - 1
def Ctx.last (c : Ctx) : Nat := c.lastTick / 4096
def Ctx.frames (c : Ctx) : List Nat := (List.range (c.last + 1 - c.first)).map (· + c.first)

/-- A spindle time as sub-ns fraction (2 bytes), nanoseconds (4) and seconds (6) (R13, R216). -/
def timeBytes (t : Nat) : List Byte :=
  leBytes (t % 2 ^ 32 / 65536) 2 ++ leBytes (t / 2 ^ 32 % 1000000000) 4 ++ leBytes (t / 2 ^ 32 / 1000000000) 6

/-- The stream header. -/
def Ctx.header (c : Ctx) : List Byte :=
  leBytes c.tag 4 ++ leBytes c.runId 2 ++ [b8 (c.cls + 4 * b2n c.ring), 1] ++ leBytes c.wstart 8 ++ leBytes c.len 4
    ++ leBytes c.ports 2 ++ timeBytes (c.epoch + c.wstart * tickUnits) ++ [0, 0] ++ leBytes (c.last + 1 - c.first) 4
    ++ List.replicate 8 0

/-- A port sub-section: sub-header, records, zero halfwords to 8 bytes. -/
def SubSec.bytes (x : SubSec) : List Byte :=
  let n := x.hws.length
  [b8 x.port, b8 (b2n x.poison + 2 * b2n x.carved), 0, 0] ++ leBytes n 4 ++ halvesBytes x.hws
    ++ List.replicate (2 * ((4 - n % 4) % 4)) 0

/-- A section; `q` sets QRESET. -/
def Section.bytes (x : Section) (q : Bool) : List Byte :=
  leBytes x.frame 5 ++ [0] ++ leBytes (x.flags ||| (if q then 1024 else 0)) 2 ++ leBytes x.present 2 ++ leBytes x.missing 2
    ++ leBytes x.damaged 2 ++ leBytes x.late 2 ++ x.subs.flatMap SubSec.bytes

/-- Cut halfwords into records; what is left over at the end stands as one item. -/
def splitRecs : Nat → List Nat → List (List Nat)
  | 0, _ => []
  | _, [] => []
  | n + 1, h :: t =>
    match recLen (h :: t) with
    | some k => if k ≤ (h :: t).length then (h :: t).take k :: splitRecs n ((h :: t).drop k) else [h :: t]
    | none => [h :: t]

def recKind (r : List Nat) : Nat := r.headD 0 / 4096

/-- The records hold a SHAVING marker. -/
def hasMarker (hws : List Nat) : Bool := (splitRecs (hws.length + 1) hws).any fun r => recKind r == 2

/-- The expired and beyond flags of SFLAGS. -/
def sfExpired : Nat := 1
def sfBeyond : Nat := 2
def sfPoison : Nat := 4
def sfSkipped : Nat := 512

/-- A section enters the stream, and counts for the completion (R223, R224). -/
def Ctx.append (c : Ctx) (x : Section) : Ctx :=
  let exp := bitAt x.flags 0
  let bey := bitAt x.flags 1
  let pres : Bool := !exp && !bey
  let r := c.ready ++ x.bytes c.qmark
  { c with ready := r, hdrs := c.hdrs ++ [c.ready.length], ends := c.ends ++ [r.length], qmark := false,
           nsect := c.nsect + 1, nexp := c.nexp + b2n exp, nbey := c.nbey + b2n bey,
           present := c.present ||| x.present, incomplete := c.incomplete ||| x.missing ||| x.damaged,
           poison := c.poison || bitAt x.flags 2, skipped := c.skipped || bitAt x.flags 9,
           shaved := c.shaved || x.subs.any (fun y => hasMarker y.hws),
           clipped := c.clipped && (if pres then x.pinned else !exp || !x.pinned) }

/-- Sections whose turn has come enter the stream, in ascending frame number. -/
def Ctx.assemble (c : Ctx) : Nat → Ctx
  | 0 => c
  | n + 1 =>
    match c.secs with
    | x :: rest =>
      if x.frame = c.next ∧ x.stage = .done then
        Ctx.assemble { (c.append x) with secs := rest, next := c.next + 1, complete := decide (c.last < c.next + 1) } n
      else c
    | [] => c

/-- Every frame has its section, in the stream or before it. -/
def Ctx.allRead (c : Ctx) : Bool := decide (c.next + c.secs.length = c.last + 1)

/-- All bytes of the stream have been written and its buffers returned. -/
def Ctx.delivered (c : Ctx) : Bool := c.pushed && c.granted && c.dma == [] && c.buf.isNone && !c.sep

/-- The state that the context is in (R206); LOOKUP and WAIT are left where R210 says. -/
def Ctx.place (c : Ctx) : Ctx :=
  if c.status.isSome then { c with phase := .held }
  else
    match c.phase with
    | .lookup => c
    | .wait => c
    | _ => { c with phase := if ¬ c.allRead then .read else if ¬ c.complete then .carve else if c.comp ∧ ¬ c.zdone then .compress
                             else if ¬ c.delivered then .output else .held }

/-- Bring the stream and the state of context `n` up to date. -/
def State.settleCtx (s : State) (n : Nat) : State := s.updCtx n fun c => (c.assemble (c.secs.length + 1)).place

/-! ### Requests (R202 to R205) -/

/-- A request enters its context: R203, and the run of the window. -/
def State.startCtx (s : State) (c : Ctx) (bad : Bool) : State :=
  let refuse (st : Nat) : Ctx := { c with status := some st, phase := .held }
  let d : Ctx :=
    if bad ∨ c.len = 0 ∨ 1048576 < c.len ∨ c.ports = 0 ∨ (¬ c.comp ∧ c.level ≠ 0) then refuse 3
    else
      match (if c.runId = 0xFFFF then s.currentRun else some c.runId) with
      | none => refuse 1
      | some id => if s.runKnown id then { c with runId := id } else refuse 1
  s.updXtr fun x => { x with ctxs := x.ctxs ++ [d] }

/-- A TRIG entry as a context with number `num`, and whether a reserved bit is set (R202). -/
def trigCtx (num r : Nat) (e : List Byte) (fetched : Nat) : Ctx × Bool :=
  let len := leNat (slice e 8 4)
  let cv := byteAt e 14
  let cp := byteAt e 15
  let opt := byteAt e 22
  ({ num := num, order := r, cls := r, ring := false, tag := leNat (slice e 16 4), wstart := leNat (slice e 0 8),
     len := len % 2 ^ 21, ports := leNat (slice e 12 2), carve := cv % 128, comp := bitAt cp 3, level := cp % 8, aux := bitAt opt 0,
     nowait := bitAt opt 1, runId := leNat (slice e 20 2), phase := .lookup, fetched := some fetched },
   decide (2 ^ 21 ≤ len) || bitAt cv 7 || decide (16 ≤ cp) || decide (4 ≤ opt) || (slice e 23 9).any (· != 0))

/-- Fetch entries of TRIG ring `r` while contexts may be taken; `num` is the context that each entry takes. -/
def State.trigEntries (s : State) (r : Nat) : List (Fin 65536 × List Byte) → State
  | [] => s
  | (n, e) :: rest =>
    if s.unfetched (r + 1) ≠ 0 ∧ s.mayTake r ∧ (s.ctx? n.val).isNone then
      let x := trigCtx n r e s.xtr.fetched
      (((s.consume (r + 1)).startCtx x.1 x.2).updXtr fun y => { y with fetched := y.fetched + 1 }).trigEntries r rest
    else s

/-- R209: TRIG ring `r` is served when no ring before it can be; a batch has at most 16 entries. -/
def State.trigFetch (s : State) (r : Fin 4) (es : List (Fin 65536 × List Byte)) : State :=
  let open_ (k : Nat) : Bool := s.ringUp (k + 1) && s.unfetched (k + 1) != 0 && s.mayTake k
  if open_ r ∧ ¬ (List.range r).any open_ then (s.trigEntries r (es.take 16)).shadow else s

/-- Restore WSTART from its low 48 bits: within 2⁴⁷ ticks of the current tick (R204). -/
def restore48 (now t : Nat) : Nat :=
  let b := now / 2 ^ 48 * 2 ^ 48 + t
  if b + 2 ^ 47 < now then b + 2 ^ 48 else if now + 2 ^ 47 < b ∧ 2 ^ 48 ≤ b then b - 2 ^ 48 else b

/-- While a gate is enabled, a ring TRIG whose WSTART lies in no enabled gate open to its class is gated (R308). -/
def State.gated (s : State) (w cls : Nat) : Bool :=
  let g (f : Field) (k : Nat) : Nat := s.zget (f.at (16 * k))
  let on := (List.range 8).filter fun k => g Z.RING_GATEk_1.EN k == 1
  on != [] && !on.any fun k =>
    g (if cls = 0 then Z.RING_GATEk_1.CLASS0 else Z.RING_GATEk_1.CLASS1) k == 1
      && decide (restore48 s.nowTick (g Z.RING_GATEk.START_LO k + 2 ^ 32 * g Z.RING_GATEk_1.START_HI k) ≤ w)
      && decide (w ≤ restore48 s.nowTick (g Z.RING_GATEk_2.END_LO k + 2 ^ 32 * g Z.RING_GATEk_3.END_HI k))

/-- A ring TRIG message is accepted, ignored or refused (R204, R205, R251): `num` is the context that it takes. -/
def State.ringTrig (s : State) (num : Fin 65536) (pl : List Byte) : State :=
  if s.zget Z.XTR_CFG.RING_EN = 0 then s
  else
    let sc := byteAt pl 1
    let cls := sc / 64 % 2
    let lp := beNat (slice pl 8 3)
    let w := restore48 s.nowTick (beNat (slice pl 2 6))
    let k := lp / 2 ^ 20
    if s.zget (ZR.CFG.EN.hring 6) = 0 ∨ ¬ s.mayTake cls ∨ (s.ctx? num.val).isSome then
      let s := s.zbump Z.XTR_REFUSED.COUNT 1
      let s := ((s.zput Z.XTR_LASTREF.WSTART w).zput Z.XTR_LASTREF2.LENM1 lp).zput Z.XTR_LASTREF2.SRC (sc % 64)
      (s.zput Z.XTR_LASTREF2.CLASS cls).raise 516 (leBytes (w % 2 ^ 64) 8 ++ leBytes (lp % 2 ^ 20) 3 ++ [b8 (sc % 128)])
    else if s.gated w cls then s.zbump Z.RING_GATED.COUNT 1
    else
      let prof (f : Field) : Nat := s.zget (f.at (4 * k))
      s.startCtx { num := num, order := 4, cls := cls, ring := true, tag := beNat (slice pl 13 3), wstart := w, len := lp % 2 ^ 20 + 1,
                   ports := beNat (slice pl 11 2), carve := prof Z.XTR_PROFk.CARVE, comp := prof Z.XTR_PROFk.COMP_EN == 1,
                   level := prof Z.XTR_PROFk.LEVEL, aux := prof Z.XTR_PROFk.AUX == 1, nowait := false, runId := 0xFFFF,
                   phase := .lookup } (bitAt sc 7)

/-! ### Look-up and waiting (R210, R211) -/

/-- The context goes to READ: its frames are looked up, and the stream header is built. -/
def State.toRead (s : State) (n : Nat) : State :=
  (s.updCtx n fun c =>
    let live := c.frames.filter fun f => match s.framePlace c.runId f with
      | .at_ _ _ => true
      | _ => false
    let c : Ctx := { c with phase := .read, since := s.time, live := live, next := c.first, epoch := s.epochOf c.runId }
    { c with ready := c.header }).settleCtx n

/-- The last frame that the window waits for: no frame beyond the last of a run that is to stop (R227). -/
def State.needed (s : State) (c : Ctx) : Nat := min c.last (s.run.last.getD c.last)

/-- A context leaves LOOKUP. -/
def State.lookup (s : State) (n : Nat) : State :=
  match s.ctx? n with
  | some c =>
    if c.phase ≠ .lookup then s
    else if ¬ s.runIsOn c.runId ∨ s.needed c < s.mNext then s.toRead n
    else if ¬ c.nowait ∧ (s.epochTime : Int) + ((c.lastTick : Int) - 12800000) * tickUnits ≤ s.time then
      s.updCtx n fun c => { c with phase := .wait, waited := true }
    else s.updCtx n fun c => { c with phase := .held, status := some 2 }
  | none => s

/-- CONTEXT_WAIT_END (R210): contexts whose window is merged, or whose run is over, go on. -/
def State.wakeWaiting (s : State) : State :=
  (s.xtr.ctxs.filter fun c => c.phase == .wait && (!s.runIsOn c.runId || decide (s.needed c < s.mNext))).foldl
    (fun s c => s.toRead c.num) s

/-! ### Reads (R213 to R215, R225) -/

/-- Read `n` lines from `x` on. -/
def State.readRun (s : State) (x : Nat × Nat) : Nat → (List Byte × Bool) × State
  | 0 => (([], false), s)
  | n + 1 =>
    let r := s.readEvent (lineAddr x)
    let q := r.2.readRun (r.2.stepLines x.1 x.2 1) n
    ((r.1.1 ++ q.1.1, r.1.2 || q.1.2), q.2)

/-- The record is selected by the window (R213, R214). -/
def Ctx.selects (c : Ctx) (f : Nat) (r : List Nat) : Bool :=
  let k := recKind r
  if k = 0 then false
  else if k = 1 then
    let t := f * 4096 + bits (recVal (r.take 4)) 30 12
    decide (c.wstart ≤ t ∧ t ≤ c.lastTick)
  else k == 2 || k == 3 || c.aux

/-- Records without the BLANK padding at the end. -/
def dropPad (rs : List (List Nat)) : List (List Nat) := (rs.reverse.dropWhile fun r => r == [0]).reverse

/-- A segment as read, with its POISON mark, as the sub-section of port `p` for context `c`. -/
def Ctx.subOf (c : Ctx) (f p : Nat) (seg : List Byte × Bool) : SubSec :=
  let hws := bytesHalves seg.1
  let rs := splitRecs (hws.length + 1) hws
  if seg.2 then { port := p, poison := true, hws := (dropPad rs).flatten }
  else { port := p, poison := false, hws := (rs.filter fun r => c.selects f r).flatten }

/-- The section that a header and its segments give context `c`; a poisoned header marks the section (R215). -/
def Ctx.sectionOf (c : Ctx) (f : Nat) (hdr : List Byte × Bool) (segs : List (Nat × List Byte × Bool)) (pinned : Bool) : Section :=
  let h (i : Nat) : Nat := leNat (slice hdr.1 i 2)
  let pres := h 20 &&& c.ports
  let subs := (segs.filter fun x => bitAt pres x.1).map fun x => c.subOf f x.1 x.2
  let fl := h 6
  let flags := 8 * b2n (bitAt fl 4) + 16 * b2n (bitAt fl 5) + 32 * b2n (bitAt fl 3) + 64 * b2n (bitAt fl 2)
    + 128 * b2n (bitAt fl 7) + 256 * b2n (bitAt fl 1) + sfPoison * b2n (hdr.2 || subs.any (·.poison))
  { frame := f, flags := flags, present := pres, missing := (h 24 &&& (0xFFFF - h 20)) &&& c.ports, damaged := h 26 &&& c.ports,
    late := h 22 &&& c.ports, subs := subs, pinned := pinned,
    stage := if c.carve ≠ 0 ∧ subs.any (fun x => !x.poison) then .carve else .done }

/-- A section without content. -/
def emptySection (f flags : Nat) (pinned : Bool) : Section := { frame := f, flags := flags, pinned := pinned }

/-- Put a section among the others, in ascending frame number. -/
def putSection (x : Section) : List Section → List Section
  | [] => [x]
  | y :: t => if x.frame < y.frame then x :: y :: t else y :: putSection x t

/-- The context still needs a section of frame `f`. -/
def Ctx.needs (c : Ctx) (f : Nat) : Bool :=
  c.phase == .read && decide (c.next ≤ f ∧ f ≤ c.last) && !c.secs.any fun x => x.frame == f

/-- Class order, then arrival order, with the class-3 rule of R219: among waiting (class, since) pairs in arrival order, the index of
the next one, and whether the rule chose it. -/
def pickNext (now turn : Nat) (ws : List (Nat × Nat)) : Option (Nat × Bool) :=
  let low := ws.foldl (fun a w => min a w.1) 4
  let old := ws.findIdx? fun w => w.1 == 3
  match old with
  | some i =>
    if low < 3 ∧ (ws.getD i (0, now)).2 + 100000 * nsUnits < now ∧ 15 ≤ turn then some (i, true)
    else (ws.findIdx? fun w => w.1 == low).map fun i => (i, false)
  | none => (ws.findIdx? fun w => w.1 == low).map fun i => (i, false)

/-- The grants since class 3 was last served, after a grant to class `c`: they count while a class-3 item is overdue. -/
def nextTurn (now turn c : Nat) (ws : List (Nat × Nat)) : Nat :=
  if c = 3 then 0
  else if ws.any (fun w => w.1 == 3 && decide (w.2 + 100000 * nsUnits < now)) then min 15 (turn + 1) else 0

/-- The contexts in READ, in arrival order. -/
def State.readers (s : State) : List Ctx := s.xtr.ctxs.filter fun c => c.phase == .read

/-- Give context `c` its section. -/
def State.giveSection (s : State) (n : Nat) (x : Section) : State :=
  (s.updCtx n fun c => { c with secs := putSection x c.secs }).settleCtx n

/-- Read the header of the frame at `x` and the segments of those of `ports` that are present; the bytes are counted once. -/
def State.readFrame (s : State) (x : Nat × Nat) (ports : Nat) :
    ((List Byte × Bool) × List (Nat × List Byte × Bool)) × State :=
  let hd := s.readRun x 2
  let want := (leNat (slice hd.1.1 20 2)) &&& ports
  let r := ((List.range 16).filter fun p => bitAt want p).foldl (fun (a : List (Nat × List Byte × Bool) × State) p =>
    let o := leNat (slice hd.1.1 (64 + 4 * p) 2)
    let n := leNat (slice hd.1.1 (66 + 4 * p) 2)
    let q := a.2.readRun (a.2.stepLines x.1 x.2 (2 + o)) n
    (a.1 ++ [(p, q.1)], q.2)) ([], hd.2)
  let lines := 2 + r.1.foldl (fun a y => a + y.2.1.length / 64) 0
  ((hd.1, r.1), r.2.zwrap Z.XTR_RBYTES.BYTES (64 * lines))

/-- SEGMENT_READ (R225): the header and the segments of a frame are read for the context whose turn it is, and serve every context in
READ that needs that frame. -/
def State.segmentRead (s : State) : State :=
  let rs := s.readers
  let ws := rs.map fun c => (c.cls, c.since)
  match pickNext s.time s.xtr.readTurn ws with
  | none => s
  | some (i, _) =>
    match rs[i]? with
    | none => s
    | some c =>
      match c.frames.find? fun f => c.needs f with
      | none => s
      | some f =>
        let s := s.updXtr fun x => { x with readTurn := nextTurn s.time x.readTurn c.cls ws }
        let users := rs.filter fun d => d.runId == c.runId && d.needs f
        match s.framePlace c.runId f with
        | .beyond => users.foldl (fun s d => s.giveSection d.num (emptySection f sfBeyond false)) s
        | .expired =>
          let s := if users.any fun d => d.live.contains f then s.zbump Z.BUF_DIRCNT.GENMISS 1 else s
          users.foldl (fun s d => s.giveSection d.num (emptySection f sfExpired false)) s
        | .at_ x pinned =>
          let r := s.readFrame x (users.foldl (fun a d => a ||| d.ports) 0)
          users.foldl (fun s d => s.giveSection d.num (d.sectionOf f r.1.1 r.1.2 pinned)) r.2

/-! ### The output priority queue (R219, R220) -/

/-- Drop the first `n` bytes of the stream held, with the offsets in it. -/
def Ctx.advance (c : Ctx) (n : Nat) : Ctx :=
  { c with ready := c.ready.drop n, hdrs := (c.hdrs.filter fun o => decide (n ≤ o)).map (· - n),
           ends := (c.ends.filter fun o => decide (n < o)).map (· - n) }

/-- The next chunk of a stream: its bytes, whether it is the last, and the context behind it. -/
def Ctx.nextChunk (c : Ctx) : Option (List Byte × Bool × Ctx) :=
  if c.pushed ∨ c.status.isSome then none
  else if c.comp then
    let n := c.zbits.length
    if 32768 < n ∨ (n = 32768 ∧ ¬ c.zdone) then
      some (bitBytes (c.zbits.take 32768) 4096, false, { c with zbits := c.zbits.drop 32768, zflush := c.zflush && n != 32768 })
    else if c.zdone then
      some (bitBytes c.zbits 4096, true, { c with zbits := [], pushed := true, zs := none, zflush := false,
                                                  endBits := (n + 7) % 8 + 1 })
    else if c.zflush ∧ 8 ≤ n then some (bitBytes c.zbits 4096, false, { c with zbits := [], zflush := false })
    else none
  else if 4096 < c.ready.length then some (c.ready.take 4096, false, c.advance 4096)
  else if c.complete then some (c.ready, true, { (c.advance c.ready.length) with pushed := true, endBits := 8 })
  else none

/-- A chunk of context `n` enters the queue, which has room for 2,048. -/
def State.chunkPush (s : State) (n : Nat) : State :=
  match s.ctx? n with
  | some c =>
    match c.nextChunk with
    | some (bs, last, c') =>
      if s.xtr.queue.length < 2048 then
        let s := s.updCtx n fun _ => c'
        let s := if c.comp then s.zwrap Z.COMP_OUT.BYTES bs.length else s
        (s.updXtr fun x => { x with queue := x.queue ++ [(⟨n, bs, s.time, last⟩ : Chunk)] }).settleCtx n
      else s
    | none => s
  | none => s

/-- The buffer in use goes back with what it holds. -/
def Ctx.giveBack (c : Ctx) (last : Bool) : Ctx :=
  match c.buf with
  | some b => { c with buf := none, nbuf := c.nbuf + 1, rets := c.rets ++ [(⟨b.id, b.used, b.seq, last, false⟩ : BufRet)] }
  | none => c

/-- DMA writes what it holds for context `n` into the buffer in use; a full buffer, and the one with the last byte, go back. -/
def State.pour (s : State) (n : Nat) : State :=
  match s.ctx? n with
  | some c =>
    match c.buf with
    | some b =>
      let k := min c.dma.length (b.size - b.used)
      let rest := c.dma.drop k
      let s := if k = 0 then s else (s.emit (.hostWrite (b.addr + b.used) (c.dma.take k))).zwrap Z.XTR_DBYTES.BYTES k
      let isOver : Bool := c.granted && rest == []
      (s.updCtx n fun c =>
        let c : Ctx := { c with dma := rest, bytes := c.bytes + k, buf := some { b with used := b.used + k } }
        if b.used + k = b.size ∨ isOver then c.giveBack isOver else c).settleCtx n
    | none => s
  | none => s

/-- The chunks that can be granted: their streams do not wait for a buffer. -/
def State.grantable (s : State) : List Chunk :=
  s.xtr.queue.filter fun k => (s.ctx? k.ctx).elim false fun c => c.dma == [] && !c.sep

/-- Remove the first chunk of context `n` from the queue. -/
def dropChunk (n : Nat) : List Chunk → List Chunk
  | [] => []
  | k :: t => if k.ctx = n then t else k :: dropChunk n t

/-- OUTPUT_CHUNK_GRANT (R219). -/
def State.chunkGrant (s : State) : State :=
  if ¬ s.dmaOk then s
  else
    let ks := s.grantable
    let ws := ks.map fun k => ((s.ctx? k.ctx).elim 0 (·.cls), k.time)
    match pickNext s.time s.xtr.turn ws with
    | none => s
    | some (i, rule) =>
      match ks[i]? with
      | none => s
      | some k =>
        let cls := (ws.getD i (0, 0)).1
        let s := if rule then s.zbump Z.XTR_OQ.STARVE 1 else s
        let s := s.updXtr fun x => { x with queue := dropChunk k.ctx x.queue, turn := nextTurn s.time x.turn cls ws }
        (s.updCtx k.ctx fun c => { c with dma := k.bytes, granted := k.last }).pour k.ctx

/-- The marker of R220, in Pelnos byte order. -/
def qresetMarker : List Byte := halvesBytes (halves (zMarker 0 mkQreset 0 0xFFFF 0) 4)

/-- Set QRESET in the section header at offset `o` of a stream. -/
def setQreset (bs : List Byte) (o : Nat) : List Byte := bs.set (o + 7) (bs.getD (o + 7) 0 ||| 4#8)

/-- A context has lost chunks (R220, R261). -/
def Ctx.lost (c : Ctx) : Ctx :=
  let c : Ctx := match c.hdrs with
    | o :: _ => { c with ready := setQreset c.ready o }
    | [] => { c with qmark := true }
  let c : Ctx := { c with qreset := true, shaved := true, pushed := false, granted := false }
  if c.comp then
    { (c.giveBack false) with
      dma := [], sep := true, zdone := false, zflush := false, raw := true, hist := qresetMarker.reverse,
      zbits := lsbBits ([0x00, 0x08, 0x00, 0xF7, 0xFF] ++ qresetMarker) }
  else { c with ready := qresetMarker ++ c.ready, hdrs := c.hdrs.map (· + 8), ends := c.ends.map (· + 8) }

/-- OUTPUT_QUEUE_PTR_RESET (R220). -/
def State.outqReset (s : State) : State :=
  let hit := (s.xtr.queue.map (·.ctx)).dedup
  let s := (s.updXtr fun x => { x with queue := [] }).zbump Z.XTR_QRESET.COUNT 1
  let s := hit.foldl (fun s n => (s.updCtx n Ctx.lost).settleCtx n) s
  s.raise 529 (leBytes hit.length 3)

/-! ### Buffers (R239 to R241) -/

/-- The stream needs a buffer. -/
def Ctx.starved (c : Ctx) : Bool := c.buf.isNone && (c.dma != [] || c.sep)

/-- A BUFQ entry keeps the rules of R239. -/
def bufqOk (e : List Byte) : Bool :=
  let size := leNat (slice e 8 4)
  leNat (slice e 0 8) % 4096 == 0 && size % 4096 == 0 && decide (4096 ≤ size ∧ size ≤ 2097152) && (slice e 16 16).all (· == 0)

/-- BUFQ_TAKE (R239): the stream of context `n` takes the next entry `e`. -/
def State.bufqTake (s : State) (n : Nat) (e : List Byte) : State :=
  match s.ctx? n with
  | some c =>
    if c.starved ∧ s.ringUp 5 ∧ s.unfetched 5 ≠ 0 then
      let s := s.updHost fun h => { h with starved := false }
      let s := (s.consume 5).shadow
      let id := leNat (slice e 12 4)
      if ¬ bufqOk e then
        s.updCtx n fun c => { c with rets := c.rets ++ [(⟨id, 0, c.seq, false, true⟩ : BufRet)] }
      else if c.sep then
        s.updCtx n fun c => { c with sep := false, seq := c.seq + 1, nbuf := c.nbuf + 1,
                                     rets := c.rets ++ [(⟨id, 0, c.seq, false, false⟩ : BufRet)] }
      else
        (s.updCtx n fun c => { c with seq := c.seq + 1, buf := some (⟨leNat (slice e 0 8), leNat (slice e 8 4), id, 0, c.seq⟩ : HostBuf) }).pour n
    else s
  | none => s

/-- A BUF entry (R240) without PHASE. -/
def Ctx.bufEntry (c : Ctx) (r : BufRet) : List Byte :=
  leBytes c.tag 4 ++ leBytes r.id 4 ++ leBytes r.used 4 ++ leBytes r.seq 2 ++ [b8 (b2n r.last + 2 * b2n r.bad), 0]
    ++ leBytes c.num 2 ++ List.replicate 12 0 ++ [b8 (1 + 16 * c.order)]

/-- BUF_ENTRY_WRITE (R241): the oldest returned buffer of context `n` goes to CMPL. -/
def State.bufEntryWrite (s : State) (n : Nat) : State :=
  match s.ctx? n with
  | some c =>
    match c.rets with
    | r :: rest =>
      if s.ringRoom 6 then ((s.updCtx n fun c => { c with rets := rest }).settleCtx n).cmplPut (c.bufEntry r) else s
    | [] => s
  | none => s

/-! ### Completions (R221 to R224) -/

/-- STATUS (R222). -/
def Ctx.finalStatus (c : Ctx) : Nat :=
  c.status.getD (if c.nexp + c.nbey < c.nsect then 0 else if c.nbey ≠ 0 then 4 else 1)

/-- FLAGS (R223, R224). -/
def Ctx.finalFlags (c : Ctx) : Nat :=
  let some_ : Bool := c.nexp != 0 && decide (c.nexp + c.nbey < c.nsect)
  b2n (c.incomplete != 0) + 2 * b2n c.poison + 4 * b2n (some_ && c.clipped) + 8 * b2n c.raw + 16 * b2n c.skipped
    + 32 * b2n some_ + 64 * b2n (c.nbey != 0) + 128 * b2n c.shaved + 256 * b2n c.waited + 512 * b2n c.qreset

/-- An XTR entry (R240) without PHASE. -/
def Ctx.xtrEntry (c : Ctx) : List Byte :=
  leBytes c.tag 4 ++ leBytes (c.first % 2 ^ 40) 5 ++ [b8 (c.cls + 4 * b2n c.ring)] ++ leBytes c.finalFlags 2 ++ leBytes c.present 2
    ++ leBytes c.incomplete 2 ++ leBytes (c.nsect % 512 + 512 * (c.nexp % 512) + 2 ^ 18 * (c.nbey % 512)) 4
    ++ leBytes (min c.bytes (2 ^ 32 - 1)) 4 ++ leBytes c.num 2 ++ leBytes c.nbuf 2
    ++ [b8 c.finalStatus, b8 (if c.bytes = 0 then 0 else c.endBits), b8 (2 + 16 * c.order)]

/-- The context has finished: its STATUS is decided and there is no stream, or its stream is in host memory with its BUF entries
written. -/
def Ctx.finished (c : Ctx) : Bool := c.rets == [] && (c.status.isSome || (c.complete && c.delivered))

/-- XTR_COMPLETION_WRITE (R221): the oldest context of an order stream, once finished, is reported and freed. -/
def State.xtrComplete (s : State) (o : Nat) : State :=
  match s.xtr.ctxs.find? fun c => c.order == o with
  | some c =>
    if c.finished ∧ s.ringRoom 6 then
      let s := s.cmplPut c.xtrEntry
      let s := s.updXtr fun x => { x with ctxs := x.ctxs.filter fun d => d.num != c.num }
      let s := s.zbump (Z.XTR_CNTc.COUNT.at (4 * c.cls)) 1
      let st := c.finalStatus
      if st = 1 ∨ st = 4 then s.zbump Z.XTR_STATUSCNT.EXPIRED 1
      else if st = 2 ∨ st = 3 then s.zbump Z.XTR_STATUSCNT.REJECTED 1 else s
    else s
  | none => s

/-! ### The meanings -/

/-- TRIG_FETCH (R208, R209): entries of TRIG ring `r` are read from host memory, each with the context that it takes. -/
def execTrigFetch (r : Fin 4) (es : List (Fin 65536 × List Byte)) (s : State) : Result := .next (s.trigFetch r es)

/-- CONTEXT_LOOKUP (R210, R211). -/
def execContextLookup (c : Fin 65536) (s : State) : Result := .next (s.lookup c)

/-- SEGMENT_READ (R225, R212 to R215). -/
def execSegmentRead (s : State) : Result := .next s.segmentRead

/-- OUTPUT_CHUNK_PUSH (R219). -/
def execOutputChunkPush (c : Fin 65536) (s : State) : Result := .next (s.chunkPush c)

/-- OUTPUT_CHUNK_GRANT (R219). -/
def execOutputChunkGrant (s : State) : Result := .next s.chunkGrant

/-- OUTPUT_QUEUE_PTR_RESET (R220, R261). -/
def execOutputQueuePtrReset (s : State) : Result := .next s.outqReset

/-- BUFQ_TAKE (R239): `entry` is what host memory holds. -/
def execBufqTake (c : Fin 65536) (entry : List Byte) (s : State) : Result := .next (s.bufqTake c entry)

/-- BUF_ENTRY_WRITE (R241). -/
def execBufEntryWrite (c : Fin 65536) (s : State) : Result := .next (s.bufEntryWrite c)

/-- XTR_COMPLETION_WRITE (R221). -/
def execXtrCompletionWrite (order : Fin 5) (s : State) : Result := .next (s.xtrComplete order)

end Sys2Proof.Machine
end

