-- ==== Sys2Proof/Machine/Engine.lean ====
section
/-!
DEFINITION. Gouge engines beside their instructions (spec/12): states, memories (R270 to R272, R277), faults and the work of an engine
that stops (R289, R290), messages (R280 to R285), carving (R217, R282), loading (R286, R287).
Choices of the model: log entry 18 (DEDUCED).
-/

namespace Sys2Proof.Machine

/-! ### Engines -/

/-- STATE codes (R271). -/
def engOff : Nat := 0
def engEmpty : Nat := 1
def engLoaded : Nat := 2
def engRunning : Nat := 3
def engHalted : Nat := 4
def engFaulted : Nat := 5

def State.eng (s : State) (e : Nat) : Engine := Tab.get {} s.engines e
def State.updEng (s : State) (e : Nat) (f : Engine → Engine) : State := s.updEngines fun t => Tab.upd {} t e f
def State.engState (s : State) (e : Nat) : Nat := s.zget (ZE.STAT.STATE.geng e)
def State.engRole (s : State) (e : Nat) : Nat := s.zget (ZE.STAT.ROLE.geng e)
def State.engProg (s : State) (e : Nat) : Nat := s.zget (ZE.STAT.PROG.geng e)

def State.gcl (s : State) (n : Nat) : GclSt := Tab.get {} s.gcls n
def State.updGcl (s : State) (n : Nat) (f : GclSt → GclSt) : State := s.updGcls fun t => Tab.upd {} t n f

/-- The cluster clock is stopped: its engines stall (R292, R335, R339). -/
def State.gclStopped (s : State) (n : Nat) : Bool :=
  let g := s.gcl n
  g.tripped || g.phase == .relockUp || g.phase == .relockDown

/-- The engine issues instructions: RUNNING, its clock going, not waiting in YIELD. -/
def State.engReady (s : State) (e : Nat) : Bool :=
  s.engState e == engRunning && !s.gclStopped (e / 24) && !(s.eng e).yielded

/-! ### Registers and memories (R272, R277) -/

/-- Register `r`: g0 reads as zero. -/
def Engine.reg (x : Engine) (r : Reg) : Word := Tab.get 0 x.regs r.val

/-- Write register `r`: a write to g0 is discarded. -/
def Engine.setReg (x : Engine) (r : Reg) (v : Word) : Engine :=
  if r = 0 then x else { x with regs := Tab.set 0 x.regs r.val v }

/-- The word of instruction memory at the PC. -/
def Engine.fetch (x : Engine) : Word := Tab.get 0 x.imem (x.pc / 4)

/-- An address is in the cluster-shared memory. -/
def isShared (a : Word) : Bool := bitAt a.toNat 20

/-- The byte of data or shared memory at address `a` of engine `e`. -/
def State.ebyte (s : State) (e : Nat) (a : Word) : Byte :=
  if isShared a then Tab.get 0 s.shm (e / 24 * 2 ^ 20 + a.toNat % 2 ^ 20) else Tab.get 0 (s.eng e).dmem (a.toNat % 2 ^ 17)

/-- Write that byte. -/
def State.setEbyte (s : State) (e : Nat) (a : Word) (b : Byte) : State :=
  if isShared a then s.updShm fun t => Tab.set 0 t (e / 24 * 2 ^ 20 + a.toNat % 2 ^ 20) b
  else s.updEng e fun x => { x with dmem := Tab.set 0 x.dmem (a.toNat % 2 ^ 17) b }

/-- `n` bytes from `a` on, as a little-endian number. -/
def State.eload (s : State) (e : Nat) (a : Word) (n : Nat) : Nat :=
  leNat ((List.range n).map fun i => s.ebyte e (a + BitVec.ofNat 32 i))

/-- Store the low `n` bytes of `v` at `a`. -/
def State.estore (s : State) (e : Nat) (a : Word) (n v : Nat) : State :=
  (leBytes v n).zipIdx.foldl (fun s x => s.setEbyte e (a + BitVec.ofNat 32 x.2) x.1) s

/-! ### Events (R297) -/

/-- Raise engine event `kind`. -/
def State.engEvent (s : State) (e kind sev : Nat) (detail : List Byte) : State := s.raiseSev (416 + e) sev ([b8 kind] ++ detail)

/-! ### Sections (R217, R282, R290) -/

/-- The section of frame `f` of context `n` changes. -/
def State.updSection (s : State) (n f : Nat) (g : Section → Section) : State :=
  (s.updCtx n fun c => { c with secs := c.secs.map fun (x : Section) => if x.frame = f then g x else x }).settleCtx n

/-- The section passes as it was before carving, with CARVE_SKIPPED. -/
def Section.skip (x : Section) : Section := { x with flags := x.flags ||| sfSkipped, stage := .done }

/-- The section is read and selected again and passes uncarved; a frame that has expired makes it EXPIRED (R290). -/
def State.passAgain (s : State) (n f : Nat) : State :=
  match s.ctx? n with
  | none => s
  | some c =>
    match s.framePlace c.runId f with
    | .at_ x pinned =>
      let r := s.readFrame x c.ports
      r.2.updSection n f fun _ => (c.sectionOf f r.1.1 r.1.2 pinned).skip
    | _ => s.updSection n f fun _ => emptySection f sfExpired false

/-- Engines that run CARVE program `p`, and those of them that wait for a message. -/
def State.carvers (s : State) (p : Nat) : List Nat :=
  (List.range 96).filter fun e => s.engState e == engRunning && s.engRole e == 0 && s.engProg e == p

def State.idleCarvers (s : State) (p : Nat) : List Nat := (s.carvers p).filter fun e => (s.eng e).cur.isNone

/-- Sections that wait for a program which no engine runs any more pass with CARVE_SKIPPED at once (R290). -/
def State.passWaiting (s : State) (p : Nat) : State :=
  if s.carvers p ≠ [] then s
  else
    s.xtr.ctxs.foldl (fun s c =>
      if c.carve ≠ p then s
      else (c.secs.filter fun x => x.stage == .carve).foldl (fun s x => s.updSection c.num x.frame Section.skip) s) s

/-! ### Stopping (R287, R289, R290) -/

/-- The work of engine `e` ends: a CARVE section passes uncarved; the message in progress and the queue of another role are dropped. -/
def State.dropWork (s : State) (e : Nat) : State :=
  let job := (s.eng e).cur.bind (·.job)
  let s := (s.updEng e fun x => { x with cur := none, inq := [], out := [], opened := false, ended := false, yielded := false }).zput
    (ZE.STAT.MSG_OPEN.geng e) 0
  let s := match job with
    | some j => (s.zbump (ZE.SKIP.COUNT.geng e) 1).passAgain j.ctx j.frame
    | none => s
  if s.engRole e = 0 then s.passWaiting (s.engProg e) else s

/-- The engine faults (R289): code `code`, FINFO `info`. -/
def State.engFault (s : State) (e code info : Nat) : State :=
  let x := s.eng e
  let frame := x.cur.elim 0 (·.frame)
  let s := ((s.zput (ZE.STAT.STATE.geng e) engFaulted).zput (ZE.FPC.PC.geng e) x.pc).zput (ZE.FINFO.INFO.geng e) info
  let s := s.zput (ZE.STAT.FAULT.geng e) code
  let s := s.engEvent e 2 sevError ([b8 code] ++ leBytes x.pc 2 ++ leBytes info 4 ++ leBytes frame 4)
  s.dropWork e

/-- The engine stops without a fault: HALT or ENGINE_STOP; FPC names the next instruction. -/
def State.engHalt (s : State) (e : Nat) : State :=
  let s := ((s.zput (ZE.STAT.STATE.geng e) engHalted).zput (ZE.FPC.PC.geng e) (s.eng e).pc).zput (ZE.STAT.FAULT.geng e) 0
  s.dropWork e

/-- ENGINE_START of one engine (R272). -/
def State.engStart (s : State) (e : Nat) : State :=
  if s.engState e = engRunning then s
  else
    (s.updEng e fun x => { x with pc := 0, regs := Tab.set 0 (Tab.set 0 [] 1 (BitVec.ofNat 32 e)) 2 (BitVec.ofNat 32 (s.engRole e)),
                                  cur := none, inq := [], out := [], opened := false, ended := false, yielded := false, frame := 0 }).zput
      (ZE.STAT.STATE.geng e) engRunning

/-! ### Messages (R280 to R284) -/

/-- Items of the input: V, SUB, DESC on a halfword, and EOM on the last item. -/
def itemOf (sub desc : Bool) (h : Nat) : Nat := h % 65536 + 2 ^ 16 + 2 ^ 17 * b2n sub + 2 ^ 19 * b2n desc

def withEom : List Nat → List Nat
  | [] => []
  | [x] => [x + 2 ^ 18]
  | x :: t => x :: withEom t

/-- The sub-header items of port `p` with flags and length. -/
def subItems (p flags hw : Nat) : List Nat := [p + 256 * flags, 0, hw % 65536, hw / 65536].map (itemOf true false)

/-- A message becomes the current one. -/
def Engine.open_ (x : Engine) (m : EngMsg) : Engine :=
  { x with cur := some m, frame := m.frame, yielded := false, out := [], opened := false, ended := false }

/-- A message reaches engine `e`: it becomes current when there is none, else it waits. -/
def State.engDeliver (s : State) (e : Nat) (m : EngMsg) : State :=
  let s := s.zwrap (ZC.FEED.HALFWORDS.gcl (e / 24)) m.items.length
  if (s.eng e).cur.isNone then (s.updEng e fun x => x.open_ m).zput (ZE.STAT.MSG_OPEN.geng e) 1
  else s.updEng e fun x => { x with inq := x.inq ++ [m] }

/-- The current message is released; the next one becomes current, or the engine waits in YIELD. -/
def State.engRelease (s : State) (e : Nat) : State :=
  let s := if (s.eng e).cur.isSome then s.zbump (ZE.MSGS.COUNT.geng e) 1 else s
  match (s.eng e).inq with
  | m :: rest => (s.updEng e fun x => { (x.open_ m) with inq := rest }).zput (ZE.STAT.MSG_OPEN.geng e) 1
  | [] =>
    (s.updEng e fun x => { x with cur := none, out := [], opened := false, ended := false, yielded := true }).zput
      (ZE.STAT.MSG_OPEN.geng e) 0

/-! ### Carving (R282) -/

/-- The message of a section for a CARVE engine: the sub-sections that carry no POISON. -/
def carveMsg (n : Nat) (x : Section) : EngMsg :=
  let subs := x.subs.filter fun y => !y.poison
  let items := withEom (subs.flatMap fun y => subItems y.port 0 y.hws.length ++ y.hws.map (itemOf false false))
  { items := items, size := items.length, frame := x.frame, job := some ⟨n, x.frame⟩, ports := subs.map (·.port) }

/-- The next engine of the program in ascending number after the one chosen last. -/
def nextEngine (es : List Nat) (last : Option Nat) : Option Nat :=
  match last with
  | none => es.head?
  | some l => (es.find? fun e => decide (l < e)).or es.head?

/-- CARVE_DISPATCH: the section of frame `f` of context `n` goes to an engine, waits, or passes. -/
def State.carveDispatch (s : State) (n f : Nat) : State :=
  match s.ctx? n with
  | none => s
  | some c =>
    match c.secs.find? fun x => x.frame == f && x.stage == .carve with
    | none => s
    | some x =>
      if s.carvers c.carve = [] then s.updSection n f Section.skip
      else
        let last := Tab.get 0 s.xtr.chosen c.carve
        match nextEngine (s.idleCarvers c.carve) (if last = 0 then none else some (last - 1)) with
        | none => s
        | some e =>
          let s := s.updXtr fun y => { y with chosen := Tab.set 0 y.chosen c.carve (e + 1) }
          let s := s.updSection n f fun y => { y with stage := .engine e }
          s.engDeliver e (carveMsg n x)

/-- The sub-sections of a CARVE output: each begins with 4 SUB halfwords, of which the first names the port. -/
def carveOut : List Nat → Nat → List (Nat × List Nat)
  | _, 0 => []
  | a :: _ :: _ :: _ :: t, n + 1 =>
    let recs := t.takeWhile fun x => !bitAt x 17
    (a % 256, recs.map (· % 65536)) :: carveOut (t.drop recs.length) n
  | _, _ => []

/-- The section rebuilt from an output: POISON sub-sections stand as they were, a port without output has HW 0. -/
def Section.carved (x : Section) (out : List (Nat × List Nat)) : Section :=
  { x with stage := .done, subs := x.subs.map fun (y : SubSec) =>
      if y.poison then y
      else { y with carved := true, hws := ((out.find? fun o => o.1 == y.port).map (·.2)).getD [] } }

/-- CARVE_SECTION_DONE: the ended output of engine `e` becomes its section; a section is rebuilt once. -/
def State.carveDone (s : State) (e : Nat) : State :=
  let x := s.eng e
  match x.cur with
  | some m =>
    match m.job with
    | some j =>
      if x.ended then
        (s.updSection j.ctx j.frame fun y => y.carved (carveOut x.out x.out.length)).updEng e fun x =>
          { x with cur := some { m with job := none } }
      else s
    | none => s
  | none => s

/-! ### The feed of PRIMITIVE and HISTO engines (R283, R284) -/

/-- Halfwords in an engine's input queue, and the space: 136 of the 8,192 are for descriptors, sub-headers and markers. -/
def Engine.queued (x : Engine) : Nat := x.cur.elim 0 (fun m => m.items.length) + x.inq.foldl (fun a m => a + m.items.length) 0
def feedSpace : Nat := 8192
def feedRecords : Nat := 8056

/-- A committed merged frame, as the merge copy shows it. -/
structure FrameView where
  frame : Nat
  flags : Nat
  present : Nat
  missing : Nat
  damaged : Nat
  /-- Segments: port and records. -/
  segs : List (Nat × List (List Nat))

/-- What an engine's filter leaves of a record; none: nothing. -/
def filtered (kinds : Nat) (headsOnly : Bool) (r : List Nat) : Option (List Nat) :=
  let k := recKind r
  if 1 ≤ k ∧ k ≤ 7 ∧ bitAt kinds (k - 1) then some (if k = 1 ∧ headsOnly then r.take 4 else r) else none

/-- The records of a port sub-section that find room, and the marker of those that do not: occupancy, items, pixel-hits dropped and the
COARSE of the first. -/
def feedPort (kinds : Nat) (headsOnly : Bool) : List (List Nat) → Nat → List Nat → Option (Nat × Nat) → List Nat × Option (Nat × Nat)
  | [], _, acc, drop => (acc, drop)
  | r :: t, occ, acc, drop =>
    match filtered kinds headsOnly r with
    | none => feedPort kinds headsOnly t occ acc drop
    | some d =>
      if occ + d.length ≤ feedRecords ∧ drop.isNone then feedPort kinds headsOnly t (occ + d.length) (acc ++ d) drop
      else
        let k := recKind r
        let v := recVal (r.take 4)
        let coarse := if k = 1 then bits v 30 12 else if k = 2 then bits v 40 12 else 0
        feedPort kinds headsOnly t occ acc (some (match drop with
          | some (n, co) => (addHits n (recHits k v), co)
          | none => (min 0xFFFF (recHits k v), coarse)))

/-- Offer a frame to engine `e`. -/
def State.feedEngine (s : State) (fv : FrameView) (e : Nat) : State :=
  let n := max 1 (s.zget (ZE.DIV.N.geng e))
  if s.engState e ≠ engRunning ∨ s.engRole e = 0 ∨ fv.frame % n ≠ s.zget (ZE.DIV.K.geng e) then s
  else
    let ports := s.zget (ZE.FILT.PORTS.geng e)
    let kinds := s.zget (ZE.FILT.KINDS.geng e)
    let ho := s.zget (ZE.FILT.HEADS_ONLY.geng e) == 1
    let segs := fv.segs.filter fun x => bitAt ports x.1
    let occ := (s.eng e).queued
    if feedSpace < occ + 8 + 8 * segs.length then s.zbump (ZE.FEED.SKIPPED.geng e) 1
    else
      let desc := [fv.frame % 65536, fv.frame / 65536 % 65536, fv.frame / 2 ^ 32 % 256, fv.present &&& ports, fv.missing &&& ports,
        fv.damaged &&& ports, fv.flags, 0].map (itemOf true true)
      let r := segs.foldl (fun (a : List Nat × Nat) x =>
        let q := feedPort kinds ho x.2 (occ + a.1.length + 4) [] none
        let mark := q.2.elim [] fun d => (halves (zMarker (Fin.ofNat 16 x.1) mkQueue d.2 d.1 0) 4).map (itemOf false false)
        (a.1 ++ subItems x.1 0 0 ++ q.1.map (itemOf false false) ++ mark, addHits a.2 (q.2.elim 0 (·.1)))) (desc, 0)
      let items := withEom r.1
      let s := s.zbump (ZE.FEED.DROPPED.geng e) r.2
      s.engDeliver e { items := items, size := items.length, frame := fv.frame }

/-- ENGINE_FRAME_FEED (R283): a committed frame is offered to every engine. -/
def State.feedEngines (s : State) (fv : FrameView) : State := (List.range 96).foldl (fun s e => s.feedEngine fv e) s

/-- ENGINE_FEED_PTR_RESET (R284): the queue empties and the message in progress ends with a QRESET marker. -/
def State.feedReset (s : State) (e : Nat) : State :=
  if s.engRole e = 0 ∨ s.engState e ≠ engRunning then s
  else
    let mark := withEom ((halves (zMarker 0 mkQreset 0 0xFFFF 0) 4).map (itemOf false false))
    (s.updEng e fun x => { x with inq := [], cur := x.cur.map fun (m : EngMsg) => { m with items := mark } }).zbump
      (ZE.FEED.DROPPED.geng e) 0xFFFF

/-! ### Images (R286, R287) -/

/-- The parts of an image that keeps the rules: role, instruction words, data, shared offset and bytes, WD_LOG2, OUT_EXTRA. -/
structure EngImage where
  role : Nat
  words : List Word
  data : List Byte
  soff : Nat
  shared : List Byte
  wd : Nat
  extra : Nat
  deriving DecidableEq, Repr

/-- The little-endian words of bytes. -/
def leWords : List Byte → List Nat
  | a :: b :: c :: d :: t => leNat [a, b, c, d] :: leWords t
  | _ => []

/-- Read an image (R286); none when it breaks a rule. -/
def parseImage (role : Nat) (bs : List Byte) : Option EngImage :=
  let w (i : Nat) : Nat := leNat (slice bs i 4)
  let ilen := w 8
  let dlen := w 12
  let soff := w 16
  let slen := w 20
  let wd := byteAt bs 24
  let sum := (leWords (bs.take 28 ++ bs.drop 32)).foldl (· + ·) 0
  if slice bs 0 4 = [0x47, 0x4F, 0x55, 0x47] ∧ byteAt bs 4 = 1 ∧ byteAt bs 5 = role ∧ leNat (slice bs 6 2) = 0
      ∧ 4 ≤ ilen ∧ ilen ≤ 32768 ∧ ilen % 4 = 0 ∧ dlen ≤ 131072 ∧ dlen % 4 = 0 ∧ soff % 4 = 0 ∧ slen % 4 = 0
      ∧ soff + slen ≤ 1048576 ∧ (wd = 0 ∨ (10 ≤ wd ∧ wd ≤ 31)) ∧ byteAt bs 25 = 0 ∧ w 28 = sum % 2 ^ 32
      ∧ bs.length = 32 + ilen + dlen + slen ∧ bs.length ≤ 524288 then
    some { role := role, words := (leWords (slice bs 32 ilen)).map (BitVec.ofNat 32), data := slice bs (32 + ilen) dlen, soff := soff,
           shared := slice bs (32 + ilen + dlen) slen, wd := wd, extra := leNat (slice bs 26 2) }
  else none

/-- A table of the listed values from key `k` on, without those that are the default. -/
def tabOf {α : Type} [DecidableEq α] (d : α) (k : Nat) : List α → Tab α
  | [] => []
  | v :: t => if v = d then tabOf d (k + 1) t else (k, v) :: tabOf d (k + 1) t

/-- The HALT word, which fills instruction memory beyond the image. -/
def haltWord : Word := 0xDC000000#32

/-- Load one engine. -/
def State.engLoad (s : State) (e prog : Nat) (m : EngImage) : State :=
  let words := m.words ++ List.replicate (8192 - m.words.length) haltWord
  let s := s.updEng e fun x =>
    { x with imem := tabOf 0 0 words, dmem := tabOf 0 0 m.data, cur := none, inq := [], out := [], opened := false, ended := false,
             yielded := false }
  let s := ((s.zput (ZE.STAT.ROLE.geng e) m.role).zput (ZE.STAT.PROG.geng e) prog).zput (ZE.WD.LOG2.geng e) m.wd
  (s.zput (ZE.OUTLIM.EXTRA.geng e) m.extra).zput (ZE.STAT.STATE.geng e) engLoaded

/-- Load the named engines of cluster `c`, and the shared image once. -/
def State.engLoadAll (s : State) (c prog : Nat) (es : List Nat) (m : EngImage) : State :=
  let s := es.foldl (fun s e => s.engLoad e prog m) s
  m.shared.zipIdx.foldl (fun (s : State) x => s.updShm fun t => Tab.set 0 t (c * 2 ^ 20 + m.soff + x.2) x.1) s

/-- The engines that a mask names in cluster `c`. -/
def engMask (c mask : Nat) : List Nat := ((List.range 24).filter fun i => bitAt mask i).map (· + 24 * c)

/-! ### OFF (R293) -/

/-- A write of CTL.OFF: refused while RUNNING, and out of OFF while the cluster's gate is off (R338). -/
def State.engOffWrite (s : State) (e : Nat) (off : Bool) : State :=
  let was := s.zget (ZE.CTL.OFF.geng e) == 1
  if off = was then s
  else if off then
    if s.engState e = engRunning then s.zput (ZE.CTL.REFUSED.geng e) 1
    else
      let s := (((s.updEng e fun _ => {}).zput (ZE.CTL.OFF.geng e) 1).zput (ZE.STAT.STATE.geng e) engOff).zput (ZE.STAT.PROG.geng e) 0
      s.zput (ZE.STAT.ROLE.geng e) 0
  else if s.zget (ZC.CTL.EN.gcl (e / 24)) = 0 then s.raise 539 (leBytes (ZE.CTL.OFF.geng e).off 4 ++ [0])
  else (s.zput (ZE.CTL.OFF.geng e) 0).zput (ZE.STAT.STATE.geng e) engEmpty

/-! ### The meanings -/

/-- CARVE_DISPATCH (R282, R217). -/
def execCarveDispatch (c : Fin 65536) (frame : Fin 1099511627776) (s : State) : Result := .next (s.carveDispatch c frame)

/-- CARVE_SECTION_DONE (R282). -/
def execCarveSectionDone (e : Eng) (s : State) : Result := .next (s.carveDone e)

/-- ENGINE_FEED_PTR_RESET (R284). -/
def execEngineFeedPtrReset (e : Eng) (s : State) : Result := .next (s.feedReset e)

/-- ENGINE_OFF_WRITE (R293). -/
def execEngineOffWrite (e : Eng) (off : Bool) (s : State) : Result :=
  .next (s.bar0 fun s =>
    s.engOffWrite e off)

/-- WATCHDOG_EXPIRY (R291): the count of the watchdog has reached its limit. -/
def execWatchdogExpiry (e : Eng) (s : State) : Result :=
  .next (
    let l := s.zget (ZE.WD.LOG2.geng e)
    if l = 0 ∨ s.engState e ≠ engRunning ∨ (s.eng e).yielded then s else s.engFault e 4 (2 ^ max 10 l))

end Sys2Proof.Machine
end

