-- ==== Sys2Proof/Machine/Integrity.lean ====
section
/-!
DEFINITION. Buffer integrity: line reads with metadata repair (R183, R197), partial writes (R184), scrubbing (R187 to R190),
migration (R193), stacks leaving service (R195), freezes (R196).
Choices of the model: log entry 10 (DEDUCED).
-/

namespace Sys2Proof.Machine

/-- The upsets strike a page. -/
def State.upsets (s : State) (ch page : Nat) (us : List Upset) : State := us.foldl (fun s u => s.upset ch page u) s

/-! ### Metadata pages (R155, R197) -/

/-- The logical offset of line `i` of metadata page `page` of channel `ch`. -/
def metaOffset (ch page i : Nat) : Nat := 64 * (((page - 0x1FE000) * 32 + i) * 4 + ch % 4)

/-- A stack in service, other than `n`, whose copy of the page decodes. -/
def State.goodCopy (s : State) (ch page : Nat) : Option Nat :=
  (List.range 8).find? fun n => n != ch / 4 && s.inService n && (decodePage (s.pageDamage (4 * n + ch % 4) page)).isSome

/-- Runs that a lost directory entry lists are expired and forced. -/
def State.loseDir (s : State) (k : Nat) : State := if (Tab.get {} s.buf.dir k).valid then s.expireSlot k true else s

/-- Page-state bits of index `i` are rewritten as zero and the page is set RESCRUB. -/
def State.losePage (s : State) (i : Nat) : State :=
  let s := s.updBuf fun b => { b with page := Tab.set 0 b.page i 2#2 }
  s.zput Z.INT_CNT.POISONED (sat 16 (Tab.count (fun _ w => w.getLsbD 0) s.buf.page))

/-- The content at logical offset `o`, one line, is lost in every copy. -/
def State.loseLine (s : State) (o : Nat) : State :=
  if o < 0x800000 then (s.loseDir (o / 32)).loseDir (o / 32 + 1)
  else if o < 0x900000 then
    let k := (o - 0x800000) / 32
    s.updBuf fun b => { b with pdir := b.pdir.zipIdx.map fun x =>
      if x.2 = k ∨ x.2 = k + 1 then (x.1.1, { x.1.2 with expired := true, forced := true }) else x.1 }
  else if o < 0xA00000 then s.updBuf fun b => { b with pinLost := true }
  else if o < 0x1A00000 then
    (List.range 8).foldl (fun s i =>
      let b := (o - 0xA00000) / 8 + i
      if b < billetCount then s.updBillet b fun x => { x with lost := true } else s) s
  else if o < 0x2A00000 then
    (List.range 256).foldl (fun s i =>
      let k := (o - 0x1A00000) * 4 + i
      if k < 63160320 then s.losePage k else s) s
  else if o < 0x3A00000 then
    let r := (o - 0x2A00000) % 0x100000
    let p := (o - 0x2A00000) / 0x100000
    if r < 0x80000 then
      (List.range 32).foldl (fun s i =>
        s.updBuf fun b => { b with golden := Tab.set (some 0x0030#16) b.golden (p * 262144 + r / 2 + i) none }) s
    else s
  else if o < 0x3B00000 then s.updBuf fun b => { b with stageLost := true }
  else s

/-- META_REPAIR: 0 REPAIRED, 1 LOST (an error). -/
def State.metaEvent (s : State) (n o lost : Nat) : State :=
  s.raiseSev (320 + 12 * n + 10) (if lost = 1 then sevError else sevWarn) (leBytes o 4 ++ [b8 lost])

/-- Line `i` of a metadata page is uncorrectable: with no good copy its content is lost. -/
def State.metaLineLost (s : State) (ch page i : Nat) : State :=
  if (s.goodCopy ch page).isSome then s
  else (s.loseLine (metaOffset ch page i)).metaEvent (ch / 4) (metaOffset ch page i) 1

/-- Clear the damage of every line of a page, as a rewrite does. -/
def State.cleanPage (s : State) (ch page : Nat) : State :=
  (List.range 34).foldl (fun s i => (List.range 64).foldl (fun s j => s.setDamage ch (pageAddr page i + j) 0) s) s

/-- The repair of an uncorrectable metadata page (R197). -/
def State.metaRepair (s : State) (ch page : Nat) : State :=
  match s.goodCopy ch page with
  | some n =>
    let s := s.zwrap (ZS.RBYTES.BYTES.stack n) 2048
    let s := (s.cleanPage ch page).zwrap (ZS.WBYTES.BYTES.stack (ch / 4)) 2176
    let s := s.setPageBits ch page (s.pageBits ch page &&& 2#2)
    (s.zbump Z.INT_CNT.META_REPAIR 1).metaEvent (ch / 4) (metaOffset ch page 0) 0
  | none =>
    let bad := ((s.pageDamage ch page).filter fun d => decide (d.1 < 32)).map (·.1)
    bad.dedup.foldl (fun s i => s.metaLineLost ch page i) s

/-- DRAM_LINE_READ (R183): a line is read, delivered, and a metadata line that cannot be corrected is taken from another copy or
lost (R197). -/
def State.lineRead (s : State) (ch l : Nat) (us : List Upset) : State :=
  let page := l / 2048
  let s := s.touchKept.upsets ch page us
  let r := s.readLine ch l
  let t := r.2.emit (.line ch l r.1.1 r.1.2)
  if isMetaPage page ∧ (decodePage (s.pageDamage ch page)).isNone
      ∧ (s.lineDamage ch page (l % 2048 / 64)).any (fun d => oddMask d.2) then t.metaLineLost ch page (l % 2048 / 64)
  else t

/-! ### Partial writes (R184) -/

/-- Add data error `e` to a check byte as the controller writes it back, with fresh parity. -/
def freshMask (m : BitVec 9) (e : Nat) : BitVec 9 := evenMask (m.toNat % 256 ^^^ e)

/-- Store one byte of a partial write: contents new, damage gone. -/
def State.storeByte (s : State) (ch l : Nat) (b : Byte) : State :=
  (s.updBuf fun x => { x with mem := Tab.set 0 x.mem (oldKey ch l) b }).setDamage ch l 0

/-- The line's bytes from column `col`, each with its column. -/
def byteCols (bytes : List Byte) (col : Nat) : List (Nat × Byte) := bytes.zipIdx.map fun x => (col + x.2, x.1)

/-- A byte of an unflagged line is written and P and Q follow by delta: an undetected error of the old byte stays in them. -/
def State.deltaByte (s : State) (ch page i : Nat) (x : Nat × Byte) : State :=
  let e := (s.damage ch (pageAddr page i + x.1)).toNat % 256
  let p := pageAddr page 32 + x.1
  let q := pageAddr page 33 + x.1
  let s := s.setDamage ch p (freshMask (s.damage ch p) e)
  let s := s.setDamage ch q (freshMask (s.damage ch q) (gfMul e (gfPow (codePos i))))
  s.storeByte ch (pageAddr page i + x.1) x.2

/-- A byte is written into a page that does not decode: P and Q keep standing for the old byte. -/
def State.rawByte (s : State) (ch page i : Nat) (x : Nat × Byte) : State :=
  let l := pageAddr page i + x.1
  let d := (s.memByte ch l ^^^ x.2).toNat
  let p := pageAddr page 32 + x.1
  let q := pageAddr page 33 + x.1
  let s := s.setDamage ch p (s.damage ch p ^^^ evenMask d)
  let s := s.setDamage ch q (s.damage ch q ^^^ evenMask (gfMul d (gfPow (codePos i))))
  s.storeByte ch l x.2

/-- Take the corrections out of a page: each corrected byte is written back with fresh parity. -/
def State.correct (s : State) (ch page : Nat) (cs : List (Nat × Nat × Nat)) : State :=
  cs.foldl (fun s c =>
    let l := pageAddr page c.1 + c.2.1
    s.setDamage ch l (freshMask (s.damage ch l) c.2.2)) s

/-- Count the corrections of a decode. -/
def State.countAll (s : State) (ch page : Nat) (cs : List (Nat × Nat × Nat)) : State :=
  cs.foldl (fun s c => s.countCorrection ch (pageAddr page c.1 + c.2.1) c.2.2) s

/-- A write of fewer than 64 bytes or into a sealed page: `bytes` from address `l`, within one line. -/
def State.partialWrite (s : State) (ch l : Nat) (bytes : List Byte) : State :=
  let page := l / 2048
  let i := l % 2048 / 64
  let xs := byteCols (bytes.take (64 - l % 64)) (l % 64)
  let n := ch / 4
  let count (s : State) (r w : Nat) : State := (s.zwrap (ZS.RBYTES.BYTES.stack n) r).zwrap (ZS.WBYTES.BYTES.stack n) w
  if ¬ (s.lineDamage ch page i).any fun d => oddMask d.2 then
    count (xs.foldl (fun s x => s.deltaByte ch page i x) s) 192 192
  else
    let ds := (s.pageDamage ch page).filter fun d => !(d.1 == i && xs.any fun x => x.1 == d.2.1)
    match decodePage ds with
    | some cs =>
      let lines := ([i, 32, 33] ++ cs.map fun c => c.1).dedup.length
      let s := (s.countAll ch page cs).correct ch page cs
      let s := xs.foldl (fun s x => s.storeByte ch (pageAddr page i + x.1) x.2) s
      let s := (List.range 64).foldl (fun s j =>
        (s.setDamage ch (pageAddr page 32 + j) 0).setDamage ch (pageAddr page 33 + j) 0) s
      count s 2176 (64 * lines)
    | none =>
      let s := xs.foldl (fun s x => s.rawByte ch page i x) s
      (count s 2176 64).uncorrectable ch l 1 ds

/-! ### Scrubbing (R187 to R190) -/

/-- The billet that holds event page `page` of channel `ch`: the one among the billets whose lines map there. -/
def State.pageBillets (s : State) (ch page : Nat) : List Nat :=
  let k4 := page * 2048 / 65536
  ((List.range 4).flatMap fun k => (List.range 8).map fun j => (4 * k4 + k) * 8 + j).filter fun b =>
    (List.range 256).any fun i =>
      let x := s.place (b * 65536 + 256 * i)
      x.1 == ch && x.2 / 2048 == page

/-- The walk visits the page: not open, not in a billet never written, not a POISONED event page, and the scrubber runs. -/
def State.scrubs (s : State) (ch page : Nat) : Bool :=
  let n := ch / 4
  s.zget Z.SCRUB_CFG.MBPS != 0 && s.zget Z.SCRUB_POS.PAUSED == 0 && s.inService n && !bitAt (s.zget Z.BUF_STAT.SKIPPED) n
    && s.zget Z.BUF_STAT.PASR == 0 && s.zget (chanF ZS.CHSTATc.SLICE n (ch % 4)) == 0 && !s.openPage ch page
    && (if isEventPage page then !s.poisoned ch page && (s.pageBillets ch page).any fun b => (s.billet b).gen != 0
        else isMetaPage page)

/-- A corrected byte that is wrong again at the verify read makes its location hard. -/
def State.verify (s : State) (ch page : Nat) (cs : List (Nat × Nat × Nat)) (us : List Upset) : State :=
  us.foldl (fun s u =>
    match cs.find? fun c => c.1 == u.pos.val && c.2.1 == u.col.val with
    | some c => s.makeHard ch (pageAddr page c.1 + c.2.1) c.2.2
    | none => s) s

/-- One page: decode, write back, verify, or poison and repair; RESCRUB is cleared. -/
def State.scrubPage (s : State) (ch page : Nat) (again : List Upset) : State :=
  let n := ch / 4
  let ds := s.pageDamage ch page
  let s := s.zwrap (ZS.RBYTES.BYTES.stack n) 2176
  let s := s.setPageBits ch page (s.pageBits ch page &&& 1#2)
  match decodePage ds with
  | some cs =>
    let lines := (cs.map fun c => c.1).dedup.length
    let s := (s.countAll ch page cs).correct ch page cs
    let s := (s.zwrap (ZS.WBYTES.BYTES.stack n) (64 * lines)).zwrap (ZS.RBYTES.BYTES.stack n) (64 * lines)
    (s.upsets ch page again).verify ch page cs again
  | none =>
    let s := s.uncorrectable ch (pageAddr page ((ds.headD (0, 0, 0)).1 % 32)) 2 ds
    if isMetaPage page then s.metaRepair ch page else s

/-- A lap ends: its figure, and LAG beyond its limit (R189). -/
def State.lapEnd (s : State) (n : Nat) (prio : Bool) : State :=
  let msOf (t : Nat) : Nat := (s.time - t) / (1000000 * nsUnits)
  if prio then
    let ms := msOf s.buf.prioEnd
    let first : Bool := s.buf.prioEnd == 0
    let s := s.updBuf fun b => { b with prioEnd := s.time }
    if first then s
    else
      let s := s.zput Z.SCRUB_LAP.PRIO (sat 16 ms)
      if 10000 < ms then (s.bgLag 0).raiseStack n 6 ([0, 0xFF] ++ leBytes ms 4) else s
  else
    let ms := msOf s.buf.fullStart
    let s := s.updBuf fun b => { b with fullStart := s.time, fullLap := b.fullLap + 1 }
    let s := s.zput Z.SCRUB_LAP.FULL (sat 16 (ms / 10))
    if 60000 < ms then (s.bgLag 0).raiseStack n 6 ([1, 0xFF] ++ leBytes ms 4) else s

/-! ### Migration (R193) -/

/-- Copy the damage of one 2 KiB block of the old die onto the spare, less the corrections `cs`. -/
def State.copyBlock (s : State) (ch page : Nat) (cs : List (Nat × Nat × Nat)) : State :=
  let fixed (k : Nat) (m : BitVec 9) : BitVec 9 :=
    match cs.find? fun c => c.1 < 32 && oldKey ch (pageAddr page c.1 + c.2.1) == k with
    | some c => freshMask m c.2.2
    | none => m
  let lo := oldKey ch (page * 2048)
  let mine := List.filter (fun e => decide (lo ≤ e.1 ∧ e.1 < lo + 2048)) s.buf.dmg
  let sp := spareKey ch (page * 2048)
  let rest := List.filter (fun e => decide (e.1 < sp ∨ sp + 2048 ≤ e.1)) s.buf.dmg
  let dmg := mine.foldl (fun d e => Tab.set 0 d (sp + (e.1 - lo)) (fixed e.1 e.2)) rest
  s.updBuf fun b => { b with dmg := dmg }

/-- One page of the rank goes to the spare: a flagged page is decoded and copied corrected; an uncorrectable one keeps its failing
parity and is POISONED. -/
def State.migrateOne (s : State) (n : Nat) (us : List Upset) : State :=
  let r := s.zget (ZS.MIG.RANK.stack n)
  let ch := 4 * n + r / 2
  let page := r % 2 * 1048576 + s.zget (ZS.MIG.PAGES.stack n)
  let coded := isEventPage page || isMetaPage page
  let s := if coded then s.upsets ch page us else s
  let s := (s.zwrap (ZS.RBYTES.BYTES.stack n) 2048).zwrap (ZS.WBYTES.BYTES.stack n) 2048
  let ds := s.pageDamage ch page
  let s :=
    if coded ∧ ds.any (fun d => decide (d.1 < 32) && oddMask d.2.2) then
      match decodePage ds with
      | some cs => s.copyBlock ch page cs
      | none => (s.copyBlock ch page []).uncorrectable ch (page * 2048) 3 ds
    else s.copyBlock ch page []
  s.zput (ZS.MIG.PAGES.stack n) (s.zget (ZS.MIG.PAGES.stack n) + 1)

/-- The spare becomes the rank: the old die's contents no longer matter, its hard count and table entries go. -/
def State.migrated (s : State) (n : Nat) : State :=
  let r := s.zget (ZS.MIG.RANK.stack n)
  let ch := 4 * n + r / 2
  let lo := oldKey ch (r % 2 * 2 ^ 31)
  let mine (e : RceEnt) : Bool := e.ch == ch && rankOf ch e.addr == r
  let s := s.updBuf fun b => { b with
    dmg := List.filter (fun e => decide (e.1 < lo ∨ lo + 2 ^ 31 ≤ e.1)) b.dmg,
    rce := List.filter (fun e => !(Option.elim e.2 false mine)) b.rce }
  let s := ((s.zput (ZS.ICTL.SPARE.stack n) 2).zput (ZS.MIG.ACTIVE.stack n) 0).scrubPause
  (s.setHard n r 0).raiseStack n 3 ([b8 r] ++ leBytes ((s.time - (s.stack n).migStart) / (1000000 * nsUnits)) 4)

/-! ### The meanings -/

/-- DRAM_LINE_READ (R183). -/
def execDramLineRead (ch : Fin 32) (line : Fin 67108864) (upsets : List Upset) (s : State) : Result :=
  .next (s.lineRead ch (64 * line) upsets)

/-- SEALED_PAGE_WRITE (R184). -/
def execSealedPageWrite (ch : Fin 32) (addr : Word) (bytes : List Byte) (upsets : List Upset) (s : State) : Result :=
  .next ((s.upsets ch (addr.toNat / 2048) upsets).partialWrite ch addr.toNat bytes)

/-- PRIORITY_WALK_START (R187). -/
def execPriorityWalkStart (s : State) : Result :=
  .next (if (s.buf.prioStart ≠ 0 ∧ s.time < s.buf.prioStart + max 1 (s.zget Z.SCRUB_CFG.PRIO_S) * 1000000000 * nsUnits)
      ∨ s.zget Z.SCRUB_CFG.MBPS = 0 ∨ s.zget Z.SCRUB_POS.PAUSED = 1 ∨ s.zget Z.BUF_STAT.PASR = 1 then s
    else (s.updBuf fun b => { b with prioStart := s.time }).zput Z.SCRUB_POS.PRIO_POS 0)

/-- SCRUB_PAGE_VISIT (R187 to R190): a page of the priority or the full walk; `pos` is the progress of the slowest channel after it,
`lapEnd` says that it ends the lap, `again` which bits the verify read finds turned. -/
def execScrubPageVisit (ch : Fin 32) (page : Fin 2097152) (prio lapEnd : Bool) (pos : Byte) (upsets again : List Upset)
    (s : State) : Result :=
  let s := s.upsets ch page upsets
  .next (if s.scrubs ch page then
      let s := (s.scrubPage ch page again).zput (if prio then Z.SCRUB_POS.PRIO_POS else Z.SCRUB_POS.FULL_POS) pos.toNat
      if lapEnd then s.lapEnd (ch.val / 4) prio else s
    else s)

/-- RETIRE_ORDER (R192, R199). -/
def execRetireOrder (n : Fin 8) (s : State) : Result :=
  .next (s.bar0 fun s =>
    s.retireRank n (s.zget (ZS.ICTL.RANK_SEL.stack n)) 2)

/-- MIGRATION_PAGE_COPY (R193, R194): a copy page that fails on the spare is a second retirement. -/
def execMigrationPageCopy (n : Fin 8) (spareBad : Bool) (upsets : List Upset) (s : State) : Result :=
  .next (if s.zget (ZS.MIG.ACTIVE.stack n) = 1 ∧ s.zget (ZS.MIG.PAGES.stack n) < 1048576 then
      if spareBad then s.stackLoss n 2 (s.zget (ZS.MIG.RANK.stack n)) else s.migrateOne n upsets
    else s)

/-- MIGRATION_COMPLETE (R193). -/
def execMigrationComplete (n : Fin 8) (s : State) : Result :=
  .next (if s.zget (ZS.MIG.ACTIVE.stack n) = 1 ∧ s.zget (ZS.MIG.PAGES.stack n) = 1048576 then s.migrated n else s)

/-- MIGRATION_LAG (R193, R398). -/
def execMigrationLag (n : Fin 8) (s : State) : Result :=
  .next (if s.zget (ZS.MIG.ACTIVE.stack n) = 1 then
      (s.bgLag 2).raiseStack n 6 ([2, b8 (4 * n + s.zget (ZS.MIG.RANK.stack n) / 2)]
        ++ leBytes ((s.time - (s.stack n).migStart) / (1000000 * nsUnits)) 4)
    else s)

/-- STACK_OUT (R195). -/
def execStackOut (n : Fin 8) (s : State) : Result :=
  .next (s.bar0 fun s =>
    s.stackLoss n 1 0xFF)

/-- No billet of the stack holds a line of an unexpired run or is pinned. -/
def State.stackEmpty (s : State) (n : Nat) : Bool :=
  !Tab.any (fun b x => decide (x.pin ≠ 0) && s.billetStack b == n) s.buf.billets
    && !Tab.any (fun _ e => e.valid && !e.expired && (s.entBillets e).any fun b => s.billetStack b == n) s.buf.dir

/-- STACK_POWER_DOWN (R195, R412): the channels that are not frozen go to OFF. -/
def execStackPowerDown (n : Fin 8) (s : State) : Result :=
  .next (if ¬ s.inService n ∧ (s.stack n).ready ∧ s.stackEmpty n then
      (s.chans fun s c => if s.chState n c = chFrozen then s else s.setChState n c chOff).updStack n fun x =>
        { x with off := true }
    else s)

/-- FREEZE_RELEASE (R196): the record of channel SEL is dropped and the channel goes to OFF. -/
def execFreezeRelease (n : Fin 8) (s : State) : Result :=
  let c := s.zget (ZS.FRZ.SEL.stack n)
  let write (f : State → State) : State :=
    if s.zget Z.BOOT_STAT.STAGE = 5 ∧ s.zget Z.CLK_SRC.SAFE ≠ 1 then f s else s.bar0 f
  .next (write fun s => if ((Tab.get none (s.stack n).freeze c)).isSome then
      ((s.updStack n fun x => { x with freeze := Tab.set none x.freeze c none }).zbit (ZS.FRZ.FROZEN.stack n) c false).setChState
        n c chOff
    else s)

/-- RCE_CLEAR (R190, R200). -/
def execRceClear (s : State) : Result :=
  .next (s.bar0 fun s =>
    s.updBuf fun b => { b with rce := Tab.set none b.rce (s.zget Z.RCE_IDX.ENTRY) none })

end Sys2Proof.Machine
end

