-- ==== Sys2Proof/Machine/Pins.lean ====
section
/-!
DEFINITION. Pinning (R165 to R167): the pinned-range table, PIN_CNT, the pinned directory, PIN and UNPIN.
Choices of the model: log entry 21 (DEDUCED).
-/

namespace Sys2Proof.Machine

/-! ### Where the lines of frames lie -/

/-- The lines of the `n` frames whose first header stands at `x`. -/
def State.linesTo (s : State) (x : Nat × Nat) : Nat → Nat
  | 0 => 0
  | n + 1 =>
    let t := max 1 (leNat (slice (s.readEvent (lineAddr x)).1.1 36 4))
    t + s.linesTo (s.stepLines x.1 x.2 t) n

/-- The billets that hold a line of frames `a` to `b` of the run that an entry describes. -/
def State.frameBillets (s : State) (e : DirEnt) (a b : Nat) : List Nat :=
  let o := s.linesTo (e.billet, e.line) (a - e.first)
  let n := o + s.linesTo (s.stepLines e.billet e.line o) (b + 1 - a)
  (s.chain e.billet ((e.line + n + 1023) / 1024)).drop ((e.line + o) / 1024)

/-! ### Limits and counts (R166) -/

/-- Stacks in service. -/
def State.stacksUp (s : State) : Nat := ((List.range 8).filter fun n => s.inService n).length

/-- The most billets that may be pinned, and how many are: those of a stack out of service do not count (R176). -/
def State.pinLimit (s : State) : Nat := 262144 * s.stacksUp / 8
def State.pinned (s : State) : Nat := Tab.count (fun b x => decide (x.pin ≠ 0) && s.inService (s.billetStack b)) s.buf.billets

/-- Pinning the billets `bs` keeps to the limit. -/
def State.pinFits (s : State) (bs : List Nat) : Bool :=
  decide (s.pinned + (bs.filter fun b => (s.billet b).pin == 0).length ≤ s.pinLimit)

/-- One range covers the billets `bs` from now on. -/
def State.addPins (s : State) (bs : List Nat) : State := bs.foldl (fun s b => s.updBillet b fun x => { x with pin := x.pin + 1 }) s

/-- PINNED follows the copies in the pinned directory (R161). -/
def State.flagPinned (s : State) (seq : Nat) : State :=
  let v := s.buf.pdir.any fun x => x.2.seq == seq
  let k := seq % dirSlots
  if (Tab.get {} s.buf.dir k).seq = seq ∧ (Tab.get {} s.buf.dir k).valid then
    s.updBuf fun b => { b with dir := Tab.upd {} b.dir k fun e => { e with pinned := v } }
  else s

/-- A copy of the entry stands in the pinned directory for the range in `slot`. -/
def State.copyEntry (s : State) (slot : Nat) (e : DirEnt) : State :=
  (s.updBuf fun b => { b with pdir := b.pdir.filter (fun x => !(x.1 == slot && x.2.seq == e.seq)) ++ [(slot, e)] }).flagPinned e.seq

/-- The open run's entry has changed: its copies follow. -/
def State.refreshCopies (s : State) (e : DirEnt) : State :=
  s.updBuf fun b => { b with pdir := b.pdir.map fun x => if x.2.seq = e.seq then (x.1, { e with pinned := true }) else x }

def State.updPin (s : State) (slot : Nat) (f : PinRange → PinRange) : State :=
  s.updBuf fun b => { b with pins := Tab.upd none b.pins slot fun r => r.map f }

/-- Frames `a` to `b` of entry `e` are pinned for the range in `slot`. -/
def State.pinFrames (s : State) (slot : Nat) (r : PinRange) (e : DirEnt) (a b : Nat) : State :=
  let bs := ((s.frameBillets e a b).filter fun x => x ∉ r.billets).dedup
  let s := (s.addPins bs).copyEntry slot { e with pinned := true }
  s.updPin slot fun r => { r with billets := r.billets ++ bs, got := some (match r.got with
    | some g => (g.1, b)
    | none => (a, b)) }

/-! ### Completion (R166, R242) -/

/-- First and last frame pinned, and SLOT. -/
def pinData (slot : Nat) (g : Nat × Nat) : List Byte := leBytes g.1 5 ++ leBytes g.2 5 ++ [b8 slot]

/-- The slot is free again. -/
def State.freeSlot (s : State) (slot : Nat) : State :=
  match Tab.get none s.buf.pins slot with
  | none => s
  | some r =>
    let seqs := (s.buf.pdir.filter fun x => x.1 == slot).map (·.2.seq)
    let s := r.billets.foldl (fun s b => s.updBillet b fun x => { x with pin := x.pin - 1 }) s
    let s := s.updBuf fun b => { b with pins := Tab.set none b.pins slot none, pdir := b.pdir.filter fun x => !(x.1 == slot) }
    seqs.foldl (fun s q => s.flagPinned q) s

/-- The PIN of the range in `slot` completes: OK, with CLIPPED where the range was cut, or REFUSED with nothing pinned. -/
def State.endPin (s : State) (slot : Nat) (clipped : Bool) : State :=
  match Tab.get none s.buf.pins slot with
  | none => s
  | some r =>
    match r.cmd with
    | none => s
    | some id =>
      match r.got with
      | none => (s.freeSlot slot).finish id resRefused []
      | some g =>
        let s := s.updPin slot fun r => { r with cmd := none, clipped := clipped, first := g.1, last := g.2 }
        (s.updCmd id fun c => { c with cflags := c.cflags ||| (if clipped then 2 else 0) }).finish id resOk (pinData slot g)

/-- Frame `f` of the run in progress has been committed with entry `e`: pending ranges that cover it take it in, or are clipped at the
limit; a range whose end it is completes. -/
def State.pinCommitted (s : State) (f : Nat) (e : DirEnt) : State :=
  (List.range 64).foldl (fun s slot =>
    match Tab.get none s.buf.pins slot with
    | none => s
    | some r =>
      if r.cmd.isNone ∨ r.runId ≠ e.runId ∨ f < r.first ∨ r.last < f then s
      else
        let bs := (s.frameBillets e f f).filter fun x => x ∉ r.billets
        if s.pinFits bs then
          let s := s.pinFrames slot r e f f
          if r.last ≤ f then s.endPin slot r.clipped else s
        else s.endPin slot true) s

/-- The run ends: ranges that wait for later frames are clipped (R166). -/
def State.clipPins (s : State) (id : Nat) : State :=
  (List.range 64).foldl (fun s slot =>
    match Tab.get none s.buf.pins slot with
    | none => s
    | some r => if r.cmd.isSome ∧ r.runId = id then s.endPin slot true else s) s

/-! ### PIN and UNPIN (R165, R167, R242) -/

/-- The frames `f1` to `f2` of run `id` that survive, by entry: unexpired runs of the directory, and what other ranges have pinned. -/
def State.survivors (s : State) (id f1 f2 : Nat) : List (DirEnt × Nat × Nat) :=
  let cut (e : DirEnt) (lo hi : Nat) : Option (DirEnt × Nat × Nat) :=
    let a := max f1 (max lo e.first)
    let b := min f2 (min hi (e.first + e.frames - 1))
    if e.frames = 0 ∨ b < a then none else some (e, a, b)
  let live := (s.runEntries id).filter fun e => !e.expired
  let kept := s.buf.pdir.filterMap fun x =>
    if x.2.runId ≠ id ∨ live.any (fun e => e.seq == x.2.seq) then none
    else ((Tab.get none s.buf.pins x.1).bind fun r => r.got).bind fun g => cut x.2 g.1 g.2
  (live.filterMap (fun e => cut e 0 f2) ++ kept).insertionSort fun a b => a.2.1 ≤ b.2.1

/-- The frames of the range that have been written are pinned: all together, or none. -/
def State.pinWritten (s : State) (slot : Nat) (es : List (DirEnt × Nat × Nat)) : State :=
  es.foldl (fun s e => match Tab.get none s.buf.pins slot with
    | some r => s.pinFrames slot r e.1 e.2.1 e.2.2
    | none => s) s

/-- A PIN executes: its number, TSTART, TEND and RUN_ID. -/
def State.pin (s : State) (id tstart tend run : Nat) : State :=
  match if run = 0xFFFF then s.currentRun else some run with
  | none => s.finish id resRefused []
  | some run =>
    if tend < tstart then s.finish id resParam []
    else if (s.time : Int) + 12800000 * tickUnits < (s.epochOf run : Int) + tend * tickUnits then s.finish id resFuture []
    else
      let f1 := tstart / 4096
      let f2 := tend / 4096
      let end_ := if s.runIsOn run then s.lastFrame run else some ((s.lastFrame run).getD
        ((s.runEntries run).foldl (fun m e => max m (e.first + e.frames - 1)) 0))
      let beyond : Bool := end_.elim false fun l => decide (l < f1)
      let clip : Bool := end_.elim false fun l => decide (l < f2)
      let es := s.survivors run f1 f2
      let waits : Bool := s.runIsOn run && decide (s.mNext ≤ f2)
      match (List.range 64).find? fun k => Tab.get none s.buf.pins k = none with
      | none => s.finish id resRefused []
      | some slot =>
        if s.buf.pinLost ∨ beyond ∨ (es = [] ∧ ¬ waits) then s.finish id resRefused []
        else if ¬ s.pinFits ((es.flatMap fun e => s.frameBillets e.1 e.2.1 e.2.2).dedup) then s.finish id resRefused []
        else
          let r : PinRange := { first := f1, last := f2, runId := run, cmd := some id }
          let s := (s.updBuf fun b => { b with pins := Tab.set none b.pins slot (some r) }).pinWritten slot es
          if waits then s else s.endPin slot clip

/-- An UNPIN executes. -/
def State.unpin (s : State) (id slot : Nat) : State :=
  if 63 < slot then s.finish id resParam []
  else if s.buf.pinLost ∨ Tab.get none s.buf.pins slot = none then s.finish id resRefused []
  else ((s.endPin slot true).freeSlot slot).finish id resOk []

end Sys2Proof.Machine
end

