-- ==== Sys2Proof/Machine/Run.lean ====
section
/-!
DEFINITION. Runs at the merger (R11, R144, R174, R321): start, stop, end; and the spans of steady rest and of the supply warning that
merged frames report (R141).
Choices of the model: log entry 15 (DEDUCED).
-/

namespace Sys2Proof.Machine

/-! ### Spans (R141) -/

/-- A span begins or ends now. -/
def spanOpen (t : Nat) (x : List (Nat × Option Nat)) : List (Nat × Option Nat) :=
  if x.any fun y => y.2.isNone then x else (t, none) :: x
def spanClose (t : Nat) (x : List (Nat × Option Nat)) : List (Nat × Option Nat) :=
  x.map fun y => if y.2.isNone then (y.1, some t) else y

/-- Some span meets the times from `a` up to `b`. -/
def spanMeets (a b : Nat) (x : List (Nat × Option Nat)) : Bool :=
  x.any fun y => decide (y.1 < b) && y.2.elim true fun e => decide (a < e)

/-- Spans that have ended by time `t` are forgotten. -/
def spanKeep (t : Nat) (x : List (Nat × Option Nat)) : List (Nat × Option Nat) := x.filter fun y => y.2.elim true fun e => decide (t < e)

/-! ### The registers of the run -/

/-- Z_TIME_EPOCHk, laid out as Z_TIME_NOWk (R326). -/
def State.showEpoch (s : State) (e : Nat) : State :=
  let sec := e / 2 ^ 32 / 1000000000
  let f := Z.TIME_EPOCHk.VALUE
  ((s.zput f (e % 2 ^ 32 / 65536 + sec % 65536 * 65536)).zput (f.at 4) (e / 2 ^ 32 % 1000000000)).zput (f.at 8) (sec / 65536 % 2 ^ 32)

/-- A difference as a signed field of `n` bytes, saturating. -/
def satSigned (n : Nat) (v : Int) : List Byte :=
  let hi : Int := 2 ^ (8 * n - 1) - 1
  leBytes (max (-hi - 1) (min hi v) % (2 ^ (8 * n) : Int)).toNat n

/-- RUN, kind 0: start (R387 source 521). -/
def State.runStarted (s : State) (e : Nat) : State :=
  s.raise 521 ([0] ++ leBytes (s.zget Z.RING_RUN.RUN_NUM) 2 ++ leBytes s.run.id 2 ++ leBytes (e / 2 ^ 32 % 1000000000) 4
    ++ satSigned 3 ((e / 2 ^ 32 / 1000000000 : Nat) - (s.time / 2 ^ 32 / 1000000000 : Nat)))

/-- RUN, kinds 1 to 3: stop. -/
def State.runStopped (s : State) (kind last : Nat) : State :=
  s.raise 521 ([b8 kind] ++ leBytes (s.zget Z.RING_RUN.RUN_NUM) 2 ++ leBytes s.run.id 2 ++ leBytes last 5)

/-! ### Start -/

/-- The number of the next run: it wraps from 0xFFFE to 0, and before the first run stands 0xFFFF (R161). -/
def nextRunId (id : Nat) : Nat := if 0xFFFE ≤ id then 0 else id + 1

/-- A member port passes through SYNC, or waits in DOWN for its link (R144). -/
def State.syncPort (s : State) (p : Port) : State :=
  if s.zget (ZP.STAT.STATE.port p) = 0 then s
  else s.zput (ZP.STAT.STATE.port p) (if s.linkUp p ∧ ¬ (s.port p).asleep then 2 else 1)

/-- What a port holds of frames before the run or after its end is discarded without being counted as late (R144). -/
def State.clearPort (s : State) (p : Port) : State :=
  s.updPort p fun q =>
    { q with queue := [], side := [], pend := none, heldExpect := false, joinG := 0,
             cur := q.cur.map fun (o : OpenFrame) => { o with drop := true } }

/-- M becomes `m`: the wait for it begins, with WAIT_US and DUE_US as they stand (R147). -/
def State.setM (s : State) (m : Nat) : State :=
  (s.zput Z.MERGE_NEXT.NEXT m).updRun fun r =>
    { r with mAt := s.time, waitUs := s.zget Z.MERGE_CFG.WAIT_US, dueUs := s.zget Z.MERGE_CFG.DUE_US }

/-- A run begins with epoch `e`, in units of 2⁻³² ns, and first frame `m`: 0, or for a ring start whose epoch has passed the first frame
that begins afterwards (R144, R321). -/
def State.beginRun (s : State) (e m : Nat) : State :=
  let s := s.updRun fun r =>
    { active := true, epoch := some e, id := nextRunId r.id, rests := r.rests.filter (·.2.isNone), warns := r.warns.filter (·.2.isNone) }
  let s := ports16.foldl (fun s p => (s.clearPort p).syncPort p) (s.setM m)
  let s := if s.buf.runOpen then
      s.updBuf fun b => { b with dir := Tab.upd {} b.dir s.openSlot fun x => { x with open_ := false }, runOpen := false }
    else s
  ((s.showEpoch e).zput Z.TIME_STAT.RUN_ACTIVE 1).runStarted e

/-- The first frame that begins at or after now, counted from epoch `e`. -/
def State.firstFrame (s : State) (e : Nat) : Nat :=
  if s.time ≤ e then 0 else (s.time - e + 4096 * tickUnits - 1) / (4096 * tickUnits)

/-! ### Stop -/

/-- The commands that wait for the end of a run at frame `last` complete: RUN_STOP; a MARK whose frame is never committed is REFUSED
(R242, R252). -/
def State.finishStops (s : State) (last : Nat) : State :=
  (s.cmds.filter fun c => c.started && c.result.isNone).foldl
    (fun s c => if c.opcode = 0x61 then s.finish c.id resOk (leBytes last 5)
      else if c.opcode = 0x30 then s.finish c.id resRefused [] else s) s

/-- The run has ended with frame `last` (R144): members in ACTIVE go to SYNC, waiting contexts and ranges are settled, RUN is raised with
`kind`, and a stop with RETAIN starts the gather (R174). -/
def State.endRun (s : State) (kind last : Nat) : State :=
  let s := s.updRun fun r => { r with active := false, last := some last }
  let s := ports16.foldl (fun s p => (s.clearPort p).syncPort p) (s.zput Z.TIME_STAT.RUN_ACTIVE 0)
  let s := (((s.runStopped kind last).wakeWaiting).clipPins s.run.id).finishStops last
  if s.run.pasr then ((s.zput Z.BUF_STAT.GATHER 1).zput Z.BUF_GATHER.MOVED 0).updRun fun r => { r with pasr := false } else s

/-- RUN_END is set in the directory entry of the run that holds frame `f`; headers stay as written (R321). -/
def State.markEnd (s : State) (f : Nat) : State :=
  s.updBuf fun b => { b with dir := Tab.mapVals {} (fun _ e =>
    if e.valid ∧ e.runId = s.run.id ∧ e.first ≤ f ∧ f < e.first + e.frames then { e with runEnd := true, endAt := f } else e) b.dir }

/-- The run is to stop with frame `last`: at once, where the merger has passed it. -/
def State.stopRun (s : State) (last : Nat) (retain : Bool) (kind : Nat) : State :=
  let s := s.updRun fun r => { r with pasr := retain }
  if last < s.mNext then (s.markEnd last).endRun kind last
  else (s.updRun fun r => { r with last := some last }).wakeWaiting

end Sys2Proof.Machine
end

