-- ==== Sys2Proof/Machine/Time.lean ====
section
/-!
DEFINITION. Spindle time (spec/13): the time states (R300), the increment (R299, R314), the crystal estimate (R313), steady rest (R315,
R316), the servo (R311), setting and slewing.
Choices of the model: log entries 13 (PRESUMED), 16 (DEDUCED).
-/

namespace Sys2Proof.Machine

/-! ### Signed fields and rounding -/

/-- The signed value of the low `n` bits of `v`. -/
def signedOf (n v : Nat) : Int :=
  let w := v % 2 ^ n
  if w < 2 ^ (n - 1) then w else (w : Int) - 2 ^ n

/-- A signed value in `n` bits, wrapping, and saturating. -/
def wrapBits (n : Nat) (v : Int) : Nat := (v % (2 ^ n : Int)).toNat
def satBits (n : Nat) (v : Int) : Nat := wrapBits n (max (-(2 ^ (n - 1))) (min (2 ^ (n - 1) - 1) v))

/-- The quotient rounded to the nearest integer. -/
def nearest (a b : Int) : Int := (2 * a + b) / (2 * b)

def clampInt (lim v : Int) : Int := max (-lim) (min lim v)

/-! ### Time states (R300) -/

def tsFree : Nat := 0
def tsHeadstock : Nat := 1
def tsAcquire : Nat := 2
def tsLocked : Nat := 3
def tsRest : Nat := 4

def State.timeState (s : State) : Nat := s.zget Z.TIME_STAT.STATE

/-- The node follows SYNC. -/
def State.following (s : State) : Bool := s.timeState == tsAcquire || s.timeState == tsLocked

/-- LOCK (R329): entry 1, exit 0. -/
def State.lockEvent (s : State) (entry : Bool) (theta : Int) : State :=
  s.raise 518 ([b8 (b2n entry)] ++ satSigned 4 (theta / 65536))

/-! ### The increment (R299, R314) -/

def nominalInc : Int := 0x320000000

/-- The INC in force lies within ±10,000 ppb of nominal. -/
def State.setInc (s : State) (v : Int) : State :=
  s.zput Z.TIME_INC.INC (nominalInc + clampInt (nearest (nominalInc * 10000) 1000000000) (v - nominalInc)).toNat

/-- ε(t) in ppb as a fraction: ε₀, and AGE for the time since t₀. -/
def State.epsNow (s : State) : Int × Int :=
  match s.ring.eps0 with
  | none => (0, 1)
  | some (e, t0) =>
    let day : Int := 86400 * 1000000000 * (nsUnits : Int)
    (e * 64 * day + signedOf 16 (s.zget Z.TIME_AGE.AGE) * ((s.time : Int) - t0), 16 * 64 * day)

/-- Nominal × (1 + r) / (1 + ε(t)), with r in 1/16 ppb. -/
def State.incFor (s : State) (r : Int) : Int :=
  let e := s.epsNow
  nearest (nominalInc * (16000000000 + r) * 1000000000 * e.2) (16000000000 * (1000000000 * e.2 + e.1))

/-- The slew remainder in ns, and the sign of what is left. -/
def State.slewNs (s : State) : Int := signedOf 32 (s.zget Z.TIME_SLEW.SLEW)
def signCode (v : Int) : Nat := if 0 < v then 1 else if v < 0 then 2 else 0

/-- INC_RECOMPUTE (R314, R315): the headstock and a free node recompute INC from TRIM and slew, a node in steady rest follows AGE.  What
was slewed in the second that has passed leaves the remainder. -/
def State.recomputeInc (s : State) : State :=
  if s.timeState = tsHeadstock ∨ s.timeState = tsFree then
    let left := s.slewNs
    let left := if s.ring.slewNow = 0 then left else left - clampInt 1000 left
    let s := (s.zput Z.TIME_SLEW.SLEW (wrapBits 32 left)).updRing fun r => { r with slewNow := signCode left }
    let sl : Int := if 0 < left then 16000 else if left < 0 then -16000 else 0
    s.setInc (s.incFor (clampInt 160000 (signedOf 32 (s.zget Z.TIME_TRIM.TRIM)) + sl))
  else if s.timeState = tsRest then (if s.ring.eps0.isSome then s.setInc (s.incFor 0) else s)
  else s

/-! ### The crystal estimate (R313) -/

/-- EST_VALID changes, or ε has moved by more than 1 ppb: ESTIMATE. -/
def State.estimateEvent (s : State) (moved : Bool) : State :=
  s.raise 522 ([b8 (s.zget Z.TIME_STAT.EST_VALID + 2 * b2n moved)] ++ leBytes (s.zget Z.TIME_XTAL.EPS) 4)

/-- EST_VALID is cleared, by a step or by a fit that rejects a change of the crystal. -/
def State.clearEstimate (s : State) : State :=
  let s := s.updRing fun r => { r with samples := [] }
  if s.zget Z.TIME_STAT.EST_VALID = 0 then s else (s.zput Z.TIME_STAT.EST_VALID 0).estimateEvent false

/-- The gate, in units of 2⁻³² ns. -/
def State.gateUnits (s : State) : Nat := 2 ^ min 10 (s.zget Z.TIME_CFG.GATE_LOG2) * 1000000000 * nsUnits

/-- One pair of crystal cycles and spindle time, kept at most 1,024 to a gate. -/
def State.sample (s : State) (cycles t : Nat) : State :=
  let g := s.gateUnits
  if (s.ring.samples.head?).elim false fun x => decide (t < x.2 + g / 1024) then s
  else s.updRing fun r => { r with samples := (cycles, t) :: r.samples.filter fun x => decide (t ≤ x.2 + g) }

/-- Sums over the pairs, counted from the oldest: n, Σx, Σy, Σxy, Σx², with x the spindle time and y the cycles. -/
def State.sums (s : State) : Int × Int × Int × Int × Int :=
  let o := s.ring.samples.getLast?.getD (0, 0)
  s.ring.samples.foldl (fun a p =>
    let x : Int := (p.2 : Int) - o.2
    let y : Int := (p.1 : Int) - o.1
    (a.1 + 1, a.2.1 + x, a.2.2.1 + y, a.2.2.2.1 + x * y, a.2.2.2.2 + x * x)) (0, 0, 0, 0, 0)

/-- ε of the least-squares line, in 1/16 ppb; none with too few pairs. -/
def State.fit (s : State) : Option Int :=
  let a := s.sums
  let den := a.1 * a.2.2.2.2 - a.2.1 * a.2.1
  let num := a.1 * a.2.2.2.1 - a.2.1 * a.2.2.1
  if den = 0 then none
  else some (nearest (16000000000 * (25 * (nsUnits : Int) * num - 8 * den)) (8 * den))

/-- ESTIMATE_UPDATE (R313); `rejected`: the fit rejects a change of crystal frequency. -/
def State.updateEstimate (s : State) (rejected : Bool) : State :=
  if ¬ s.following then s
  else if rejected then s.clearEstimate
  else match s.fit with
    | none => s
    | some e =>
      let old := signedOf 32 (s.zget Z.TIME_XTAL.EPS)
      let was := s.zget Z.TIME_STAT.EST_VALID == 1
      let valid := was || (s.timeState == tsLocked && decide (s.ring.lockedAt + s.gateUnits ≤ s.time))
      let moved : Bool := decide (16 < (e - old).natAbs)
      let s := (s.zput Z.TIME_XTAL.EPS (satBits 32 e)).zput Z.TIME_STAT.EST_VALID (b2n valid)
      let s := if valid then s.updRing fun r => { r with eps0 := some (e, s.time) } else s
      if moved ∨ valid ≠ was then s.estimateEvent moved else s

/-! ### Steady rest (R315, R316) -/

/-- Causes of an entry (R387). -/
def restSync : Nat := 0
def restSrc : Nat := 1
def restDir : Nat := 2
def restClock : Nat := 3
def restEn : Nat := 4

/-- STEADY_REST_ENTRY: INC freezes at the estimate, and on SYNC loss or a change of headstock the outputs hold. -/
def State.restEnter (s : State) (cause : Nat) : State :=
  let s := s.zput Z.TIME_STAT.STATE tsRest
  let s := if s.ring.eps0.isSome then s.setInc (s.incFor 0) else s
  let s := (s.zbump Z.TIME_REST.COUNT 1).updRing fun r =>
    { r with restAt := s.time, run16 := 0, better := 0, hold := r.hold || cause == restSync || cause == restSrc }
  (s.updRun fun r => { r with rests := spanOpen s.time r.rests }).raise 519 [1, b8 cause]

/-- A node that follows enters steady rest. -/
def State.enterRest (s : State) (cause : Nat) : State := if s.following then s.restEnter cause else s

/-- The node leaves steady rest for state `v`. -/
def State.leaveRest (s : State) (v : Nat) : State :=
  let ms := (s.time - s.ring.restAt) / (1000000 * nsUnits)
  let s := (s.zput Z.TIME_STAT.STATE v).zput Z.TIME_REST.LAST_MS (sat 16 ms)
  let s := s.updRing fun r => { r with run16 := 0, integ := 0, hold := false }
  (s.updRun fun r => { r with rests := spanClose s.time r.rests }).raise 519 ([0, 0] ++ leBytes (sat 32 ms) 4)

/-! ### The servo (R311) -/

/-- SYNC period in µs, and the LOSS limit (R327). -/
def State.syncPeriod (s : State) : Nat := max 1 (s.zget Z.RING_SYNC.PERIOD_US)
def State.syncLoss (s : State) : Nat := max 1 (s.zget Z.RING_SYNC.LOSS) * s.syncPeriod * 1000 * nsUnits

/-- 10,000 ppb in units of 2⁻³² ppb. -/
def trimMax : Int := 10000 * 2 ^ 32

/-- INC from a trim in 2⁻³² ppb. -/
def State.trimInc (s : State) (trim : Int) : State :=
  s.setInc (nominalInc + nearest (nominalInc * trim) (1000000000 * 2 ^ 32))

/-- TIME_STEP: the counter is stepped by θ and I cleared. -/
def State.stepTime (s : State) (theta : Int) : State :=
  let s := s.updTime fun t => ((t : Int) + theta).toNat
  ((s.updRing fun r => { r with integ := 0, run16 := 0 }).trimInc 0).clearEstimate

/-- The servo takes the offset θ of one consumed SYNC, in units of 2⁻³² ns. -/
def State.servo (s : State) (theta : Int) : State :=
  let s := s.zput Z.TIME_OFFSET.THETA (satBits 32 (theta / 65536))
  let large : Bool := decide ((max 1 (s.zget Z.TIME_CFG.LIMIT_NS) * nsUnits : Nat) < theta.natAbs)
  let s := if large ∧ ¬ s.run.active then s.stepTime theta
    else
      let part (k : Nat) : Int := 1000000 * theta / ((s.syncPeriod * 2 ^ k : Nat) : Int)
      let i := clampInt trimMax (s.ring.integ + part (s.zget Z.TIME_CFG.KI_LOG2))
      let trim := if large then (if 0 < theta then trimMax else -trimMax)
        else clampInt trimMax (part (s.zget Z.TIME_CFG.KP_LOG2) + i)
      let s := (s.updRing fun r => { r with integ := i }).trimInc trim
      if large then s.raise 520 (satSigned 4 (theta / 65536)) else s
  if s.timeState = tsLocked then
    if nsUnits < theta.natAbs then ((s.zput Z.TIME_STAT.STATE tsAcquire).updRing fun r => { r with run16 := 0 }).lockEvent false theta
    else s
  else
    let n := if 10 * theta.natAbs ≤ nsUnits then s.ring.run16 + 1 else 0
    let s := s.updRing fun r => { r with run16 := n }
    if 16 ≤ n then
      ((s.zput Z.TIME_STAT.STATE tsLocked).updRing fun r => { r with run16 := 0, lockedAt := s.time }).lockEvent true theta
    else s

/-! ### Setting the time (R314) -/

/-- The spindle time spelled by the three words of Z_TIME_SETk: FRAC and SEC[15:0], NS, SEC[47:16]. -/
def timeOf3 (w0 w1 w2 : Nat) : Nat :=
  ((w2 * 65536 + w0 / 65536) * 1000000000 + w1) * nsUnits + w0 % 65536 * 65536

/-- A write of SET2. -/
def State.timeSet (s : State) (w : Nat) : State :=
  if (s.timeState = tsHeadstock ∨ s.timeState = tsFree) ∧ ¬ s.run.active ∧ s.ring.set1 < 1000000000 then
    ((s.updTime fun _ => timeOf3 s.ring.set0 s.ring.set1 w).zput Z.TIME_STAT.TAI_SET 1).clearEstimate
  else s.zput Z.TIME_STAT.SET_REFUSED 1

/-! ### The meanings -/

/-- ESTIMATE_UPDATE (R313). -/
def execEstimateUpdate (rejected : Bool) (s : State) : Result := .next (s.updateEstimate rejected)

/-- INC_RECOMPUTE (R314). -/
def execIncRecompute (s : State) : Result := .next s.recomputeInc

/-- TIME_SET (R314). -/
def execTimeSet (w : Word) (s : State) : Result :=
  .next (s.bar0 fun s =>
    s.timeSet w.toNat)

/-- TIME_SLEW_WRITE (R314). -/
def execTimeSlewWrite (w : Word) (s : State) : Result :=
  .next (s.bar0 fun s =>
    s.zput Z.TIME_SLEW.SLEW w.toNat)

end Sys2Proof.Machine
end

