-- ==== Sys2Proof/Machine/Monitor.lean ====
section
/-!
DEFINITION. The environment monitor and the interlock outputs (spec/15).
Choices of the model: log entry 20 (DEDUCED).
-/

namespace Sys2Proof.Machine

def State.grp (s : State) (g : Fin 2) : MonGroup := if g = 0 then s.mon.g0 else s.mon.g1

def State.updGrp (s : State) (g : Fin 2) (f : MonGroup → MonGroup) : State :=
  s.updMon fun m => if g = 0 then { m with g0 := f m.g0 } else { m with g1 := f m.g1 }

/-! ### Settings in force (R356 to R361) -/

/-- Reset value of Z_MON_CHCFGc. -/
def chcfgReset : Nat := 44

def State.chcfg (s : State) (c : Nat) : Nat := Tab.get chcfgReset s.mon.chcfg c

/-- MODE in force; 3 acts as 0. -/
def State.chMode (s : State) (c : Nat) : Nat := let m := s.chcfg c % 4; if m = 3 then 0 else m
def State.chAuto (s : State) (c : Nat) : Bool := bitAt (s.chcfg c) 2

/-- The range that channel `c` uses: the one last used, or CHCFG.RANGE (R358). -/
def State.chRange (s : State) (c : Nat) : Nat :=
  let m := Tab.get 0 s.mon.rng c
  if s.chAuto c ∧ m ≠ 0 then m - 1 else bits (s.chcfg c) 3 2

def State.dwellN (s : State) : Nat := min 4 (max 1 (bits s.mon.filt 19 3))

/-- R_OUT in Hz (R360). -/
def monRate (r : Nat) : Nat := ([10, 20, 25, 50, 100, 250, 500, 1000] : List Nat).getD r 10

/-- The notch sets allowed with a rate (R360). -/
def notchOk (rate notch : Nat) : Bool :=
  if notch = 0 then true
  else if rate = 0 then true
  else if rate = 1 then notch == 2
  else if rate = 2 ∨ rate = 3 then notch == 1
  else false

/-- A value of Z_MON_FILT that a write may give (R360). -/
def filtOk (w : Nat) : Bool := notchOk (bits w 14 3) (bits w 17 2)

def State.scanned (s : State) (i : Nat) : Bool := s.chMode (2 * i) != 0 || s.chMode (2 * i + 1) != 0
def State.scanList (s : State) : List Nat := (List.range 16).filter fun i => s.scanned i

/-- NOM in units of 2⁻³² ns, and in ms (R354). -/
def State.nomUnits (s : State) : Nat :=
  s.scanList.length * (3 + s.dwellN) * (1000000000 * nsUnits) / monRate (bits s.mon.filt 14 3)
def State.nomMs (s : State) : Nat := s.nomUnits / (1000000 * nsUnits)

/-! ### Conditions -/

/-- Order 1 of R373: reset, safe state, or a tripped monitor clock. -/
def State.ilForced (s : State) : Bool :=
  s.zget Z.BOOT_STAT.STAGE == 0 || s.zget Z.CLK_SRC.SAFE == 1 || s.pwr.monTrip

/-- A hold of R374. -/
def State.monHeld (s : State) : Bool := s.ring.hold || s.pwr.hold

/-- Conversions run (R365, R367). -/
def State.monClocked (s : State) : Bool :=
  !s.ilForced && s.zget Z.MON_CTL.REF_READY == 1 && s.zget Z.MON_CTL.CAL_BUSY == 0

/-- The scan runs (R354). -/
def State.scanRuns (s : State) : Bool := s.monClocked && s.zget Z.MON_CTL.SCAN_EN == 1

/-- The Zwiuc supply warning is in force (R342). -/
def State.warned (s : State) : Bool := s.zget Z.PWR_RAIL.WARN != 0

/-! ### Interlock outputs (R370 to R373) -/

def faultCode : Nat := 3994

/-- round(4,096 × f) of a module value, with f = 5 % + 90 % × (v − LOW) / (HIGH − LOW), before clamping. -/
def ilLine (v lo hi : Nat) : Int :=
  let den : Int := hi - lo
  let num : Int := (5 * den + 90 * ((v : Int) - lo)) * 4096 * den.sign
  let d : Int := 100 * den.natAbs
  (2 * num + d) / (2 * d)

/-- CODE of a module value (R371). -/
def ilCode (v lo hi : Nat) : Nat := (max 41 (min 3932 (ilLine v lo hi))).toNat

/-- How far f lies from 50 %, up to a positive factor. -/
def ilAway (v lo hi : Nat) : Nat := (2 * ((v : Int) - lo) - ((hi : Int) - lo)).natAbs

/-- A channel is bad when its MODE is 0 or its latest result carries BROKEN (R370). -/
def State.chBad (s : State) (c : Nat) : Bool := s.chMode c == 0 || s.zget (Z.MON_DATAc.BROKEN.at (4 * c)) == 1

/-- The module value of R372; none: no usable result yet. -/
def State.moduleValue (s : State) (m : Nat) : Option Nat :=
  let a := Tab.get 0 s.mon.res (2 * m)
  let b := Tab.get 0 s.mon.res (2 * m + 1)
  let lo := s.zget (ZI.LOW.LOW.il m)
  let hi := s.zget (ZI.HIGH.HIGH.il m)
  if s.chBad (2 * m) then (if b = 0 then none else some (b - 1))
  else if s.chBad (2 * m + 1) then (if a = 0 then none else some (a - 1))
  else if a = 0 ∨ b = 0 then none
  else if s.zget (ZI.STAT.PAIR_FAULT.il m) = 0 ∧ s.zget (ZI.PAIR.POLICY.il m) = 0 then some ((a - 1 + (b - 1)) / 2)
  else if ilAway (a - 1) lo hi < ilAway (b - 1) lo hi then some (b - 1) else some (a - 1)

/-- The stale condition of order 3: no usable value of module `m` for 4 × NOM since the last one. -/
def State.ilStale (s : State) (m : Nat) : Bool :=
  let g := Tab.get 0 s.mon.good m
  g != 0 && decide (g - 1 + 4 * s.nomUnits ≤ s.time)

/-- The cause of order 3 of R373, 0 when none of its conditions holds. -/
def State.ilCause (s : State) (m : Nat) : Nat :=
  if s.zget (ZI.PAIR.EN.il m) = 0 then 1
  else if s.zget (ZI.LOW.LOW.il m) = s.zget (ZI.HIGH.HIGH.il m) then 5
  else if s.chBad (2 * m) ∧ s.chBad (2 * m + 1) then 2
  else if s.zget Z.MON_CTL.SCAN_EN = 0 ∨ s.zget Z.MON_CTL.REF_READY = 0 then 4
  else if s.ilStale m then 3
  else 0

/-- IL_STATE (R380, R387 source 532). -/
def State.ilEvent (s : State) (m cause : Nat) (entered : Bool) (code : Nat) : State :=
  s.raise 532 ([b8 m, b8 cause, b8 (b2n entered)] ++ leBytes code 2)

/-- Output `m` goes to the fault level. -/
def State.ilFault (s : State) (m cause : Nat) : State :=
  ((s.zput (ZI.STAT.CODE.il m) faultCode).zput (ZI.STAT.FAULT.il m) 1).zput (ZI.STAT.CAUSE.il m) cause

/-- IL_OUTPUT_UPDATE: output `m` takes the first condition of R373 that applies.  With no module value yet it stays as it is. -/
def State.ilUpdate (s : State) (m : Nat) : State :=
  if s.ilForced then s.ilFault m 6
  else if s.monHeld then s
  else
    let cause := s.ilCause m
    let was := s.zget (ZI.STAT.FAULT.il m)
    let s := s.zput (ZI.STAT.SINGLE.il m) (b2n (s.chBad (2 * m) != s.chBad (2 * m + 1)))
    if cause ≠ 0 then
      let s := s.ilFault m cause
      if was = 0 then s.ilEvent m cause true faultCode else s
    else match s.moduleValue m with
      | none => s
      | some v =>
        let code := ilCode v (s.zget (ZI.LOW.LOW.il m)) (s.zget (ZI.HIGH.HIGH.il m))
        let old := s.zget (ZI.STAT.CAUSE.il m)
        let s := ((s.zput (ZI.STAT.CODE.il m) code).zput (ZI.STAT.FAULT.il m) 0).zput (ZI.STAT.CAUSE.il m) 0
        if was = 1 ∧ old ≠ 6 then s.ilEvent m old false code else s

/-- Every output is updated. -/
def State.ilUpdateAll (s : State) : State := (List.range 16).foldl (fun s m => s.ilUpdate m) s

/-! ### Results (R363, R364) -/

/-- Write the result of channel `c`: OVR when it replaces one that has not been read. -/
def State.putResult (s : State) (c value : Nat) (settle range broken supply limit : Bool) : State :=
  let ovr := bitAt s.mon.unread.toNat c
  let put (s : State) (f : Field) (v : Nat) : State := s.zput (f.at (4 * c)) v
  let s := put s Z.MON_DATAc.VALUE value
  let s := put s Z.MON_DATAc.OVR (b2n ovr)
  let s := put s Z.MON_DATAc.SETTLE (b2n settle)
  let s := put s Z.MON_DATAc.RANGE (b2n range)
  let s := put s Z.MON_DATAc.BROKEN (b2n broken)
  let s := put s Z.MON_DATAc.SUPPLY (b2n supply)
  let s := put s Z.MON_DATAc.RNG (s.chRange c)
  let s := put s Z.MON_DATAc.LIMIT (b2n limit)
  s.updMon fun m => { m with unread := m.unread ||| BitVec.ofNat 32 (2 ^ c) }

/-- The channel of group `g` in the dwell. -/
def State.dwellCh (s : State) (g : Fin 2) : Nat := 2 * s.zget Z.MON_SCAN.INDEX + g.val

/-- A pending range change is kept in the channel's range memory (R376). -/
def State.keepRange (s : State) (g : Fin 2) : State :=
  match (s.grp g).pend with
  | none => s
  | some r =>
    (s.updMon fun m => { m with rng := Tab.set 0 m.rng (s.dwellCh g) (r + 1) }).updGrp g fun x => { x with pend := none }

/-- The dwell of group `g` ends: its result is written (R363), and BROKEN raised with CLEARED at the first one without it (R364). -/
def State.endGroup (s : State) (g : Fin 2) : State :=
  let s := s.keepRange g
  let c := s.dwellCh g
  let x := s.grp g
  if s.chMode c = 0 ∨ x.broken then s
  else
    let was := s.zget (Z.MON_DATAc.BROKEN.at (4 * c)) == 1
    let none_ := x.vals.isEmpty
    let value := if none_ then x.last else x.vals.sum / x.vals.length
    let s := s.putResult c value none_ x.range false x.supply x.limit
    let s := if none_ then s else s.updMon fun m => { m with res := Tab.set 0 m.res c (value + 1) }
    if was then s.raise 531 [b8 c, b8 (s.chMode c), 1] else s

/-- The pair of module `m` is compared (R370). -/
def State.comparePair (s : State) (m : Nat) : State :=
  let a := s.zget (Z.MON_DATAc.VALUE.at (8 * m))
  let b := s.zget (Z.MON_DATAc.VALUE.at (8 * m + 4))
  let dis := decide (s.zget (ZI.PAIR.THR.il m) < (max a b) - (min a b))
  let pf := s.zget (ZI.STAT.PAIR_FAULT.il m) == 1
  let n := if dis = pf then 0 else Tab.get 0 s.mon.pairCnt m + 1
  if n < max 1 (s.zget (ZI.PAIR.N.il m)) then s.updMon fun x => { x with pairCnt := Tab.set 0 x.pairCnt m n }
  else
    let s := (s.zput (ZI.STAT.PAIR_FAULT.il m) (b2n dis)).updMon fun x => { x with pairCnt := Tab.set 0 x.pairCnt m 0 }
    s.raise 530 ([b8 m, b8 (b2n dis)] ++ leBytes a 3 ++ leBytes b 3)

/-- Both channels of the dwell give a result without SETTLE or BROKEN. -/
def State.pairUsable (s : State) : Bool :=
  ([0, 1] : List (Fin 2)).all fun g =>
    s.chMode (s.dwellCh g) != 0 && !(s.grp g).broken && !(s.grp g).vals.isEmpty

/-- A channel of the dwell that is not bad gives a usable result. -/
def State.anyUsable (s : State) : Bool :=
  ([0, 1] : List (Fin 2)).any fun g =>
    s.chMode (s.dwellCh g) != 0 && !(s.grp g).broken && !(s.grp g).vals.isEmpty

/-- A dwell of the index in Z_MON_SCAN.INDEX begins (R354, R362). -/
def State.startDwell (s : State) : State :=
  s.updMon fun m => { m with dwell := true, settle := 3, g0 := { clip := m.g0.clip }, g1 := { clip := m.g1.clip } }

/-- The results of the dwell are written, the pair compared, the output updated. -/
def State.endDwell (s : State) : State :=
  let m := s.zget Z.MON_SCAN.INDEX
  let pair := s.pairUsable
  let any := s.anyUsable
  let s := (s.endGroup 0).endGroup 1
  let s := if pair then s.comparePair m else s
  let s := if any then s.updMon fun x => { x with good := Tab.set 0 x.good m (s.time + 1) } else s
  s.ilUpdate m

/-! ### Settings taken over (R361, R369) -/

/-- The word of Z_MON_FILT and of Z_MON_CHCFGc as written. -/
def State.filtWord (s : State) : Nat := wordOf (fieldsAt 4 Z.rows 0x6004) s.zget 0x6004
def State.chcfgWord (s : State) (c : Nat) : Nat := wordOf (fieldsAt 4 Z.rows (0x6100 + 4 * c)) s.zget (0x6100 + 4 * c)

/-- A plain write of a Zwiuc register word: each field under its access type (R9). -/
def State.zwrite (s : State) (o w : Nat) : State :=
  s.updZreg fun z => (fieldsAt 4 Z.rows o).foldl (fun r f => fwrite r f o w) z

/-- The same for the registers of Z_MON_ILm (R379). -/
def State.ilWrite (s : State) (m o w : Nat) : State :=
  s.updZreg fun z => (fieldsAt 4 ZI.rows o).foldl (fun r f => fwrite r (f.il m) (0x6200 + 16 * m + o) w) z

/-- Request the selected injected conversions (R366). -/
def State.injRequest (s : State) : State :=
  s.updMon fun m => { m with injPend := m.injPend ||| BitVec.ofNat 8 (s.zget Z.MON_INJ.SEL), injAt := s.time }

/-- One 8-byte entry of a MON_CFG block: register offset, reserved halfword, value. -/
def monEntries : List Byte → List (Nat × Nat × Nat)
  | a :: b :: c :: d :: e :: f :: g :: h :: t =>
    (leNat [a, b], leNat [c, d], leNat [e, f, g, h]) :: monEntries t
  | _ => []

/-- An entry that R369 accepts. -/
def monEntryOk (e : Nat × Nat × Nat) : Bool :=
  let o := e.1
  let w := e.2.2
  e.2.1 == 0 &&
    (if o = 0x004 then filtOk w && decide (w < 2 ^ 22)
     else if o = 0x040 then bits w 9 7 == 0 && decide (w < 2 ^ 26)
     else if 0x100 ≤ o ∧ o < 0x180 ∧ o % 4 = 0 then decide (w < 2 ^ 7)
     else if 0x200 ≤ o ∧ o < 0x300 then
       (if o % 16 = 0 ∨ o % 16 = 4 then decide (w < 2 ^ 24)
        else if o % 16 = 8 then decide (w < 2 ^ 30)
        else false)
     else false)

/-- Apply one accepted entry to the registers. -/
def State.monEntry (s : State) (e : Nat × Nat × Nat) : State :=
  let o := e.1
  let w := e.2.2
  if o < 0x200 then
    let s := s.zwrite (0x6000 + o) w
    if o = 0x040 ∧ bitAt w 8 then s.injRequest else s
  else s.ilWrite ((o - 0x200) / 16) (o % 16) w

/-- The MON_CFG commands whose blocks wait for the boundary: all are applied, and complete OK (R369). -/
def State.applyMonCfg (s : State) : State :=
  (s.cmds.filter fun (c : Cmd) => c.opcode == 0x50 && c.started && c.result.isNone).foldl (fun s (c : Cmd) =>
    match c.image with
    | none => s
    | some img => ((monEntries img).foldl (fun s e => s.monEntry e) s).finish c.id resOk []) s

/-- The dwell restarts (R361): what it has gathered is written as a dwell that ends. -/
def State.restartDwell (s : State) : State := ((s.endGroup 0).endGroup 1).startDwell

/-- An output-period boundary: written settings are taken over (R361, R362, R369), but not during a hold (R374). -/
def State.monBoundary (s : State) : State :=
  if s.monHeld then s
  else
    let s := s.applyMonCfg
    let f := s.filtWord
    let slow := f % 2 ^ 19 != s.mon.filt % 2 ^ 19
    let changed := (List.range 32).filter fun c => s.chcfgWord c != s.chcfg c
    let i := s.zget Z.MON_SCAN.INDEX
    let hit := s.mon.dwell && changed.any fun c => c / 2 == i
    let s := if hit then s.restartDwell else s
    let s := changed.foldl (fun s c =>
      s.updMon fun m => { m with chcfg := Tab.set chcfgReset m.chcfg c (s.chcfgWord c), rng := Tab.set 0 m.rng c 0 }) s
    let s := s.updMon fun m => { m with filt := f, settle := if slow ∧ m.dwell then max m.settle 4 else m.settle }
    if s.mon.dwell ∧ ¬ s.scanned i then s.updMon fun m => { m with dwell := false } else s

/-! ### Outputs (R358, R359, R362) -/

/-- The first scanned index from `i` on, wrapping. -/
def State.nextIndex (s : State) (i : Nat) : Option Nat :=
  match s.scanList.find? fun j => decide (i ≤ j) with
  | some j => some j
  | none => s.scanList.head?

/-- RANGE_CHANGE: the decision after an output (R358): a change to make, or one beyond the last range. -/
def rangeStep (mode rng amp : Nat) : Option (Option Nat × Nat) :=
  let up := if mode = 1 then decide (9000 < amp) else decide (amp < 1000)
  let down := if mode = 1 then decide (amp < 1000) else decide (9000 < amp)
  if up then some (if rng < 3 then some (rng + 1) else none, 1)
  else if down then some (if 0 < rng then some (rng - 1) else none, 0)
  else none

/-- One output of group `g` in the dwell. -/
def State.groupOutput (s : State) (g : Fin 2) (o : MonOut) : State :=
  let c := s.dwellCh g
  let x := s.grp g
  if s.chMode c = 0 ∨ x.broken then s.updGrp g fun x => { x with clip := false }
  else
    let moved := x.pend.isSome && !s.monHeld
    let s := if moved then s.keepRange g else s
    let gs := if moved then max x.settle 2 else x.settle
    let settle := decide (0 < s.mon.settle) || decide (0 < gs) || x.clip
    let s := s.updGrp g fun x =>
      { x with last := o.value.toNat, clip := false, settle := gs - 1, range := x.range || moved, supply := x.supply || s.mon.sup,
               vals := if settle then x.vals else x.vals ++ [o.value.toNat] }
    if ¬ s.chAuto c ∨ s.monHeld then s
    else match rangeStep (s.chMode c) (s.chRange c) o.amp with
      | none => s
      | some (some r, _) => s.updGrp g fun x => { x with pend := some r }
      | some (none, dir) =>
        let s := if (s.grp g).limitRaised then s else s.raise 535 [b8 c, b8 (s.chRange c), b8 dir]
        s.updGrp g fun x => { x with limit := true, limitRaised := true }

/-- The range that the channels in dwell use is remembered (R358). -/
def State.rememberRange (s : State) : State :=
  ([0, 1] : List (Fin 2)).foldl (fun s g =>
    let c := s.dwellCh g
    if s.chAuto c then s.updMon fun m => { m with rng := Tab.set 0 m.rng c (s.chRange c + 1) } else s) s

/-- A dwell may begin at this boundary (R354). -/
def State.beginScan (s : State) : State :=
  if ¬ s.scanRuns ∨ s.mon.dwell ∨ s.monHeld then s
  else match s.nextIndex (s.zget Z.MON_SCAN.INDEX) with
    | none => s
    | some i => ((s.zput Z.MON_SCAN.INDEX i).updMon fun m => { m with passAt := s.time }).startDwell

/-- MON_OUTPUT (R359): one output of each group, and the boundary at its end. -/
def execMonOutput (a b : MonOut) (s : State) : Result :=
  if s.ilForced then .next s
  else
    let s := s.updMon fun m => { m with sup := m.sup || s.warned }
    let s :=
      if s.scanRuns ∧ s.mon.dwell then
        ((((s.groupOutput 0 a).groupOutput 1 b).updMon fun m => { m with settle := m.settle - 1 })).rememberRange
      else s
    let s := s.updMon fun m => { m with sup := s.warned }
    .next s.monBoundary.beginScan

/-- Group `g` has delivered what the dwell needs. -/
def State.groupDone (s : State) (g : Fin 2) : Bool :=
  s.chMode (s.dwellCh g) == 0 || (s.grp g).broken || decide (s.dwellN ≤ (s.grp g).vals.length)

/-- MON_PASS_END (R355): PASSES counts, LAST_MS is set, LAG raised over the limit of NOM plus two periods per index. -/
def State.passEnd (s : State) : State :=
  let d := s.time - s.mon.passAt
  let ms := sat 16 (d / (1000000 * nsUnits))
  let limit := s.nomUnits + 2 * s.scanList.length * (1000000000 * nsUnits) / monRate (bits s.mon.filt 14 3)
  let s := (s.zbump Z.MON_SCAN.PASSES 1).zput Z.MON_PASS.LAST_MS ms
  let s := s.updMon fun m => { m with passAt := s.time }
  if limit < d then (s.bgLag 6).raise 533 (leBytes ms 2 ++ leBytes (sat 16 s.nomMs) 2) else s

/-- MON_DWELL_END (R363). -/
def execMonDwellEnd (s : State) : Result :=
  if ¬ s.mon.dwell ∨ ¬ s.scanRuns ∨ ¬ s.groupDone 0 ∨ ¬ s.groupDone 1 then .next s
  else
    let s := s.endDwell
    if s.monHeld then
      .next ((s.updGrp 0 fun x => { x with vals := [] }).updGrp 1 fun x => { x with vals := [] })
    else
      let i := s.zget Z.MON_SCAN.INDEX
      match s.nextIndex (i + 1) with
      | none => .next (s.updMon fun m => { m with dwell := false })
      | some j =>
        let s := if j ≤ i then s.passEnd else s
        .next (s.zput Z.MON_SCAN.INDEX j).startDwell

/-- IL_STALE_TIMEOUT (R373). -/
def execIlStaleTimeout (m : Fin 16) (s : State) : Result :=
  .next (if s.ilStale m.val then s.ilUpdate m.val else s)

/-- The beginning of the hold in force. -/
def State.holdStart (s : State) : Nat :=
  if s.ring.hold ∧ s.pwr.hold then min s.ring.restAt s.pwr.holdAt else if s.ring.hold then s.ring.restAt else s.pwr.holdAt

/-- HOLD_LONG (R374): once per hold. -/
def execHoldLong (s : State) : Result :=
  .next (if s.monHeld ∧ ¬ s.ilForced ∧ s.holdStart + 100000000 * nsUnits ≤ s.time ∧ s.mon.long ≠ some s.holdStart then
    (s.updMon fun m => { m with long := some s.holdStart }).ilEvent 0 8 true (s.zget (ZI.STAT.CODE.il 0))
  else s)

/-- COMPLIANCE_TRIP (R364) of the source of group `g`. -/
def execComplianceTrip (g : Fin 2) (s : State) : Result :=
  let c := s.dwellCh g
  let x := s.grp g
  .next (if ¬ s.mon.dwell ∨ ¬ s.scanRuns ∨ s.chMode c = 0 ∨ x.broken then s
  else
    let s := s.updGrp g fun x => { x with broken := true, pend := none }
    let s := s.putResult c 0 false x.range true (x.supply || s.mon.sup || s.warned) x.limit
    s.raise 531 [b8 c, b8 (s.chMode c), 0])

/-! ### Injected conversions, reference buffer, calibration (R365 to R367) -/

/-- A calibration that waits starts when nothing holds it back. -/
def State.calStart (s : State) : State :=
  if s.zget Z.MON_CTL.CAL_WAIT = 0 ∨ s.mon.injPend ≠ 0 ∨ s.zget Z.MON_CTL.REF_READY = 0 ∨ s.monHeld ∨ s.ilForced then s
  else (s.zput Z.MON_CTL.CAL_WAIT 0).zput Z.MON_CTL.CAL_BUSY 1

/-- MON_INJ_GO (R366): a write of Z_MON_INJ with the word `w`, whose GO is set. -/
def execMonInjGo (w : Word) (s : State) : Result :=
  .next (s.bar0 fun s =>
    let s := s.zwrite 0x6040 w.toNat
    if bitAt w.toNat 8 then s.injRequest else s)

/-- MON_INJ_PERIODIC (R366). -/
def execMonInjPeriodic (s : State) : Result :=
  let p := s.zget Z.MON_INJ.PERIOD_MS
  .next (if p = 0 ∨ s.time < s.mon.injAt + p * 1000000 * nsUnits then s else s.injRequest)

/-- A corrected code (R367): (raw − OFFSET) × GAIN / 2¹⁵, limited to 12 bits. -/
def State.corrected (s : State) (k raw : Nat) : Nat :=
  let off := signedOf 12 (s.zget (Z.MON_CALk.OFFSET.at (4 * k)))
  (max 0 (min 4095 (((raw : Int) - off) * (s.zget (Z.MON_CALk.GAIN.at (4 * k)) : Int) / 32768))).toNat

/-- The ADC of injected input `k` (R366). -/
def injAdc (k : Nat) : Nat := ([0, 1, 2, 3, 0, 1, 2, 3] : List Nat).getD k 0

/-- MON_INJ_CONVERSION (R365, R366). -/
def execMonInjConversion (k : Fin 8) (raw : BitVec 12) (s : State) : Result :=
  if ¬ s.monClocked ∨ ¬ bitAt s.mon.injPend.toNat k.val then .next s
  else
    let code := s.corrected (injAdc k.val) raw.toNat
    let put (s : State) (f : Field) (v : Nat) : State := s.zput (f.at (4 * k.val)) v
    let s := put s Z.MON_INJDk.CODE code
    let s := put s Z.MON_INJDk.OVR (b2n (bitAt s.mon.injUnread.toNat k.val))
    let s := put s Z.MON_INJDk.VALID 1
    let s := put s Z.MON_INJDk.SUPPLY (b2n s.warned)
    let one := BitVec.ofNat 8 (2 ^ k.val)
    let s := s.updMon fun m => { m with injPend := m.injPend &&& ~~~ one, injUnread := m.injUnread ||| one }
    let s := if k = 1 ∧ (2 * code < 900 ∨ 3450 < 2 * code) then s.ilEvent 0 7 true (s.zget (ZI.STAT.CODE.il 0)) else s
    .next s.calStart

/-- REFBUF_ENABLE (R367): a write of REFBUF_EN. -/
def execRefbufEnable (en : Bool) (s : State) : Result :=
  .next (s.bar0 fun s =>
    if en then
      if s.zget Z.MON_CTL.REFBUF_EN = 1 then s
      else (s.zput Z.MON_CTL.REFBUF_EN 1).updMon fun m => { m with refAt := s.time }
    else (s.zput Z.MON_CTL.REFBUF_EN 0).zput Z.MON_CTL.REF_READY 0)

/-- REF_READY (R367): 5.0 ms after REFBUF_EN. -/
def execRefReady (s : State) : Result :=
  .next (if s.zget Z.MON_CTL.REFBUF_EN = 1 ∧ s.mon.refAt + 5000000 * nsUnits ≤ s.time then
    (s.zput Z.MON_CTL.REF_READY 1).calStart else s)

/-- MON_CAL_START (R367, R376): a write of CAL. -/
def execMonCalStart (s : State) : Result :=
  .next (s.bar0 fun s =>
    if s.zget Z.MON_CTL.CAL_BUSY = 1 then s else (s.zput Z.MON_CTL.CAL_WAIT 1).calStart)

/-- A gain outside 0.95 to 1.05, an offset beyond ±64 codes (R367). -/
def calBad (g o : Nat) : Bool :=
  decide (g < 31130) || decide (34406 < g) || decide (64 < (signedOf 12 o).natAbs)

/-- MON_CAL_DONE (R367), with the four gains and offsets found. -/
def execMonCalDone (g : Vector Half 4) (o : Vector (BitVec 12) 4) (s : State) : Result :=
  if s.zget Z.MON_CTL.CAL_BUSY = 0 ∨ ¬ s.zget Z.MON_CTL.REF_READY = 1 ∨ s.ilForced then .next s
  else
    let gs := g.toList.map BitVec.toNat
    let os := o.toList.map BitVec.toNat
    let bad := (gs.zip os).any fun x => calBad x.1 x.2
    let s := (s.zput Z.MON_CTL.CAL_BUSY 0).zput Z.MON_CTL.CAL_DONE 1
    let s := if bad then s.zput Z.MON_CTL.CAL_FAIL 1
      else (List.range 4).foldl (fun s k => (s.zput (Z.MON_CALk.GAIN.at (4 * k)) (gs.getD k 0)).zput
        (Z.MON_CALk.OFFSET.at (4 * k)) (os.getD k 0)) s
    let s := s.updMon fun m => { m with settle := if m.dwell then max m.settle 4 else m.settle }
    let packed := (List.range 4).foldl (fun a k =>
      a + satBits 12 ((gs.getD k 0 : Int) - 32768) * 2 ^ (12 * k)) 0
    let offs := (List.range 4).map fun k => b8 (wrapBits 8 (clampInt 127 (signedOf 12 (os.getD k 0))))
    .next (s.raise 534 ([b8 (b2n bad)] ++ leBytes packed 6 ++ offs))

/-! ### Raw samples (R365, R368) -/

/-- Spindle time as the three words of Z_TIME_NOW0 to Z_TIME_NOW2 (R326). -/
def timeWords (t : Nat) : List Nat :=
  let sec := t / 2 ^ 32 / 1000000000
  [t % 2 ^ 32 / 65536 + sec % 65536 * 65536, t / 2 ^ 32 % 1000000000, sec / 65536 % 2 ^ 32]

/-- Units of a sample tick, 4 µs. -/
def sampleUnits : Nat := 4000 * nsUnits

/-- MON_DMA_ENABLE (R368): a write of DMA_EN.  Setting it resets the count and latches the time of entry 0, the next sample tick. -/
def execMonDmaEnable (en : Bool) (s : State) : Result :=
  .next (s.bar0 fun s =>
    if ¬ en then s.zput Z.MON_CTL.DMA_EN 0
    else if s.zget Z.MON_CTL.DMA_EN = 1 then s
    else
      let t := (s.time + sampleUnits - 1) / sampleUnits * sampleUnits
      let w := timeWords t
      let s := (s.zput Z.MON_CTL.DMA_EN 1).zput Z.MON_DMA_CNT.COUNT 0
      (List.range 3).foldl (fun s k => s.zput (Z.MON_DMA_T0k.VALUE.at (4 * k)) (w.getD k 0)) s)

/-- MON_SAMPLE_TICK (R365, R368): the codes of the four ADCs and the slot of the regular trigger. -/
def execMonSampleTick (v0 i0 v1 i1 : BitVec 12) (dly : Fin 3) (s : State) : Result :=
  if s.ilForced then .next s
  else
    let gap := !s.scanRuns
    let end_ (x : BitVec 12) : Bool := x == 0 || x == 4095
    let s := if gap then s
      else (s.updGrp 0 fun x => { x with clip := x.clip || end_ v0 || end_ i0 }).updGrp 1 fun x =>
        { x with clip := x.clip || end_ v1 || end_ i1 }
    if s.zget Z.MON_CTL.DMA_EN = 0 then .next s
    else
      let code (x : BitVec 12) : Nat := if gap then 0 else x.toNat
      let i := s.zget Z.MON_SCAN.INDEX
      let e := code v0 + code i0 * 2 ^ 12 + code v1 * 2 ^ 24 + code i1 * 2 ^ 36 + i * 2 ^ 48
        + s.chRange (2 * i) * 2 ^ 52 + s.chRange (2 * i + 1) * 2 ^ 54 + dly.val * 2 ^ 56 + b2n gap * 2 ^ 58
        + b2n s.monHeld * 2 ^ 59
      let n := s.zget Z.MON_DMA_CNT.COUNT
      let a := n % 32768 * 8
      let bytes := leBytes e 8
      let s := s.updMon fun m =>
        { m with sram := (List.range 8).foldl (fun t k => Tab.set 0 t (a + k) (bytes.getD k 0)) m.sram }
      .next (s.zput Z.MON_DMA_CNT.COUNT (n + 1))

/-! ### Register writes (R338, R360, R361) -/

/-- MON_SCAN_ENABLE (R354): a write of SCAN_EN. -/
def execMonScanEnable (en : Bool) (s : State) : Result :=
  .next (s.bar0 fun s =>
    if en then (if s.zget Z.CLK_GATE.MON = 0 then s.gateRefused 0x6000 0 else s.zput Z.MON_CTL.SCAN_EN 1)
    else ((s.zput Z.MON_CTL.SCAN_EN 0).updMon fun m => { m with dwell := false }).ilUpdateAll)

/-- MON_FILT_WRITE (R360): applied at the next boundary, or refused. -/
def execMonFiltWrite (w : Word) (s : State) : Result :=
  .next (s.bar0 fun s =>
    if filtOk w.toNat then s.zwrite 0x6004 w.toNat else s.zput Z.MON_CTL.REFUSED 1)

/-- MON_CHCFG_WRITE (R361). -/
def execMonChcfgWrite (c : Fin 32) (w : Word) (s : State) : Result :=
  .next (s.bar0 fun s =>
    s.zwrite (0x6100 + 4 * c.val) w.toNat)

end Sys2Proof.Machine
end

