-- ==== Sys2Proof/Machine/Ring.lean ====
section
/-!
DEFINITION. The timing ring (spec/13): forwarding (R302 to R305), SYNC and the consumed direction (R303, R311), leases, roles and the map
(R318, R319), the mirror (R320), ring runs (R321), gates (R308), enabling (R322).
Choices of the model: log entry 16 (DEDUCED).
-/

namespace Sys2Proof.Machine

/-! ### The node -/

def State.node (s : State) : Nat := s.zget Z.RING_CFG.NODE_ID
def State.ringEn (s : State) : Bool := s.zget Z.RING_CFG.EN == 1

/-- ROLE_NOW (R327). -/
def roPlain : Nat := 0
def roHeadstock : Nat := 1
def roTailstock : Nat := 2
def roCandidate : Nat := 3
def State.role (s : State) : Nat := s.zget Z.RING_STAT.ROLE_NOW

/-- The configured ROLE: 3 acts as 0. -/
def State.cfgRole (s : State) : Nat := s.zget Z.RING_CFG.ROLE % 3

def State.lseq (s : State) : Nat := s.zget Z.RING_LSEQ.LSEQ

/-- A span of `n` ms. -/
def msUnits (n : Nat) : Nat := n * 1000000 * nsUnits

/-- L in force, in ms, as this node sends it. -/
def State.lMs (s : State) : Nat := max 1 (s.zget Z.RING_LEASE.L_MS)

/-- SRC of a message (R305). -/
def srcOf (pl : List Byte) : Nat := byteAt pl 1 % 64

/-- A spindle time as SEC, NS, FRAC, most significant byte first, and back (R97, R298). -/
def beTime (t : Nat) : List Byte :=
  beBytes (t / 2 ^ 32 / 1000000000) 6 ++ beBytes (t / 2 ^ 32 % 1000000000) 4 ++ beBytes (t % 2 ^ 32 / 65536) 2
def readTime (bs : List Byte) : Nat :=
  (beNat (slice bs 0 6) * 1000000000 + beNat (slice bs 6 4)) * nsUnits + beNat (slice bs 10 2) * 65536

/-- The receive stamp of a block: now, refined to 1/64 UI of 1.526 ps (R309). -/
def State.rxStamp (s : State) (fine : Fin 2048) : Nat := s.time + fine.val * 6553600

/-- 1/16 ps in units of 2⁻³² ns. -/
def sixteenthPs (v : Int) : Int := v * 4294967296 / 16000

/-! ### Arrival and forwarding (R302, R304) -/

def otherSide : Side → Side
  | .east => .west
  | .west => .east

/-- The side on which a block received on `d` goes on in its rotation, or turns at a wrap; none: it has nowhere to go. -/
def State.onward (s : State) (d : Side) : Option Side :=
  if s.ringServes (otherSide d) then some (otherSide d) else if s.ringServes d then some d else none

/-- A damaged block goes on as ABORT, one whose CRC fails with its new CRC inverted. -/
def State.forwardBad (s : State) (d : Side) (b : RxBlock) : State :=
  match s.onward d with
  | none => s
  | some o =>
    if b.damaged ∨ b.kindErr then s.emit (.abort (.ring o))
    else if b.blk.kind = .data then
      let t := s.ringBlock o b.blk.payload
      let seq := match o with
        | .east => s.ring.seqE
        | .west => s.ring.seqW
      let x : Block := { kind := .data, seq := seq, payload := pad16 b.blk.payload }
      (t.updOut fun _ => s.out ++ [.ring o x (~~~ blockCrc x)]).zbump Z.RING_MSG.BADCRC 1
    else s

/-- A block arrives on side `d` while its link is in service: the payload of an intact message, or none. -/
def State.ringTake (s : State) (d : Side) (b : RxBlock) : State × Option (List Byte) :=
  if ¬ s.ringServes d then (s, none)
  else
    let r := s.receive (.ring d) b
    match r.2 with
    | some x => (r.1, if x.kind = .data then some x.payload else none)
    | none => (r.1.forwardBad d b, none)

/-- Stripped: the message is this node's own, or its originator is not in the map. -/
def State.strips (s : State) (pl : List Byte) : Bool := s.ring.mapSeen && !bitAt (s.zget Z.RING_MAP.MASK) (srcOf pl)

/-- A message other than SYNC that is not handled as a LEASE: east-going it is stripped or consumed by `f` and forwarded; west-going it is
forwarded, or turned at this node's west wrap. -/
def State.ringArrive (s : State) (d : Side) (pl : List Byte) (f : State → State) : State :=
  if d = .east ∧ s.ringServes .west then s.ringBlock .west pl
  else if srcOf pl = s.node then s
  else if s.strips pl then s.zbump Z.RING_MSG.STRIPPED 1
  else (f s).ringEast pl

/-- A row for messages of the kind `p`. -/
def State.onMessage (s : State) (d : Side) (b : RxBlock) (p : List Byte → Bool) (f : State → List Byte → State) : State :=
  match s.ringTake d b with
  | (t, some pl) => if p pl then t.ringArrive d pl (fun u => f u pl) else t
  | (t, none) => t

/-- CTRL messages are ignored when SRC is not the current headstock (R305). -/
def State.fromHeadstock (s : State) (pl : List Byte) : Bool :=
  s.zget Z.RING_STAT.HS_VALID == 1 && s.zget Z.RING_STAT.HS_ID == srcOf pl

/-- A CTRL message with operation `op`. -/
def isCtrl (op : Nat) (pl : List Byte) : Bool := byteAt pl 0 == 3 && byteAt pl 2 == op

/-! ### Messages of the headstock (R306, R307) -/

def State.sync (s : State) : List Byte :=
  [1, b8 s.node, 0, b8 (s.zget Z.TIME_STAT.TAI_SET + 2 * s.zget Z.RING_RUN.ACTIVE)] ++ beTime s.time

def State.ctrl (s : State) (op b3 : Nat) (rest : List Byte) : List Byte := [3, b8 s.node, b8 op, b8 b3] ++ rest

def State.ctrlStart (s : State) (rep : Bool) : List Byte :=
  s.ctrl 1 (b2n rep) (beBytes (s.zget Z.RING_RUN.RUN_NUM) 2 ++ (beTime s.epochTime).take 10)

def State.ctrlStop (s : State) (tick : Nat) : List Byte :=
  s.ctrl 2 0 (beBytes (s.zget Z.RING_RUN.RUN_NUM) 2 ++ beBytes tick 8 ++ [0, 0])

/-- Field `f` of gate `k`. -/
def gateF (f : Field) (k : Nat) : Field := f.at (16 * k)
def State.gate (s : State) (f : Field) (k : Nat) : Nat := s.zget (gateF f k)

/-- START and END of a gate in 6 bytes each. -/
def State.gateTicks (s : State) (k : Nat) : List Byte :=
  beBytes (s.gate Z.RING_GATEk_1.START_HI k) 2 ++ beBytes (s.gate Z.RING_GATEk.START_LO k) 4
    ++ beBytes (s.gate Z.RING_GATEk_3.END_HI k) 2 ++ beBytes (s.gate Z.RING_GATEk_2.END_LO k) 4

/-- EN, CLASS0 and CLASS1 of a gate, in three bits. -/
def State.gateBits (s : State) (k : Nat) : Nat :=
  s.gate Z.RING_GATEk_1.EN k + 2 * s.gate Z.RING_GATEk_1.CLASS0 k + 4 * s.gate Z.RING_GATEk_1.CLASS1 k

def State.setGateBits (s : State) (k v : Nat) : State :=
  ((s.zput (gateF Z.RING_GATEk_1.EN k) v).zput (gateF Z.RING_GATEk_1.CLASS0 k) (v / 2)).zput (gateF Z.RING_GATEk_1.CLASS1 k) (v / 4)

def State.setGateTicks (s : State) (k : Nat) (bs : List Byte) : State :=
  (((s.zput (gateF Z.RING_GATEk_1.START_HI k) (beNat (slice bs 0 2))).zput (gateF Z.RING_GATEk.START_LO k) (beNat (slice bs 2 4))).zput
    (gateF Z.RING_GATEk_3.END_HI k) (beNat (slice bs 6 2))).zput (gateF Z.RING_GATEk_2.END_LO k) (beNat (slice bs 8 4))

def State.ctrlGate (s : State) (k : Nat) : List Byte := s.ctrl 3 (k + 8 * s.gateBits k) (s.gateTicks k)

/-- The 12 bytes of mirror item `i` (R320). -/
def State.mirrorItem (s : State) (i : Nat) : List Byte :=
  let a := s.sums
  let acc := beBytes (wrapBits 32 a.1) 4 ++ beBytes (wrapBits 64 a.2.1) 8 ++ beBytes (wrapBits 64 a.2.2.1) 8
    ++ beBytes (wrapBits 64 a.2.2.2.1) 8 ++ beBytes (wrapBits 64 a.2.2.2.2) 8
  match i with
  | 0 => beBytes s.lseq 4 ++ beBytes (s.zget Z.RING_RUN.RUN_NUM) 2 ++ [b8 (s.zget Z.RING_RUN.ACTIVE + 2 * s.zget Z.TIME_STAT.TAI_SET)]
    ++ List.replicate 5 0
  | 1 => (beTime s.epochTime).take 10 ++ [0, 0]
  | 2 => beBytes s.ring.stopTick 8 ++ List.replicate 4 0
  | 3 => beBytes (s.zget Z.TIME_INC.INC) 5 ++ beBytes (s.zget Z.TIME_TRIM.TRIM) 4
    ++ beBytes ((List.range 8).foldl (fun v k => v + 8 ^ k * s.gateBits k) 0) 3
  | 4 => beBytes (s.zget Z.TIME_SLEW.SLEW) 4 ++ beBytes (s.zget Z.TIME_XTAL.EPS) 4 ++ List.replicate 4 0
  | 5 => slice acc 0 12
  | 6 => slice acc 12 12
  | 7 => slice acc 24 12
  | k + 8 => s.gateTicks k

/-- The mirror set goes to the tailstock of the current LEASE. -/
def State.sendMirror (s : State) : State :=
  if s.zget Z.RING_STAT.TS_VALID = 0 then s
  else (List.range 16).foldl (fun s i => s.ringEast ([4, b8 s.node, b8 (s.zget Z.RING_STAT.TS_ID), b8 i] ++ s.mirrorItem i)) s

/-! ### SYNC (R303, R311, R315) -/

/-- The consumed rotation: 0 east-going, 1 west-going; the rotation of a block received on side `d`. -/
def rotOf : Side → Nat
  | .west => 0
  | .east => 1

def State.hopsOf (s : State) (rot : Nat) : Option Nat := if rot = 0 then s.ring.hopsE else s.ring.hopsW
def State.setHops (s : State) (rot : Nat) (h : Option Nat) : State :=
  s.updRing fun r => if rot = 0 then { r with hopsE := h } else { r with hopsW := h }

/-- The consumed rotation changes. -/
def State.turnTo (s : State) (rot : Nat) : State :=
  if s.zget Z.TIME_STAT.CLK_DIR = rot then s else (s.enterRest restDir).zput Z.TIME_STAT.CLK_DIR rot

/-- Rotation `rot`, with `h` HOPS, is the shorter one: east-going on a tie. -/
def State.shorter (s : State) (rot h : Nat) : Bool :=
  (s.hopsOf (1 - rot)).elim true fun o => decide (h < o) || (h == o && rot == 0)

/-- The rotation to consume after a SYNC of rotation `rot` with `h` HOPS: a node that does not follow takes the shorter one, east-going on
a tie; one that follows changes after 16 periods of a shorter other rotation, or when its own has delivered nothing for LOSS periods. -/
def State.chooseDir (s : State) (rot h : Nat) : State :=
  let s := s.setHops rot (some h)
  let dir := s.zget Z.TIME_STAT.CLK_DIR
  if ¬ s.following then s.zput Z.TIME_STAT.CLK_DIR (if s.shorter rot h then rot else 1 - rot)
  else if rot = dir then
    let n := match s.hopsOf (1 - dir) with
      | some o => if o < h then s.ring.better + 1 else 0
      | none => 0
    let s := s.updRing fun r => { r with better := n }
    if 16 ≤ n then (s.updRing fun r => { r with better := 0 }).turnTo (1 - dir) else s
  else if s.ring.lastSync + s.syncLoss ≤ s.time then (s.setHops dir none).turnTo rot
  else s

/-- The averaged delay of the link of side `d`, in units of 2⁻³² ns (R310). -/
def State.linkDelay (s : State) (d : Side) : Int :=
  let e := match d with
    | .east => s.ring.echoE
    | .west => s.ring.echoW
  if e.rtts = [] then 0 else e.rtts.foldl (· + ·) 0 / (2 * e.rtts.length)

/-- A SYNC of the consumed rotation: `t` its receive stamp, `cycles` the count of crystal cycles then. -/
def State.consumeSync (s : State) (d : Side) (pl : List Byte) (t cycles : Nat) : State :=
  let s := s.updRing fun r => { r with lastSync := s.time }
  let s := s.zput Z.TIME_STAT.HOPS (byteAt pl 2 + 1)
  let s := if bitAt (byteAt pl 3) 0 then s.zput Z.TIME_STAT.TAI_SET 1 else s
  let s := s.zput Z.RING_RUN.ACTIVE (byteAt pl 3 / 2)
  let src : Int := (readTime (pl.drop 4) : Int) + s.linkDelay d
  let mine := s.fromHeadstock pl
  if s.timeState = tsHeadstock then s
  else if s.following then
    if mine then (s.sample cycles src.toNat).servo (src - t) else s.enterRest restSrc
  else if s.timeState = tsRest then
    let n := if mine then s.ring.run16 + 1 else 0
    let s := s.updRing fun r => { r with run16 := n }
    if 16 ≤ n then s.leaveRest tsAcquire else s
  else if mine then
    (((s.zput Z.TIME_STAT.STATE tsAcquire).updRing fun r => { r with run16 := 0, integ := 0 }).sample cycles src.toNat).servo (src - t)
  else s

/-- RING_SYNC_RECEIVE: the copy is forwarded in its own rotation, re-stamped, and consumed in the consumed one. -/
def State.ringSync (s : State) (d : Side) (pl : List Byte) (fine : Fin 2048) (cycles : Nat) : State :=
  if srcOf pl = s.node then s
  else if s.strips pl then s.zbump Z.RING_MSG.STRIPPED 1
  else
    let h := byteAt pl 2
    let t := s.rxStamp fine
    let s := s.chooseDir (rotOf d) h
    let s := if s.zget Z.TIME_STAT.CLK_DIR = rotOf d then s.consumeSync d pl t cycles else s
    if h < 62 ∧ s.ringServes (otherSide d) then
      s.ringBlock (otherSide d) (slice pl 0 2 ++ [b8 (h + 1)] ++ slice pl 3 1 ++ beTime s.time)
    else s

/-- SYNC_LOSS (R315): LOSS periods without a consumed SYNC; the other rotation is consumed where it has delivered. -/
def State.syncLost (s : State) : State :=
  if s.following ∧ s.ring.lastSync + s.syncLoss ≤ s.time then
    let dir := s.zget Z.TIME_STAT.CLK_DIR
    let s := (s.enterRest restSync).setHops dir none
    if (s.hopsOf (1 - dir)).isSome then s.zput Z.TIME_STAT.CLK_DIR (1 - dir) else s
  else s

/-! ### Roles and leases (R318, R319) -/

/-- The headstock that this node follows changes: MASTER. -/
def State.setMaster (s : State) (n lseq : Nat) : State :=
  let known := s.zget Z.RING_STAT.HS_VALID == 1
  let old := s.zget Z.RING_STAT.HS_ID
  if known && old == n then s
  else
    let s := (s.zput Z.RING_STAT.HS_ID n).zput Z.RING_STAT.HS_VALID 1
    (s.updRing fun r => { r with prevHs := if known then some old else r.prevHs }).raise 513
      ([b8 (if known then old else 0xFF), b8 n] ++ leBytes lseq 4)

/-- The live map changes: MAP. -/
def State.setMap (s : State) (mask : Nat) : State :=
  let was := s.zget Z.RING_MAP.MASK
  let s := (s.zput Z.RING_MAP.MASK mask).updRing fun r => { r with mapSeen := true }
  if was = mask then s else s.raise 515 (leBytes mask 8)

/-- This node stops acting as headstock or candidate; a headstock enters steady rest as a plain node. -/
def State.demote (s : State) (cause : Nat) : State :=
  if s.role ≠ roHeadstock ∧ s.role ≠ roCandidate then s
  else
    let s := ((s.zput Z.RING_STAT.ROLE_NOW roPlain).updRing fun r => { r with leases := [] }).raise 514
      ([b8 cause] ++ leBytes s.lseq 4)
    if s.timeState = tsHeadstock then s.restEnter (if cause = 3 then restEn else restSrc) else s

/-- The tailstock that a LEASE names: NEXT_TAIL, or the headstock before this one; valid when it is in the map. -/
def State.nextTail (s : State) : Nat × Bool :=
  let t := if s.zget Z.RING_LEASE.NEXT_TAIL_EN = 1 then some (s.zget Z.RING_LEASE.NEXT_TAIL) else s.ring.prevHs
  match t with
  | some n => (n, bitAt (s.zget Z.RING_MAP.MASK) n)
  | none => (0, false)

/-- What a takeover continues from the mirror (R320): LSEQ, run state, TAI_SET, epoch, pending stop, TRIM, slew and gates. -/
def State.takeMirror (s : State) : State :=
  if s.zget Z.RING_STAT.MIRROR_VALID = 0 then s
  else
    let it (i : Nat) : List Byte := Tab.get [] s.ring.mirror i
    let flags := byteAt (it 0) 6
    let s := (s.zput Z.RING_RUN.RUN_NUM (beNat (slice (it 0) 4 2))).zput Z.RING_RUN.ACTIVE flags
    let s := if bitAt flags 1 then s.zput Z.TIME_STAT.TAI_SET 1 else s
    let s := (s.zput Z.TIME_TRIM.TRIM (beNat (slice (it 3) 5 4))).zput Z.TIME_SLEW.SLEW (beNat (slice (it 4) 0 4))
    let gb := beNat (slice (it 3) 9 3)
    let s := (List.range 8).foldl (fun s k => (s.setGateBits k (gb / 8 ^ k)).setGateTicks k (it (k + 8))) s
    let stop := beNat (slice (it 2) 0 8)
    let e := readTime (slice (it 1) 0 10 ++ [0, 0])
    let s := s.updRing fun r => { r with stopTick := stop }
    let s := if bitAt flags 0 ∧ ¬ s.run.active then s.beginRun e (s.firstFrame e) else s
    if stop ≠ 0 ∧ s.run.active ∧ s.run.last = none then s.stopRun (stop / 4096) (s.zget Z.RING_CFG.STOP_RETAIN == 1) 1 else s

/-- An own LEASE has returned with `mask`, having been sent at `sent`: a candidate becomes headstock; the map and the mirror follow. -/
def State.leaseReturned (s : State) (sent mask lseq : Nat) : State :=
  let s := if s.role = roCandidate then
      let s := s.takeMirror
      let s := if s.timeState = tsRest then s.leaveRest tsHeadstock else s.zput Z.TIME_STAT.STATE tsHeadstock
      (((s.zput Z.RING_STAT.ROLE_NOW roHeadstock).zput Z.TIME_STAT.HOPS 0).setMaster s.node lseq).recomputeInc
    else s
  let s := s.updRing fun r => { r with acted := max r.acted sent }
  let s := s.setMap mask
  (s.ringEast (s.ctrl 4 0 (beBytes mask 8 ++ beBytes lseq 4))).sendMirror

/-- LEASE_SEND: the next LEASE; with both sides wrapped it returns at once. -/
def State.leaseSend (s : State) : State :=
  if (s.role ≠ roHeadstock ∧ s.role ≠ roCandidate) ∨ ¬ s.ringEn then s
  else
    let n := (s.lseq + 1) % 2 ^ 32
    let tail := s.nextTail
    let s := ((s.zput Z.RING_LSEQ.LSEQ n).zput Z.RING_STAT.TS_ID tail.1).zput Z.RING_STAT.TS_VALID (b2n tail.2)
    let mask := 2 ^ s.node
    if ¬ s.ringServes .east ∧ ¬ s.ringServes .west then s.leaseReturned s.time mask n
    else
      (s.updRing fun r => { r with leases := r.leases ++ [(n, s.time)] }).ringEast
        ([5, b8 s.node, b8 (tail.1 + 128 * b2n tail.2), b8 s.lMs] ++ beBytes n 4 ++ beBytes mask 8)

/-- A LEASE that this node consumes (R319, R315). -/
def State.consumeLease (s : State) (pl : List Byte) : State :=
  let src := srcOf pl
  let n := beNat (slice pl 4 4)
  let mask := beNat (slice pl 8 8)
  let newer : Bool := decide (s.lseq < n)
  let s := if s.role = roHeadstock ∧ newer then s.demote 2 else s.demote 1
  let s := if bitAt mask s.node then s.raiseSev 515 sevError (leBytes mask 8 ++ [1]) else s
  let s := if s.zget Z.RING_STAT.HS_VALID = 1 ∧ s.zget Z.RING_STAT.HS_ID ≠ src then s.enterRest restSrc else s
  if newer then
    let tail := byteAt pl 2
    let s := ((s.zput Z.RING_LSEQ.LSEQ n).zput Z.RING_STAT.TS_ID tail).zput Z.RING_STAT.TS_VALID (tail / 128)
    let s := s.updRing fun r => { r with renewed := s.time, lms := max 1 (byteAt pl 3) }
    let mine : Bool := tail / 128 == 1 && tail % 64 == s.node && s.cfgRole != 0
    (s.zput Z.RING_STAT.ROLE_NOW (if mine then roTailstock else roPlain)).setMaster src n
  else s

/-- RING_LEASE_RECEIVE: east-going, an own LEASE returns, a higher SRC is stripped by a headstock or candidate, any other is consumed and
goes on with this node's bit. -/
def State.ringLease (s : State) (d : Side) (pl : List Byte) : State :=
  if d = .east ∧ s.ringServes .west then s.ringBlock .west pl
  else if srcOf pl = s.node then
    let n := beNat (slice pl 4 4)
    match s.ring.leases.find? fun x => x.1 == n with
    | none => s
    | some x =>
      let s := s.updRing fun r => { r with leases := r.leases.filter fun y => y.1 != n }
      if s.role = roHeadstock ∧ x.2 + msUnits s.lMs / 2 < s.time then s else s.leaseReturned x.2 (beNat (slice pl 8 8)) n
  else if s.strips pl then s.zbump Z.RING_MSG.STRIPPED 1
  else if (s.role = roHeadstock ∨ s.role = roCandidate) ∧ s.node < srcOf pl then s
  else
    (s.consumeLease pl).ringEast (slice pl 0 8 ++ beBytes (beNat (slice pl 8 8) ||| 2 ^ s.node) 8)

/-- LEASE_RETURN_TIMEOUT: no own LEASE sent within L/2 has returned. -/
def State.leaseTimeout (s : State) : State :=
  if s.role = roHeadstock ∧ s.ring.acted + msUnits s.lMs / 2 < s.time then s.demote 0 else s

/-- TAILSTOCK_TAKEOVER: L without renewal. -/
def State.takeover (s : State) : State :=
  if s.role = roTailstock ∧ s.cfgRole ≠ 0 ∧ s.ring.renewed + msUnits s.ring.lms ≤ s.time then
    (s.zput Z.RING_STAT.ROLE_NOW roCandidate).leaseSend
  else s

/-- CANDIDATE_TIMEOUT (R318): ROLE 1, and no LEASE for L with a link up, or no link within 100 ms. -/
def State.candidate (s : State) : State :=
  let up := s.ringServes .east || s.ringServes .west
  if s.ringEn ∧ s.cfgRole = 1 ∧ s.role = roPlain ∧ s.ring.renewed ≤ s.ring.enabled
      ∧ s.ring.enabled + msUnits (if up then s.lMs else 100) ≤ s.time then
    (s.zput Z.RING_STAT.ROLE_NOW roCandidate).leaseSend
  else s

/-! ### Runs over the ring (R321) -/

/-- The headstock announces a start: RUN_NUM counts, and CTRL RUN_START goes out four times. -/
def State.announceStart (s : State) : State :=
  let s := s.zput Z.RING_RUN.ACTIVE 1
  (List.range 4).foldl (fun s _ => s.ringEast (s.ctrlStart false)) s

/-- The headstock announces a stop. -/
def State.announceStop (s : State) (tick : Nat) : State :=
  let s := (s.zput Z.RING_RUN.ACTIVE 0).updRing fun r => { r with stopTick := tick }
  (List.range 4).foldl (fun s _ => s.ringEast (s.ctrlStop tick)) s

/-- The device is READY with a stack in service (R414). -/
def State.canRun (s : State) : Bool :=
  s.zget Z.BOOT_STAT.STAGE == 4 && (List.range 8).any fun n => s.inService n

/-- A RUN_START is consumed: a new RUN_NUM starts this node's run, where it can run; so does a repeated one after a safe state (R337). -/
def State.ringRunStart (s : State) (pl : List Byte) : State :=
  let n := beNat (slice pl 4 2)
  let known : Bool := n == s.zget Z.RING_RUN.RUN_NUM && !(bitAt (byteAt pl 3) 0 && !s.run.active)
  if ¬ s.fromHeadstock pl ∨ known ∨ ¬ s.canRun then s
  else
    let s := if s.run.active then (s.markEnd (s.mNext - 1)).endRun 1 (s.mNext - 1) else s
    let s := ((s.zput Z.RING_RUN.RUN_NUM n).zput Z.RING_RUN.ACTIVE 1).exitPasr
    let e := readTime (slice pl 6 10 ++ [0, 0])
    s.beginRun e (s.firstFrame e)

/-- A RUN_STOP is consumed. -/
def State.ringRunStop (s : State) (pl : List Byte) : State :=
  if ¬ s.fromHeadstock pl ∨ beNat (slice pl 4 2) ≠ s.zget Z.RING_RUN.RUN_NUM ∨ ¬ s.run.active ∨ s.run.last ≠ none then s
  else
    (s.zput Z.RING_RUN.ACTIVE 0).stopRun (beNat (slice pl 6 8) / 4096) (s.zget Z.RING_CFG.STOP_RETAIN == 1) 1

/-! ### Gates, map, mirror (R308, R319, R320) -/

def State.ringGate (s : State) (pl : List Byte) : State :=
  if ¬ s.fromHeadstock pl then s
  else
    let v := byteAt pl 3
    (s.setGateBits (v % 8) (v / 8 % 8)).setGateTicks (v % 8) (slice pl 4 12)

def State.ringMap (s : State) (pl : List Byte) : State :=
  if s.fromHeadstock pl then s.setMap (beNat (slice pl 4 8)) else s

/-- The tailstock stores an item; a set is complete when all 16 have come since item 0, whose LSEQ is the current one. -/
def State.ringMirror (s : State) (pl : List Byte) : State :=
  if byteAt pl 2 % 64 ≠ s.node ∨ s.role ≠ roTailstock ∨ ¬ s.fromHeadstock pl then s
  else
    let i := byteAt pl 3 % 16
    let s := s.updRing fun r =>
      { r with mirror := Tab.set [] r.mirror i (slice pl 4 12),
               mirrorHave := (if i = 0 then 0 else r.mirrorHave) ||| BitVec.ofNat 16 (2 ^ i) }
    if s.ring.mirrorHave = 0xFFFF#16 ∧ beNat (slice (Tab.get [] s.ring.mirror 0) 0 4) = s.lseq then
      (s.zput Z.RING_STAT.MIRROR_VALID 1).updRing fun r => { r with mirrorAt := s.time }
    else s

/-- MIRROR_TIMEOUT (R320): no complete set within L. -/
def State.mirrorLate (s : State) : State :=
  if s.role = roTailstock ∧ s.ring.mirrorAt + msUnits s.ring.lms ≤ s.time then
    (s.zput Z.RING_STAT.MIRROR_VALID 0).raise 517 (leBytes (sat 16 ((s.time - s.ring.mirrorAt) / msUnits 1)) 2)
  else s

/-- A write of word `i` of gate `k` (R308): the headstock sets it and sends CTRL GATE; elsewhere a change is refused. -/
def State.gateWrite (s : State) (k : Fin 8) (i : Fin 4) (w : Nat) : State :=
  let fs : List Field := match i with
    | 0 => [Z.RING_GATEk.START_LO]
    | 1 => [Z.RING_GATEk_1.START_HI, Z.RING_GATEk_1.EN, Z.RING_GATEk_1.CLASS0, Z.RING_GATEk_1.CLASS1]
    | 2 => [Z.RING_GATEk_2.END_LO]
    | 3 => [Z.RING_GATEk_3.END_HI]
  let fs := fs.map fun f => gateF f k
  let t := fs.foldl (fun s f => s.zput f (w / 2 ^ f.lsb)) s
  if s.role = roHeadstock then t.ringEast (t.ctrlGate k)
  else if fs.all fun f => t.zget f == s.zget f then s
  else s.zput Z.RING_STAT.REFUSED 1

/-! ### Enabling (R322, R338, R461) -/

/-- The fields of Z_RING_CFG beside EN: NODE_ID, ROLE and RING_KEY are refused while EN = 1 when a write would change them. -/
def State.ringCfgFields (s : State) (w : Nat) : State :=
  let s := s.zput Z.RING_CFG.STOP_RETAIN (w / 2048)
  let fs := [Z.RING_CFG.NODE_ID, Z.RING_CFG.ROLE, Z.RING_CFG.RING_KEY]
  let t := fs.foldl (fun s f => s.zput f (w / 2 ^ f.lsb)) s
  if fs.all fun f => t.zget f == s.zget f then s else if s.ringEn then s.zput Z.RING_STAT.REFUSED 1 else t

/-- A write of Z_RING_CFG with EN = 1: refused while the ring's gate is off; otherwise the bypass opens and the ring links train. -/
def State.ringEnable (s : State) (w : Nat) : State :=
  let was := s.ringEn
  let s := s.ringCfgFields w
  if was then s
  else if s.zget Z.CLK_GATE.RING = 0 then s.gateRefused 0x5000 10
  else
    let s := (s.zput Z.RING_CFG.EN 1).updRing fun r =>
      { r with enabled := s.time, bypass := false, mapSeen := false, renewed := 0, leases := [], hopsE := none, hopsW := none,
               better := 0, run16 := 0 }
    let s := (s.zput Z.RING_STAT.HS_VALID 0).zput Z.RING_STAT.ROLE_NOW roPlain
    (s.freshLane (.ring .east)).freshLane (.ring .west)

/-- A write of Z_RING_CFG with EN = 0 (R322, R325): as a demotion; a node that followed enters steady rest, any other is FREE. -/
def State.ringDisable (s : State) (w : Nat) : State :=
  let was := s.ringEn
  let s := s.ringCfgFields w
  if ¬ was then s
  else
    let s := (s.demote 3).enterRest restEn
    let s := ((s.zput Z.RING_CFG.EN 0).updRing fun r => { r with bypass := true }).zput Z.RING_STAT.ROLE_NOW roPlain
    (s.setLst (.ring .east) 0).setLst (.ring .west) 0

/-! ### The meanings -/

/-- RING_TRIG_RECEIVE (R205, R308): `num` is the context that an accepted TRIG takes. -/
def execRingTrigReceive (d : Side) (b : RxBlock) (num : Fin 65536) (s : State) : Result :=
  .next (s.onMessage d b (fun pl => byteAt pl 0 == 2) fun s pl => s.ringTrig num pl)

/-- SYNC_SEND (R303): the headstock sends SYNC in both rotations. -/
def execSyncSend (s : State) : Result :=
  .next (if s.role = roHeadstock ∧ s.ringEn then
      let s := if s.ringServes .east then s.ringBlock .east s.sync else s
      if s.ringServes .west then s.ringBlock .west s.sync else s
    else s)

/-- RING_SYNC_RECEIVE (R303, R311): `fine` refines the receive stamp, `cycles` counts crystal-derived 320 MHz cycles at it. -/
def execRingSyncReceive (d : Side) (b : RxBlock) (fine : Fin 2048) (cycles : Nat) (s : State) : Result :=
  .next (match s.ringTake d b with
    | (t, some pl) => if byteAt pl 0 = 1 then t.ringSync d pl fine cycles else t
    | (t, none) => t)

/-- SYNC_LOSS (R315). -/
def execSyncLoss (s : State) : Result := .next s.syncLost

/-- RING_MESSAGE_FORWARD (R302, R305): a TYPE that is reserved, or a CTRL message whose OP is not listed. -/
def execRingMessageForward (d : Side) (b : RxBlock) (s : State) : Result :=
  .next (s.onMessage d b
    (fun pl => byteAt pl 0 = 0 || decide (6 < byteAt pl 0) || (byteAt pl 0 == 3 && !(decide (1 ≤ byteAt pl 2 ∧ byteAt pl 2 ≤ 4))))
    fun s _ => s)

/-- RING_CTRL_RUN_START (R321). -/
def execRingCtrlRunStart (d : Side) (b : RxBlock) (s : State) : Result :=
  .next (s.onMessage d b (isCtrl 1) fun s pl => s.ringRunStart pl)

/-- RING_CTRL_RUN_STOP (R321). -/
def execRingCtrlRunStop (d : Side) (b : RxBlock) (s : State) : Result :=
  .next (s.onMessage d b (isCtrl 2) fun s pl => s.ringRunStop pl)

/-- RING_CTRL_GATE (R308). -/
def execRingCtrlGate (d : Side) (b : RxBlock) (s : State) : Result :=
  .next (s.onMessage d b (isCtrl 3) fun s pl => s.ringGate pl)

/-- RING_CTRL_MAP (R307). -/
def execRingCtrlMap (d : Side) (b : RxBlock) (s : State) : Result :=
  .next (s.onMessage d b (isCtrl 4) fun s pl => s.ringMap pl)

/-- RING_MIRROR_RECEIVE (R320). -/
def execRingMirrorReceive (d : Side) (b : RxBlock) (s : State) : Result :=
  .next (s.onMessage d b (fun pl => byteAt pl 0 == 4) fun s pl => s.ringMirror pl)

/-- RING_PRIM_RECEIVE (R305): not consumed. -/
def execRingPrimReceive (d : Side) (b : RxBlock) (s : State) : Result :=
  .next (s.onMessage d b (fun pl => byteAt pl 0 == 6) fun s _ => s)

/-- RUN_REPEAT_SEND (R321). -/
def execRunRepeatSend (s : State) : Result :=
  .next (if s.role = roHeadstock ∧ s.zget Z.RING_RUN.ACTIVE = 1 then s.ringEast (s.ctrlStart true) else s)

/-- GATE_WRITE (R308): word `i` of gate `k`. -/
def execGateWrite (k : Fin 8) (i : Fin 4) (w : Word) (s : State) : Result :=
  .next (s.bar0 fun s =>
    s.gateWrite k i w.toNat)

/-- LEASE_SEND (R319). -/
def execLeaseSend (s : State) : Result := .next s.leaseSend

/-- RING_LEASE_RECEIVE (R318, R319). -/
def execRingLeaseReceive (d : Side) (b : RxBlock) (s : State) : Result :=
  .next (match s.ringTake d b with
    | (t, some pl) => if byteAt pl 0 = 5 then t.ringLease d pl else t
    | (t, none) => t)

/-- LEASE_RETURN_TIMEOUT (R319). -/
def execLeaseReturnTimeout (s : State) : Result := .next s.leaseTimeout

/-- TAILSTOCK_TAKEOVER (R319). -/
def execTailstockTakeover (s : State) : Result := .next s.takeover

/-- CANDIDATE_TIMEOUT (R318). -/
def execCandidateTimeout (s : State) : Result := .next s.candidate

/-- MIRROR_TIMEOUT (R320). -/
def execMirrorTimeout (s : State) : Result := .next s.mirrorLate

/-- RING_CFG_ENABLE (R322). -/
def execRingCfgEnable (w : Word) (s : State) : Result :=
  .next (s.bar0 fun s =>
    s.ringEnable w.toNat)

/-- RING_CFG_DISABLE (R322). -/
def execRingCfgDisable (w : Word) (s : State) : Result :=
  .next (s.bar0 fun s =>
    s.ringDisable w.toNat)

end Sys2Proof.Machine
end

