-- ==== Sys2Proof/Machine/Ctrl.lean ====
section
/-!
DEFINITION. CTRL commands (R238, R242 to R245, R287), tick-exact commits (R395 to R397) and the execution of TRUE (R388).

A command is fetched into the list `cmds`, in CTRL order; `ctrlAdvance` starts commands from it in order, as far as FENCE and the waiting
rules allow.
Choices of the model: log entry 11 (DEDUCED).
-/

namespace Sys2Proof.Machine

/-! ### Entries -/

/-- The bits of ARG byte `i` that opcode `op` names (R242); the others are reserved. -/
def argMask (op i : Nat) : Nat :=
  let full (a b : Nat) : Nat := if a ≤ i ∧ i ≤ b then 255 else 0
  if op = 1 then (if i = 0 then 3 else full 2 9)
  else if op = 2 then (if i = 0 then 3 else full 2 15)
  else if op = 3 then (if i = 0 then 3 else full 4 23)
  else if op = 4 then full 0 7
  else if op = 5 then full 0 15
  else if op = 0x10 then (if i = 3 then 1 else if i ≤ 2 then 255 else if i = 7 then 0 else full 4 19)
  else if op = 0x11 ∨ op = 0x12 then (if i = 0 then 255 else full 4 6)
  else if op = 0x20 then full 0 17
  else if op = 0x21 then full 0 0
  else if op = 0x30 then full 0 3
  else if op = 0x40 then (if i = 0 then 1 else 0)
  else if op = 0x50 then full 0 11
  else if op = 0x60 then full 0 9
  else if op = 0x61 then (if i = 0 then 1 else full 8 15)
  else 0

/-- The opcodes of R242. -/
def ctrlOps : List Nat := [1, 2, 3, 4, 5, 0x10, 0x11, 0x12, 0x20, 0x21, 0x30, 0x40, 0x50, 0x60, 0x61]

/-- A listed opcode, no reserved bit set, PORTS 0 where the command has none (R238, R242, R249). -/
def Cmd.wellFormed (c : Cmd) : Bool :=
  ctrlOps.contains c.opcode && (decide (c.opcode ≤ 4) || c.ports == 0)
    && c.arg.zipIdx.all fun x => x.1.toNat &&& (255 - argMask c.opcode x.2) == 0

/-- ARG bytes `i` to `i + n - 1` as a number. -/
def Cmd.num (c : Cmd) (i n : Nat) : Nat := leNat (slice c.arg i n)

def Cmd.portList (c : Cmd) : List Port := ports16.filter fun p => bitAt c.ports p.val

/-- The command has started and not finished. -/
def Cmd.running (c : Cmd) : Bool := c.started && c.result.isNone

/-! ### Downlink traffic of commands (R242 to R245) -/

/-- Send `items` on every addressed port in ACTIVE; the other addressed ports fail.  With no port the command is done. -/
def State.cmdSend (s : State) (c : Cmd) (items : List DlItem) : State :=
  if c.ports = 0 then s.finish c.id resOk c.rdata
  else
    let n := (items.map fun i => replies i.op i.bytes).sum
    let ps := c.portList
    let s := s.updCmd c.id fun x =>
      { x with left := (ps.filter fun p => s.linkUp p).foldl (fun (t : Tab Nat) p => Tab.set 0 t p.val n) x.left }
    let s := (ps.filter fun p => !s.linkUp p).foldl (fun s p => s.failCmd c.id p) s
    (ps.filter fun p => s.linkUp p).foldl (fun s p => s.dlSend p items) s

/-- Send items ahead of the writes that wait for a pending commit (R396). -/
def State.dlUrgent (s : State) (p : Port) (items : List DlItem) : State :=
  let s := s.updPort p fun q =>
    { q with dlWait := q.dlWait.takeWhile (fun i => !i.sh) ++ items ++ q.dlWait.dropWhile (fun i => !i.sh) }
  s.dlSend p []

/-- FE_WRITE (R242, R33). -/
def State.feWrite (s : State) (c : Cmd) : State :=
  let pix := bitAt (c.num 0 1) 0
  let col := c.num 4 2
  let row := c.num 6 2
  let data := c.num 8 2
  if pix then
    if 511 < col ∨ 511 < row then s.finish c.id resParam []
    else
      let s := if bitAt (c.num 0 1) 1 then
          c.portList.foldl (fun s p => s.setGolden p.val (col * 512 + row) (BitVec.ofNat 16 data)) s
        else s
      s.cmdSend c [{ purpose := .cmd c.id, op := 3, sh := false,
                     bytes := [0, 0] ++ beBytes col 2 ++ beBytes row 2 ++ beBytes data 2 }]
  else s.cmdSend c [regWr (.cmd c.id) [(c.num 2 2, data)]]

/-- FE_READ (R242). -/
def State.feRead (s : State) (c : Cmd) : State :=
  let pix := bitAt (c.num 0 1) 0
  let col := c.num 4 2
  let row := c.num 6 2
  if c.num 8 8 % 32 ≠ 0 ∨ (pix ∧ (511 < col ∨ 511 < row)) then s.finish c.id resParam []
  else if pix then
    s.cmdSend c [{ purpose := .cmd c.id, op := 4, sh := false, bytes := [1, 0] ++ beBytes col 2 ++ beBytes row 2 }]
  else
    s.cmdSend c [{ purpose := .cmd c.id, op := 2, sh := false, bytes := [b8 (c.num 0 1 / 2), 0] ++ beBytes (c.num 2 2) 2 }]

/-- The halfwords of an image, least significant byte first (R5). -/
def leHalves : List Byte → List Nat
  | a :: b :: t => leNat [a, b] :: leHalves t
  | _ => []

/-- PIX_STREAM blocks of up to six words. -/
def streamItems (id : Nat) : Nat → List Nat → List DlItem
  | 0, _ => []
  | _, [] => []
  | n + 1, ws =>
    { purpose := .cmd id, op := 5, sh := false, bytes := [b8 (ws.take 6).length, 0] ++ halvesBytes (ws.take 6) }
      :: streamItems id n (ws.drop 6)

/-- FE_BULK with its words: the golden images first, then the window at FIRST with INC = 1, then the stream (R242). -/
def State.bulkGo (s : State) (c : Cmd) (bs : List Byte) : State :=
  let first := c.num 4 4
  let ws := leHalves bs
  let s := if bitAt (c.num 0 1) 1 then
      c.portList.foldl (fun s p => ws.zipIdx.foldl (fun s x => s.setGolden p.val (first + x.2) (BitVec.ofNat 16 x.1)) s) s
    else s
  let c := { c with rdata := leBytes ws.length 4 }
  let s := s.updCmd c.id fun x => { x with rdata := c.rdata }
  s.cmdSend c (regWr (.cmd c.id) [(0x20, first / 512 + 512), (0x21, first % 512)] :: streamItems c.id ws.length ws)

/-- The bytes that have been read for the command: LEN of them. -/
def sourceBytes (img : List Byte) (len : Nat) : List Byte := (img ++ List.replicate len 0).take len

/-- FE_BULK (R242): its rules; an undecoded source waits for the decompressor (R264). -/
def State.feBulk (s : State) (c : Cmd) : State :=
  let count := c.num 8 4
  let len := c.num 20 4
  let packed := bitAt (c.num 0 1) 0
  if count = 0 ∨ 262144 < c.num 4 4 + count ∨ (¬ packed ∧ len ≠ 2 * count) then s.finish c.id resParam []
  else if packed then s
  else match c.image with
    | none => s
    | some img => s.bulkGo c (sourceBytes img len)

/-! ### Engines (R287) -/

/-- ENGINE_LOAD with its image. -/
def State.engineLoadGo (s : State) (c : Cmd) (bs : List Byte) : State :=
  let es := engMask (c.num 0 1) (c.num 4 4)
  let prog := c.num 1 1
  let role := c.num 2 1
  match parseImage role bs with
  | none => s.finish c.id resParam []
  | some m =>
    if (List.range 96).any fun e => s.engProg e == prog && s.engRole e != role then s.finish c.id resParam []
    else if es.any fun e => s.engState e == engRunning || s.engState e == engOff then s.finish c.id resRefused []
    else (s.engLoadAll (c.num 0 1) prog es m).finish c.id resOk []

/-- ENGINE_LOAD. -/
def State.engineLoad (s : State) (c : Cmd) : State :=
  if 3 < c.num 0 1 then s.finish c.id resParam []
  else if c.num 4 4 = 0 then s.finish c.id resOk []
  else if c.num 1 1 = 0 ∨ 127 < c.num 1 1 ∨ 2 < c.num 2 1 then s.finish c.id resParam []
  else if bitAt (c.num 3 1) 0 then s
  else match c.image with
    | none => s
    | some img => s.engineLoadGo c (sourceBytes img (c.num 16 4))

/-- ENGINE_START. -/
def State.engineStart (s : State) (c : Cmd) : State :=
  let es := engMask (c.num 0 1) (c.num 4 4)
  if 3 < c.num 0 1 then s.finish c.id resParam []
  else if es.any fun e => s.engState e == engEmpty || s.engState e == engOff then s.finish c.id resRefused []
  else (es.foldl (fun s e => s.engStart e) s).finish c.id resOk []

/-- ENGINE_STOP. -/
def State.engineStop (s : State) (c : Cmd) : State :=
  let es := engMask (c.num 0 1) (c.num 4 4)
  if 3 < c.num 0 1 then s.finish c.id resParam []
  else (es.foldl (fun s e => if s.engState e = engRunning then s.engHalt e else s) s).finish c.id resOk []

/-! ### Commits (R395, R397) -/

/-- COMMIT_AT executes: late within 20,480 ticks; otherwise the SH writes of the ports wait until T (R396). -/
def State.commitAtCmd (s : State) (c : Cmd) : State :=
  let t := c.num 0 8
  if t < s.nowTick + 20480 then s.finish c.id resLate []
  else
    let s := s.updCmd c.id fun x => { x with tick := t, rdata := leBytes t 8 }
    if c.ports = 0 then s.finish c.id resOk (leBytes t 8)
    else c.portList.foldl (fun s p => s.updPort p fun q => { q with commitTill := s.tickTime t }) s

/-- Send the COMMIT blocks of command `c` for tick `t`; ports outside ACTIVE fail, those that failed before are left out. -/
def State.sendCommit (s : State) (c : Cmd) (t : Nat) : State :=
  let item : DlItem := { purpose := .cmd c.id, op := 6, sh := false, bytes := [0, 0] ++ beBytes (t / 4096 % 2 ^ 32) 4 ++ beBytes (t % 4096) 2 }
  let ps := c.portList.filter fun p => !bitAt c.fail p.val
  let s := s.updCmd c.id fun x =>
    { x with armed := true, held := false, tick := t, rdata := leBytes t 8,
             left := (ps.filter fun p => s.linkUp p).foldl (fun (l : Tab Nat) p => Tab.set 0 l p.val 1) [] }
  let s := (ps.filter fun p => !s.linkUp p).foldl (fun s p => s.failCmd c.id p) s
  ((ps.filter fun p => s.linkUp p).foldl (fun s p =>
    (s.updPort p fun q => { q with commitPend := false, commitTill := s.tickTime t }).dlUrgent p [item]) s).updCmd c.id Cmd.settle

/-- COMMIT_HOLD (R397): a commit whose blocks have been sent, and whose tick is more than 1,024 ticks ahead, is cancelled on the ports that
hold it and waits. -/
def State.holdCommit (s : State) (c : Cmd) : State :=
  let ps := c.portList.filter fun p => !bitAt c.fail p.val && s.linkUp p
  let cancel : DlItem := { purpose := .own, op := 6, sh := false, bytes := [0, 0, 0, 0, 0, 0, 0x80#8, 0] }
  let s := s.updCmd c.id fun x => { x with held := true, result := none, left := [], cflags := x.cflags ||| 1 }
  ps.foldl (fun s p =>
    (s.updPort p fun q =>
      { q with commitPend := true, commitTill := 0,
               outst := q.outst.map fun (o : Outst) => if o.purpose = .cmd c.id then { o with purpose := .own } else o,
               dlWait := q.dlWait.filter fun i => i.purpose != .cmd c.id }).dlUrgent p [cancel]) s

/-- A commit that a supply warning holds now. -/
def State.coverable (s : State) (c : Cmd) : Bool :=
  c.opcode == 4 && c.started && c.armed && !c.held && (c.result == none || c.result == some resOk || c.result == some resPortFail)
    && decide (s.time + 1024 * tickUnits < s.tickTime c.tick)

/-- Every commit that the supply warning covers is held. -/
def State.holdCommits (s : State) : State := (s.cmds.filter fun c => s.coverable c).foldl (fun s c => s.holdCommit c) s

/-! ### Snapshots: execution (R388) -/

/-- The staging slots in use. -/
def State.staging (s : State) : Nat := s.snaps.length

/-- A snapshot of tick `t` begins: it takes a staging slot. -/
def State.beginSnap (s : State) (t : Nat) (cmd : Option Nat) (tag dest : Nat) : State :=
  let x : Snap := { seq := s.zget Z.TRUE_SEQ.SEQ + 1, tick := t, instant := s.tickTime t, cmd := cmd, tag := tag, dest := dest, runId := s.run.id }
  s.updSnaps (· ++ [x])

/-- The earliest snapshot tick: the first multiple of 4 at least 20,480 ticks ahead. -/
def State.earliestTick (s : State) : Nat := (s.nowTick + 20480 + 3) / 4 * 4

/-- Some snapshot's block has not been built. -/
def State.snapUnbuilt (s : State) : Bool := s.snaps.any fun x => x.built.isNone

/-- TRUE executes. -/
def State.trueCmd (s : State) (c : Cmd) : State :=
  let dest := c.num 8 8
  let t := if c.num 0 8 = 0 then s.earliestTick else (c.num 0 8 + 3) / 4 * 4
  if dest % 4096 ≠ 0 then s.finish c.id resParam []
  else if t < s.nowTick + 20480 then s.finish c.id resLate []
  else if s.buf.stageLost ∨ 256 ≤ s.staging then s.finish c.id resRefused []
  else (s.updCmd c.id fun x => { x with tick := t, rdata := leBytes t 8 }).beginSnap t (some c.id) c.tag dest

/-! ### Runs (R242, R321) -/

/-- With the ring enabled, runs are commanded at the headstock only. -/
def State.runsHere (s : State) : Bool := !s.ringEn || s.role == roHeadstock

def State.startAllowed (s : State) : Bool := !s.run.active && s.runsHere && s.canRun

/-- RUN_START executes. -/
def State.runStart (s : State) (c : Cmd) : State :=
  let sec := c.num 0 6
  let ns := c.num 6 4
  let ms := 1000000 * nsUnits
  let auto : Bool := sec == 0 && ns == 0
  let e := if auto then (s.time + 2 * ms + ms - 1) / ms * ms else (sec * 1000000000 + ns) * nsUnits
  if ¬ s.startAllowed then s.finish c.id resRefused []
  else if 1000000000 ≤ ns ∨ e < s.time + ms then s.finish c.id resParam []
  else
    let s := if s.ringEn then s.zwrap Z.RING_RUN.RUN_NUM 1 else s
    let s := s.beginRun e 0
    let s := if s.ringEn then s.announceStart else s
    s.finish c.id resOk (leBytes s.run.id 2 ++ [0, 0] ++ leBytes (e / nsUnits % 1000000000) 4 ++ leBytes (e / nsUnits / 1000000000) 6)

/-- RUN_STOP executes: it finishes at the end of the run. -/
def State.runStop (s : State) (c : Cmd) : State :=
  if ¬ s.run.active ∨ ¬ s.runsHere then s.finish c.id resRefused []
  else
    let t := if c.num 8 8 = 0 then s.nowTick else c.num 8 8
    let s := if s.ringEn then s.announceStop t else s
    s.stopRun (t / 4096) (bitAt (c.num 0 1) 0) 1

/-- MARK executes: it stands in the first frame not yet merged. -/
def State.mark (s : State) (c : Cmd) : State :=
  if c.num 0 4 = 0 then s.finish c.id resParam []
  else if ¬ s.run.active ∨ s.run.last.elim false fun l => decide (l < s.mNext) then s.finish c.id resRefused []
  else s.updCmd c.id fun x => { x with tick := s.mNext }

/-! ### MON_CFG (R369) -/

/-- MON_CFG executes: its length, and once read its entries, are judged; an accepted block waits for the output-period boundary. -/
def State.monCfg (s : State) (c : Cmd) : State :=
  let len := c.num 8 4
  if len % 8 ≠ 0 ∨ len < 8 ∨ 2048 < len then s.finish c.id resParam []
  else match c.image with
    | none => s
    | some img =>
      let bs := sourceBytes img len
      if (monEntries bs).all monEntryOk then s.updCmd c.id fun x => { x with image := some bs } else s.finish c.id resParam []

/-! ### Start in CTRL order (R244) -/

/-- The effect of a command that starts, by its opcode (R242). -/
def State.runCmd (s : State) (c : Cmd) : State :=
  if ¬ c.wellFormed then s.finish c.id resParam []
  else if c.opcode = 1 then s.feWrite c
  else if c.opcode = 2 then s.feRead c
  else if c.opcode = 3 then s.feBulk c
  else if c.opcode = 4 then s.commitAtCmd c
  else if c.opcode = 5 then s.trueCmd c
  else if c.opcode = 0x10 then s.engineLoad c
  else if c.opcode = 0x11 then s.engineStart c
  else if c.opcode = 0x12 then s.engineStop c
  else if c.opcode = 0x20 then s.pin c.id (c.num 0 8) (c.num 8 8) (c.num 16 2)
  else if c.opcode = 0x21 then s.unpin c.id (c.num 0 1)
  else if c.opcode = 0x30 then s.mark c
  else if c.opcode = 0x40 then s.updCmd c.id fun x => { x with tick := s.xtr.fetched }
  else if c.opcode = 0x50 then s.monCfg c
  else if c.opcode = 0x60 then s.runStart c
  else s.runStop c

/-- The command starts. -/
def State.startCmd (s : State) (c : Cmd) : State :=
  (s.updCmd c.id fun x => { x with started := true }).runCmd { c with started := true }

/-- A FENCE is done once every command before it has completed and, with TRIG, every request fetched before it started. -/
def State.releaseFence (s : State) : State :=
  match s.cmds with
  | c :: _ =>
    if c.opcode = 0x40 ∧ c.running ∧ (bitAt (c.num 0 1) 0 → ¬ s.xtr.ctxs.any fun x => x.fetched.elim false fun n => decide (n < c.tick)) then
      s.finish c.id resOk []
    else s
  | [] => s

/-- The command may not start yet: a FENCE before it, a COMMIT_AT before it on one of its ports (R396), an earlier snapshot whose block is
not built (R388), or the end of self-refresh (R175). -/
def State.waits (s : State) (c : Cmd) : Bool :=
  let before := s.cmds.takeWhile fun x => x.id != c.id
  before.any (fun x => x.opcode == 0x40 && x.result.isNone)
    || (c.opcode == 4 && before.any fun x => x.opcode == 4 && x.ports &&& c.ports != 0)
    || (c.opcode == 5 && s.snapUnbuilt)
    || (c.opcode == 0x60 && s.startAllowed && (s.pasr || (c.held && !s.buffersReady)))

/-- A RUN_START that waits ends partial-array self-refresh (R175). -/
def State.wakeForRun (s : State) (c : Cmd) : State :=
  if c.opcode = 0x60 ∧ c.wellFormed ∧ s.startAllowed ∧ s.zget Z.BUF_STAT.PASR = 1 then
    (s.updCmd c.id fun x => { x with held := true }).exitPasr
  else s

/-- Start commands in CTRL order as far as they may start, at most `n` of them. -/
def State.startCmds (s : State) : Nat → State
  | 0 => s
  | n + 1 =>
    let s := s.releaseFence
    match s.cmds.find? fun c => !c.started with
    | none => s
    | some c => if s.waits c then s.wakeForRun c else (s.startCmd c).startCmds n

def State.ctrlAdvance (s : State) : State := (s.startCmds s.cmds.length).releaseFence

/-! ### Fetch and completion -/

/-- CTRL_FETCH: an entry of the CTRL ring is read and joins the commands.  `data` is what a read of the command's source returns. -/
def State.ctrlFetch (s : State) (e : List Byte) (data : Option (List Byte)) : State :=
  if ¬ s.ringUp 0 ∨ s.unfetched 0 = 0 then s
  else
    let c : Cmd := { id := s.cmdCount, opcode := leNat (slice e 0 2), ports := leNat (slice e 2 2), tag := leNat (slice e 4 4),
                     arg := (slice e 8 24 ++ List.replicate 24 0).take 24, image := data }
    let s := (s.updCmds (· ++ [c])).updCmdCount (· + 1)
    ((s.consume 0).shadow).ctrlAdvance

/-- The fetch of an entry with opcode `op` given by its fields. -/
def State.ctrlEntry (s : State) (op : Nat) (tag : Word) (ports : Half) (arg : List Byte) (data : Option (List Byte)) : State :=
  s.ctrlFetch (leBytes op 2 ++ leBytes ports.toNat 2 ++ leBytes tag.toNat 4 ++ (arg ++ List.replicate 24 0).take 24) data

/-- RDATA of FE_READ: the value of the lowest port that replied, and that port (R242). -/
def Cmd.readData (c : Cmd) : List Byte :=
  match c.vals with
  | (p, v) :: _ => leBytes (v - 1) 2 ++ [b8 p]
  | [] => []

/-- The 31 bytes of a CTRL completion (R240). -/
def Cmd.entry (c : Cmd) (r : Nat) : List Byte :=
  let rd := if c.opcode = 2 then c.readData else c.rdata
  leBytes c.tag 4 ++ leBytes c.opcode 2 ++ [b8 r, b8 c.cflags] ++ leBytes c.fail 2 ++ [0, 0] ++ (rd ++ List.replicate 16 0).take 16
    ++ [0, 0, b8 0x53]

/-- The entry of a finished COMMIT_AT waits until no warning can hold the commit any more. -/
def State.entryDue (s : State) (c : Cmd) (r : Nat) : Bool :=
  !(c.opcode == 4 && c.armed && (r == resOk || r == resPortFail) && decide (s.time + 1024 * tickUnits < s.tickTime c.tick))

/-- The 16 halfwords that FE_READ writes to DEST. -/
def Cmd.destBytes (c : Cmd) : List Byte := (List.range 16).flatMap fun p => leBytes (Tab.get 0 c.vals p - 1) 2

/-- CTRL_COMPLETION_WRITE: the oldest command, finished, gets its entry; a write to host memory goes before it. -/
def State.ctrlComplete (s : State) : State :=
  let s := s.ctrlAdvance
  match s.cmds with
  | [] => s
  | c :: rest =>
    match c.result with
    | none => s
    | some r =>
      if ¬ s.ringRoom 6 ∨ ¬ s.entryDue c r then s
      else
        let s := if c.opcode = 2 ∧ c.num 8 8 ≠ 0 ∧ (r = resOk ∨ r = resPortFail) then s.emit (.hostWrite (c.num 8 8) c.destBytes) else s
        ((s.updCmds fun _ => rest).cmplPut (c.entry r)).ctrlAdvance

/-! ### The decompressor (R264 to R266) -/

/-- A decode error: counted, shown, raised; the command completes REJECTED_PARAM. -/
def State.decodeError (s : State) (c : Cmd) (code off : Nat) : State :=
  let s := (s.zbump Z.COMP_DEC.ERRORS 1).zput Z.COMP_DEC.LAST_ERR code
  (s.raise 543 (leBytes c.opcode 2 ++ leBytes c.tag 4 ++ [b8 code] ++ leBytes off 4)).finish c.id resParam []

/-- DECOMPRESS_IMAGE: the source of the oldest command that waits for the decompressor is decoded, and the command applied. -/
def State.decompress (s : State) : State :=
  match s.cmds.find? fun c => c.running && c.image.isSome && c.left.isEmpty
      && ((c.opcode == 3 && bitAt (c.num 0 1) 0) || (c.opcode == 0x10 && bitAt (c.num 3 1) 0)) && c.tick == 0 with
  | none => s
  | some c =>
    let bulk := decide (c.opcode = 3)
    let len := if bulk then c.num 20 4 else c.num 16 4
    let limit := if bulk then 2 * c.num 8 4 else 524288
    match inflate (sourceBytes (c.image.getD []) len) limit with
    | .error (code, off) => s.decodeError c code off
    | .ok bs =>
      if bulk ∧ bs.length < limit then s.decodeError c 8 len
      else
        let s := (s.zbump Z.COMP_DEC.IMAGES 1).updCmd c.id fun x => { x with tick := 1 }
        if bulk then s.bulkGo c bs else s.engineLoadGo c bs

/-! ### Arming (R391, R395) -/

/-- What falls due 8,192 ticks before its tick. -/
def State.dueTick (s : State) (t : Nat) : Bool := decide (s.tickTime t ≤ s.time + 8192 * tickUnits)

/-- The arming of a snapshot on every port in ACTIVE (R391). -/
def State.armSnap (s : State) (x : Snap) : State :=
  let item := regWr .own [(0x61, x.tick / 4096 % 65536), (0x62, x.tick % 4096), (0x60, 1)]
  let up := ports16.filter fun p => s.linkUp p
  let s := up.foldl (fun s p => s.dlUrgent p [item]) s
  s.updSnaps fun l => l.map fun (y : Snap) =>
    if y.seq = x.seq then { y with armSent := true, armed := (up.map fun p => 2 ^ p.val).sum } else y

/-- COMMIT_ARM_SEND: every COMMIT_AT whose T is at most 8,192 ticks ahead gets its COMMIT blocks, and is held by a supply warning in force;
then every snapshot whose T is as near gets its arming. -/
def State.armSend (s : State) : State :=
  let due := s.cmds.filter fun c => c.opcode == 4 && c.running && !c.armed && c.ports != 0 && s.dueTick c.tick
  let s := due.foldl (fun s c =>
    if s.warned then (s.sendCommit c c.tick).holdCommit c else s.sendCommit c c.tick) s
  (s.snaps.filter fun x => !x.armSent && !x.latched && decide (x.instant ≤ s.time + 8192 * tickUnits)).foldl (fun s x => s.armSnap x) s

/-- COMMIT_REISSUE (R397): after clearance the held commits go out for the first frame start at least 8,192 ticks ahead. -/
def State.reissue (s : State) : State :=
  if s.warned then s
  else
    let t := (s.time + 8192 * tickUnits - s.epochTime + 4096 * tickUnits - 1) / (4096 * tickUnits) * 4096
    (s.cmds.filter fun c => c.opcode == 4 && c.running && c.held).foldl (fun s c =>
      c.portList.foldl (fun s p => s.updPort p fun q => { q with commitPend := false }) (s.sendCommit c t)) s

/-! ### The meanings -/

/-- CTRL_FETCH (R244). -/
def execCtrlFetch (entry : List Byte) (data : Option (List Byte)) (s : State) : Result := .next (s.ctrlFetch entry data)

/-- CTRL_COMPLETION_WRITE (R244). -/
def execCtrlCompletionWrite (s : State) : Result := .next s.ctrlComplete

/-- The commands of R242: the fetch of an entry with their opcode. -/
def execFeWrite (tag : Word) (ports : Half) (arg : List Byte) (s : State) : Result := .next (s.ctrlEntry 0x01 tag ports arg none)
def execFeRead (tag : Word) (ports : Half) (arg : List Byte) (s : State) : Result := .next (s.ctrlEntry 0x02 tag ports arg none)
def execFeBulk (tag : Word) (ports : Half) (arg : List Byte) (data : Option (List Byte)) (s : State) : Result :=
  .next (s.ctrlEntry 0x03 tag ports arg data)
def execCommitAt (tag : Word) (ports : Half) (arg : List Byte) (s : State) : Result := .next (s.ctrlEntry 0x04 tag ports arg none)
def execTrueSnap (tag : Word) (ports : Half) (arg : List Byte) (s : State) : Result := .next (s.ctrlEntry 0x05 tag ports arg none)
def execEngineLoad (tag : Word) (ports : Half) (arg : List Byte) (data : Option (List Byte)) (s : State) : Result :=
  .next (s.ctrlEntry 0x10 tag ports arg data)
def execEngineStart (tag : Word) (ports : Half) (arg : List Byte) (s : State) : Result := .next (s.ctrlEntry 0x11 tag ports arg none)
def execEngineStop (tag : Word) (ports : Half) (arg : List Byte) (s : State) : Result := .next (s.ctrlEntry 0x12 tag ports arg none)
def execPin (tag : Word) (ports : Half) (arg : List Byte) (s : State) : Result := .next (s.ctrlEntry 0x20 tag ports arg none)
def execUnpin (tag : Word) (ports : Half) (arg : List Byte) (s : State) : Result := .next (s.ctrlEntry 0x21 tag ports arg none)
def execMark (tag : Word) (ports : Half) (arg : List Byte) (s : State) : Result := .next (s.ctrlEntry 0x30 tag ports arg none)
def execFence (tag : Word) (ports : Half) (arg : List Byte) (s : State) : Result := .next (s.ctrlEntry 0x40 tag ports arg none)
def execMonCfg (tag : Word) (ports : Half) (arg : List Byte) (data : Option (List Byte)) (s : State) : Result :=
  .next (s.ctrlEntry 0x50 tag ports arg data)
def execRunStart (tag : Word) (ports : Half) (arg : List Byte) (s : State) : Result := .next (s.ctrlEntry 0x60 tag ports arg none)
def execRunStop (tag : Word) (ports : Half) (arg : List Byte) (s : State) : Result := .next (s.ctrlEntry 0x61 tag ports arg none)

/-- DECOMPRESS_IMAGE (R264, R266). -/
def execDecompressImage (s : State) : Result := .next s.decompress

/-- COMMIT_ARM_SEND (R395). -/
def execCommitArmSend (s : State) : Result := .next s.armSend

/-- COMMIT_REISSUE (R397). -/
def execCommitReissue (s : State) : Result := .next s.reissue

end Sys2Proof.Machine
end

