-- ==== Sys2Proof/Machine/Power.lean ====
section
/-!
DEFINITION. Clocks, voltage levels and power feeds (spec/14): reference selection, clock monitors and the safe state, the gating tree,
the levels of the gouge clusters, feeds and supply warnings.
Choices of the model: log entry 21 (DEDUCED).
-/

namespace Sys2Proof.Machine

/-! ### References (R333, R334) -/

/-- Codes of Z_CLK_SRC.SEL. -/
def selXtal : Nat := 0
def selNone : Nat := 3

/-- The ring clock of rotation `rot`: an east-going rotation arrives on RING_W. -/
def ringSel (rot : Nat) : Nat := rot + 1

def State.xtalOk (s : State) : Bool := s.zget Z.CLK_SRC.XTAL_QUAL == 1

/-- The source `sel` is qualified. -/
def State.qualified (s : State) (sel : Nat) : Bool :=
  match sel with
  | 0 => s.xtalOk
  | 1 => s.zget Z.CLK_SRC.RW_QUAL == 1
  | 2 => s.zget Z.CLK_SRC.RE_QUAL == 1
  | _ => false

def State.safe (s : State) : Bool := s.zget Z.CLK_SRC.SAFE == 1

/-- The source that R300 assigns to the time state. -/
def State.wantSel (s : State) : Nat := if s.following then ringSel (s.zget Z.TIME_STAT.CLK_DIR) else selXtal

def State.setQual (s : State) (sel : Nat) (v : Bool) : State :=
  match sel with
  | 0 => s.zput Z.CLK_SRC.XTAL_QUAL (b2n v)
  | 1 => s.zput Z.CLK_SRC.RW_QUAL (b2n v)
  | 2 => s.zput Z.CLK_SRC.RE_QUAL (b2n v)
  | _ => s

/-- The mux takes `sel`: CLK_SWITCH with the old and the new source. -/
def State.takeSource (s : State) (sel : Nat) (forced : Bool) : State :=
  let old := s.zget Z.CLK_SRC.SEL
  (s.zput Z.CLK_SRC.SEL sel).raise 537 [b8 old, b8 sel, b8 (b2n forced)]

/-! ### The safe state (R336, R337) -/

/-- Extraction contexts are discarded without completion entries; engines that carve for them finish for nobody (R251, R337). -/
def State.discardContexts (s : State) : State := s.updXtr fun x => { x with ctxs := [], queue := [] }

/-- CTRL commands that have not finished. -/
def State.unfinished (s : State) : List Nat := (s.cmds.filter fun c => c.result.isNone).map (·.id)

/-- What waits for the commands `ids` no longer does: downlink blocks not yet sent, held commits, and snapshots not yet written. -/
def State.dropWaiting (s : State) (ids : List Nat) : State :=
  let mine (p : Purpose) : Bool := ids.any fun i => p == .cmd i
  let s := ports16.foldl (fun s p => s.updPort p fun q =>
    { q with dlWait := q.dlWait.filter fun i => !mine i.purpose, commitPend := false }) s
  let s := s.updSnaps fun l => l.filter fun x => !(x.cmd.elim false fun i => ids.contains i)
  s.updBuf fun b => { b with pins := Tab.mapVals none (fun _ (r : Option PinRange) =>
    r.map fun x => if x.cmd.elim false fun i => ids.contains i then { x with cmd := none } else x) b.pins }

/-- CTRL commands in progress complete ABORTED (R243, R337). -/
def State.abortCmds (s : State) : State :=
  let ids := s.unfinished
  ids.foldl (fun s i => s.finish i resAborted []) (s.dropWaiting ids)

/-- Port `p` loses its transmitter: the port leaves ACTIVE, its lanes are down, and its Pelnos sees downlink loss (R345). -/
def State.portDark (s : State) (p : Port) : State :=
  let s := (s.portLeave p 0).setLst (.down p) 0
  let s := fins8.foldl (fun s l => s.setLst (.up p l) 0) s
  s.updChip p Pelnos.downlinkLost

/-- Every transmitter falls idle, and the ring bypass closes. -/
def State.goDark (s : State) : State :=
  let s := ports16.foldl State.portDark s
  ((s.setLst (.ring .east) 0).setLst (.ring .west) 0).updRing fun r => { r with bypass := true }

/-- Every channel that carries traffic or is stalled goes to self-refresh. -/
def State.refreshAll (s : State) : State :=
  (List.range 8).foldl (fun s n => (s.chMove n chActive chRefresh).chMove n chStalled chRefresh) s

/-- The safe state is entered by clock `cause` (R336). -/
def State.enterSafe (s : State) (cause : Nat) : State :=
  if s.safe then s
  else
    let s := (s.abortCmds.zput Z.CLK_SRC.SAFE 1).zput Z.CLK_SRC.SEL selNone
    let s := (s.zbump Z.SAFE_STAT.COUNT 1).updPwr fun p => { p with safeCause := cause }
    let s := s.raiseSev 538 sevFatal [1, b8 cause]
    let s := (s.updHost fun h => { h with dmaStop := true }).goDark
    (s.refreshAll.updMon fun m => { m with dwell := false }).ilUpdateAll

/-- The source with which the safe state can end; none: no reference qualifies for this time state. -/
def State.exitSel (s : State) : Option Nat :=
  let ring : Bool := s.following || s.timeState == tsRest
  let mine := ringSel (s.zget Z.TIME_STAT.CLK_DIR)
  if s.following ∧ s.qualified mine then some mine
  else if s.xtalOk then some selXtal
  else if ring ∧ s.qualified mine then some mine
  else if ring ∧ s.qualified (3 - mine) then some (3 - mine)
  else none

/-- The time state at exit (R337 item 4). -/
def State.exitTime (s : State) (sel : Nat) : State :=
  if s.timeState = tsHeadstock then s.zput Z.TIME_STAT.TAI_SET 0
  else if sel = selXtal then s.enterRest restClock
  else
    let s := s.zput Z.TIME_STAT.CLK_DIR (sel - 1)
    if s.timeState = tsRest then s.leaveRest tsAcquire
    else (s.zput Z.TIME_STAT.STATE tsAcquire).updRing fun r => { r with run16 := 0, integ := 0 }

/-- Channels leave self-refresh for one complete retrain, unless partial-array self-refresh or an earlier stage of bring-up holds them. -/
def State.wakeChannels (s : State) : State :=
  if s.zget Z.BUF_STAT.PASR = 1 ∨ s.zget Z.BOOT_STAT.STAGE < 4 then s
  else
    (List.range 8).foldl (fun s n =>
      (s.chMove n chRefresh chStalled).updStack n fun x => { x with slices := [(0, 16), (1, 16), (2, 16), (3, 16)] }) s

/-- A run in progress ends with the frame committed last (R337 item 3, R403). -/
def State.cutRun (s : State) (kind : Nat) : State :=
  if s.run.active then (s.markEnd (s.mNext - 1)).endRun kind (s.mNext - 1) else s

/-- The ring links begin again where the ring is enabled. -/
def State.ringLight (s : State) : State :=
  if s.ringEn then
    ((s.updRing fun r => { r with bypass := false }).freshLane (.ring .east)).freshLane (.ring .west)
  else s

/-- A bring-up stage that the safe state stopped begins again (R415). -/
def State.restartStage (s : State) : State :=
  if s.zget Z.BOOT_STAT.STAGE = 3 then (List.range 8).foldl (fun s n => s.updStack n fun x => { x with ready := false }) s
  else s

/-- SAFE_STATE_EXIT: the safe state lasted `us` µs. -/
def State.exitSafe (s : State) (us : Nat) : State :=
  match s.exitSel with
  | none => s
  | some sel =>
    if ¬ s.safe then s
    else
      let n := s.xtr.ctxs.length
      let s := s.wakeChannels.abortCmds.discardContexts
      let s := (s.updHost fun h => { h with dmaStop := false }).cutRun 3
      let s := (s.exitTime sel).takeSource sel false
      let s := ((s.zput Z.CLK_SRC.SAFE 0).zput Z.SAFE_STAT.LAST_US (sat 16 us)).restartStage
      let s := (ports16.foldl State.restartPort s).ringLight
      s.raiseSev 538 sevError ([0, b8 s.pwr.safeCause] ++ leBytes (sat 32 us) 4 ++ leBytes n 3)

/-! ### Clock monitors (R335) -/

/-- The PCIe link takes a new state: LINK (R249, R250). -/
def State.pcieLink (s : State) (speed width : Nat) (flit : Bool) : State :=
  let s := ((s.zput Z.HOST_LINK.SPEED speed).zput Z.HOST_LINK.WIDTH width).zput Z.HOST_LINK.FLIT (b2n flit)
  s.raise 524 [b8 speed, b8 width, b8 (b2n (speed != 0) + 2 * b2n flit)]

/-- The ring clock in use is lost: the crystal takes over with steady rest, or the safe state follows. -/
def State.ringClockLost (s : State) (sel cause : Nat) : State :=
  if s.zget Z.CLK_SRC.SEL ≠ sel then s
  else if s.xtalOk then s.enterRest restClock
  else s.enterSafe cause

/-- The crystal in use is lost: a node of a ring moves to a qualified ring clock and ACQUIRE; a headstock, or a node without one, goes to the
safe state. -/
def State.xtalLost (s : State) : State :=
  if s.zget Z.CLK_SRC.SEL ≠ selXtal then s
  else
    let mine := ringSel (s.zget Z.TIME_STAT.CLK_DIR)
    let sel := if s.qualified mine then mine else 3 - mine
    if s.timeState = tsHeadstock ∨ ¬ s.ringEn ∨ ¬ s.qualified sel then s.enterSafe 0
    else if s.following then s
    else s.exitTime sel

/-- The monitor of the clock is masked: a planned stop or relock, or a frequency check without a reference. -/
def State.clockMasked (s : State) (i : Nat) (freq : Bool) : Bool :=
  (freq && !s.qualified 0 && !s.qualified 1 && !s.qualified 2)
    || (decide (4 ≤ i ∧ i < 8) && ((s.gcl (i - 4)).phase == .relockUp || (s.gcl (i - 4)).phase == .relockDown))
    || (decide (8 ≤ i ∧ i < 16) && s.zget (ZS.DPT.SWITCHING.stack (i - 8)) == 1)

/-- CLOCK_MONITOR_TRIP. -/
def State.clockTrip (s : State) (i : Nat) (freq : Bool) : State :=
  if s.clockMasked i freq then s
  else
    let s := (s.zbit Z.CLK_MON.TRIP i true).raise 536 [b8 i, b8 (b2n freq)]
    if i = 0 then (s.setQual 0 false).xtalLost
    else if i = 1 ∨ i = 2 then (s.setQual i false).ringClockLost i i
    else if i = 3 then s.enterSafe 3
    else if i < 8 then s.updGcl (i - 4) fun g => { g with tripped := true }
    else if i < 16 then
      if s.inService (i - 8) ∧ ¬ s.safe then (s.skip (i - 8) true).chMove (i - 8) chActive chStalled else s
    else if i = 16 then s.pcieLink 0 0 false
    else if i = 17 then ((s.updPwr fun p => { p with monTrip := true }).updMon fun m => { m with dwell := false }).ilUpdateAll
    else s

/-! ### The gating tree (R338) -/

/-- A child of port gate `p`, of stack gate `n`, is enabled. -/
def State.portBusy (s : State) (p : Nat) : Bool := s.zget (ZP.LCTL.LANE_EN.port p) != 0 || s.zget (ZP.CTL.MERGE_EN.port p) == 1
def State.stackBusy (s : State) (n : Nat) : Bool := s.inService n || [0, 1, 2, 3].any fun c => s.chState n c != chOff

/-- One bit of Z_CLK_GATE, `v` as written: refused when it would close the gate of an enabled child.  The gate of a port that failed its
self-test stays closed (R407). -/
def State.gateBit (s : State) (w : Nat) (f : Field) (i : Nat) (busy failed : Bool) : State :=
  let v := bitAt w (f.lsb + i)
  if v = bitAt (s.zget f) i then s
  else if ¬ v ∧ busy then s.gateRefused 0x9008 (f.lsb + i)
  else if v ∧ failed then s
  else s.zbit f i v

/-- CLOCK_GATE_WRITE: each bit is judged by itself. -/
def State.gatesWrite (s : State) (w : Nat) : State :=
  let s := (List.range 16).foldl (fun s p => s.gateBit w Z.CLK_GATE.PORT p (s.portBusy p) (bitAt (s.zget Z.BOOT_FAIL.PORT) p)) s
  let s := (List.range 8).foldl (fun s n => s.gateBit w Z.CLK_GATE.STACK n (s.stackBusy n) false) s
  let s := s.gateBit w Z.CLK_GATE.RING 0 s.ringEn false
  s.gateBit w Z.CLK_GATE.MON 0 (s.zget Z.MON_CTL.SCAN_EN == 1) false

/-- CLUSTER_EN_WRITE: off is refused while an engine of the cluster is not in OFF (R293). -/
def State.clusterEn (s : State) (n : Nat) (en : Bool) : State :=
  if ¬ en ∧ (List.range 24).any (fun i => s.zget (ZE.CTL.OFF.geng (24 * n + i)) == 0) ∧ s.zget (ZC.CTL.EN.gcl n) = 1 then
    s.gateRefused (ZC.CTL.EN.gcl n).off 0
  else s.zput (ZC.CTL.EN.gcl n) (b2n en)

/-! ### Levels of the clusters (R339, R340) -/

/-- The effective target: L1 at most during a cap. -/
def State.effTarget (s : State) (n : Nat) : Nat :=
  let t := s.zget (ZC.DVFS.TARGET.gcl n)
  if s.zget (ZC.DVFS.CAPPED.gcl n) = 1 then min t 1 else t

def State.level (s : State) (n : Nat) : Nat := s.zget (ZC.DVFS.LEVEL.gcl n)

def State.dvfsPhase (s : State) (n : Nat) (ph : DvfsPhase) (goal : Nat) : State :=
  (s.zput (ZC.DVFS.SWITCHING.gcl n) (b2n (ph != .idle))).updGcl n fun g => { g with phase := ph, goal := goal }

/-- What the sequencer does next, the rail having settled: ramp up to the effective target, relock at it, ramp down to it, or rest.  After a
failed attempt the rail goes back to the level in force and rests there. -/
def State.dvfsNext (s : State) (n : Nat) : State :=
  let g := s.gcl n
  let e := if g.failed then s.level n else s.effTarget n
  if g.rail < e then s.dvfsPhase n .rampUp e
  else if s.level n < e then s.dvfsPhase n .relockUp e
  else if e < s.level n then s.dvfsPhase n .relockDown e
  else if e < g.rail then s.dvfsPhase n .rampDown e
  else s.dvfsPhase n .idle e

/-- The effective target may have changed: a cluster at rest starts; a change in progress takes it up when its ramp or relock ends. -/
def State.dvfsEval (s : State) (n : Nat) : State := if (s.gcl n).phase = .idle then s.dvfsNext n else s

/-- A cap: a raising ramp reverses at once, to the capped level or, when that is lower, to the level whose frequency is in force. -/
def State.dvfsCap (s : State) (n : Nat) : State :=
  let s := s.zput (ZC.DVFS.CAPPED.gcl n) 1
  let g := s.gcl n
  let goal := max (s.effTarget n) (s.level n)
  if g.phase = .rampUp ∧ goal < g.goal then s.dvfsPhase n .rampDown goal else s.dvfsEval n

def State.dvfsTarget (s : State) (n target : Nat) : State :=
  ((s.zput (ZC.DVFS.TARGET.gcl n) target).updGcl n fun g => { g with failed := false }).dvfsEval n

/-- Power-good at the end of a ramp. -/
def State.powerGood (s : State) (n : Nat) : State :=
  let g := s.gcl n
  if g.phase = .rampUp ∨ g.phase = .rampDown then (s.updGcl n fun g => { g with rail := g.goal }).dvfsNext n else s

/-- The PLL has relocked: after a level change, or after its trip. -/
def State.pllRelock (s : State) (n : Nat) : State :=
  let g := s.gcl n
  if g.phase = .relockUp ∨ g.phase = .relockDown then
    ((s.zput (ZC.DVFS.LEVEL.gcl n) g.goal).updGcl n fun g => { g with tripped := false }).dvfsNext n
  else s.updGcl n fun g => { g with tripped := false }

/-- No power-good within 50 µs: the rail returns to the voltage of the level in force. -/
def State.pgTimeout (s : State) (n : Nat) : State :=
  let g := s.gcl n
  if g.phase = .rampUp ∨ g.phase = .rampDown then
    let s := (s.updGcl n fun g => { g with failed := true }).dvfsPhase n .rampDown (s.level n)
    (s.zbit Z.PWR_DVFS.PG_FAIL n true).raise 540 [2, b8 n]
  else s

/-! ### Feeds (R341) -/

def feedOkF (b : Bool) : Field := if b then Z.PWR_FEED.B_OK else Z.PWR_FEED.A_OK
def feedVF (b : Bool) : Field := if b then Z.PWR_FEED.B_V else Z.PWR_FEED.A_V

def State.feedEvent (s : State) (feed : Bool) (kind ns volt : Nat) : State :=
  s.raise 541 ([b8 (b2n feed), b8 kind] ++ leBytes ns 4 ++ [b8 volt])

/-- A feed is blocked: with the other one in service a gap begins, during which the outputs hold. -/
def State.feedLoss (s : State) (feed : Bool) (volt : Nat) : State :=
  if s.zget (feedOkF feed) = 0 then s
  else
    let s := (s.zput (feedOkF feed) 0).zput (feedVF feed) volt
    if s.zget (feedOkF (!feed)) = 1 then
      (s.zbump Z.PWR_FEED.SWITCHES 1).updPwr fun p =>
        { p with hold := true, holdAt := if p.hold then p.holdAt else s.time, gapFeed := b2n feed, gapEnd := none }
    else s.feedEvent feed 0 0 volt

/-- V_IN has settled: the gap ends, and FEED reports its duration. -/
def State.feedGapEnd (s : State) (ns volt : Nat) : State :=
  if s.pwr.hold ∧ s.pwr.gapEnd.isNone then
    (s.updPwr fun p => { p with gapEnd := some s.time }).feedEvent (s.pwr.gapFeed == 1) 0 ns volt
  else s

/-- The hold of the outputs ends 2 µs after the gap. -/
def State.outputHoldEnd (s : State) : State :=
  match s.pwr.gapEnd with
  | some t =>
    if s.pwr.hold ∧ t + 2000 * nsUnits ≤ s.time then (s.updPwr fun p => { p with hold := false, gapEnd := none }).calStart else s
  | none => s

/-! ### Supply warnings (R342, R343) -/

def State.clusters (s : State) (f : State → Nat → State) : State := [0, 1, 2, 3].foldl f s

/-- A rail enters warning, at `low` thousandths of nominal. -/
def State.warnEntry (s : State) (i low : Nat) : State :=
  let first := !s.warned
  if bitAt (s.zget Z.PWR_RAIL.WARN) i then
    s.updPwr fun p => { p with warnMin := Tab.upd 0 p.warnMin i fun m => min m low }
  else
    let s := (s.zbit Z.PWR_RAIL.WARN i true).zbit Z.PWR_RAIL.DIPPED i true
    let s := s.updPwr fun p => { p with warnAt := Tab.set 0 p.warnAt i (s.time + 1), warnMin := Tab.set 0 p.warnMin i low }
    let s := s.raise 540 [0, b8 i]
    if first then
      let s := (s.clusters State.dvfsCap).holdCommits
      (s.updRun fun r => { r with warns := spanOpen s.time r.warns }).updMon fun m => { m with sup := true }
    else s

/-- A rail leaves warning; `low` is the lowest that it has been. -/
def State.warnClear (s : State) (i low : Nat) : State :=
  if ¬ bitAt (s.zget Z.PWR_RAIL.WARN) i then s
  else
    let low := min low (Tab.get 0 s.pwr.warnMin i)
    let us := (s.time - (Tab.get 0 s.pwr.warnAt i - 1)) / (1000 * nsUnits)
    let s := (s.zbit Z.PWR_RAIL.WARN i false).updPwr fun p => { p with warnAt := Tab.set 0 p.warnAt i 0, warnMin := Tab.set 0 p.warnMin i 0 }
    let s := ((s.zput Z.PWR_WARN.RAIL i).zput Z.PWR_WARN.DUR_US (sat 16 us)).zput Z.PWR_WARN.MIN low
    let s := s.raise 540 ([1, b8 i] ++ leBytes (sat 32 us) 4 ++ leBytes low 2)
    if s.warned then s
    else (s.updPwr fun p => { p with clearAt := s.time }).updRun fun r => { r with warns := spanClose s.time r.warns }

/-- CAP_LIFT: 1 ms after clearance. -/
def State.capLift (s : State) : State :=
  if s.warned ∨ s.time < s.pwr.clearAt + 1000000 * nsUnits then s
  else s.clusters fun s n =>
    if s.zget (ZC.DVFS.CAPPED.gcl n) = 1 then (s.zput (ZC.DVFS.CAPPED.gcl n) 0).dvfsEval n else s

/-! ### The meanings -/

/-- CLUSTER_EN_WRITE (R293, R338). -/
def execClusterEnWrite (n : Fin 4) (en : Bool) (s : State) : Result :=
  .next (s.bar0 fun s =>
    s.clusterEn n en)

/-- DVFS_TARGET_WRITE (R339). -/
def execDvfsTargetWrite (n target : Fin 4) (s : State) : Result :=
  .next (s.bar0 fun s =>
    s.dvfsTarget n target)

/-- DVFS_POWER_GOOD (R339). -/
def execDvfsPowerGood (n : Fin 4) (s : State) : Result := .next (s.powerGood n)

/-- DVFS_PLL_RELOCK (R335, R339). -/
def execDvfsPllRelock (n : Fin 4) (s : State) : Result := .next (s.pllRelock n)

/-- DVFS_PG_TIMEOUT (R340). -/
def execDvfsPgTimeout (n : Fin 4) (s : State) : Result := .next (s.pgTimeout n)

/-- CRYSTAL_QUALIFY (R333): the start-up took `ms` ms. -/
def execCrystalQualify (ms : Byte) (s : State) : Result :=
  .next (if s.xtalOk then s else (s.setQual 0 true).zput Z.CLK_SRC.XTAL_MS ms.toNat)

/-- RING_CLOCK_QUALIFY (R333): the clock of ring side `d` qualifies, or is unqualified. -/
def execRingClockQualify (d : Side) (ok : Bool) (s : State) : Result :=
  let sel := match d with | .west => 1 | .east => 2
  .next (if ok then (if s.lst (.ring d) = 5 ∨ s.safe then s.setQual sel true else s)
    else if s.qualified sel then (s.setQual sel false).ringClockLost sel sel
    else s)

/-- CLOCK_SOURCE_SWITCH (R334): glitch-free, from a source that still runs. -/
def execClockSourceSwitch (sel : Fin 3) (s : State) : Result :=
  let old := s.zget Z.CLK_SRC.SEL
  .next (if sel.val = old ∨ s.safe ∨ s.wantSel ≠ sel.val ∨ ¬ s.qualified sel then s else s.takeSource sel false)

/-- CLOCK_SWITCH_FORCED (R334): the old clock has stopped. -/
def execClockSwitchForced (sel : Fin 3) (s : State) : Result :=
  let old := s.zget Z.CLK_SRC.SEL
  .next (if sel.val = old ∨ s.safe ∨ s.wantSel ≠ sel.val ∨ ¬ s.qualified sel then s
    else (s.zbump Z.CLK_SRC.FORCED 1).takeSource sel true)

/-- CLOCK_MONITOR_TRIP (R335): by a missing edge, or by frequency. -/
def execClockMonitorTrip (clock : Fin 19) (freq : Bool) (s : State) : Result := .next (s.clockTrip clock freq)

/-- SAFE_STATE_EXIT (R337). -/
def execSafeStateExit (us : Word) (s : State) : Result := .next (s.exitSafe us.toNat)

/-- CLOCK_GATE_WRITE (R338). -/
def execClockGateWrite (w : Word) (s : State) : Result := .next (s.gatesWrite w.toNat)

/-- FEED_LOSS (R341): FEED_A, or FEED_B where `feed` holds, at `volt` tenths of a volt. -/
def execFeedLoss (feed : Bool) (volt : Byte) (s : State) : Result := .next (s.feedLoss feed volt.toNat)

/-- FEED_GAP_END (R341): the gap lasted `ns` ns. -/
def execFeedGapEnd (ns : Word) (volt : Byte) (s : State) : Result := .next (s.feedGapEnd ns.toNat volt.toNat)

/-- OUTPUT_HOLD_END (R341). -/
def execOutputHoldEnd (s : State) : Result := .next s.outputHoldEnd

/-- FEED_RETURN (R341). -/
def execFeedReturn (feed : Bool) (volt : Byte) (s : State) : Result :=
  .next (if s.zget (feedOkF feed) = 1 then s
    else ((s.zput (feedOkF feed) 1).zput (feedVF feed) volt.toNat).feedEvent feed 1 0 volt.toNat)

/-- FEED_LOW (R341): FEED, and nothing else. -/
def execFeedLow (feed : Bool) (volt : Byte) (s : State) : Result :=
  .next (if s.zget (feedOkF feed) = 1 ∧ s.zget (feedOkF (!feed)) = 1 ∧ volt.toNat < 108 then
      (s.zput (feedVF feed) volt.toNat).feedEvent feed 2 0 volt.toNat
    else s)

/-- SUPPLY_WARNING_ENTRY (R343). -/
def execSupplyWarningEntry (rail : Fin 12) (low : Fin 4096) (s : State) : Result := .next (s.warnEntry rail low)

/-- SUPPLY_WARNING_CLEAR (R342, R343). -/
def execSupplyWarningClear (rail : Fin 12) (low : Fin 4096) (s : State) : Result := .next (s.warnClear rail low)

/-- CAP_LIFT (R343). -/
def execCapLift (s : State) : Result := .next s.capLift

/-- MONITOR_CLOCK_RETURN (R335): the scan resumes at the next output. -/
def execMonitorClockReturn (s : State) : Result :=
  .next (if s.pwr.monTrip then (s.updPwr fun p => { p with monTrip := false }).ilUpdateAll else s)

end Sys2Proof.Machine
end

