-- ==== Sys2Proof/Machine/Boot.lean ====
section
/-!
DEFINITION. Resets and bring-up of Zwiuc (spec/17): power-on and warm reset, the stages CLOCKS, SELFTEST and DRAM, and the retry of a
stack.
Choices of the model: log entries 14 (DESIGN CHOICE), 22 (DEDUCED).
-/

namespace Sys2Proof.Machine

/-! ### Resets (R402, R403) -/

/-- The reset of everything outside the always-on domain.  The front ends see their downlinks vanish; the queue of commands and the
model's own records go on. -/
def State.chipReset (s : State) (cause rail : Nat) : State :=
  let r : State := { pending := s.pending, out := s.out, free := s.free, chips := s.chips.map Pelnos.downlinkLost,
                       pwr := { perst := s.pwr.perst } }
  (r.zput Z.PWR_RSTCAUSE.CAUSE cause).zput Z.PWR_RSTCAUSE.RAIL rail

/-- Register fields that `r` takes over from `s`. -/
def State.carry (r s : State) (fs : List Field) : State := fs.foldl (fun r f => r.zput f (s.zget f)) r

/-- What the DRAM keeps of the pinned ranges: a range whose PIN had not completed holds what it had pinned, or nothing. -/
def State.settlePins (s : State) : State :=
  (List.range 64).foldl (fun s k =>
    match Tab.get none s.buf.pins k with
    | some r =>
      if r.cmd.isSome then
        match r.got with
        | some g => s.updPin k fun r => { r with cmd := none, clipped := true, first := g.1, last := g.2 }
        | none => s.freeSlot k
      else s
    | none => s) s

/-- The runs with a line in a billet that satisfies `p` expire. -/
def State.expireWhere (s : State) (p : Nat → Bool) : State :=
  let dead := (List.filter (fun x => x.2.valid && !x.2.expired && (s.entBillets x.2).any p) s.buf.dir).map (·.1)
  dead.foldl (fun s k => s.expireSlot k false) s

/-- A gather that a warm reset cuts off: runs with a line in a rank that is not kept expire (R416). -/
def State.dropGather (s : State) : State :=
  if s.zget Z.BUF_STAT.GATHER = 1 then (s.expireWhere fun b => !s.keptBillet b).loseRanks else s

/-- The stacks in service. -/
def State.stacksIn (s : State) : List Nat := (List.range 8).filter fun n => s.inService n

/-- The merger stops at once: the writer's buffer reaches DRAM and a run in progress ends with the frame committed last (R403). -/
def State.stopForReset (s : State) : State :=
  let s := s.writeLines s.buf.wbuf.length
  let s := s.updBuf fun b => { b with wbuf := [] }
  let s := if s.run.active then s.markEnd (s.mNext - 1) else s
  s.closeRun.settlePins.dropGather

/-- The registers of stack `n` that describe what its DRAM holds: the spare in use and the hard counts. -/
def keptFields (n : Nat) : List Field := [ZS.ICTL.SPARE.stack n, ZS.ICTL.SPARE_RANK.stack n, hardF n 0, hardF n 4]

/-- What survives in a kept stack: its contents and spare; a migration starts again at bring-up with its rank retired (R416). -/
def State.keepStack (r s : State) (n : Nat) : State :=
  let old := s.stack n
  let mig := s.zget (ZS.MIG.ACTIVE.stack n) == 1
  let r := r.carry s (keptFields n)
  let r := if mig then r.zput (ZS.ICTL.SPARE.stack n) 0 else r
  let r := r.updStack n fun x =>
    { x with due := (if mig then [(s.zget (ZS.MIG.RANK.stack n), old.migCause)] else []) ++ old.due }
  [0, 1, 2, 3].foldl (fun r c => r.setChState n c chRefresh) r

/-- Contents of the DRAM that the metadata describe. -/
def State.keepBuffer (r s : State) : State :=
  let b := s.buf
  let r := r.updBuf fun _ =>
    { mem := b.mem, dmg := b.dmg, alloc := b.alloc, billets := b.billets, dir := b.dir, dirSeq := b.dirSeq, pins := b.pins, pdir := b.pdir,
      page := b.page, opens := b.opens, golden := b.golden, pinLost := b.pinLost, stageLost := b.stageLost, sizes := b.sizes }
  let r := r.updRun fun x => { x with id := s.run.id }
  s.stacksIn.foldl (fun r n => r.keepStack s n) r

/-- WARM_RESET: with KEEP the buffer's contents survive. -/
def State.warmReset (s : State) : State :=
  let s := s.stopForReset
  let r := (s.chipReset 3 0).carry s [Z.BOOT_CFG.DRAM_TEST, Z.BOOT_CFG.KEEP, Z.CLK_SRC.XTAL_QUAL]
  if s.zget Z.BOOT_CFG.KEEP = 1 ∧ s.stacksIn ≠ [] then
    (r.keepBuffer s).updPwr fun p => { p with kept := BitVec.ofNat 8 (s.zget Z.BUF_STAT.IN_SERVICE) }
  else r

/-! ### Stages (R406 to R409) -/

def stClocks : Nat := 1
def stTest : Nat := 2
def stDram : Nat := 3
def stReady : Nat := 4
def stFailed : Nat := 5

def State.stage (s : State) : Nat := s.zget Z.BOOT_STAT.STAGE

/-- RESET_RELEASE. -/
def State.release (s : State) : State :=
  if s.stage ≠ 0 then s
  else (s.zput Z.BOOT_STAT.STAGE stClocks).zput Z.BOOT_STAT.WARM (b2n (s.zget Z.PWR_RSTCAUSE.CAUSE == 3))

/-- CLOCKS_STAGE_DONE: the system PLL has locked; the clusters move toward their targets. -/
def State.clocksDone (s : State) : State :=
  if s.stage ≠ stClocks ∨ ¬ s.xtalOk ∨ s.safe then s else (s.zput Z.BOOT_STAT.STAGE stTest).clusters State.dvfsEval

/-- Engine `e` is put in OFF. -/
def State.engineOff (s : State) (e : Nat) : State := (s.zput (ZE.CTL.OFF.geng e) 1).zput (ZE.STAT.STATE.geng e) engOff

/-- Stack `n` begins its DRAM stage: start-up training of its channels (R169). -/
def State.startStack (s : State) (n : Nat) : State :=
  ([0, 1, 2, 3].foldl (fun s c => s.setChState n c chTraining) s).updStack n fun x => { x with training := true, trained := [], ready := false }

/-- SELFTEST_COMPLETE: failures degrade the device (R407). -/
def State.selftest (s : State) (engs shm queues : Nat) (core : Bool) : State :=
  if s.stage ≠ stTest ∨ s.safe then s
  else
    let s := (List.range 96).foldl (fun s e =>
      if bitAt engs e then (s.engineOff e).zbit (Z.BOOT_ENGk.FAILED.at (4 * (e / 32))) (e % 32) true else s) s
    let s := (List.range 4).foldl (fun s n =>
      if bitAt shm n then
        (((List.range 24).foldl (fun s i => s.engineOff (24 * n + i)) s).zput (ZC.CTL.EN.gcl n) 0).zbit Z.BOOT_FAIL.SHM n true
      else s) s
    let s := (List.range 16).foldl (fun s p =>
      if bitAt queues p then
        let s := (s.zput (ZP.LCTL.LANE_EN.port p) 0).zput (ZP.CTL.MERGE_EN.port p) 0
        (s.zbit Z.CLK_GATE.PORT p false).zbit Z.BOOT_FAIL.PORT p true
      else s) s
    if core then (s.zput Z.BOOT_FAIL.CORE 1).zput Z.BOOT_STAT.STAGE stFailed
    else (List.range 8).foldl (fun s n => if s.pwr.kept.getLsbD n then s else s.startStack n) (s.zput Z.BOOT_STAT.STAGE stDram)

/-- Channel `c` of stack `n` ends its part of the DRAM stage; `kept`: a retrain at the exit of self-refresh, with no test.  A channel that
stands frozen stays so. -/
def State.chanStage (s : State) (n c : Nat) (kept : Bool) (r : DramRes) : State :=
  let point := s.zget (ZS.DPT.POINT.stack n)
  if (Tab.get none (s.stack n).freeze c).isSome then s
  else match r with
  | .ok other w h =>
    let s := (s.zput (setF n c point) 1).zput (setF n c (1 - point)) (b2n (other && s.zget (ZS.CTL.TRAIN_BOTH.stack n) == 1))
    let s := (s.zput (chanF ZS.CHSTATc.MARGIN_W n c) w.toNat).zput (chanF ZS.CHSTATc.MARGIN_H n c) h.toNat
    (s.updStack n fun x => { x with trained := Tab.set 0 x.trained (c + 4 * point) s.time }).setChState n c chActive
  | .noSet => if kept then s.setChState n c chOff else s.freeze n c 4 0 []
  | .testFail a =>
    if kept then s.setChState n c chOff else s.freeze n c 3 a.toNat (s.pageDamage (4 * n + c) (a.toNat / 2048))

/-- Initialisation and test overwrite what the stack held. -/
def State.wipeStack (s : State) (n : Nat) : State :=
  let mine (k : Nat) : Bool := decide (k / 2 ^ 32 / 4 = n ∧ k / 2 ^ 32 < 32) || decide (k / 2 ^ 32 = 32 + n)
  s.updBuf fun b => { b with mem := List.filter (fun e => !mine e.1) b.mem, dmg := List.filter (fun e => !mine e.1) b.dmg }

/-- The DRAM stage of stack `n` ends (R408, R409). -/
def State.stackStage (s : State) (n : Nat) (kept spareBad : Bool) (rs : List DramRes) : State :=
  let s := if kept then s else
    (s.wipeStack n).zput (ZS.ICTL.SPARE.stack n)
      (if spareBad then 3 else if s.zget (ZS.ICTL.SPARE.stack n) = 2 then 2 else 0)
  let s := (rs.zipIdx.foldl (fun s x => s.chanStage n x.2 kept x.1) s).updStack n fun x => { x with ready := true, training := false }
  let s :=
    if [0, 1, 2, 3].all fun c => s.chState n c == chActive then
      let s := ((s.zput (ZS.CTL.SERVICE.stack n) 1).zbit Z.BUF_STAT.IN_SERVICE n true).zbit Z.BOOT_STAT.STACKS n true
      let s := s.updStack n fun x => { x with off := false, slices := [] }
      if kept then s.zput Z.BOOT_STAT.KEPT 1 else s
    else
      let s := s.zbit Z.BOOT_STAT.STACKS n false
      if kept then s.expireWhere fun b => s.billetStack b == n else s
  s.slicesOver n

/-- READY: the ports leave DISABLED, and what waited for the stacks goes on. -/
def State.ready (s : State) : State :=
  let s := (s.zput Z.BOOT_STAT.STAGE stReady).updPwr fun p => { p with kept := 0 }
  let s := s.updBuf fun b => { b with fullStart := s.time }
  ((List.range 8).foldl (fun s n => s.evalPoint n) (ports16.foldl State.restartPort s)).runDue

/-- The DRAM stages have all ended. -/
def State.dramDone (s : State) (ms : Nat) : State :=
  if ¬ (List.range 8).all fun n => (s.stack n).ready then s
  else if s.stacksIn = [] then s.zput Z.BOOT_STAT.STAGE stFailed
  else s.ready.zput Z.BOOT_STAT.READY_MS ms

/-- A retry of stack `n` ends (R412). -/
def State.retryDone (s : State) (n : Nat) : State :=
  let s := s.zbit Z.BOOT_CTL.RETRYING n false
  let s := if s.inService n then s else s.zbit Z.BOOT_CTL.RETRY_FAIL n true
  if s.stage = stFailed ∧ s.stacksIn ≠ [] then s.ready else s

/-- DRAM_STAGE. -/
def State.dramStage (s : State) (n : Nat) (spareBad : Bool) (rs : List DramRes) (ms : Nat) : State :=
  if s.safe then s
  else if bitAt (s.zget Z.BOOT_CTL.RETRYING) n then (s.stackStage n false spareBad rs).retryDone n
  else if s.stage = stDram ∧ ¬ (s.stack n).ready then (s.stackStage n (s.pwr.kept.getLsbD n) spareBad rs).dramDone ms
  else s

/-- STACK_RETRY, a write of Z_BOOT_CTL: each bit of RETRY starts a retry or sets RETRY_FAIL; ones clear bits of RETRY_FAIL. -/
def State.retryWrite (s : State) (w : Nat) : State :=
  let s := s.zput Z.BOOT_CTL.RETRY_FAIL ((List.range 8).foldl (fun m i => if bitAt w (16 + i) then clearBit m i else m)
    (s.zget Z.BOOT_CTL.RETRY_FAIL))
  (List.range 8).foldl (fun s n =>
    if ¬ bitAt w n then s
    else if (s.stage = stReady ∨ s.stage = stFailed) ∧ ¬ s.run.active ∧ ¬ s.inService n ∧ ¬ bitAt (s.zget Z.BOOT_CTL.RETRYING) n
        ∧ [0, 1, 2, 3].all (fun c => s.chState n c == chOff) then
      (s.startStack n).zbit Z.BOOT_CTL.RETRYING n true
    else s.zbit Z.BOOT_CTL.RETRY_FAIL n true) s

/-! ### The meanings -/

/-- RAIL_RESET (R344): as at power-on; the cause and the rail are recorded. -/
def execRailReset (rail : Fin 12) (s : State) : Result := .next (s.chipReset (if rail = 0 then 1 else 2) rail)

/-- POWER_ON_RESET (R402): V_IN is first applied, or was below its reset threshold. -/
def execPowerOnReset (below : Bool) (s : State) : Result := .next (s.chipReset (b2n below) 0)

/-- WARM_RESET (R403). -/
def execWarmReset (s : State) : Result := .next s.warmReset

/-- WARM_RESET_WRITE (R402): ignored without both WARM and the key. -/
def execWarmResetWrite (w : Word) (s : State) : Result :=
  .next (if bitAt w.toNat 0 ∧ bits w.toNat 8 8 = 0x5A ∧ ¬ s.safe then s.warmReset else s)

/-- RESET_RELEASE (R406). -/
def execResetRelease (s : State) : Result := .next s.release

/-- CLOCKS_STAGE_DONE (R406). -/
def execClocksStageDone (s : State) : Result := .next s.clocksDone

/-- SELFTEST_COMPLETE (R407): failing engines, shared memories, ports' queues, and any other memory. -/
def execSelftestComplete (engs : BitVec 96) (shm : BitVec 4) (queues : Half) (core : Bool) (s : State) : Result :=
  .next (s.selftest engs.toNat shm.toNat queues.toNat core)

/-- DRAM_STAGE (R408, R409): stack `n` ends its stage, `ms` ms after the release of reset. -/
def execDramStage (n : Fin 8) (spareBad : Bool) (c0 c1 c2 c3 : DramRes) (ms : Half) (s : State) : Result :=
  .next (s.dramStage n spareBad [c0, c1, c2, c3] ms.toNat)

/-- STACK_RETRY (R412). -/
def execStackRetry (w : Word) (s : State) : Result :=
  .next (if s.stage = stFailed ∧ ¬ s.safe then s.retryWrite w.toNat else s.bar0 fun s => s.retryWrite w.toNat)

end Sys2Proof.Machine
end

