-- ==== Sys2Proof/Machine/Commit.lean ====
section
/-!
DEFINITION. The merge (R136 to R143): when frame M commits, the merged frame (R140, R141), its directory entry (R160, R161, R163), and
what follows a commit.
Choices of the model: log entry 15 (DEDUCED).
-/

namespace Sys2Proof.Machine

/-! ### Ports for M (R136) -/

/-- The frame at the head of the port's side queue. -/
def State.headFrame (s : State) (p : Port) : Option Nat := (s.port p).side.head?.map (·.frame)

def State.mergeState (s : State) (p : Port) : Nat := s.zget (ZP.STAT.STATE.port p)

/-- The port is complete for M: MERGING, or DOWN with M's entry at its head. -/
def State.complete (s : State) (p : Port) : Bool :=
  (s.mergeState p == 3 || s.mergeState p == 1) && s.headFrame p == some s.mNext

/-- The port is waited for: MERGING, not complete and not absent. -/
def State.waitedFor (s : State) (p : Port) : Bool :=
  s.mergeState p == 3 && !s.complete p && decide ((s.port p).joinG ≤ s.mNext)
    && (s.headFrame p).elim true fun f => decide (f ≤ s.mNext)

def State.completePorts (s : State) : List Port := ports16.filter fun p => s.complete p
def State.waitedPorts (s : State) : List Port := ports16.filter fun p => s.waitedFor p

/-- Ports as a mask. -/
def portMask (ps : List Port) : Nat := ps.foldl (fun m p => m ||| 2 ^ p.val) 0

/-- The spindle times of the start and the end of frame `f`. -/
def State.frameStart (s : State) (f : Nat) : Nat := s.tickTime (f * 4096)
def State.frameEnd (s : State) (f : Nat) : Nat := s.tickTime ((f + 1) * 4096)

/-- The most recent moment at which a port became complete for M. -/
def State.lastDone (s : State) : Nat :=
  s.completePorts.foldl (fun t p => max t (((s.port p).side.head?.elim 0 (·.time)))) s.run.mAt

/-- A span of `n` µs. -/
def usUnits (n : Nat) : Nat := n * 1000 * nsUnits

/-- WAIT_US in force: 0 acts as 1, values above 10,000 as 10,000 (R147). -/
def State.waitUnits (s : State) : Nat := usUnits (min 10000 (max 1 s.run.waitUs))

/-- A complete port stands above its high-water marks (R136 item 3, R147). -/
def State.highWater (s : State) (p : Port) : Bool :=
  s.complete p && (decide (1024 * max 1 (s.zget Z.MERGE_HWM.QUEUE_KIB) < queueBytes (s.port p).queue)
    || decide (max 1 (s.zget Z.MERGE_HWM.SIDE) < (s.port p).side.length))

/-! ### Segments (R140) -/

/-- A port's part of the merged frame: its records in order, the LATE marker first, the trailer last. -/
structure Seg where
  port : Port
  recs : List (List Nat)
  late : Bool
  damaged : Bool
  shaving : Bool
  trailer : Option (List Nat)
  deriving DecidableEq, Repr

def Seg.hws (x : Seg) : List Nat := x.recs.flatten

/-- Lines of a segment, and its bytes with the padding. -/
def Seg.lines (x : Seg) : Nat := (2 * x.hws.length + 63) / 64
def Seg.bytes (x : Seg) : List Byte :=
  halvesBytes x.hws ++ List.replicate (64 * x.lines - 2 * x.hws.length) 0

/-- The segment of a complete port for frame `m`. -/
def PortIn.segment (q : PortIn) (p : Port) (m : Nat) : Seg :=
  let e := q.side.head?
  let mine := q.queue.filter fun r => r.frame == m
  let mark := q.late.elim [] fun z => [halves (zMarker p mkLate z.coarse z.count (min 7 (m - z.frame))) 4]
  let tr := e.bind (·.trailer)
  { port := p, recs := mark ++ mine.map (·.hws) ++ tr.toList, late := q.late.isSome, damaged := e.elim true (·.damaged),
    shaving := q.late.isSome || mine.any (·.shaving), trailer := tr }

/-- The segment has been copied: its records and its side entry leave the queues, and the LATE marker is placed. -/
def PortIn.taken (q : PortIn) (m : Nat) : PortIn :=
  { q with queue := q.queue.filter fun r => r.frame != m, side := q.side.drop 1, late := none }

/-! ### The header (R141) -/

/-- A flag of the present trailers: CAL in bit 23, SETTLING in bit 22. -/
def anyTrailer (segs : List Seg) (i : Nat) : Bool := segs.any fun x => x.trailer.elim false fun t => bitAt (recVal t) i

def segMask (segs : List Seg) (f : Seg → Bool) : Nat := portMask ((segs.filter f).map (·.port))

/-- SEG_OFF and SEG_LEN of the 16 ports. -/
def segTable (segs : List Seg) : List Byte :=
  (ports16.foldl (fun (a : Nat × List Byte) p =>
    let n := (segs.find? fun x => x.port == p).elim 0 (·.lines)
    (a.1 + n, a.2 ++ leBytes a.1 2 ++ leBytes n 2)) (0, [])).2

/-- Lines of a merged frame. -/
def totalLines (segs : List Seg) : Nat := segs.foldl (fun a x => a + x.lines) 2

/-- The MARK commands placed in frame `m`, in CTRL order. -/
def State.marksIn (s : State) (m : Nat) : List Cmd :=
  s.cmds.filter fun c => c.opcode == 0x30 && c.started && c.result.isNone && c.tick == m

/-- FLAGS of merged frame `m`. -/
def State.frameFlags (s : State) (m : Nat) (segs : List Seg) (early : Bool) : Nat :=
  b2n segs.isEmpty + 2 * b2n (s.marksIn m != []) + 4 * b2n (spanMeets (s.frameStart m) (s.frameStart m + 1) s.run.rests)
    + 8 * b2n (spanMeets (s.frameStart m) (s.frameEnd m) s.run.warns) + 16 * b2n (anyTrailer segs 23)
    + 32 * b2n (anyTrailer segs 22) + 64 * b2n (segs.any (·.shaving)) + 128 * b2n early
    + 256 * b2n (s.run.last == some m || m == 2 ^ 40 - 1)

/-- Members when the frame is committed, with a port that left while it was being merged (R143). -/
def State.expected (s : State) : Nat :=
  portMask (ports16.filter fun p => s.zget (ZP.CTL.MERGE_EN.port p) == 1 || (s.port p).heldExpect)

/-- The 128 bytes of the header. -/
def State.frameHeader (s : State) (m : Nat) (segs : List Seg) (early : Bool) : List Byte :=
  let marks := s.marksIn m
  leBytes m 5 ++ [1] ++ leBytes (s.frameFlags m segs early) 2 ++ timeBytes (s.frameStart m)
    ++ leBytes (segMask segs fun _ => true) 2 ++ leBytes (segMask segs (·.late)) 2 ++ leBytes s.expected 2
    ++ leBytes (segMask segs (·.damaged)) 2 ++ leBytes (min 0xFFFF marks.length) 2 ++ [0, 0]
    ++ (marks.getLast?.elim [0, 0, 0, 0] fun c => c.arg.take 4) ++ leBytes (totalLines segs) 4
    ++ leBytes (min 0xFFFFFFFF ((s.time - s.frameEnd m) / nsUnits)) 4 ++ List.replicate 20 0 ++ segTable segs

/-- Cut bytes into lines of 64. -/
def cutLines : Nat → List Byte → List (List Byte)
  | 0, _ => []
  | n + 1, bs => bs.take 64 :: cutLines n (bs.drop 64)

/-! ### The directory (R160, R161, R163) -/

/-- A slot is about to be reused: an unexpired run in it expires first (R163). -/
def State.freeDirSlot (s : State) (k : Nat) : State :=
  let e := Tab.get {} s.buf.dir k
  if e.valid ∧ ¬ e.expired then (s.expireSlot k true).zbump Z.BUF_DIRCNT.FORCED 1 else s

/-- Frame `m`, whose header stands at `x`, enters the directory: in the open run, or as the first frame of a new one.  The entry is
answered. -/
def State.enterFrame (s : State) (m : Nat) (x : Nat × Nat) (segs : List Seg) (flags : Nat) : State × DirEnt :=
  let present := segMask segs fun _ => true
  let add (e : DirEnt) : DirEnt :=
    let e := { e with frames := e.frames + 1, lines := e.lines + totalLines segs, last := s.frameStart m,
                      missing := e.missing ||| (s.expected - s.expected &&& present),
                      damaged := e.damaged ||| segMask segs (·.damaged), late := e.late ||| segMask segs (·.late) }
    let fin : Bool := bitAt flags 8
    let e := { e with marked := e.marked || bitAt flags 1, runEnd := e.runEnd || fin, endAt := if fin then m else e.endAt }
    { e with open_ := !fin && decide (e.lines < 10240) && decide (e.frames < 8192) }
  let s := if s.buf.runOpen then s
    else
      let seq := s.buf.dirSeq
      let e : DirEnt := { seq := seq, first := m, valid := true, billet := x.1, line := x.2, gen := (s.billet x.1).gen,
                          runId := s.run.id, time := s.frameStart m }
      (s.freeDirSlot (seq % dirSlots)).updBuf fun b =>
        { b with dir := Tab.set {} b.dir (seq % dirSlots) e, dirSeq := seq + 1, runOpen := true }
  let e := add (Tab.get {} s.buf.dir s.openSlot)
  (s.updBuf fun b => { b with dir := Tab.set {} b.dir s.openSlot e, runOpen := e.open_ }, e)

/-! ### The commit -/

/-- A port still waited for goes to STALLED; at an early commit STALL says so. -/
def State.stallPort (s : State) (m : Nat) (early : Bool) (p : Port) : State :=
  (s.zput (ZP.STAT.STATE.port p) 4).raisePort p 11 (leBytes m 5 ++ [b8 (b2n early)])

/-- The counters of a present port (R148). -/
def State.countPresent (s : State) (m : Nat) (x : Seg) : State :=
  ((s.zbump (ZP.FRAMES.COUNT.port x.port) 1).zwrap (ZP.BYTES.BYTES.port x.port) (2 * x.hws.length)).zput
    (ZP.LASTF.FRAME.port x.port) m

/-- The stop that Zwiuc performs by itself is placed as a command after the last one that has started (R242). -/
def State.placeSelfStop (s : State) : State :=
  let c : Cmd := { id := s.cmdCount, opcode := 0x61, tag := 0, ports := 0, arg := [], started := true, own := true,
                   result := some resOk, rdata := leBytes (2 ^ 40 - 1) 5 }
  (s.updCmds fun l => l.takeWhile (·.started) ++ [c] ++ l.dropWhile (·.started)).updCmdCount (· + 1)

/-- The run ends with the frame just committed, if that is its last (R144) or frame 2⁴⁰ − 1 (R11). -/
def State.endIfLast (s : State) (m : Nat) : State :=
  if m = 2 ^ 40 - 1 then s.placeSelfStop.endRun 2 m
  else if s.run.last = some m then s.endRun 1 m
  else s

/-- Frame M commits, with its header at `x`. -/
def State.commitAt (s : State) (early : Bool) (x : Nat × Nat) : State :=
  let m := s.mNext
  let done := s.completePorts
  let s := s.waitedPorts.foldl (fun s p => s.stallPort m early p) s
  let segs := done.map fun p => (s.port p).segment p m
  let flags := s.frameFlags m segs early
  let expected := s.expected
  let present := segMask segs fun _ => true
  let marks := s.marksIn m
  let n := totalLines segs
  let lines := cutLines n (s.frameHeader m segs early ++ segs.flatMap Seg.bytes)
  let s := done.foldl (fun s p => s.updPort p fun q => q.taken m) s
  let r := (s.placeLines lines).enterFrame m x segs flags
  let s := segs.foldl (fun s y => s.countPresent m y) r.1
  let s := ports16.foldl (fun s (p : Port) =>
    let s := if bitAt expected p.val ∧ ¬ bitAt present p.val then s.zbump (ZP.ABSENT.COUNT.port p) 1 else s
    s.updPort p fun q => { q with heldExpect := false }) s
  let s := if early then s.zbump Z.MERGE_CNT.EARLY 1 else s
  let s := s.updBuf fun b => { b with sizes := (n :: b.sizes).take 1024 }
  let s := (s.refreshCopies r.2).pinCommitted m r.2
  let s := marks.foldl (fun s c => s.finish c.id resOk (leBytes m 5)) s
  let s := (s.setM (m + 1)).updRun fun r => { r with rests := spanKeep (s.frameEnd m) r.rests, warns := spanKeep (s.frameEnd m) r.warns }
  let s := ports16.foldl (fun s p => s.purgeLate p) s
  let view : FrameView := { frame := m, flags := flags, present := present, missing := expected - expected &&& present,
                            damaged := segMask segs (·.damaged), segs := segs.map fun y => (y.port.val, y.recs) }
  (s.feedEngines view).wakeWaiting.endIfLast m

/-- Frame M commits when the writer's buffer has room and the allocator a billet; the merger waits otherwise (R158). -/
def State.commitFrame (s : State) (early : Bool) : State :=
  if ¬ s.run.active ∨ 65536 ≤ s.buf.wbuf.length then s
  else match s.nextLine with
    | (t, some x) => t.commitAt early x
    | (_, none) => s

/-! ### The moments of a commit (R136, R137) -/

/-- Item 1: every MERGING port is complete or absent. -/
def State.commitReady (s : State) : Bool := s.completePorts != [] && s.waitedPorts == []

/-- Item 2: the wait has passed, measured to within 100 ns. -/
def State.waitPassed (s : State) : Bool :=
  s.completePorts != [] && decide (s.lastDone + s.waitUnits ≤ s.time + 100 * nsUnits)

/-- Item 3. -/
def State.overMark (s : State) : Bool := ports16.any fun p => s.highWater p

/-- R137: no port is complete and the frame is due. -/
def State.emptyDue (s : State) : Bool :=
  s.completePorts == [] && decide (s.frameEnd s.mNext + usUnits s.run.dueUs + s.waitUnits ≤ s.time)

/-- The commit that is due, whichever moment has come: item 3 goes before the others (R145). -/
def State.commitDue (s : State) : State :=
  if s.overMark then s.commitFrame (s.waitedPorts != [])
  else if s.commitReady ∨ s.waitPassed ∨ s.emptyDue then s.commitFrame false
  else s

/-! ### The meanings -/

/-- MERGE_COMMIT (R136 item 1). -/
def execMergeCommit (s : State) : Result := .next (if s.commitReady then s.commitFrame false else s)

/-- MERGE_WAIT_EXPIRY (R136 item 2); with a port above high water in the same moment the commit is EARLY (R145). -/
def execMergeWaitExpiry (s : State) : Result :=
  .next (if s.waitPassed then s.commitFrame (s.overMark && s.waitedPorts != []) else s)

/-- MERGE_HIGH_WATER (R136 item 3): the commit is EARLY while a port is waited for. -/
def execMergeHighWater (s : State) : Result := .next (if s.overMark then s.commitFrame (s.waitedPorts != []) else s)

/-- MERGE_EMPTY_DUE (R137). -/
def execMergeEmptyDue (s : State) : Result := .next (if s.emptyDue then s.commitFrame false else s)

/-- RUN_SELF_STOP (R11): frame 2⁴⁰ − 1 commits, and the run ends by itself. -/
def execRunSelfStop (s : State) : Result := .next (if s.mNext = 2 ^ 40 - 1 then s.commitDue else s)

end Sys2Proof.Machine
end

