-- ==== Sys2Proof/Machine/Compress.lean ====
section
/-!
DEFINITION. The eight compression streams (R218, R254 to R262).  How a block is coded follows from rules that the spec does not give whole
(the hash, the code construction): the coded bits come with the command, and what R254, R255 and R257 ask of them is checked here.
Choices of the model: log entry 18 (DEDUCED).
-/

namespace Sys2Proof.Machine

/-- The context that holds compression stream `k`. -/
def State.zctx (s : State) (k : Nat) : Option Ctx := s.xtr.ctxs.find? fun c => c.zs == some k

/-- The context waits for a compression stream (R218). -/
def Ctx.wantsStream (c : Ctx) : Bool :=
  c.comp && c.status.isNone && c.zs.isNone && !c.zdone && (c.ready != [] || c.complete) && c.phase != .lookup && c.phase != .wait

/-- COMPRESSION_STREAM_GRANT: the first waiting context, in class order and then arrival order, takes free stream `k`; the settings of
Z_COMP_CFG hold for the stream (R267). -/
def State.zgrant (s : State) (k : Nat) : State :=
  let ws := s.xtr.ctxs.filter Ctx.wantsStream
  let low := ws.foldl (fun a c => min a c.cls) 4
  match (s.zctx k), ws.find? fun c => c.cls == low with
  | none, some c =>
    s.updCtx c.num fun c => { c with zs := some k, zsect := s.zget Z.COMP_CFG.SECT_FLUSH == 1, zcheck := s.zget Z.COMP_CFG.CHECK_EN == 1,
                                     zidle := s.zget Z.COMP_CFG.IDLE_US }
  | _, _ => s

/-- The input of the block in progress, when its end has come (R256, R258): its length, whether it ends the stream, whether a flush
follows. -/
def Ctx.blockEnd (c : Ctx) : Option (Nat × Bool × Bool) :=
  let lim := if c.level = 0 then 65535 else 65536
  let n := c.ready.length
  match (if c.zsect then c.ends.find? fun e => decide (e ≤ lim) && !(c.complete && e == n) else none) with
  | some e => some (e, false, true)
  | none =>
    if c.complete ∧ n ≤ lim then some (n, true, false)
    else if lim ≤ n then some (lim, false, false)
    else none

/-- Bits of the stream that follow a flush, and its count. -/
def State.zflushNow (s : State) (n : Nat) : State :=
  (s.updCtx n fun c => { c with zbits := c.zbits ++ flushBits c.zbits.length, zflush := true }).zbump Z.COMP_BLK.FLUSH 1

/-- A block of `n` input bytes of context `c` ends; `coded` is its coded form.  It is written stored when that is not larger, or when the
self-check fails (R257, R262). -/
def State.zblock (s : State) (c : Ctx) (k n : Nat) (final : Bool) (coded : List Bool) : State :=
  let input := c.ready.take n
  let pos := c.zbits.length
  let stored := storedBlocks pos final input (input.length + 1)
  let raw : Bool := c.level == 0 || decide (stored.length ≤ coded.length)
  let bad : Bool := !raw && c.zcheck && !blockDecodes coded c.hist input final (if c.level ≤ 3 then 1 else 2)
  let s := if bad then (s.zbump Z.COMP_CHK.MISMATCH 1).raise 542 ([b8 k] ++ leBytes c.num 2 ++ leBytes c.zoff 4) else s
  let s := if (raw ∨ bad) ∧ c.level ≠ 0 then s.zbump Z.COMP_BLK.STORED 1 else s
  let s := s.zwrap Z.COMP_IN.BYTES n
  s.updCtx c.num fun c =>
    { (c.advance n) with
      zbits := c.zbits ++ (if raw ∨ bad then stored else coded), raw := c.raw || raw || bad, zdone := final, zoff := c.zoff + n,
      hist := (input.reverse ++ c.hist).take 32768 }

/-- COMPRESS_BLOCK (R256 to R258): the end of the stream with no input pending writes an empty fixed block. -/
def State.compressBlock (s : State) (k : Nat) (coded : List Bool) : State :=
  match s.zctx k with
  | some c =>
    if c.zdone then s
    else
      match c.blockEnd with
      | some (n, final, flush) =>
        let t := if n = 0 ∧ final then s.updCtx c.num fun c => { c with zbits := c.zbits ++ endBlock, zdone := true }
          else s.zblock c k n final coded
        (if flush then t.zflushNow c.num else t).settleCtx c.num
      | none => s
  | none => s

/-- IDLE_FLUSH (R258, R267): not at the end of the stream, and not while the stream is stopped for a buffer; without pending output there
is nothing to flush. -/
def State.idleFlush (s : State) (k : Nat) (coded : List Bool) : State :=
  match s.zctx k with
  | some c =>
    if c.zidle = 0 ∨ c.complete ∨ c.zdone ∨ c.starved ∨ c.blockEnd.isSome ∨ (c.ready = [] ∧ (c.zbits = [] ∨ c.zflush)) then s
    else
      let t := if c.ready = [] then s else s.zblock c k c.ready.length false coded
      (t.zflushNow c.num).settleCtx c.num
  | none => s

/-! ### The meanings -/

/-- COMPRESSION_STREAM_GRANT (R218). -/
def execCompressionStreamGrant (k : Fin 8) (s : State) : Result := .next (s.zgrant k)

/-- COMPRESS_BLOCK (R256, R257, R262). -/
def execCompressBlock (k : Fin 8) (coded : List Bool) (s : State) : Result := .next (s.compressBlock k coded)

/-- IDLE_FLUSH (R258). -/
def execIdleFlush (k : Fin 8) (coded : List Bool) (s : State) : Result := .next (s.idleFlush k coded)

end Sys2Proof.Machine
end

