-- ==== Sys2Proof/Machine/Echo.lean ====
section
/-!
DEFINITION. ECHO: the delay of ring links (R309, R310), and the alignment of front-end ports with the downlink SYNC (R323, R324).
Choices of the model: log entry 16 (DEDUCED).
-/

namespace Sys2Proof.Machine

/-! ### Ring links (R309, R310) -/

def State.ringEcho (s : State) (d : Side) : RingEcho :=
  match d with
  | .east => s.ring.echoE
  | .west => s.ring.echoW

def State.updEcho (s : State) (d : Side) (f : RingEcho → RingEcho) : State :=
  s.updRing fun r => match d with
    | .east => { r with echoE := f r.echoE }
    | .west => { r with echoW := f r.echoW }

/-- ASYM.TX and ASYM.RX of a side, in units of 2⁻³² ns. -/
def State.asymTx (s : State) (d : Side) : Int :=
  sixteenthPs (signedOf 16 (s.zget (match d with | .east => Z.RING_ASYM_E.TX | .west => Z.RING_ASYM_W.TX)))
def State.asymRx (s : State) (d : Side) : Int :=
  sixteenthPs (signedOf 16 (s.zget (match d with | .east => Z.RING_ASYM_E.RX | .west => Z.RING_ASYM_W.RX)))

/-- An ECHO block on a ring link; it carries the SEQ of the last DATA block (R97). -/
def State.ringEchoBlock (s : State) (d : Side) (pl : List Byte) : State :=
  let n := match d with
    | .east => s.ring.seqE
    | .west => s.ring.seqW
  let b : Block := { kind := .echo, seq := (n + 255) % 256, payload := pad16 pl }
  s.emit (.ring d b (blockCrc b))

/-- NS and FRAC of a time, most significant byte first, and back. -/
def stampBytes (t : Int) : List Byte :=
  let u := t % (1000000000 * (nsUnits : Int))
  beBytes (u / nsUnits).toNat 4 ++ beBytes (u % nsUnits / 65536).toNat 2
def readStamp (bs : List Byte) : Int := (beNat (slice bs 0 4) * nsUnits + beNat (slice bs 4 2) * 65536 : Nat)

/-- A difference of stamps, modulo 10⁹ ns. -/
def stampDiff (v : Int) : Int :=
  let m : Int := 1000000000 * (nsUnits : Int)
  let u := v % m
  if 2 * u < m then u else u - m

/-- The ECHO block of an arrival on side `d`. -/
def State.ringEchoTake (s : State) (d : Side) (b : RxBlock) (op : Nat) : State × Option (List Byte) :=
  if ¬ s.ringServes d then (s, none)
  else
    let r := s.receive (.ring d) b
    (r.1, match r.2 with
      | some x => if x.kind = .echo ∧ byteAt x.payload 0 = op then some x.payload else none
      | none => none)

/-- RING_ECHO_REQUEST. -/
def State.ringEchoReq (s : State) (d : Side) : State :=
  if ¬ s.ringServes d then s
  else
    let id := (s.ringEcho d).nextId
    let t1 : Int := s.time + s.asymTx d
    let s := s.updEcho d fun e => { e with nextId := (id + 1) % 256, open_ := e.open_.filter (fun x => x.1 != id) ++ [(id, t1)] }
    s.ringEchoBlock d [1, b8 id]

/-- A request is answered; `turn` is the time from its arrival to the answer's transmission, in 1/64 UI. -/
def State.ringEchoAnswer (s : State) (d : Side) (pl : List Byte) (fine : Fin 2048) (turn : Nat) : State :=
  let t2 : Int := s.rxStamp fine - s.asymRx d
  let t3 : Int := s.rxStamp fine + turn * 6553600 + s.asymTx d
  s.ringEchoBlock d ([2, b8 (byteAt pl 1)] ++ stampBytes t2 ++ stampBytes t3)

/-- A response: the round trip enters the average, shown as the one-way delay. -/
def State.ringEchoResp (s : State) (d : Side) (pl : List Byte) (fine : Fin 2048) : State :=
  let id := byteAt pl 1
  match (s.ringEcho d).open_.find? fun x => x.1 == id with
  | none => s
  | some x =>
    let t4 : Int := s.rxStamp fine - s.asymRx d
    let rtt := stampDiff (t4 - x.2) - stampDiff (readStamp (slice pl 8 6) - readStamp (slice pl 2 6))
    let k := 2 ^ min 10 (s.zget Z.RING_ECHO.AVG_LOG2)
    let s := s.updEcho d fun e => { e with open_ := e.open_.filter (fun y => y.1 != id), rtts := (rtt :: e.rtts).take k }
    let full := b2n ((s.ringEcho d).rtts.length == k)
    let v := (s.linkDelay d / 2 ^ 22).toNat
    match d with
    | .east => (s.zput Z.RING_DLY_E.DELAY v).zput Z.RING_DLY_E.VALID full
    | .west => (s.zput Z.RING_DLY_W.DELAY v).zput Z.RING_DLY_W.VALID full

/-- RING_ECHO_TIMEOUT: a response that has not come within 100 µs is discarded. -/
def State.ringEchoLate (s : State) (d : Side) (id : Nat) : State :=
  s.updEcho d fun e => { e with open_ := e.open_.filter fun x => x.1 != id || decide ((s.time : Int) < x.2 + 100000 * nsUnits) }

/-! ### Front-end ports: requests and SYNC (R323) -/

/-- The ASYM of a port, in units of 2⁻³² ns. -/
def State.portAsym (s : State) (p : Port) : Int := sixteenthPs (signedOf 24 (s.zget (ZP.ECHO_ASYM.ASYM.port p)))

/-- The epoch that a port's next LOAD SYNC counts from. -/
def State.loadEpoch (s : State) (p : Port) : Nat := s.run.epoch.getD (s.port p).echo.epoch

/-- The spindle tick at the estimated arrival of a block sent now, plus 64. -/
def State.targetTick (s : State) (p : Port) (rtt : Int) (epoch : Nat) : Int :=
  ((s.time : Int) + (rtt + s.portAsym p) / 2 - epoch) / tickUnits + 64

/-- A SYNC payload for a target tick. -/
def syncPayload (t : Int) (epoch load : Bool) : List Byte :=
  beBytes (wrapBits 32 (t / 4096)) 4 ++ beBytes ((t % 4096).toNat + 16384 * b2n epoch + 32768 * b2n load) 2

/-- LOAD_SYNC_SEND: EPOCH is set on a target before the epoch of a scheduled run. -/
def State.loadSync (s : State) (p : Port) : State :=
  let e := s.loadEpoch p
  let rtt := (s.port p).echo.rtt
  let t := s.targetTick p rtt e
  let s := s.updPort p fun q => { q with echo := { q.echo with epoch := e, loadRtt := rtt, loadSent := true } }
  s.dlBlock p .sync (syncPayload t (s.run.active && decide (t < 0)) true)

/-- SYNC_CHECK_SEND: LOAD = 0, with the round trip that the last load used. -/
def State.checkSync (s : State) (p : Port) : State :=
  if s.linkUp p ∧ (s.port p).echo.loadSent then
    s.dlBlock p .sync (syncPayload (s.targetTick p (s.port p).echo.loadRtt (s.port p).echo.epoch) false false)
  else s

/-- EPOCH_SYNC_SEND: in the 200 µs before the epoch of a scheduled run. -/
def State.epochSync (s : State) (p : Port) : State :=
  if s.linkUp p ∧ s.run.active ∧ s.time < s.epochTime ∧ s.epochTime ≤ s.time + 200 * 1000 * nsUnits then s.loadSync p else s

/-- An ECHO REQ goes out on the downlink. -/
def State.echoReq (s : State) (p : Port) : State :=
  let e := (s.port p).echo
  if ¬ s.linkUp p ∨ (e.acq ∧ 16 ≤ e.sent) ∨ (¬ e.acq ∧ s.zget (ZP.ECHO_CTL.EN.port p) = 0) then s
  else
    let id := e.nextId
    let s := s.updPort p fun q => { q with echo := { q.echo with
      nextId := (id + 1) % 256, sent := if q.echo.acq then q.echo.sent + 1 else q.echo.sent,
      open_ := q.echo.open_.filter (fun x => x.1 != id) ++ [(id, s.time)] } }
    s.dlBlock p .echo [1, b8 id]

/-- The acquisition burst ends with its last response: a LOAD SYNC from its average.  With no response at all it starts again. -/
def State.endBurst (s : State) (p : Port) : State :=
  let e := (s.port p).echo
  if ¬ e.acq ∨ e.sent < 16 ∨ e.open_ ≠ [] then s
  else if e.burst = [] then s.updPort p fun q => { q with echo := { q.echo with sent := 0 } }
  else
    let avg := (e.burst.foldl (· + ·) 0 / (e.burst.length : Int)).toNat
    (s.updPort p fun q => { q with echo := { q.echo with acq := false, burst := [], rtt := avg } }).loadSync p

/-! ### Front-end ports: responses (R324) -/

/-- ECHO (R387 source 523): port, cause, OFFSET. -/
def State.echoEvent (s : State) (p : Port) (cause : Nat) : State :=
  s.raise 523 ([b8 p, b8 cause] ++ leBytes (s.zget (ZP.OFFSET.OFFSET.port p)) 4)

/-- The running average is complete: RTT, OFFSET and VALID are shown; a change of more than 10 ps is raised. -/
def State.average (s : State) (p : Port) : State :=
  let e := (s.port p).echo
  let k := 2 ^ min 10 (s.zget (ZP.ECHO_CTL.AVG_LOG2.port p))
  if e.n < k then s
  else
    let rtt := e.sumRtt / e.n
    let off := e.sumOff / (e.n : Int) / 65536
    let old := signedOf 32 (s.zget (ZP.OFFSET.OFFSET.port p))
    let had := s.zget (ZP.ECHO_STAT.VALID.port p) == 1
    let s := s.updPort p fun q => { q with echo := { q.echo with n := 0, sumRtt := 0, sumOff := 0, rtt := rtt } }
    let s := (s.zput (ZP.OFFSET.OFFSET.port p) (satBits 32 off)).zput (ZP.ECHO_STAT.RTT.port p) (sat 24 (rtt * 1000 / nsUnits))
    let s := s.zput (ZP.ECHO_STAT.VALID.port p) 1
    if had ∧ 655 < (off - old).natAbs then s.echoEvent p 0 else s

/-- A response that was asked for: `t4` its arrival. -/
def State.echoResp (s : State) (p : Port) (pl : List Byte) (t4 : Nat) : State :=
  let id := byteAt pl 1
  match (s.port p).echo.open_.find? fun x => x.1 == id with
  | none => s
  | some x =>
    let e := (s.port p).echo
    let bin : Int := 13107200
    let rtt := (t4 : Int) - x.2 - beNat (slice pl 9 3) * bin
    let down := (rtt + s.portAsym p) / 2
    let m : Int := 2 ^ 32 * 4096 * (tickUnits : Int)
    let u := ((x.2 : Int) + down - e.epoch - (beNat (slice pl 2 4) * 4096 * (tickUnits : Int) + beNat (slice pl 6 3) % 2 ^ 20 * bin)) % m
    let off := if 2 * u < m then u else u - m
    let s := s.updPort p fun q => { q with echo := { q.echo with
      open_ := q.echo.open_.filter (fun y => y.1 != id), timeouts := 0, n := q.echo.n + 1, sumRtt := q.echo.sumRtt + rtt.toNat,
      sumOff := q.echo.sumOff + off, burst := if q.echo.acq then q.echo.burst ++ [rtt] else [] } }
    let s := if e.loadSent then s.zput (ZP.ECHO_STAT.LOADED.port p) 1 else s
    let s := (s.average p).endBurst p
    if bitAt (byteAt pl 12) 0 then ((s.zput (ZP.ECHO_STAT.SLIP.port p) 1).echoEvent p 2).loadSync p else s

/-- DOWNLINK_ECHO_TIMEOUT: a response that has not come within 1 ms counts as a timeout; the 16th in a row raises ECHO. -/
def State.echoLate (s : State) (p : Port) (id : Nat) : State :=
  match (s.port p).echo.open_.find? fun x => x.1 == id with
  | none => s
  | some x =>
    if s.time < x.2 + 1000000 * nsUnits then s
    else
      let n := (s.port p).echo.timeouts + 1
      let s := s.updPort p fun q => { q with echo := { q.echo with
        open_ := q.echo.open_.filter (fun y => y.1 != id), timeouts := if 16 ≤ n then 0 else n } }
      (if 16 ≤ n then s.echoEvent p 1 else s).endBurst p

/-! ### The meanings -/

/-- RING_ECHO_REQUEST (R309). -/
def execRingEchoRequest (d : Side) (s : State) : Result := .next (s.ringEchoReq d)

/-- RING_ECHO_REQ_RECEIVE (R309). -/
def execRingEchoReqReceive (d : Side) (b : RxBlock) (fine : Fin 2048) (turn : Fin 65536) (s : State) : Result :=
  .next (match s.ringEchoTake d b 1 with
    | (t, some pl) => t.ringEchoAnswer d pl fine turn.val
    | (t, none) => t)

/-- RING_ECHO_RESP_RECEIVE (R310). -/
def execRingEchoRespReceive (d : Side) (b : RxBlock) (fine : Fin 2048) (s : State) : Result :=
  .next (match s.ringEchoTake d b 2 with
    | (t, some pl) => t.ringEchoResp d pl fine
    | (t, none) => t)

/-- RING_ECHO_TIMEOUT (R309). -/
def execRingEchoTimeout (d : Side) (id : Byte) (s : State) : Result := .next (s.ringEchoLate d id.toNat)

/-- DOWNLINK_ECHO_REQUEST (R323, R324). -/
def execDownlinkEchoRequest (p : Port) (s : State) : Result := .next (s.echoReq p)

/-- ECHO_RESPONSE_RECEIVE (R324): on uplink lane `l`, `fine` refines the arrival stamp. -/
def execEchoResponseReceive (p : Port) (l : Fin 8) (b : RxBlock) (fine : Fin 2048) (s : State) : Result :=
  .next (if s.lst (.up p l) ≠ 5 then s
    else
      let r := s.receive (.up p l) b
      match r.2 with
      | some x => if x.kind = .echo ∧ byteAt x.payload 0 = 2 then r.1.echoResp p x.payload (r.1.rxStamp fine) else r.1
      | none => r.1)

/-- DOWNLINK_ECHO_TIMEOUT (R324). -/
def execDownlinkEchoTimeout (p : Port) (id : Byte) (s : State) : Result := .next (s.echoLate p id.toNat)

/-- EPOCH_SYNC_SEND (R323). -/
def execEpochSyncSend (p : Port) (s : State) : Result := .next (s.epochSync p)

/-- SYNC_CHECK_SEND (R323). -/
def execSyncCheckSend (p : Port) (s : State) : Result := .next (s.checkSync p)

end Sys2Proof.Machine
end

