-- ==== Sys2Proof/Machine/Gouge.lean ====
section
/-!
DEFINITION. The 51 instructions of the gouge engines (R273 to R275, R277 to R281).  A command names the instruction with its fields; it is
the one that the engine executes when the word at the engine's PC is its encoding.  When that word is none of R274 the engine faults; when
it is another instruction, or the engine does not issue, the command changes nothing.
Choices of the model: log entry 18 (DEDUCED).
-/

namespace Sys2Proof.Machine

/-! ### Encodings (R273, R274) -/

def encI (op a b imm : Nat) : Nat := op * 2 ^ 26 + a * 2 ^ 21 + b * 2 ^ 16 + imm
def encR (fn : Nat) (rd rs1 rs2 : Nat) : Nat := encI 0 rd rs1 (rs2 * 2 ^ 11 + fn)
def encJ (rd off : Nat) : Nat := 0x28 * 2 ^ 26 + rd * 2 ^ 21 + off

/-- The word matches a row of R274, zero fields included. -/
def legalWord (w : Nat) : Bool :=
  let op := w / 2 ^ 26 % 64
  let rd := bits w 21 5
  let rs1 := bits w 16 5
  let rs2 := bits w 11 5
  let imm := w % 65536
  if op = 0 then
    let fn := w % 2 ^ 11
    decide (fn ≤ 0x0F) && (decide (fn < 0x0E) || rs2 == 0)
  else if op ≤ 4 then true
  else if op ≤ 7 then decide (imm < 32)
  else if op = 8 then rs1 == 0
  else if op ≤ 0x0A then decide (imm < 1024)
  else if 0x10 ≤ op ∧ op ≤ 0x18 then true
  else if 0x20 ≤ op ∧ op ≤ 0x25 then true
  else if op = 0x28 ∨ op = 0x29 then true
  else if op = 0x30 ∨ op = 0x33 ∨ op = 0x34 then rs1 == 0 && decide (imm < 2)
  else if op = 0x31 then rs1 == 0 && decide (imm < 8)
  else if op = 0x32 ∨ op = 0x35 then rs1 == 0 && imm == 0
  else if op = 0x36 ∨ op = 0x37 then rd == 0 && rs1 == 0 && imm == 0
  else false

/-! ### Issue -/

/-- Engine `i.eng` issues the instruction with encoding `w`, whose effect is `f`.  An uncorrectable error in the fetch is an illegal
instruction; a corrected one counts (R279). -/
def State.issue (s : State) (i : Issue) (w : Nat) (f : State → State) : State :=
  let e := i.eng.val
  if ¬ s.engReady e then s
  else
    let v := (s.eng e).fetch
    match i.fetch with
    | .uncorrectable x => (s.zbump (ZE.ECC.UE.geng e) 1).engFault e 1 x.toNat
    | .corrected =>
      if v.toNat = w then f (s.zbump (ZE.ECC.CE.geng e) 1)
      else if legalWord v.toNat then s else (s.zbump (ZE.ECC.CE.geng e) 1).engFault e 1 v.toNat
    | .ok => if v.toNat = w then f s else if legalWord v.toNat then s else s.engFault e 1 v.toNat

/-- The instruction retires and the PC moves to `pc`, within 15 bits (R275). -/
def State.engStep (s : State) (e pc : Nat) : State :=
  (s.updEng e fun x => { x with pc := pc % 32768 }).zwrap (ZE.INSTR.COUNT.geng e) 1

/-- Retire and go on with the next word. -/
def State.engNext (s : State) (e : Nat) : State := s.engStep e ((s.eng e).pc + 4)

def State.ereg (s : State) (e : Nat) (r : Reg) : Word := (s.eng e).reg r

/-- Write `v` to register `rd` and go on. -/
def State.result (s : State) (e : Nat) (rd : Reg) (v : Word) : State := (s.updEng e fun x => x.setReg rd v).engNext e

/-- An instruction of the R format that computes `f` of two registers. -/
def State.opR (s : State) (i : Issue) (fn : Nat) (rd rs1 rs2 : Reg) (f : Word → Word → Word) : State :=
  s.issue i (encR fn rd rs1 rs2) fun s => s.result i.eng rd (f (s.ereg i.eng rs1) (s.ereg i.eng rs2))

/-- An instruction of the I format that computes `f` of a register. -/
def State.opI (s : State) (i : Issue) (op : Nat) (rd rs1 : Reg) (imm : Nat) (f : Word → Word) : State :=
  s.issue i (encI op rd rs1 imm) fun s => s.result i.eng rd (f (s.ereg i.eng rs1))

/-- A conditional branch. -/
def State.opB (s : State) (i : Issue) (op : Nat) (rs1 rs2 : Reg) (off : Half) (p : Word → Word → Bool) : State :=
  s.issue i (encI op rs1 rs2 off.toNat) fun s =>
    let pc := (s.eng i.eng).pc
    if p (s.ereg i.eng rs1) (s.ereg i.eng rs2) then s.engStep i.eng ((pc + 4 * (off.signExtend 32).toNat) % 32768)
    else s.engNext i.eng

/-! ### Arithmetic -/

/-- Leading zeros and ones of a word. -/
def clz32 (w : Word) : Nat := 32 - (List.range 32).foldl (fun a i => if w.getLsbD i then i + 1 else a) 0
def popc32 (w : Word) : Nat := ((List.range 32).filter fun i => w.getLsbD i).length

def sextImm (imm : Half) : Word := imm.signExtend 32
def zextImm (imm : Half) : Word := imm.zeroExtend 32

/-- The high half of the signed product. -/
def mulh (a b : Word) : Word := BitVec.ofInt 32 (a.toInt * b.toInt / 2 ^ 32)

/-- Bits `pos` upward, `wid` wide; bits above 31 read 0. -/
def bfx (a : Word) (pos wid : Nat) : Word := BitVec.ofNat 32 (a.toNat / 2 ^ pos % 2 ^ wid)

/-- Insert the low `wid` bits of `b` into `a` at `pos`; bits above 31 are discarded. -/
def bfi (a b : Word) (pos wid : Nat) : Word :=
  let m : Word := BitVec.ofNat 32 ((2 ^ wid - 1) * 2 ^ pos)
  (a &&& ~~~m) ||| (BitVec.ofNat 32 (b.toNat % 2 ^ wid * 2 ^ pos))

/-! ### Memory (R277 to R279) -/

/-- The effective address. -/
def State.eaddr (s : State) (e : Nat) (rs1 : Reg) (imm : Half) : Word := s.ereg e rs1 + sextImm imm

/-- What a data access meets: a corrected error is counted; an uncorrectable one is counted and reported, its section passes uncarved, and
the engine goes on (R279, R290). -/
def State.eccData (s : State) (e : Nat) (a : Word) (x : Ecc) : State :=
  let ce := if isShared a then ZC.SHM_ECC.CE.gcl (e / 24) else ZE.ECC.CE.geng e
  let ue := if isShared a then ZC.SHM_ECC.UE.gcl (e / 24) else ZE.ECC.UE.geng e
  match x with
  | .ok => s
  | .corrected => s.zbump ce 1
  | .uncorrectable _ =>
    let s := (s.zbump ue 1).engEvent e 3 sevError ([b8 (b2n (isShared a))] ++ leBytes (s.eng e).pc 2 ++ leBytes a.toNat 4)
    match (s.eng e).cur with
    | some m =>
      match m.job with
      | some j =>
        let s := s.updEng e fun x => { x with cur := some { m with job := none } }
        (s.zbump (ZE.SKIP.COUNT.geng e) 1).passAgain j.ctx j.frame
      | none => s
    | none => s

/-- The aligned word that an access reads: what stands there, or what was read with the error. -/
def State.eword (s : State) (e : Nat) (a : Word) (x : Ecc) : Nat :=
  match x with
  | .uncorrectable w => w.toNat
  | _ => s.eload e (a &&& 0xFFFFFFFC#32) 4

/-- A load of `n` bytes, extended by `f`; a misaligned address faults (R289). -/
def State.opLoad (s : State) (i : Issue) (op : Nat) (rd rs1 : Reg) (imm : Half) (ecc : Ecc) (n : Nat) (f : Nat → Word) : State :=
  s.issue i (encI op rd rs1 imm.toNat) fun s =>
    let a := s.eaddr i.eng rs1 imm
    if a.toNat % n ≠ 0 then s.engFault i.eng 2 a.toNat
    else
      let v := s.eword i.eng a ecc / 2 ^ (8 * (a.toNat % 4)) % 2 ^ (8 * n)
      (s.eccData i.eng a ecc).result i.eng rd (f v)

/-- A store of the low `n` bytes of `rs`. -/
def State.opStore (s : State) (i : Issue) (op : Nat) (rs rs1 : Reg) (imm : Half) (n : Nat) : State :=
  s.issue i (encI op rs rs1 imm.toNat) fun s =>
    let a := s.eaddr i.eng rs1 imm
    if a.toNat % n ≠ 0 then s.engFault i.eng 2 a.toNat
    else (s.estore i.eng a n (s.ereg i.eng rs).toNat).engNext i.eng

/-! ### Streams (R280 to R282, R285) -/

/-- An engine has an output message open: begun and not ended; the output of a section also while it has not been ended (R282). -/
def Engine.outOpen (x : Engine) : Bool := x.opened || (x.cur.elim false (fun m => m.job.isSome) && !x.ended)

/-- The sub-header position of the next CARVE output item: how many SUB items end the output (none: no sub-header yet). -/
def subRun (out : List Nat) : Nat := (out.reverse.takeWhile fun x => bitAt x 17).length

/-- The ports named by the complete or begun sub-headers of an output, newest first. -/
def outPorts : List Nat → Nat → List Nat → List Nat
  | [], _, acc => acc
  | x :: t, k, acc => if bitAt x 17 then (if k % 4 = 0 then outPorts t (k + 1) (x % 256 :: acc) else outPorts t (k + 1) acc)
                      else outPorts t 0 acc

/-- The sub-cause of an overrun by pushing item `v` (R289), 0 when it may be pushed. -/
def State.pushCause (s : State) (e v : Nat) : Nat :=
  let x := s.eng e
  if s.engRole e = 0 then
    let run := subRun x.out
    if x.ended then 2
    else if (x.cur.elim 0 (·.size)) + s.zget (ZE.OUTLIM.EXTRA.geng e) < x.out.length + 1 then 1
    else if bitAt v 17 then
      if run % 4 ≠ 0 then 0
      else if (x.cur.elim [] (·.ports)).contains (v % 256) ∧ (outPorts x.out 0 []).all (fun p => decide (p < v % 256)) then 0 else 4
    else if run % 4 ≠ 0 then 4
    else if x.out = [] then 5
    else 0
  else if 5 < x.out.length + 1 then 1 else 0

/-- FINFO of an overrun. -/
def State.overrun (s : State) (e sub : Nat) : State := s.engFault e 3 (sub + 256 * (s.eng e).out.length)

/-- An output message of a PRIMITIVE or HISTO engine leaves (R285): to the ring forwarder, or as telemetry. -/
def State.sendOut (s : State) (e : Nat) : State :=
  let hws := (s.eng e).out.map (· % 65536)
  if hws = [] then s
  else if s.engRole e = 1 ∧ s.zget (ZE.CTL.DEST.geng e) = 0 then s.primMessage e hws (s.eng e).frame
  else s.engEvent e 1 sevInfo ([b8 hws.length] ++ hws.flatMap fun h => leBytes h 2)

/-- The output message ends. -/
def State.endOut (s : State) (e : Nat) : State :=
  if s.engRole e = 0 then
    if subRun (s.eng e).out % 4 ≠ 0 then s.overrun e 4
    else (s.updEng e fun x => { x with opened := false, ended := true }).engNext e
  else ((s.sendOut e).updEng e fun x => { x with out := [], opened := false }).engNext e

/-- Push an item. -/
def State.pushOut (s : State) (e : Nat) (v : Word) : State :=
  s.updEng e fun x => { x with out := x.out ++ [v.toNat % 2 ^ 18], opened := true }

/-- Pop the head item of the current message. -/
def State.popIn (s : State) (e : Nat) : State :=
  s.updEng e fun x => { x with cur := x.cur.map fun (m : EngMsg) => { m with items := m.items.drop 1 } }

/-- Item `k` behind the head, BLANK when there is none. -/
def State.peekIn (s : State) (e k : Nat) : Word := BitVec.ofNat 32 ((((s.eng e).cur.elim [] (·.items))[k]?).getD 0)

/-! ### The meanings: register instructions -/

def execAdd (i : Issue) (rd rs1 rs2 : Reg) (s : State) : Result := .next (s.opR i 0x0 rd rs1 rs2 (· + ·))
def execSub (i : Issue) (rd rs1 rs2 : Reg) (s : State) : Result := .next (s.opR i 0x1 rd rs1 rs2 (· - ·))
def execAndR (i : Issue) (rd rs1 rs2 : Reg) (s : State) : Result := .next (s.opR i 0x2 rd rs1 rs2 (· &&& ·))
def execOrR (i : Issue) (rd rs1 rs2 : Reg) (s : State) : Result := .next (s.opR i 0x3 rd rs1 rs2 (· ||| ·))
def execXorR (i : Issue) (rd rs1 rs2 : Reg) (s : State) : Result := .next (s.opR i 0x4 rd rs1 rs2 (· ^^^ ·))
def execShl (i : Issue) (rd rs1 rs2 : Reg) (s : State) : Result :=
  .next (s.opR i 0x5 rd rs1 rs2 fun a b => a <<< (b.toNat % 32))
def execShr (i : Issue) (rd rs1 rs2 : Reg) (s : State) : Result :=
  .next (s.opR i 0x6 rd rs1 rs2 fun a b => a >>> (b.toNat % 32))
def execSra (i : Issue) (rd rs1 rs2 : Reg) (s : State) : Result :=
  .next (s.opR i 0x7 rd rs1 rs2 fun a b => a.sshiftRight (b.toNat % 32))
def execMul (i : Issue) (rd rs1 rs2 : Reg) (s : State) : Result := .next (s.opR i 0x8 rd rs1 rs2 (· * ·))
def execMulh (i : Issue) (rd rs1 rs2 : Reg) (s : State) : Result := .next (s.opR i 0x9 rd rs1 rs2 mulh)
def execMin (i : Issue) (rd rs1 rs2 : Reg) (s : State) : Result :=
  .next (s.opR i 0xA rd rs1 rs2 fun a b => if a.slt b then a else b)
def execMax (i : Issue) (rd rs1 rs2 : Reg) (s : State) : Result :=
  .next (s.opR i 0xB rd rs1 rs2 fun a b => if a.slt b then b else a)
def execSlt (i : Issue) (rd rs1 rs2 : Reg) (s : State) : Result :=
  .next (s.opR i 0xC rd rs1 rs2 fun a b => if a.slt b then 1 else 0)
def execSltu (i : Issue) (rd rs1 rs2 : Reg) (s : State) : Result :=
  .next (s.opR i 0xD rd rs1 rs2 fun a b => if a.ult b then 1 else 0)
def execClz (i : Issue) (rd rs1 : Reg) (s : State) : Result :=
  .next (s.opR i 0xE rd rs1 0 fun a _ => BitVec.ofNat 32 (clz32 a))
def execPopc (i : Issue) (rd rs1 : Reg) (s : State) : Result :=
  .next (s.opR i 0xF rd rs1 0 fun a _ => BitVec.ofNat 32 (popc32 a))

/-! ### Immediate instructions -/

def execAddi (i : Issue) (rd rs1 : Reg) (imm : Half) (s : State) : Result :=
  .next (s.opI i 0x01 rd rs1 imm.toNat (· + sextImm imm))
def execAndi (i : Issue) (rd rs1 : Reg) (imm : Half) (s : State) : Result :=
  .next (s.opI i 0x02 rd rs1 imm.toNat (· &&& zextImm imm))
def execOri (i : Issue) (rd rs1 : Reg) (imm : Half) (s : State) : Result :=
  .next (s.opI i 0x03 rd rs1 imm.toNat (· ||| zextImm imm))
def execXori (i : Issue) (rd rs1 : Reg) (imm : Half) (s : State) : Result :=
  .next (s.opI i 0x04 rd rs1 imm.toNat (· ^^^ zextImm imm))
def execShli (i : Issue) (rd rs1 : Reg) (sh : Fin 32) (s : State) : Result :=
  .next (s.opI i 0x05 rd rs1 sh (· <<< sh.val))
def execShri (i : Issue) (rd rs1 : Reg) (sh : Fin 32) (s : State) : Result :=
  .next (s.opI i 0x06 rd rs1 sh (· >>> sh.val))
def execSrai (i : Issue) (rd rs1 : Reg) (sh : Fin 32) (s : State) : Result :=
  .next (s.opI i 0x07 rd rs1 sh fun a => a.sshiftRight sh.val)
def execLui (i : Issue) (rd : Reg) (imm : Half) (s : State) : Result :=
  .next (s.opI i 0x08 rd 0 imm.toNat fun _ => zextImm imm <<< 16)
/-- BFX; `wid` is WID − 1. -/
def execBfx (i : Issue) (rd rs1 : Reg) (pos wid : Fin 32) (s : State) : Result :=
  .next (s.opI i 0x09 rd rs1 (pos + 32 * wid.val) fun a => bfx a pos (wid + 1))
/-- BFI; `wid` is WID − 1. -/
def execBfi (i : Issue) (rd rs1 : Reg) (pos wid : Fin 32) (s : State) : Result :=
  .next (s.issue i (encI 0x0A rd rs1 (pos + 32 * wid.val)) fun s =>
    s.result i.eng rd (bfi (s.ereg i.eng rd) (s.ereg i.eng rs1) pos (wid + 1)))

/-! ### Loads and stores; `ecc` is what the code says of the word accessed (R279) -/

def execLb (i : Issue) (rd rs1 : Reg) (imm : Half) (ecc : Ecc) (s : State) : Result :=
  .next (s.opLoad i 0x10 rd rs1 imm ecc 1 fun v => (BitVec.ofNat 8 v).signExtend 32)
def execLbu (i : Issue) (rd rs1 : Reg) (imm : Half) (ecc : Ecc) (s : State) : Result :=
  .next (s.opLoad i 0x11 rd rs1 imm ecc 1 (BitVec.ofNat 32))
def execLh (i : Issue) (rd rs1 : Reg) (imm : Half) (ecc : Ecc) (s : State) : Result :=
  .next (s.opLoad i 0x12 rd rs1 imm ecc 2 fun v => (BitVec.ofNat 16 v).signExtend 32)
def execLhu (i : Issue) (rd rs1 : Reg) (imm : Half) (ecc : Ecc) (s : State) : Result :=
  .next (s.opLoad i 0x13 rd rs1 imm ecc 2 (BitVec.ofNat 32))
def execLw (i : Issue) (rd rs1 : Reg) (imm : Half) (ecc : Ecc) (s : State) : Result :=
  .next (s.opLoad i 0x14 rd rs1 imm ecc 4 (BitVec.ofNat 32))
def execSb (i : Issue) (rs rs1 : Reg) (imm : Half) (s : State) : Result := .next (s.opStore i 0x15 rs rs1 imm 1)
def execSh (i : Issue) (rs rs1 : Reg) (imm : Half) (s : State) : Result := .next (s.opStore i 0x16 rs rs1 imm 2)
def execSw (i : Issue) (rs rs1 : Reg) (imm : Half) (s : State) : Result := .next (s.opStore i 0x17 rs rs1 imm 4)
/-- HINC (R278). -/
def execHinc (i : Issue) (rs rs1 : Reg) (imm : Half) (ecc : Ecc) (s : State) : Result :=
  .next (s.issue i (encI 0x18 rs rs1 imm.toNat) fun s =>
    let a := s.eaddr i.eng rs1 imm
    if a.toNat % 4 ≠ 0 then s.engFault i.eng 2 a.toNat
    else
      let v := s.eword i.eng a ecc + (s.ereg i.eng rs).toNat
      ((s.eccData i.eng a ecc).estore i.eng a 4 v).engNext i.eng)

/-! ### Branches and jumps -/

def execBeq (i : Issue) (rs1 rs2 : Reg) (off : Half) (s : State) : Result := .next (s.opB i 0x20 rs1 rs2 off (· == ·))
def execBne (i : Issue) (rs1 rs2 : Reg) (off : Half) (s : State) : Result := .next (s.opB i 0x21 rs1 rs2 off (· != ·))
def execBlt (i : Issue) (rs1 rs2 : Reg) (off : Half) (s : State) : Result := .next (s.opB i 0x22 rs1 rs2 off BitVec.slt)
def execBge (i : Issue) (rs1 rs2 : Reg) (off : Half) (s : State) : Result :=
  .next (s.opB i 0x23 rs1 rs2 off fun a b => !a.slt b)
def execBltu (i : Issue) (rs1 rs2 : Reg) (off : Half) (s : State) : Result := .next (s.opB i 0x24 rs1 rs2 off BitVec.ult)
def execBgeu (i : Issue) (rs1 rs2 : Reg) (off : Half) (s : State) : Result :=
  .next (s.opB i 0x25 rs1 rs2 off fun a b => !a.ult b)
def execJal (i : Issue) (rd : Reg) (off : BitVec 21) (s : State) : Result :=
  .next (s.issue i (encJ rd off.toNat) fun s =>
    let pc := (s.eng i.eng).pc
    (s.updEng i.eng fun x => x.setReg rd (BitVec.ofNat 32 (pc + 4))).engStep i.eng
      ((pc + 4 * (off.signExtend 32).toNat) % 32768))
/-- JALR: a target that is no multiple of 4 faults (R289). -/
def execJalr (i : Issue) (rd rs1 : Reg) (imm : Half) (s : State) : Result :=
  .next (s.issue i (encI 0x29 rd rs1 imm.toNat) fun s =>
    let t := s.eaddr i.eng rs1 imm
    let pc := (s.eng i.eng).pc
    if t.toNat % 4 ≠ 0 then s.engFault i.eng 2 t.toNat
    else (s.updEng i.eng fun x => x.setReg rd (BitVec.ofNat 32 (pc + 4))).engStep i.eng (t.toNat % 32768))

/-! ### Streams and control -/

/-- IN: the head item, or BLANK. -/
def execInp (i : Issue) (rd : Reg) (s : State) : Result :=
  .next (s.issue i (encI 0x30 rd 0 0) fun s => (s.popIn i.eng).result i.eng rd (s.peekIn i.eng 0))
/-- IN.W: stalls while there is no current message; BLANK once its EOM item has been popped. -/
def execInpW (i : Issue) (rd : Reg) (s : State) : Result :=
  .next (s.issue i (encI 0x30 rd 0 1) fun s =>
    if (s.eng i.eng).cur.isNone then s else (s.popIn i.eng).result i.eng rd (s.peekIn i.eng 0))
def execPeek (i : Issue) (rd : Reg) (k : Fin 8) (s : State) : Result :=
  .next (s.issue i (encI 0x31 rd 0 k) fun s => s.result i.eng rd (s.peekIn i.eng k))
def execOut (i : Issue) (rs : Reg) (s : State) : Result :=
  .next (s.issue i (encI 0x32 rs 0 0) fun s =>
    let v := s.ereg i.eng rs
    let c := s.pushCause i.eng v.toNat
    if c ≠ 0 then s.overrun i.eng c else (s.pushOut i.eng v).engNext i.eng)
/-- OUTM: push and end the message; a push that leaves a sub-header short breaches R282, and has no effect. -/
def execOutm (i : Issue) (rs : Reg) (s : State) : Result :=
  .next (s.issue i (encI 0x33 rs 0 0) fun s =>
    let v := s.ereg i.eng rs
    let c := s.pushCause i.eng v.toNat
    if c ≠ 0 then s.overrun i.eng c
    else if s.engRole i.eng = 0 ∧ subRun ((s.eng i.eng).out ++ [v.toNat]) % 4 ≠ 0 then s.overrun i.eng 4
    else (s.pushOut i.eng v).endOut i.eng)
/-- OUTM.E: end the message without pushing; the register it names is not read. -/
def execOutmE (i : Issue) (rs : Reg) (s : State) : Result :=
  .next (s.issue i (encI 0x33 rs 0 1) fun s =>
    if s.engRole i.eng = 0 ∧ (s.eng i.eng).ended then s.overrun i.eng 2 else s.endOut i.eng)
/-- TICK: the low or high word of the first tick of the current message's frame. -/
def execTick (i : Issue) (rd : Reg) (hi : Bool) (s : State) : Result :=
  .next (s.issue i (encI 0x34 rd 0 (b2n hi)) fun s =>
    let t := (s.eng i.eng).frame * 4096
    s.result i.eng rd (BitVec.ofNat 32 (if hi then t / 2 ^ 32 else t)))
/-- EVENT (R297). -/
def execEvent (i : Issue) (rs : Reg) (s : State) : Result :=
  .next (s.issue i (encI 0x35 rs 0 0) fun s =>
    let v := (s.ereg i.eng rs).toNat
    let s := s.zput (ZE.EVVAL.VALUE.geng i.eng) v
    (s.engEvent i.eng 0 sevInfo ([0] ++ leBytes (s.eng i.eng).pc 2 ++ leBytes v 4
      ++ leBytes (s.zget (ZE.MSGS.COUNT.geng i.eng)) 4)).engNext i.eng)
/-- YIELD: release the current message and take the next, or wait for it. -/
def execYield (i : Issue) (s : State) : Result :=
  .next (s.issue i (encI 0x36 0 0 0) fun s =>
    if (s.eng i.eng).outOpen then s.overrun i.eng 3
    else (((s.carveDone i.eng).engRelease i.eng).engNext i.eng))
/-- HALT: the engine stops; with an output message open it faults. -/
def execHalt (i : Issue) (s : State) : Result :=
  .next (s.issue i (encI 0x37 0 0 0) fun s =>
    if (s.eng i.eng).opened then s.overrun i.eng 3 else ((s.carveDone i.eng).engNext i.eng).engHalt i.eng)

end Sys2Proof.Machine
end

