-- ==== Sys2Proof/Machine/View.lean ====
section
/-!
DEFINITION. What a read of a Zwiuc register shows (R419 to R437): most fields show what the register file holds; the fields below are
computed from the rest of the state.
Choices of the model: log entries 3 (DESIGN CHOICE), 19 (DESIGN CHOICE).
-/

namespace Sys2Proof.Machine

/-- The mask of the ports that satisfy `f`. -/
def maskPorts (f : Port → Bool) : Nat := (ports16.filter f).foldl (fun m p => m + 2 ^ p.val) 0

/-- Computed fields of a port block (R148, R119, R122). -/
def State.viewPort (s : State) (p : Port) (f : Field) : Option Nat :=
  let q := s.port p
  let sel (x : Lane → Nat) : Nat := x (s.lane (.up p (Fin.ofNat 8 (s.zget (ZP.PRBS.SEL.port p)))))
  if f = ZP.QSTAT.OCC then
    let n := (queueBytes q.queue + 63) / 64
    some (if 16384 ≤ n then 0x7FFF else n)
  else if f = ZP.QSTAT.SIDE then some q.side.length
  else if f = ZP.STAT.MARK_PEND then some (b2n (q.late.isSome || q.holdGap))
  else if f = ZP.PRBS_ERR.ERRORS then some (sat 32 (sel Lane.prbsErr))
  else if f = ZP.PRBS_BITS.BITS then some (sel Lane.prbsBits)
  else none

/-- Computed fields of a ring lane set (R428). -/
def State.viewLane (s : State) (d : Side) (f : Field) : Option Nat :=
  let x := s.lane (.ring d)
  if f = ZP.PRBS_ERR.ERRORS then some (sat 32 x.prbsErr)
  else if f = ZP.PRBS_BITS.BITS then some x.prbsBits
  else none

/-- Billets of stack `n` in rotation (R160). -/
def State.rotation (s : State) (n : Nat) : Nat :=
  if s.inService n ∧ ¬ bitAt (s.zget Z.BUF_STAT.SKIPPED) n then
    245760 - Tab.count (fun b x => (decide (x.pin ≠ 0) || x.lost) && s.billetStack b == n) s.buf.billets
  else 0

/-- Word `i` of a freeze record (R199). -/
def Freeze.word (z : Freeze) (i : Nat) : Nat :=
  if z.cause = 4 then 0
  else if i < 32 then
    let a := z.syn.getD (2 * i) (0, 0)
    let b := z.syn.getD (2 * i + 1) (0, 0)
    a.1 + 256 * a.2 + 65536 * b.1 + 16777216 * b.2
  else if i = 32 then z.flags % 2 ^ 32
  else if i = 33 then z.flags / 2 ^ 32 % 4
  else z.cmds.getD (i - 34) 0

/-- Computed fields of a stack block (R178, R199). -/
def State.viewStack (s : State) (n : Nat) (f : Field) : Option Nat :=
  let z := Tab.get none (s.stack n).freeze (s.zget (ZS.FRZ.SEL.stack n))
  let age (c : Nat) : Nat := sat 8 (s.trainAge n c)
  if f = ZS.BILLETS.ROT then some (s.rotation n)
  else if f = ZS.CHSTATc.AGE then some (age 0)
  else if f = ZS.CHSTATc.AGE.at 4 then some (age 1)
  else if f = ZS.CHSTATc.AGE.at 8 then some (age 2)
  else if f = ZS.CHSTATc.AGE.at 12 then some (age 3)
  else if f = ZS.FRZ.CAUSE then some (z.elim 0 (·.cause))
  else if f = ZS.FRZ_ADDR.L then some (z.elim 0 (·.addr))
  else if f = ZS.FRZ_DATA.DATA then some (z.elim 0 fun z => z.word (s.zget (ZS.FRZ.IDX.stack n)))
  else none

/-- Computed fields of a cluster block (R295). -/
def State.viewGcl (s : State) (n : Nat) (f : Field) : Option Nat :=
  let states (k : Nat) : Nat := (List.range 8).foldl (fun a j => a + s.engState (24 * n + 8 * k + j) * 16 ^ j) 0
  let mask (v : Nat) : Nat := (List.range 24).foldl (fun a i => if s.engState (24 * n + i) = v then a + 2 ^ i else a) 0
  if f = ZC.STATEk.STATE then some (states 0)
  else if f = ZC.STATEk.STATE.at 4 then some (states 1)
  else if f = ZC.STATEk.STATE.at 8 then some (states 2)
  else if f = ZC.RUN.MASK then some (mask engRunning)
  else if f = ZC.FAULTED.MASK then some (mask engFaulted)
  else if f = ZC.CYCLES.COUNT then some ((s.gcl n).cyc / 16)
  else none

/-- Computed fields of an interlock register (R379). -/
def State.viewIl (s : State) (f : Field) : Option Nat :=
  if f = ZI.STAT.HOLD then some (b2n (s.monHeld && !s.ilForced)) else none

/-- The directory entry of the oldest unexpired run outside pinned ranges (R178). -/
def State.oldest (s : State) : Option DirEnt :=
  (List.map (·.2) s.buf.dir).foldl (fun (a : Option DirEnt) e =>
    if ¬ e.valid ∨ e.expired ∨ e.pinned then a
    else match a with
      | none => some e
      | some x => if e.seq < x.seq then some e else a) none

/-- The start of the newest committed frame. -/
def State.newest (s : State) : Nat := (List.map (·.2) s.buf.dir).foldl (fun a (e : DirEnt) => if e.valid then max a e.last else a) 0

/-- The entry of the repeat-CE table that Z_RCE_IDX selects (R190). -/
def State.rceSel (s : State) : Option RceEnt := Tab.get none s.buf.rce (s.zget Z.RCE_IDX.ENTRY)

/-- Age in µs of the oldest chunk of class 3 in the output priority queue (R226). -/
def State.oldest3 (s : State) : Nat :=
  match s.xtr.queue.find? fun (c : Chunk) => (s.ctx? c.ctx).elim false fun x => x.cls == 3 with
  | none => 0
  | some c => sat 32 ((s.time - c.time) / (1000 * nsUnits))

/-- The mask of compression streams whose context satisfies `f`. -/
def State.zmask (s : State) (f : Ctx → Bool) : Nat :=
  (List.range 8).foldl (fun a k => if (s.zctx k).elim false f then a + 2 ^ k else a) 0

/-- The decompressor or its staging memory is in use (R265). -/
def State.decBusy (s : State) : Bool :=
  s.cmds.any fun c => c.running && c.image.isSome && ((c.opcode == 3 && bitAt (c.num 0 1) 0) || (c.opcode == 0x10 && bitAt (c.num 3 1) 0))

/-- Computed fields of the merge, buffer and integrity registers. -/
def State.viewBuf (s : State) (f : Field) : Option Nat :=
  let rce (g : RceEnt → Nat) : Nat := s.rceSel.elim 0 g
  if f = Z.MERGE_STAT.STALLED then some (maskPorts fun p => s.zget (ZP.STAT.STATE.port p) == 4)
  else if f = Z.MERGE_STAT.MERGING then some (maskPorts fun p => s.zget (ZP.STAT.STATE.port p) == 3)
  else if f = Z.BUF_OLDEST.FRAME then some (s.oldest.elim 0 (·.first))
  else if f = Z.BUF_OLDEST.RUN_ID then some (s.oldest.elim 0 (·.runId))
  else if f = Z.BUF_RATE.MBPS then
    some (if s.buf.sizes = [] then 0 else sat 18 (s.buf.sizes.sum * 20 / s.buf.sizes.length))
  else if f = Z.BUF_RETAIN.US then some (s.oldest.elim 0 fun e => sat 32 ((s.newest - e.time) / (1000 * nsUnits)))
  else if f = Z.BUF_PIN.BILLETS then some s.pinned
  else if f = Z.BUF_PIN.RANGES then some (Tab.count (fun _ r => Option.isSome r) s.buf.pins)
  else if f = Z.BUF_ROT.BILLETS then some ((List.range 8).foldl (fun a n => a + s.rotation n) 0)
  else if f = Z.BUF_DIR.LIVE then some (Tab.count (fun _ (e : DirEnt) => e.valid && !e.expired) s.buf.dir)
  else if f = Z.RCE_STAT.USED then some (Tab.count (fun _ r => Option.isSome r) s.buf.rce)
  else if f = Z.RCE_DATA0.L then some (rce (·.addr))
  else if f = Z.RCE_DATA1.CHANNEL then some (rce (·.ch))
  else if f = Z.RCE_DATA1.BITS then some (rce (·.bits_))
  else if f = Z.RCE_DATA1.VALID then some (b2n s.rceSel.isSome)
  else if f = Z.RCE_DATA2.COUNT then some (rce fun e => sat 32 e.count)
  else if f = Z.RCE_DATA3.LAP_FIRST then some (rce fun e => e.lapFirst % 65536)
  else if f = Z.RCE_DATA3.LAP_LAST then some (rce fun e => e.lapLast % 65536)
  else none

/-- Computed fields of the extraction and compression registers (R226, R268). -/
def State.viewXtr (s : State) (f : Field) : Option Nat :=
  if f = Z.XTR_INUSEc.COUNT then some (s.inUse 0)
  else if f = Z.XTR_INUSEc.COUNT.at 4 then some (s.inUse 1)
  else if f = Z.XTR_INUSEc.COUNT.at 8 then some (s.inUse 2)
  else if f = Z.XTR_INUSEc.COUNT.at 12 then some (s.inUse 3)
  else if f = Z.XTR_WAITING.COUNT then some (s.xtr.ctxs.filter fun c => c.phase == .wait).length
  else if f = Z.XTR_OQ.OCC then some (if 2048 ≤ s.xtr.queue.length then 0xFFF else s.xtr.queue.length)
  else if f = Z.XTR_OLDEST3.US then some s.oldest3
  else if f = Z.XTR_FETCH.STOPPED then
    some ((List.range 4).foldl (fun a k => if s.ringUp (k + 1) ∧ s.unfetched (k + 1) ≠ 0 ∧ ¬ s.mayTake k then a + 2 ^ k else a) 0)
  else if f = Z.COMP_STAT.BUSY then some (s.zmask fun _ => true)
  else if f = Z.COMP_STAT.STARVED then some (s.zmask Ctx.starved)
  else if f = Z.COMP_STAT.DEC_BUSY then some (b2n s.decBusy)
  else if f = Z.COMP_WAIT.COUNT then some (s.xtr.ctxs.filter Ctx.wantsStream).length
  else none

/-- Computed fields of the time, ring, monitor, event and snapshot registers. -/
def State.viewSys (s : State) (f : Field) : Option Nat :=
  let w := timeWords s.time
  if f = Z.TIME_NOW0.FRAC then some (w.getD 0 0 % 65536)
  else if f = Z.TIME_NOW0.SEC_LO then some (w.getD 0 0 / 65536)
  else if f = Z.TIME_NOW1.NS then some (w.getD 1 0)
  else if f = Z.TIME_NOW2.SEC_HI then some (w.getD 2 0)
  else if f = Z.RING_STAT.WRAP_E then some (b2n (s.ringEn && !s.ringServes .east))
  else if f = Z.RING_STAT.WRAP_W then some (b2n (s.ringEn && !s.ringServes .west))
  else if f = Z.RING_STAT.IN_MAP then some (b2n (bitAt (s.zget Z.RING_MAP.MASK) s.node))
  else if f = Z.MON_PASS.NOM_MS then some (sat 16 s.nomMs)
  else if f = Z.MON_SCAN.PAUSED then some (b2n (s.monHeld || s.zget Z.MON_CTL.CAL_BUSY == 1))
  else if f = Z.MON_INJ.BUSY then some (b2n (s.mon.injPend != 0))
  else if f = Z.MON_ILSUM.FAULT then
    some ((List.range 16).foldl (fun a m => a + s.zget (ZI.STAT.FAULT.il m) * 2 ^ m) 0)
  else if f = Z.MON_ILSUM.HOLD then some (if s.monHeld && !s.ilForced then 0xFFFF else 0)
  else if f = Z.EVT_STAT.QOCC then some s.ev.queue.length
  else if f = Z.TRUE_STAT.PENDING then some (b2n (s.snaps.any fun x => !x.latched))
  else if f = Z.TRUE_STAT.BUILDING then some (b2n (s.snaps.any fun x => x.latched))
  else if f = Z.TRUE_STAT.STAGING then some s.staging
  else none

/-- The field at `f` with its offset counted from `base`. -/
def Field.from (f : Field) (base : Nat) : Field := { f with off := f.off - base }

/-- What field `f`, given with its BAR0 offset, shows. -/
def State.zview (s : State) (f : Field) : Nat :=
  let o := f.off
  let v : Option Nat :=
    if o < 0x4000 then (match s.viewBuf f with | some v => some v | none => s.viewXtr f)
    else if 0x5100 ≤ o ∧ o < 0x5140 then s.viewLane .east (f.from 0x5000)
    else if 0x5140 ≤ o ∧ o < 0x5180 then s.viewLane .west (f.from 0x5040)
    else if 0x6200 ≤ o ∧ o < 0x6300 then s.viewIl (f.from (0x6200 + (o - 0x6200) / 16 * 16))
    else if 0x8000 ≤ o ∧ o < 0x9000 then s.viewXtr f
    else if o < 0x10000 then s.viewSys f
    else if o < 0x14000 then
      let p := (o - 0x10000) / 0x400
      s.viewPort (Fin.ofNat 16 p) (f.from (0x10000 + p * 0x400))
    else if o < 0x28000 then
      let n := (o - 0x20000) / 0x1000
      s.viewStack n (f.from (0x20000 + n * 0x1000))
    else if o < 0x32000 then
      let n := (o - 0x30000) / 0x800
      s.viewGcl n (f.from (0x30000 + n * 0x800))
    else none
  v.getD (s.zget f)

/-! ### The register map (R419, R420, R425 to R436) -/

/-- The fields of the word at `o` of a block that starts at `base`. -/
def blockFields (rows : List Row) (base o : Nat) : List Field := (fieldsAt 4 rows (o - base)).map fun f => f.at base

/-- The fields of the word at BAR0 offset `o`. -/
def zfields (o : Nat) : List Field :=
  if 0x5100 ≤ o ∧ o < 0x5180 then
    let base := if o < 0x5140 then 0x5000 else 0x5040
    if (0x108 ≤ o - base ∧ o - base < 0x124) then [] else blockFields ZP.rows base o
  else if 0x6200 ≤ o ∧ o < 0x6300 then blockFields ZI.rows (0x6200 + (o - 0x6200) / 16 * 16) o
  else if 0x7000 ≤ o ∧ o < 0x7100 then blockFields ZR.rows (0x7000 + (o - 0x7000) / 32 * 32) o
  else if o < 0x10000 then fieldsAt 4 Z.rows o
  else if o < 0x14000 then blockFields ZP.rows (0x10000 + (o - 0x10000) / 0x400 * 0x400) o
  else if 0x20000 ≤ o ∧ o < 0x28000 then blockFields ZS.rows (0x20000 + (o - 0x20000) / 0x1000 * 0x1000) o
  else if 0x30000 ≤ o ∧ o < 0x32000 then blockFields ZC.rows (0x30000 + (o - 0x30000) / 0x800 * 0x800) o
  else if 0x34000 ≤ o ∧ o < 0x35800 then blockFields ZE.rows (0x34000 + (o - 0x34000) / 0x40 * 0x40) o
  else []

/-- The mapped reserved words (R428, R435, R436). -/
def zreserved (o : Nat) : Bool :=
  (decide (0x5108 ≤ o ∧ o < 0x5124)) || (decide (0x5148 ≤ o ∧ o < 0x5164))
    || (decide (0x30000 ≤ o ∧ o < 0x32000) && decide (0x3C ≤ o % 0x800 ∧ o % 0x800 < 0x80))
    || (decide (0x34000 ≤ o ∧ o < 0x35800) && decide (o % 0x40 = 0x3C))

/-- The word at `o` is mapped (R420). -/
def zmapped (o : Nat) : Bool := o % 4 == 0 && (zfields o != [] || zreserved o)

/-- The word at `o` as a read shows it. -/
def State.zword (s : State) (o : Nat) : Nat := wordOf (zfields o) s.zview o

/-- The register words, for the snapshot mirror: every mapped offset with fields. -/
def blockOffsets : List Nat :=
  let span (base stride count : Nat) (words : List Nat) : List Nat :=
    (List.range count).flatMap fun n => words.map fun w => base + n * stride + w
  let words (a b : Nat) : List Nat := (List.range ((b - a) / 4)).map fun k => a + 4 * k
  words 0 0x4A4 ++ words 0x4000 0x4054 ++ words 0x5000 0x517C ++ words 0x6000 0x6300 ++ words 0x7000 0x7120 ++ words 0x8000 0x8030
    ++ words 0x9000 0x902C ++ words 0xA000 0xA320 ++ span 0x10000 0x400 16 (words 0 0x54 ++ words 0x100 0x13C ++ words 0x180 0x190)
    ++ span 0x20000 0x1000 8 (words 0 0x48 ++ words 0x100 0x120) ++ span 0x30000 0x800 4 (words 0 0x3C)
    ++ span 0x34000 0x40 96 (words 0 0x3C)

/-- The image of every register word (R389, R390); words that read zero are not listed. -/
def State.image (s : State) : Tab Nat :=
  (blockOffsets.map fun o => (o, s.zword o)).filter fun x => x.2 != 0

end Sys2Proof.Machine
end

