-- ==== Sys2Proof/Machine/Snapshot.lean ====
section
/-!
DEFINITION. The event unit's writer (R246, R247, R382, R383), trued snapshots (R389 to R394), and the configuration scrub (R399).
Choices of the model: log entry 17 (DEDUCED).
-/

namespace Sys2Proof.Machine

/-! ### Events to the host -/

/-- EVENT_RECORD_WRITE: the head of the event queue is written when EVT can take it; messages due together are merged. -/
def State.eventWrite (s : State) : State :=
  match s.ev.queue with
  | [] => s
  | e :: rest =>
    if ¬ s.ringRoom 7 then s
    else
      let s := s.ringPut 7 (evtBytes e s.ev.lost)
      let s := s.updEv fun e => { e with queue := rest, lost := 0 }
      let due := s.countDue 7
      let s := if due then s.clearSince 7 else s
      s.messages ((if due then [s.zget (ZR.CFG.VECTOR.hring 7)] else []) ++ (if (s.evMap e.src).2 then [(s.evMap e.src).1] else []))

/-! ### Snapshots -/

def State.updSnap (s : State) (seq : Nat) (f : Snap → Snap) : State :=
  s.updSnaps fun l => l.map fun (x : Snap) => if x.seq = seq then f x else x

/-- FLAGS of a snapshot block at T (R392). -/
def State.snapFlags (s : State) (x : Snap) : Nat :=
  b2n s.run.active + 2 * b2n x.cmd.isNone + 4 * b2n (s.timeState == tsRest) + 8 * b2n s.warned
    + 16 * b2n ((List.range 8).any fun n => s.zget (ZS.MIG.ACTIVE.stack n) == 1)

/-- The 17 reads of the words 0x064 to 0x074 (R391). -/
def snapReads (seq : Nat) : List DlItem :=
  (List.range 17).map fun w => { purpose := .snap seq w, op := 2, sh := false, bytes := [0, 0] ++ beBytes (0x64 + w) 2 }

/-- SNAPSHOT_LATCH: at T every register is copied into the mirror; Zwiuc then reads the copies of the ports that it armed. -/
def State.snapLatch (s : State) : State :=
  match s.snaps.find? fun x => !x.latched && decide (x.instant ≤ s.time) with
  | none => s
  | some x =>
    let up := ports16.filter fun p => s.linkUp p
    let s := s.updMirror fun _ => s.image
    let s := s.updSnap x.seq fun y => { y with latched := true, active := (up.map fun p => 2 ^ p.val).sum, flags := s.snapFlags x }
    let s := (s.zput Z.TRUE_SEQ.SEQ x.seq).zput Z.TRUE_TICK.TICK x.tick
    (up.filter fun p => bitAt x.armed p.val).foldl (fun s p => s.dlUrgent p (snapReads x.seq)) s

/-- Traffic of snapshot `seq` waits on port `p`. -/
def State.snapTraffic (s : State) (seq : Nat) (p : Port) : Bool :=
  let mine (u : Purpose) : Bool := match u with
    | .snap n _ => n == seq
    | _ => false
  (s.port p).outst.any (fun o => mine o.purpose) || (s.port p).dlWait.any fun i => mine i.purpose

/-- The ports whose 17 words have arrived. -/
def Snap.valid (x : Snap) : Nat :=
  maskPorts fun p => bitAt x.active p.val && !bitAt x.failed p.val && (List.range 17).all fun w => Tab.get 0 x.words (p.val * 32 + w) != 0

/-- A Pelnos word of the snapshot. -/
def Snap.word (x : Snap) (p w : Nat) : Nat := Tab.get 0 x.words (p * 32 + w) - 1

/-- The register offsets of a port's section of the block, of a stack's, and of the last section (R392). -/
def snapPortRegs : List Nat :=
  [0x000, 0x004, 0x008, 0x00C, 0x010, 0x014, 0x018, 0x01C, 0x020, 0x024, 0x028, 0x02C, 0x030, 0x034, 0x038, 0x03C, 0x040, 0x044, 0x048,
   0x04C, 0x104, 0x108, 0x10C, 0x110, 0x114, 0x118, 0x11C, 0x120, 0x124, 0x188, 0x18C]
def snapStackRegs : List Nat := [0x000, 0x004, 0x008, 0x00C, 0x010, 0x014, 0x100, 0x104, 0x108, 0x10C, 0x110, 0x114]
def snapTailRegs : List Nat :=
  [0x108, 0x10C, 0x110, 0x114, 0x204, 0x208, 0x20C, 0x210, 0x214, 0x218, 0x21C, 0x220, 0x224, 0x304, 0x308, 0x30C, 0x324]
    ++ [0x40C, 0x410, 0x414, 0x418, 0x41C, 0x460, 0x470, 0x474, 0x478, 0x47C, 0x480, 0x494, 0x49C, 0x4A0]
    ++ [0x8004, 0x8008, 0x801C, 0x8020, 0x8024]
    ++ [0x30004, 0x30804, 0x31004, 0x31804, 0x30018, 0x30818, 0x31018, 0x31818, 0x3001C, 0x3081C, 0x3101C, 0x3181C]
    ++ [0x4018, 0x401C, 0x4020, 0x4048, 0x500C, 0x5010, 0x5014, 0x5018, 0x501C, 0x5038, 0x503C, 0x6008, 0x600C, 0x606C]
    ++ [0x9000, 0x9004, 0x900C, 0x9010, 0x9020, 0x710C, 0x7110, 0xA004, 0xA080, 0xA030]

/-- Words 31 to 39 of a port's section: the Pelnos words, zero without a latched image. -/
def Snap.portWords (x : Snap) (valid : Nat) (p : Nat) : List Nat :=
  if bitAt valid p then
    ([0, 2, 4, 6, 8, 10, 12, 14].map fun w => x.word p w + 65536 * x.word p (w + 1)) ++ [x.word p 16]
  else List.replicate 9 0

/-- The snapshot block of R392. -/
def State.snapBlock (s : State) (x : Snap) : List Byte :=
  let img (o : Nat) : Nat := Tab.get 0 s.mirror o
  let valid := x.valid
  let flags := x.flags + 32 * b2n (x.active != valid)
  let t := x.instant
  let head := leBytes x.tick 8 ++ leBytes (t % 2 ^ 32 / 65536) 2 ++ leBytes (t / 2 ^ 32 % 1000000000) 4
    ++ leBytes (t / 2 ^ 32 / 1000000000) 6 ++ leBytes x.runId 2 ++ leBytes flags 2 ++ leBytes x.seq 4 ++ leBytes x.tag 4 ++ leBytes valid 2
    ++ [1, 0] ++ leBytes (sat 32 ((s.time - t) / (1000 * nsUnits))) 4 ++ List.replicate 24 0
  let words := ((List.range 16).flatMap fun p => (snapPortRegs.map fun o => img (0x10000 + 0x400 * p + o)) ++ x.portWords valid p)
    ++ ((List.range 8).flatMap fun n => snapStackRegs.map fun o => img (0x20000 + 0x1000 * n + o))
    ++ ((List.range 96).flatMap fun e => [img (0x34004 + 0x40 * e), img (0x34020 + 0x40 * e)])
    ++ snapTailRegs.map img ++ List.replicate 8 0
  head ++ words.flatMap fun w => leBytes w 4

/-- The block of a latched snapshot is built when every image has arrived or is given up (R393). -/
def State.snapBuild (s : State) : State :=
  match s.snaps.find? fun x => x.latched && x.built.isNone with
  | none => s
  | some x =>
    if ports16.any fun p => s.snapTraffic x.seq p then s
    else s.updSnap x.seq fun y => { y with built := some (s.snapBlock x) }

/-- Where the block goes: DEST, or the next place of the periodic area (R394). -/
def State.snapDest (s : State) (x : Snap) : Nat :=
  if x.cmd.isSome then x.dest
  else s.zget Z.TEL_BASE.BASE * 4096 + 4096 * (s.zget Z.TEL_IDX.COUNT % 2 ^ min 10 (s.zget Z.TEL_CFG.LOG2N))

/-- The oldest built block is written to host memory, and its command finishes (R393). -/
def State.snapWrite (s : State) : State :=
  match s.snaps.find? fun x => x.built.isSome with
  | none => s
  | some x =>
    if ¬ s.dmaOk then s
    else
      let s := s.emit (.hostWrite (s.snapDest x) (x.built.getD []))
      let s := s.updSnaps fun l => l.filter fun y => y.seq != x.seq
      match x.cmd with
      | none => s.zwrap Z.TEL_IDX.COUNT 1
      | some id =>
        let fail := x.active - x.valid
        (s.updCmd id fun c => { c with fail := fail }).finish id (if fail = 0 then resOk else resPortFail) (leBytes x.tick 8)

/-- SNAPSHOT_BLOCK_WRITE. -/
def State.snapFinish (s : State) : State :=
  if s.snaps.any (·.latched) then ((s.touchKept.snapBuild).snapWrite).ctrlAdvance else s

/-- PERIODIC_SNAPSHOT: the snapshot that is due begins; one that could not begin within its own period is skipped (R394). -/
def State.periodic (s : State) : State :=
  let period := max 1 (s.zget Z.TEL_CFG.PERIOD_MS) * 1000000 * nsUnits
  if s.zget Z.TEL_CFG.EN = 0 ∨ s.time < s.ev.telAt then s
  else
    let next (s : State) : State := s.updEv fun e => { e with telAt := e.telAt + period }
    if s.ev.telAt + period ≤ s.time then (next s).zbump Z.TEL_SKIP.COUNT 1
    else if s.snapUnbuilt ∨ s.buf.stageLost ∨ 256 ≤ s.staging then s
    else (next s).beginSnap s.earliestTick none 0 0

/-! ### The configuration scrub (R399) -/

/-- CONFIG_SCRUB_READ: the next 16 pixel words are read; at the end of a lap its time is shown, and over 60 ms is a lag. -/
def State.configScrub (s : State) (p : Port) : State :=
  if ¬ bitAt (s.zget Z.CSCRUB_CFG.PORTS) p.val ∨ ¬ s.linkUp p ∨ s.pasr then s
  else
    let i := (s.port p).scrubPos
    let item : DlItem := { purpose := .scrub i 16, op := 4, sh := false, bytes := [16, 0] ++ beBytes (i / 512) 2 ++ beBytes (i % 512) 2 }
    let s := s.dlUrgent p [item]
    if i + 16 < 262144 then s.updPort p fun q => { q with scrubPos := i + 16 }
    else
      let ms := sat 16 ((s.time - (s.port p).scrubStart) / (1000000 * nsUnits))
      let s := (s.updPort p fun q => { q with scrubPos := 0, scrubStart := s.time }).zput (Z.CSCRUB_LAPp.LAP_MS.at (4 * p.val)) ms
      if 60 < ms then (s.bgLag 3).raisePort p 19 ([1] ++ leBytes ms 2) else s

/-! ### The meanings -/

/-- EVENT_RECORD_WRITE (R246, R382). -/
def execEventRecordWrite (s : State) : Result := .next s.eventWrite

/-- SNAPSHOT_LATCH (R389). -/
def execSnapshotLatch (s : State) : Result := .next s.snapLatch

/-- SNAPSHOT_BLOCK_WRITE (R393). -/
def execSnapshotBlockWrite (s : State) : Result := .next s.snapFinish

/-- PERIODIC_SNAPSHOT (R394). -/
def execPeriodicSnapshot (s : State) : Result := .next s.periodic

/-- CONFIG_SCRUB_READ (R399). -/
def execConfigScrubRead (p : Port) (s : State) : Result := .next (s.configScrub p)

end Sys2Proof.Machine
end

