-- ==== Sys2Proof/Machine/Host.lean ====
section
/-!
DEFINITION. The host interface (spec/10, 16, 18): doorbells, rings, messages, host-memory faults, the resets of the endpoint, and reads and
writes of BAR0, BAR2 and BAR4.
Choices of the model: log entries 13 (PRESUMED), 19 (DESIGN CHOICE), 23 (DEDUCED).
-/

namespace Sys2Proof.Machine

def State.isReady (s : State) : Bool := s.zget Z.BOOT_STAT.STAGE == 4

/-! ### Doorbells and rings (R232, R236, R237) -/

def pidxF (r : Nat) : Field := ZR.PIDX.INDEX.hring r
def cidxF (r : Nat) : Field := ZR.CIDX.INDEX.hring r

/-- A doorbell of a host-written ring that is enabled: its producer index moves, unless more than SIZE entries would be outstanding, or the
index would move backwards. -/
def State.bellIn (s : State) (r v : Nat) : State :=
  let own := s.zget (cidxF r)
  if s.ringSize r < idxDiff v own then s.ringErr r 0 v
  else if idxDiff v own < idxDiff (s.zget (pidxF r)) own then s.ringErr r 1 v
  else s.zput (pidxF r) v

/-- A doorbell of CMPL or EVT, enabled: the consumer index moves, and the timeout of the ring's message counts afresh (R247). -/
def State.bellOut (s : State) (r v : Nat) : State :=
  let own := s.zget (pidxF r)
  if s.ringSize r < idxDiff own v then s.ringErr r 0 v
  else if idxDiff own (s.zget (cidxF r)) < idxDiff own v then s.ringErr r 1 v
  else (s.zput (cidxF r) v).updHost fun h => { h with waitAt := Tab.set 0 h.waitAt r s.time }

/-- DOORBELL_WRITE. -/
def State.doorbell (s : State) (r v : Nat) : State :=
  if s.safe then s
  else if ¬ s.isReady then s.zput Z.HOST_ERR.BAD_ACCESS 1
  else if s.zget (ZR.CFG.EN.hring r) = 1 then (if r < 6 then s.bellIn r v else s.bellOut r v)
  else if r < 6 then s.updHost fun h => { h with bell := Tab.set none h.bell r (some v) }
  else s

/-- The fields of Z_RINGr_CFG beside EN: LOG2SIZE is refused while EN = 1 when the write would change it; VECTOR exists on CMPL and EVT. -/
def State.ringCfg (s : State) (r w : Nat) : State :=
  let s := if bitAt w 10 then s.zput (ZR.CFG.REFUSED.hring r) 0 else s
  let s := if 6 ≤ r then s.zput (ZR.CFG.VECTOR.hring r) (bits w 16 6) else s
  let f := ZR.CFG.LOG2SIZE.hring r
  if w % 32 = s.zget f then s
  else if s.zget (ZR.CFG.EN.hring r) = 1 then s.zput (ZR.CFG.REFUSED.hring r) 1
  else s.zput f w

/-- Counting for the ring's message starts again. -/
def State.freshCount (s : State) (r : Nat) : State :=
  s.updHost fun h => { h with since := Tab.set 0 h.since r 0, waitAt := Tab.set 0 h.waitAt r 0, bell := Tab.set none h.bell r none }

/-- RING_ENABLE, a write of Z_RINGr_CFG with EN = 1. -/
def State.hostRingEnable (s : State) (r w : Nat) : State :=
  let was := s.zget (ZR.CFG.EN.hring r) == 1
  let s := s.ringCfg r w
  if was then s
  else
    let n := s.zget (ZR.CFG.LOG2SIZE.hring r)
    if n < 6 ∨ 20 < n then s.zput (ZR.CFG.ERR.hring r) 1
    else
      let bell := Tab.get none s.host.bell r
      let s := ((s.zput (ZR.CFG.EN.hring r) 1).zput (cidxF r) 0).zput (pidxF r) 0
      let s := s.freshCount r
      match bell with
      | some v => if r < 6 then s.bellIn r v else s
      | none => s

/-- RING_DISABLE, a write of Z_RINGr_CFG with EN = 0. -/
def State.hostRingDisable (s : State) (r w : Nat) : State :=
  let s := s.ringCfg r w
  ((s.zput (ZR.CFG.EN.hring r) 0).zput (ZR.CFG.ERR.hring r) 0).freshCount r

/-! ### Messages (R247, R422) -/

/-- MSIX_TIMEOUT of CMPL (6) or EVT (7). -/
def State.msixLate (s : State) (r : Nat) : State :=
  let us := max 1 (s.zget (ZR.COAL.TIMEOUT_US.hring r))
  if s.zget (ZR.CFG.EN.hring r) = 0 ∨ Tab.get 0 s.host.since r = 0 ∨ idxDiff (s.zget (pidxF r)) (s.zget (cidxF r)) = 0
      ∨ s.time < Tab.get 0 s.host.waitAt r + us * 1000 * nsUnits then s
  else (s.clearSince r).message (s.zget (ZR.CFG.VECTOR.hring r))

/-- The mask bit of vector `v` is written: a message that is pending is sent on unmask. -/
def State.msixMask (s : State) (v c : Nat) : State :=
  let s := s.updHost fun h => { h with msix := Tab.upd {} h.msix v fun e => { e with ctrl := c % 2 } }
  if c % 2 = 0 ∧ s.host.pba.getLsbD v then
    (s.updHost fun h => { h with pba := h.pba &&& ~~~ BitVec.ofNat 64 (2 ^ v) }).message v
  else s

/-- A write of word `i` of the MSI-X table. -/
def State.msixWrite (s : State) (i w : Nat) : State :=
  let v := i / 4
  let put (f : MsixEntry → MsixEntry) : State := s.updHost fun h => { h with msix := Tab.upd {} h.msix v f }
  match i % 4 with
  | 0 => put fun e => { e with addr := e.addr / 2 ^ 32 * 2 ^ 32 + w }
  | 1 => put fun e => { e with addr := e.addr % 2 ^ 32 + w * 2 ^ 32 }
  | 2 => put fun e => { e with data := w }
  | _ => s.msixMask v w

/-- Word `i` of the table, and of the pending-bit array. -/
def State.msixWord (s : State) (i : Nat) : Nat :=
  let e := Tab.get {} s.host.msix (i / 4)
  match i % 4 with
  | 0 => e.addr % 2 ^ 32
  | 1 => e.addr / 2 ^ 32
  | 2 => e.data
  | _ => e.ctrl

/-- BAR0 offsets of the table and of the pending-bit array. -/
def inMsix (o : Nat) : Bool := decide (0x7800 ≤ o ∧ o < 0x7C08)

def State.msixRead (s : State) (o : Nat) : Nat :=
  if o < 0x7C00 then s.msixWord ((o - 0x7800) / 4) else s.host.pba.toNat / 2 ^ (8 * (o - 0x7C00)) % 2 ^ 32

/-! ### Faults of host memory (R249) -/

/-- AER of a failed access: 1 completion timeout, 2 poisoned completion, 3 Unsupported Request, 4 Completer Abort, 5 write sent poisoned. -/
def State.dmaFail (s : State) (cause : Nat) : State :=
  let s := s.zput Z.HOST_ERR.DMA_ERR 1
  let s := s.updHost fun h =>
    { h with aerUnc := h.aerUnc ||| (if cause = 1 then 0x4000#32 else if cause = 2 then 0x1000#32 else 0#32) }
  s.aer s.host.aerUnc.toNat s.host.aerCor.toNat cause

/-- A ring stops with ERR. -/
def State.stopRing (s : State) (r cause idx : Nat) : State := (s.zput (ZR.CFG.ERR.hring r) 1).ringErr r cause idx

/-- HOST_READ_FAIL. -/
def State.readFail (s : State) (t : ReadTarget) (cause : Nat) : State :=
  match t with
  | .ring r =>
    if ¬ s.ringUp r ∨ s.unfetched r = 0 then s else (s.stopRing r 2 (s.zget (cidxF r))).dmaFail cause
  | .cmd n =>
    match s.cmd? n with
    | some c =>
      if c.result.isNone ∧ c.image.isNone ∧ (c.opcode = 3 ∨ c.opcode = 0x10 ∨ c.opcode = 0x50) then
        ((s.finish n resDma []).dmaFail cause).ctrlAdvance
      else s
    | none => s

/-- The data write of a finished command fails: FE_READ's values, or a snapshot's block. -/
def State.cmdWriteFail (s : State) (n : Nat) : State :=
  match s.cmd? n with
  | none => s
  | some c =>
    if c.opcode = 2 ∧ c.result.isSome ∧ c.num 8 8 ≠ 0 then (s.updCmd n fun x => { x with result := some resDma }).dmaFail 5
    else if s.snaps.any fun x => x.cmd == some n && x.built.isSome then
      let s := s.updSnaps fun l => l.filter fun x => x.cmd != some n
      ((s.finish n resDma []).dmaFail 5).ctrlAdvance
    else s

/-- HOST_WRITE_FAIL. -/
def State.writeFail (s : State) (t : WriteTarget) : State :=
  match t with
  | .entry evt =>
    let r := if evt then 7 else 6
    if s.ringUp r then (s.stopRing r 3 (s.zget (pidxF r))).dmaFail 5 else s
  | .shadow =>
    if s.zget Z.HOST_SHADOW.EN = 1 then ((s.zput Z.HOST_SHADOW.EN 0).ringErr 8 3 0).dmaFail 5 else s
  | .cmd n => s.cmdWriteFail n
  | .stream c => if (s.ctx? c).isSome then (s.updCtx c fun x => { x with poison := true }).dmaFail 5 else s
  | .periodic =>
    if s.snaps.any fun x => x.cmd.isNone && x.built.isSome then
      let s := s.updSnaps fun l => l.filter fun x => x.cmd.isSome || x.built.isNone
      (s.zbump Z.TEL_SKIP.COUNT 1).dmaFail 5
    else s

/-- BUF_STARVE, once per episode: no buffer is to be had and some stream waits for one. -/
def State.starve (s : State) : State :=
  let n := (s.xtr.ctxs.filter fun c => c.starved).length
  if s.host.starved ∨ n = 0 ∨ (s.ringUp 5 ∧ s.unfetched 5 ≠ 0) then s
  else ((s.zput Z.HOST_ERR.STARVED 1).updHost fun h => { h with starved := true }).raise 528 (leBytes n 3)

/-- RECEIVED_TLP_ERROR: the TLP is discarded and its error logged. -/
def State.tlpError (s : State) (e : TlpError) : State :=
  let bit := match e with
    | .ecrc => 0x80000#32
    | .malformed => 0x40000#32
    | .poisoned => 0x1000#32
  let s := s.updHost fun h => { h with aerUnc := h.aerUnc ||| bit }
  s.aer s.host.aerUnc.toNat s.host.aerCor.toNat 0

/-! ### Link and resets of the endpoint (R249, R251, R402, R411) -/

/-- PCIE_LINK_CHANGE: the link comes up after training has started, at a speed that MAX_SPEED allows; code 0 is down. -/
def State.linkChange (s : State) (speed width : Nat) (flit : Bool) : State :=
  let same : Bool := s.zget Z.HOST_LINK.SPEED == speed && s.zget Z.HOST_LINK.WIDTH == width && s.zget Z.HOST_LINK.FLIT == b2n flit
  if same ∨ (speed ≠ 0 ∧ (¬ s.pwr.training ∨ s.zget Z.HOST_LINK.MAX_SPEED < speed)) then s
  else if speed = 0 then s.pcieLink 0 0 false
  else s.pcieLink speed width flit

/-- The effects of R251: contexts and commands are discarded; every EN of a ring, the shadow and the vectors are cleared. -/
def State.hostReset (s : State) : State :=
  let s := (s.dropWaiting (s.cmds.map (·.id))).discardContexts
  let s := (s.updCmds fun _ => []).updSnaps fun l => l.filter fun x => x.cmd.isNone
  let s := (List.range 8).foldl (fun s r =>
    (((s.zput (ZR.CFG.EN.hring r) 0).zput (ZR.CFG.ERR.hring r) 0).zput (ZR.CFG.VECTOR.hring r) 0).freshCount r) s
  let s := (s.zput Z.HOST_SHADOW.EN 0).zput Z.HOST_SHADOW.ADDR 0
  s.updHost fun h => { h with msix := [], pba := 0, starved := false }

/-- PCIE_FUNDAMENTAL_RESET: the endpoint and its configuration space, then R251. -/
def State.perst (s : State) : State :=
  let s := if s.zget Z.HOST_LINK.SPEED = 0 then s else s.pcieLink 0 0 false
  let s := (s.updHost fun h => { h with aerUnc := 0, aerCor := 0 }).updPwr fun p => { p with perst := true, training := false }
  s.hostReset

/-! ### Reads (R7, R9, R421, R437) -/

/-- Words that R336 keeps readable and writable in the safe state. -/
def powerGroup (o : Nat) : Bool := decide (0x9000 ≤ o ∧ o < 0x902C)

/-- The word at `o` is the low word of a 64-bit pair. -/
def pairLow (o : Nat) : Bool := (zfields o).any fun f => f.off == o && decide (32 < f.lsb + f.wid)

def State.latchWord (s : State) (o : Nat) : State :=
  let v := s.zword o
  s.updHost fun h => { h with latch := Tab.set none h.latch o (some v) }

/-- A word of BAR0 is read: a latched high word is delivered once; the low word of a pair latches its high word; RC fields of the word clear. -/
def State.readWord (s : State) (o : Nat) : State :=
  let v := (Tab.get none s.host.latch o).getD (s.zword o)
  let s := s.updHost fun h => { h with latch := Tab.set none h.latch o none }
  let s := if pairLow o then s.latchWord (o + 4) else s
  let s := if o = 0x4000 then (s.latchWord 0x4004).latchWord 0x4008 else s
  let s := s.updZreg fun r => fclear r (zfields o)
  let s := if 0x6180 ≤ o ∧ o < 0x6200 then s.updMon fun m => { m with unread := m.unread &&& ~~~ BitVec.ofNat 32 (2 ^ ((o - 0x6180) / 4)) }
    else if 0x6044 ≤ o ∧ o < 0x6064 then s.updMon fun m => { m with injUnread := m.injUnread &&& ~~~ BitVec.ofNat 8 (2 ^ ((o - 0x6044) / 4)) }
    else s
  s.emit (.readData (leBytes v 4))

/-- PAIR_LOW_READ: a read of the register word at `o`. -/
def State.bar0Read (s : State) (o : Nat) : State :=
  let zero := s.emit (.readData (leBytes 0 4))
  if inMsix o then s.emit (.readData (leBytes (s.msixRead o) 4))
  else if s.safe ∧ ¬ powerGroup o then zero
  else if zmapped o then s.readWord o
  else (s.badAccess 0 4 false false o).emit (.readData (leBytes 0 4))

/-- MIRROR_READ at offset `o` of the mirror. -/
def State.mirrorRead (s : State) (o : Nat) : State :=
  let zero := s.emit (.readData (leBytes 0 4))
  if s.safe ∨ inMsix o then zero
  else if zmapped o then s.emit (.readData (leBytes (Tab.get 0 s.mirror o) 4))
  else (s.badAccess 0 4 false true o).emit (.readData (leBytes 0 4))

/-! ### Accesses that R249 refuses -/

/-- The access breaks the rules of its BAR: a narrow write or an unmapped offset of BAR0, a write of the mirror, a write of BAR2 that is no
doorbell, an access of BAR4 of a wrong size or alignment. -/
def badForm (bar size : Nat) (write : Bool) (o : Nat) : Bool :=
  if bar = 0 then
    if inMsix o then decide (size < 4)
    else if 0x80000 ≤ o then write || !(zmapped (o - 0x80000 - o % 4) || inMsix (o - 0x80000))
    else (write && (size != 4 || o % 4 != 0)) || !zmapped (o - o % 4)
  else if bar = 2 then write && (size != 4 || o % 0x1000 != 0 || decide (0x8000 ≤ o))
  else if write then (size != 4 && size != 8) || o % size != 0 || decide (0xF00000 ≤ o ∧ o < 0xF40000)
  else size == 0 || decide (64 < size)

/-- BAR_ACCESS_INVALID: a write is discarded, a read returns zero; without an event in the safe state outside the clock/power group and the
MSI-X table (R336, R422). -/
def State.badRead (s : State) (bar size : Nat) (write : Bool) (o : Nat) : State :=
  if ¬ badForm bar size write o then s
  else
    let s := if s.safe ∧ (write ∨ bar = 0) ∧ ¬ (bar = 0 ∧ (inMsix o ∨ powerGroup (o - o % 4))) then s
      else s.badAccess bar size write (bar == 0 && decide (0x80000 ≤ o)) (if bar = 0 then o % 0x80000 else o)
    if write then s else s.emit (.readData (leBytes 0 size))

/-! ### BAR4 (R230, R288, R424) -/

/-- Engine memory: instruction words at `x` below 0x8000, data bytes above. -/
def State.engineWrite (s : State) (e x : Nat) (bytes : List Byte) : State :=
  if x < 0x8000 then
    s.updEng e fun y => { y with imem := (leWords bytes).zipIdx.foldl (fun t w => Tab.set 0 t (x / 4 + w.2) (BitVec.ofNat 32 w.1)) y.imem }
  else s.updEng e fun y => { y with dmem := bytes.zipIdx.foldl (fun t b => Tab.set 0 t (x - 0x8000 + b.2) b.1) y.dmem }

/-- BAR4_WRITE. -/
def State.bar4 (s : State) (o : Nat) (bytes : List Byte) : State :=
  let n := bytes.length
  let bad := s.badAccess 4 n true false o
  if s.safe then s
  else if (n ≠ 4 ∧ n ≠ 8) ∨ o % n ≠ 0 then bad
  else if o < 0xF00000 then
    let e := o / 0x28000
    let x := o % 0x28000
    if s.engState e = engOff ∨ (x < 0x8000 ∧ s.engState e = engRunning) then bad else s.engineWrite e x bytes
  else if o < 0xF40000 then bad
  else if o < 0xFC0000 then
    let c := s.zget Z.HOST_SHWIN.CLUSTER
    let base := c * 0x100000 + s.zget Z.HOST_SHWIN.HALF * 0x80000 + (o - 0xF40000)
    if s.zget (ZC.CTL.EN.gcl c) = 0 then bad
    else s.updShm fun m => bytes.zipIdx.foldl (fun t b => Tab.set 0 t (base + b.2) b.1) m
  else s

/-! ### REGISTER_WRITE (R9, R461) -/

/-- Fields that a command of their own writes. -/
def ownCommand (f : Field) : Bool :=
  let o := f.off
  if o < 0x10000 then
    ([0x1C, 0x20, 0x200, 0x402C, 0x5000, 0x6004, 0x6040, 0x9008] : List Nat).contains o
      || decide (0x5040 ≤ o ∧ o < 0x50C0) || decide (0x6100 ≤ o ∧ o < 0x6180)
      || (o == 0x6000 && (f.acc == .rw)) || (decide (0x7000 ≤ o ∧ o < 0x7100) && o % 32 == 8)
  else if o < 0x20000 then
    (o % 0x400 == 0 && f.lsb == ZP.CTL.MERGE_EN.lsb)
      || (o % 0x400 == 0x100 && ([ZP.LCTL.LANE_EN.lsb, ZP.LCTL.UL_SLEEP.lsb, ZP.LCTL.LOOP.lsb, ZP.LCTL.LOOP_LANE.lsb] : List Nat).contains f.lsb)
  else if o < 0x30000 then o % 0x1000 == 4 && f.lsb == ZS.DPT.TARGET.lsb
  else if o < 0x34000 then o % 0x800 == 0 || o % 0x800 == 4
  else o % 0x40 == 0 && f.lsb == ZE.CTL.OFF.lsb

/-- The word after a write by access type. -/
def State.plainWrite (s : State) (o w : Nat) (keep : Field → Bool) : State :=
  s.updZreg fun z => ((zfields o).filter fun f => !ownCommand f && !keep f).foldl (fun r f => fwrite r f o w) z

/-- The write would change field `f`. -/
def State.changes (s : State) (f : Field) (o w : Nat) : Bool := f.merged o w (s.zget f) != s.zget f

/-- Z_HOST_SHADOW: ADDR is refused while EN = 1. -/
def State.shadowWrite (s : State) (o w : Nat) : State :=
  let on := s.zget Z.HOST_SHADOW.EN == 1
  s.plainWrite o w fun f => on && f == Z.HOST_SHADOW.ADDR

/-- Z_RINGr_BASE: refused while EN = 1. -/
def State.baseWrite (s : State) (r o w : Nat) : State :=
  let f := ZR.BASE.BASE.hring r
  if s.zget (ZR.CFG.EN.hring r) = 0 then s.plainWrite o w fun _ => false
  else if s.changes f o w then s.zput (ZR.CFG.REFUSED.hring r) 1
  else s

/-- Z_TEL_CFG and Z_TEL_BASE: BASE is refused while EN = 1; setting EN starts the count and the period (R394, R401). -/
def State.telWrite (s : State) (o w : Nat) : State :=
  let on := s.zget Z.TEL_CFG.EN == 1
  let s := s.plainWrite o w fun f => on && f == Z.TEL_BASE.BASE
  if ¬ on ∧ s.zget Z.TEL_CFG.EN = 1 then
    let at_ := s.time + max 1 (s.zget Z.TEL_CFG.PERIOD_MS) * 1000000 * nsUnits
    (s.updEv fun e => { e with telAt := at_ }).zput Z.TEL_IDX.COUNT 0
  else s

/-- Z_CSCRUB_CFG: a port that is switched on begins a lap (R399). -/
def State.cscrubWrite (s : State) (o w : Nat) : State :=
  let old := s.zget Z.CSCRUB_CFG.PORTS
  ports16.foldl (fun s (p : Port) =>
    if bitAt w p.val ∧ ¬ bitAt old p.val then s.updPort p fun q => { q with scrubPos := 0, scrubStart := s.time } else s)
    (s.plainWrite o w fun _ => false)

/-- A checker that is switched off has no lock; it counts from its lock on (R119). -/
def State.checkerOff (s : State) (k : Link) : State :=
  if (s.prbsCfg k).1 then s
  else (s.updLane k fun y => { y with prbsRun := 0, prbsWinErr := 0, prbsWinBits := 0 }).setPrbsLock k false

/-- Z_PORTn_PRBS: the downlink generator and the checkers follow their enables. -/
def State.prbsWrite (s : State) (p : Port) (o w : Nat) : State :=
  let s := s.plainWrite o w fun _ => false
  let s := if s.zget (ZP.PRBS.GEN_EN.port p) = 1 then s.prbsGen (.down p) else s.updLane (.down p) fun x => { x with gen := false }
  fins8.foldl (fun s l => s.checkerOff (.up p l)) s

/-- Send a LOOP block on side `d` (R117). -/
def State.sendLoop (s : State) (d : Side) (op : Nat) : State :=
  let b : Block := { kind := .loop, seq := 0, payload := pad16 (loopPayload 0 op) }
  s.emit (.ring d b (blockCrc b))

/-- A change of LOOP on a ring lane, from `was`: the far end is asked for its loop, or a near-end loop replaces the link. -/
def State.ringLoop (s : State) (d : Side) (was now : Nat) : State :=
  if was = now then s
  else
    let near (v : Nat) : Bool := v == 1 || v == 2
    let put (s : State) (v : Nat) : State := s.zput (ZP.LSTATm.LOOPED.ringLane d) v
    let s := if was = 3 then (put (s.sendLoop d 0) 0).ringLink d 3 0 else if near was then (put s 0).enterLock (.ring d) else s
    if now = 3 then s.sendLoop d 1 else if near now then put (s.setLst (.ring d) 3) 1 else s

/-- Z_RLE_LCTL and Z_RLW_LCTL: the link's enable and its loops; the other fields are plain. -/
def State.ringLctl (s : State) (d : Side) (w : Nat) : State :=
  let en := ZP.LCTL.LANE_EN.ringLane d
  let lp := ZP.LCTL.LOOP.ringLane d
  let was := s.zget lp
  let wasEn := bitAt (s.zget en) 0
  let s := (s.zput en w).zput lp (bits w 10 2)
  let s := (s.zput (ZP.LCTL.LOOP_LANE.ringLane d) (bits w 12 3)).zput (ZP.LCTL.ERR_LIMIT.ringLane d) (bits w 16 6)
  let s := if wasEn = bitAt w 0 then s else if wasEn then s.setLst (.ring d) 0 else s.freshLane (.ring d)
  s.ringLoop d was (bits w 10 2)

/-- Another word of a ring lane set: DLSTAT.RETRAIN trains the link afresh; the PRBS generator and checker follow their enables. -/
def State.ringLaneWrite (s : State) (d : Side) (o w : Nat) : State :=
  let s := s.plainWrite o w fun _ => false
  let at_ := o - (match d with | .east => 0x5000 | .west => 0x5040)
  if at_ = 0x124 then (if bitAt w 6 then s.freshLane (.ring d) else s)
  else if at_ = 0x128 then
    let s := if bitAt w 12 then s.updLane (.ring d) fun x => { x with prbsErr := 0, prbsBits := 0 } else s
    let s := if s.zget (ZP.PRBS.GEN_EN.ringLane d) = 1 then s.prbsGen (.ring d) else s.updLane (.ring d) fun x => { x with gen := false }
    s.checkerOff (.ring d)
  else s

/-- Every other register: by access type. -/
def State.typedWrite (s : State) (o w : Nat) : State :=
  if o = 0x4030 then s.updRing fun r => { r with set0 := w }
  else if o = 0x4034 then s.updRing fun r => { r with set1 := w }
  else if o = 0x5100 then s.ringLctl .east w
  else if o = 0x5140 then s.ringLctl .west w
  else if 0x5100 ≤ o ∧ o < 0x5180 then s.ringLaneWrite (if o < 0x5140 then .east else .west) o w
  else if 0x7000 ≤ o ∧ o < 0x7100 ∧ o % 32 < 8 then s.baseWrite ((o - 0x7000) / 32) o w
  else if o = 0x7100 ∨ o = 0x7104 then s.shadowWrite o w
  else if o = 0xA020 ∨ o = 0xA024 ∨ o = 0xA028 then s.telWrite o w
  else if o = 0xA034 then s.cscrubWrite o w
  else if 0x10000 ≤ o ∧ o < 0x14000 ∧ o % 0x400 = 0x128 then s.prbsWrite (Fin.ofNat 16 ((o - 0x10000) / 0x400)) o w
  else s.plainWrite o w fun _ => false

/-- Words writable before READY, and in FAILED (R410). -/
def earlyWord (failed : Bool) (o : Nat) : Bool :=
  o == 0x18 || o == 0x1C || powerGroup o
    || (failed && (o == 0x20 || (decide (0x20000 ≤ o ∧ o < 0x28000) && decide (0x114 ≤ o % 0x1000 ∧ o % 0x1000 < 0x120))))

/-- REGISTER_WRITE at `o`. -/
def State.regWrite (s : State) (o w : Nat) : State :=
  if inMsix o then (if o < 0x7C00 then s.msixWrite ((o - 0x7800) / 4) w else s)
  else if s.safe then (if powerGroup o then s.typedWrite o w else s)
  else if 0x80000 ≤ o then s.badAccess 0 4 true true (o - 0x80000)
  else if ¬ zmapped o then s.badAccess 0 4 true false o
  else if ¬ (s.isReady ∨ earlyWord (s.zget Z.BOOT_STAT.STAGE == 5) o) then s.zput Z.HOST_ERR.BAD_ACCESS 1
  else s.typedWrite o w

/-! ### The meanings -/

/-- DOORBELL_WRITE (R232, R233). -/
def execDoorbellWrite (r : Fin 8) (v : Word) (s : State) : Result := .next (s.doorbell r v.toNat)

/-- RING_ENABLE (R236): the word written to Z_RINGr_CFG, with EN = 1. -/
def execRingEnable (r : Fin 8) (w : Word) (s : State) : Result :=
  .next (s.bar0 fun s => s.hostRingEnable r w.toNat)

/-- RING_DISABLE (R237): the word written to Z_RINGr_CFG, with EN = 0. -/
def execRingDisable (r : Fin 8) (w : Word) (s : State) : Result :=
  .next (s.bar0 fun s => s.hostRingDisable r w.toNat)

/-- MSIX_TIMEOUT (R247). -/
def execMsixTimeout (evt : Bool) (s : State) : Result := .next (s.msixLate (if evt then 7 else 6))

/-- MSIX_UNMASK (R247). -/
def execMsixUnmask (v : Fin 64) (s : State) : Result := .next (s.msixMask v 0)

/-- HOST_READ_FAIL (R249). -/
def execHostReadFail (t : ReadTarget) (cause : Fin 4) (s : State) : Result := .next (s.readFail t (cause + 1))

/-- HOST_WRITE_FAIL (R249). -/
def execHostWriteFail (t : WriteTarget) (s : State) : Result := .next (s.writeFail t)

/-- BUF_STARVE_TIMEOUT (R249). -/
def execBufStarveTimeout (s : State) : Result := .next s.starve

/-- PCIE_LINK_CHANGE (R249, R250). -/
def execPcieLinkChange (speed : Fin 7) (width : Fin 32) (flit : Bool) (s : State) : Result := .next (s.linkChange speed width flit)

/-- FUNCTION_LEVEL_RESET (R251). -/
def execFunctionLevelReset (s : State) : Result := .next s.hostReset

/-- PCIE_FUNDAMENTAL_RESET (R402). -/
def execPcieFundamentalReset (s : State) : Result := .next s.perst

/-- PCIE_LINK_TRAINING (R411): PERST_N has been released. -/
def execPcieLinkTraining (s : State) : Result := .next (s.updPwr fun p => { p with perst := false, training := true })

/-- RECEIVED_TLP_ERROR (R249). -/
def execReceivedTlpError (e : TlpError) (s : State) : Result := .next (s.tlpError e)

/-- BAR_ACCESS_INVALID (R249, R420): BAR0, BAR2 or BAR4 for `bar` 0, 1, 2. -/
def execBarAccessInvalid (bar : Fin 3) (size : Byte) (write : Bool) (off : BitVec 24) (s : State) : Result :=
  .next (s.badRead (2 * bar) size.toNat write off.toNat)

/-- PAIR_LOW_READ (R7, R9, R421). -/
def execPairLowRead (off : Fin 524288) (s : State) : Result := .next (s.bar0Read off)

/-- TIME_NOW_READ (R326, R421). -/
def execTimeNowRead (s : State) : Result := .next (s.bar0Read 0x4000)

/-- MIRROR_READ (R390, R437). -/
def execMirrorRead (off : Fin 524288) (s : State) : Result := .next (s.mirrorRead off)

/-- BAR4_WRITE (R230, R288). -/
def execBar4Write (off : BitVec 24) (bytes : List Byte) (s : State) : Result := .next (s.bar4 off.toNat bytes)

/-- REGISTER_WRITE (R9, R410, R461). -/
def execRegisterWrite (off : Fin 1048576) (w : Word) (s : State) : Result := .next (s.regWrite off w.toNat)

end Sys2Proof.Machine
end

