-- ==== Sys2Proof/Machine/Dispatch.lean ====
section
/-!
DEFINITION. The effect of each command: one arm per constructor of `Instr`, one meaning per arm.
-/

namespace Sys2Proof.Machine

def exec (i : Instr) (s : State) : Host.Outcome State Fault Refusal :=
  match i with
  | .pixelLeadingEdge p col row sub k m => Sys2Proof.Machine.execPixelLeadingEdge p col row sub k m s
  | .interpConversionDone p dc quad => Sys2Proof.Machine.execInterpConversionDone p dc quad s
  | .pixelTrailingEdge p col row sub k => Sys2Proof.Machine.execPixelTrailingEdge p col row sub k s
  | .totTimeout p col row => Sys2Proof.Machine.execTotTimeout p col row s
  | .occupationEnd p col row => Sys2Proof.Machine.execOccupationEnd p col row s
  | .autoMask p col row => Sys2Proof.Machine.execAutoMask p col row s
  | .clearAll p => Sys2Proof.Machine.execClearAll p s
  | .pixdataWrite p data => Sys2Proof.Machine.execPixdataWrite p data s
  | .pixdataRead p => Sys2Proof.Machine.execPixdataRead p s
  | .dcCfgWrite p dc v => Sys2Proof.Machine.execDcCfgWrite p dc v s
  | .settlingWindowEnd p => Sys2Proof.Machine.execSettlingWindowEnd p s
  | .injGo p => Sys2Proof.Machine.execInjGo p s
  | .injStop p => Sys2Proof.Machine.execInjStop p s
  | .injectionPulse p => Sys2Proof.Machine.execInjectionPulse p s
  | .injSequenceEnd p => Sys2Proof.Machine.execInjSequenceEnd p s
  | .forPulseEnd p region => Sys2Proof.Machine.execForPulseEnd p region s
  | .calBlankEnd p => Sys2Proof.Machine.execCalBlankEnd p s
  | .dllLock p dc ctrl => Sys2Proof.Machine.execDllLock p dc ctrl s
  | .dllLockLost p dc => Sys2Proof.Machine.execDllLockLost p dc s
  | .calPeriodStart p => Sys2Proof.Machine.execCalPeriodStart p s
  | .calConversion p dc quad code => Sys2Proof.Machine.execCalConversion p dc quad code s
  | .calReset p => Sys2Proof.Machine.execCalReset p s
  | .csuGo p => Sys2Proof.Machine.execCsuGo p s
  | .csuStop p => Sys2Proof.Machine.execCsuStop p s
  | .csuRunStart p => Sys2Proof.Machine.execCsuRunStart p s
  | .csuPulse p => Sys2Proof.Machine.execCsuPulse p s
  | .csuRecordsEmit p => Sys2Proof.Machine.execCsuRecordsEmit p s
  | .csuRowWrite p row => Sys2Proof.Machine.execCsuRowWrite p row s
  | .columnDrainMove p dc => Sys2Proof.Machine.execColumnDrainMove p dc s
  | .eocQueuePtrReset p dc => Sys2Proof.Machine.execEocQueuePtrReset p dc s
  | .builderPop p g => Sys2Proof.Machine.execBuilderPop p g s
  | .clusterClose p g => Sys2Proof.Machine.execClusterClose p g s
  | .builderStallEnd p g => Sys2Proof.Machine.execBuilderStallEnd p g s
  | .frameClose p => Sys2Proof.Machine.execFrameClose p s
  | .frameSendStart p => Sys2Proof.Machine.execFrameSendStart p s
  | .uplinkBlockTransmit p => Sys2Proof.Machine.execUplinkBlockTransmit p s
  | .laneMarkSend p => Sys2Proof.Machine.execLaneMarkSend p s
  | .activeLanesWrite p mask => Sys2Proof.Machine.execActiveLanesWrite p mask s
  | .receiverDetect k => Sys2Proof.Machine.execReceiverDetect k s
  | .noRxTimeout k => Sys2Proof.Machine.execNoRxTimeout k s
  | .trainBlockReceive k b => Sys2Proof.Machine.execTrainBlockReceive k b s
  | .trainTimeout k => Sys2Proof.Machine.execTrainTimeout k s
  | .portActivate p => Sys2Proof.Machine.execPortActivate p s
  | .activationWaitExpiry p => Sys2Proof.Machine.execActivationWaitExpiry p s
  | .uplinkBlockReceive p l b => Sys2Proof.Machine.execUplinkBlockReceive p l b s
  | .symbolLockLoss k => Sys2Proof.Machine.execSymbolLockLoss k s
  | .laneMarkReceive p l at_ b => Sys2Proof.Machine.execLaneMarkReceive p l at_ b s
  | .markWaitExpiry p => Sys2Proof.Machine.execMarkWaitExpiry p s
  | .retrainFail k => Sys2Proof.Machine.execRetrainFail k s
  | .laneRetrainOrder k => Sys2Proof.Machine.execLaneRetrainOrder k s
  | .laneEnWrite p mask => Sys2Proof.Machine.execLaneEnWrite p mask s
  | .portRetrainOrder p => Sys2Proof.Machine.execPortRetrainOrder p s
  | .ulSleepRequest p => Sys2Proof.Machine.execUlSleepRequest p s
  | .sleepReqReceive p => Sys2Proof.Machine.execSleepReqReceive p s
  | .sleepAnnounceReceive p l => Sys2Proof.Machine.execSleepAnnounceReceive p l s
  | .sleepRefusedTimeout p => Sys2Proof.Machine.execSleepRefusedTimeout p s
  | .ulWakeRequest p => Sys2Proof.Machine.execUlWakeRequest p s
  | .wakeReqReceive p => Sys2Proof.Machine.execWakeReqReceive p s
  | .selfWake p => Sys2Proof.Machine.execSelfWake p s
  | .wakeAnnounce p => Sys2Proof.Machine.execWakeAnnounce p s
  | .wakeReceive p l => Sys2Proof.Machine.execWakeReceive p l s
  | .wakeTimeout p l => Sys2Proof.Machine.execWakeTimeout p l s
  | .dlQuietEnter p => Sys2Proof.Machine.execDlQuietEnter p s
  | .dlQuietExit p => Sys2Proof.Machine.execDlQuietExit p s
  | .nearEndLoop p loop lane => Sys2Proof.Machine.execNearEndLoop p loop lane s
  | .portLoopWrite p loop lane => Sys2Proof.Machine.execPortLoopWrite p loop lane s
  | .loopBlockReceive k b => Sys2Proof.Machine.execLoopBlockReceive k b s
  | .prbsGenEnable k => Sys2Proof.Machine.execPrbsGenEnable k s
  | .prbsCheckerLock k => Sys2Proof.Machine.execPrbsCheckerLock k s
  | .pPrbsClear p => Sys2Proof.Machine.execPPrbsClear p s
  | .portPrbsClear p => Sys2Proof.Machine.execPortPrbsClear p s
  | .eyeScanComplete k width height lap => Sys2Proof.Machine.execEyeScanComplete k width height lap s
  | .reassemblyBlock p => Sys2Proof.Machine.execReassemblyBlock p s
  | .reassemblyMissing p => Sys2Proof.Machine.execReassemblyMissing p s
  | .portQueuePtrReset p => Sys2Proof.Machine.execPortQueuePtrReset p s
  | .sideQueuePtrReset p => Sys2Proof.Machine.execSideQueuePtrReset p s
  | .mergeCommit => Sys2Proof.Machine.execMergeCommit s
  | .mergeWaitExpiry => Sys2Proof.Machine.execMergeWaitExpiry s
  | .mergeHighWater => Sys2Proof.Machine.execMergeHighWater s
  | .mergeEmptyDue => Sys2Proof.Machine.execMergeEmptyDue s
  | .mergeEnWrite p en => Sys2Proof.Machine.execMergeEnWrite p en s
  | .portResync p => Sys2Proof.Machine.execPortResync p s
  | .portLeaveActive p cause => Sys2Proof.Machine.execPortLeaveActive p cause s
  | .runSelfStop => Sys2Proof.Machine.execRunSelfStop s
  | .billetAllocate => Sys2Proof.Machine.execBilletAllocate s
  | .mergedFrameWrite n => Sys2Proof.Machine.execMergedFrameWrite n s
  | .stackSkipEnd n => Sys2Proof.Machine.execStackSkipEnd n s
  | .dramRefresh n rank bank => Sys2Proof.Machine.execDramRefresh n rank bank s
  | .retrainSlice n c start => Sys2Proof.Machine.execRetrainSlice n c start s
  | .retrainComplete n c width height => Sys2Proof.Machine.execRetrainComplete n c width height s
  | .pointTargetWrite n target => Sys2Proof.Machine.execPointTargetWrite n target s
  | .thermalEmergencyEntry n temp stall => Sys2Proof.Machine.execThermalEmergencyEntry n temp stall s
  | .thermalEmergencyExit n temp => Sys2Proof.Machine.execThermalEmergencyExit n temp s
  | .pointChangeDone n => Sys2Proof.Machine.execPointChangeDone n s
  | .gatherComplete => Sys2Proof.Machine.execGatherComplete s
  | .pasrWake => Sys2Proof.Machine.execPasrWake s
  | .pasrIdleReentry => Sys2Proof.Machine.execPasrIdleReentry s
  | .pasrExit => Sys2Proof.Machine.execPasrExit s
  | .bufMapWrite w => Sys2Proof.Machine.execBufMapWrite w s
  | .dramLineRead ch line upsets => Sys2Proof.Machine.execDramLineRead ch line upsets s
  | .sealedPageWrite ch addr bytes upsets => Sys2Proof.Machine.execSealedPageWrite ch addr bytes upsets s
  | .priorityWalkStart => Sys2Proof.Machine.execPriorityWalkStart s
  | .scrubPageVisit ch page prio lapEnd pos upsets again => Sys2Proof.Machine.execScrubPageVisit ch page prio lapEnd pos upsets again s
  | .retireOrder n => Sys2Proof.Machine.execRetireOrder n s
  | .migrationPageCopy n spareBad upsets => Sys2Proof.Machine.execMigrationPageCopy n spareBad upsets s
  | .migrationComplete n => Sys2Proof.Machine.execMigrationComplete n s
  | .migrationLag n => Sys2Proof.Machine.execMigrationLag n s
  | .stackOut n => Sys2Proof.Machine.execStackOut n s
  | .stackPowerDown n => Sys2Proof.Machine.execStackPowerDown n s
  | .freezeRelease n => Sys2Proof.Machine.execFreezeRelease n s
  | .rceClear => Sys2Proof.Machine.execRceClear s
  | .trigFetch r es => Sys2Proof.Machine.execTrigFetch r es s
  | .ringTrigReceive d b num => Sys2Proof.Machine.execRingTrigReceive d b num s
  | .contextLookup c => Sys2Proof.Machine.execContextLookup c s
  | .segmentRead => Sys2Proof.Machine.execSegmentRead s
  | .carveDispatch c frame => Sys2Proof.Machine.execCarveDispatch c frame s
  | .carveSectionDone e => Sys2Proof.Machine.execCarveSectionDone e s
  | .compressionStreamGrant k => Sys2Proof.Machine.execCompressionStreamGrant k s
  | .compressBlock k coded => Sys2Proof.Machine.execCompressBlock k coded s
  | .idleFlush k coded => Sys2Proof.Machine.execIdleFlush k coded s
  | .outputChunkPush c => Sys2Proof.Machine.execOutputChunkPush c s
  | .outputChunkGrant => Sys2Proof.Machine.execOutputChunkGrant s
  | .outputQueuePtrReset => Sys2Proof.Machine.execOutputQueuePtrReset s
  | .bufqTake c entry => Sys2Proof.Machine.execBufqTake c entry s
  | .bufEntryWrite c => Sys2Proof.Machine.execBufEntryWrite c s
  | .xtrCompletionWrite order => Sys2Proof.Machine.execXtrCompletionWrite order s
  | .doorbellWrite r v => Sys2Proof.Machine.execDoorbellWrite r v s
  | .ringEnable r w => Sys2Proof.Machine.execRingEnable r w s
  | .ringDisable r w => Sys2Proof.Machine.execRingDisable r w s
  | .ctrlFetch entry data => Sys2Proof.Machine.execCtrlFetch entry data s
  | .ctrlCompletionWrite => Sys2Proof.Machine.execCtrlCompletionWrite s
  | .feWrite tag ports arg => Sys2Proof.Machine.execFeWrite tag ports arg s
  | .feRead tag ports arg => Sys2Proof.Machine.execFeRead tag ports arg s
  | .feBulk tag ports arg data => Sys2Proof.Machine.execFeBulk tag ports arg data s
  | .commitAt tag ports arg => Sys2Proof.Machine.execCommitAt tag ports arg s
  | .trueSnap tag ports arg => Sys2Proof.Machine.execTrueSnap tag ports arg s
  | .engineLoad tag ports arg data => Sys2Proof.Machine.execEngineLoad tag ports arg data s
  | .engineStart tag ports arg => Sys2Proof.Machine.execEngineStart tag ports arg s
  | .engineStop tag ports arg => Sys2Proof.Machine.execEngineStop tag ports arg s
  | .pin tag ports arg => Sys2Proof.Machine.execPin tag ports arg s
  | .unpin tag ports arg => Sys2Proof.Machine.execUnpin tag ports arg s
  | .mark tag ports arg => Sys2Proof.Machine.execMark tag ports arg s
  | .fence tag ports arg => Sys2Proof.Machine.execFence tag ports arg s
  | .monCfg tag ports arg data => Sys2Proof.Machine.execMonCfg tag ports arg data s
  | .runStart tag ports arg => Sys2Proof.Machine.execRunStart tag ports arg s
  | .runStop tag ports arg => Sys2Proof.Machine.execRunStop tag ports arg s
  | .regWr p b => Sys2Proof.Machine.execRegWr p b s
  | .regRd p b => Sys2Proof.Machine.execRegRd p b s
  | .pixWr p b => Sys2Proof.Machine.execPixWr p b s
  | .pixRd p b => Sys2Proof.Machine.execPixRd p b s
  | .pixStream p b => Sys2Proof.Machine.execPixStream p b s
  | .commit p b => Sys2Proof.Machine.execCommit p b s
  | .unknownDownlinkOp p b => Sys2Proof.Machine.execUnknownDownlinkOp p b s
  | .feReplyTimeout p tag => Sys2Proof.Machine.execFeReplyTimeout p tag s
  | .msixTimeout evt => Sys2Proof.Machine.execMsixTimeout evt s
  | .hostReadFail t cause => Sys2Proof.Machine.execHostReadFail t cause s
  | .hostWriteFail t => Sys2Proof.Machine.execHostWriteFail t s
  | .bufStarveTimeout => Sys2Proof.Machine.execBufStarveTimeout s
  | .pcieLinkChange speed width flit => Sys2Proof.Machine.execPcieLinkChange speed width flit s
  | .functionLevelReset => Sys2Proof.Machine.execFunctionLevelReset s
  | .pcieFundamentalReset => Sys2Proof.Machine.execPcieFundamentalReset s
  | .pcieLinkTraining => Sys2Proof.Machine.execPcieLinkTraining s
  | .barAccessInvalid bar size write off => Sys2Proof.Machine.execBarAccessInvalid bar size write off s
  | .pairLowRead off => Sys2Proof.Machine.execPairLowRead off s
  | .timeNowRead => Sys2Proof.Machine.execTimeNowRead s
  | .mirrorRead off => Sys2Proof.Machine.execMirrorRead off s
  | .bar4Write off bytes => Sys2Proof.Machine.execBar4Write off bytes s
  | .registerWrite off w => Sys2Proof.Machine.execRegisterWrite off w s
  | .decompressImage => Sys2Proof.Machine.execDecompressImage s
  | .add q rd rs1 rs2 => Sys2Proof.Machine.execAdd q rd rs1 rs2 s
  | .sub q rd rs1 rs2 => Sys2Proof.Machine.execSub q rd rs1 rs2 s
  | .andR q rd rs1 rs2 => Sys2Proof.Machine.execAndR q rd rs1 rs2 s
  | .orR q rd rs1 rs2 => Sys2Proof.Machine.execOrR q rd rs1 rs2 s
  | .xorR q rd rs1 rs2 => Sys2Proof.Machine.execXorR q rd rs1 rs2 s
  | .shl q rd rs1 rs2 => Sys2Proof.Machine.execShl q rd rs1 rs2 s
  | .shr q rd rs1 rs2 => Sys2Proof.Machine.execShr q rd rs1 rs2 s
  | .sra q rd rs1 rs2 => Sys2Proof.Machine.execSra q rd rs1 rs2 s
  | .mul q rd rs1 rs2 => Sys2Proof.Machine.execMul q rd rs1 rs2 s
  | .mulh q rd rs1 rs2 => Sys2Proof.Machine.execMulh q rd rs1 rs2 s
  | .min q rd rs1 rs2 => Sys2Proof.Machine.execMin q rd rs1 rs2 s
  | .max q rd rs1 rs2 => Sys2Proof.Machine.execMax q rd rs1 rs2 s
  | .slt q rd rs1 rs2 => Sys2Proof.Machine.execSlt q rd rs1 rs2 s
  | .sltu q rd rs1 rs2 => Sys2Proof.Machine.execSltu q rd rs1 rs2 s
  | .clz q rd rs1 => Sys2Proof.Machine.execClz q rd rs1 s
  | .popc q rd rs1 => Sys2Proof.Machine.execPopc q rd rs1 s
  | .addi q rd rs1 imm => Sys2Proof.Machine.execAddi q rd rs1 imm s
  | .andi q rd rs1 imm => Sys2Proof.Machine.execAndi q rd rs1 imm s
  | .ori q rd rs1 imm => Sys2Proof.Machine.execOri q rd rs1 imm s
  | .xori q rd rs1 imm => Sys2Proof.Machine.execXori q rd rs1 imm s
  | .shli q rd rs1 sh => Sys2Proof.Machine.execShli q rd rs1 sh s
  | .shri q rd rs1 sh => Sys2Proof.Machine.execShri q rd rs1 sh s
  | .srai q rd rs1 sh => Sys2Proof.Machine.execSrai q rd rs1 sh s
  | .lui q rd imm => Sys2Proof.Machine.execLui q rd imm s
  | .bfx q rd rs1 pos wid => Sys2Proof.Machine.execBfx q rd rs1 pos wid s
  | .bfi q rd rs1 pos wid => Sys2Proof.Machine.execBfi q rd rs1 pos wid s
  | .lb q rd rs1 imm ecc => Sys2Proof.Machine.execLb q rd rs1 imm ecc s
  | .lbu q rd rs1 imm ecc => Sys2Proof.Machine.execLbu q rd rs1 imm ecc s
  | .lh q rd rs1 imm ecc => Sys2Proof.Machine.execLh q rd rs1 imm ecc s
  | .lhu q rd rs1 imm ecc => Sys2Proof.Machine.execLhu q rd rs1 imm ecc s
  | .lw q rd rs1 imm ecc => Sys2Proof.Machine.execLw q rd rs1 imm ecc s
  | .sb q rs rs1 imm => Sys2Proof.Machine.execSb q rs rs1 imm s
  | .sh q rs rs1 imm => Sys2Proof.Machine.execSh q rs rs1 imm s
  | .sw q rs rs1 imm => Sys2Proof.Machine.execSw q rs rs1 imm s
  | .hinc q rs rs1 imm ecc => Sys2Proof.Machine.execHinc q rs rs1 imm ecc s
  | .beq q rs1 rs2 off => Sys2Proof.Machine.execBeq q rs1 rs2 off s
  | .bne q rs1 rs2 off => Sys2Proof.Machine.execBne q rs1 rs2 off s
  | .blt q rs1 rs2 off => Sys2Proof.Machine.execBlt q rs1 rs2 off s
  | .bge q rs1 rs2 off => Sys2Proof.Machine.execBge q rs1 rs2 off s
  | .bltu q rs1 rs2 off => Sys2Proof.Machine.execBltu q rs1 rs2 off s
  | .bgeu q rs1 rs2 off => Sys2Proof.Machine.execBgeu q rs1 rs2 off s
  | .jal q rd off => Sys2Proof.Machine.execJal q rd off s
  | .jalr q rd rs1 imm => Sys2Proof.Machine.execJalr q rd rs1 imm s
  | .inp q rd => Sys2Proof.Machine.execInp q rd s
  | .inpW q rd => Sys2Proof.Machine.execInpW q rd s
  | .peek q rd k => Sys2Proof.Machine.execPeek q rd k s
  | .out q rs => Sys2Proof.Machine.execOut q rs s
  | .outm q rs => Sys2Proof.Machine.execOutm q rs s
  | .outmE q rs => Sys2Proof.Machine.execOutmE q rs s
  | .tick q rd hi => Sys2Proof.Machine.execTick q rd hi s
  | .event q rs => Sys2Proof.Machine.execEvent q rs s
  | .yield q => Sys2Proof.Machine.execYield q s
  | .halt q => Sys2Proof.Machine.execHalt q s
  | .watchdogExpiry e => Sys2Proof.Machine.execWatchdogExpiry e s
  | .engineFeedPtrReset e => Sys2Proof.Machine.execEngineFeedPtrReset e s
  | .engineOffWrite e off => Sys2Proof.Machine.execEngineOffWrite e off s
  | .clusterEnWrite n en => Sys2Proof.Machine.execClusterEnWrite n en s
  | .dvfsTargetWrite n target => Sys2Proof.Machine.execDvfsTargetWrite n target s
  | .dvfsPowerGood n => Sys2Proof.Machine.execDvfsPowerGood n s
  | .dvfsPllRelock n => Sys2Proof.Machine.execDvfsPllRelock n s
  | .dvfsPgTimeout n => Sys2Proof.Machine.execDvfsPgTimeout n s
  | .syncSend => Sys2Proof.Machine.execSyncSend s
  | .ringSyncReceive d b fine cycles => Sys2Proof.Machine.execRingSyncReceive d b fine cycles s
  | .syncLoss => Sys2Proof.Machine.execSyncLoss s
  | .estimateUpdate rejected => Sys2Proof.Machine.execEstimateUpdate rejected s
  | .incRecompute => Sys2Proof.Machine.execIncRecompute s
  | .timeSet w => Sys2Proof.Machine.execTimeSet w s
  | .timeSlewWrite w => Sys2Proof.Machine.execTimeSlewWrite w s
  | .ringMessageForward d b => Sys2Proof.Machine.execRingMessageForward d b s
  | .ringCtrlRunStart d b => Sys2Proof.Machine.execRingCtrlRunStart d b s
  | .ringCtrlRunStop d b => Sys2Proof.Machine.execRingCtrlRunStop d b s
  | .ringCtrlGate d b => Sys2Proof.Machine.execRingCtrlGate d b s
  | .ringCtrlMap d b => Sys2Proof.Machine.execRingCtrlMap d b s
  | .ringMirrorReceive d b => Sys2Proof.Machine.execRingMirrorReceive d b s
  | .ringPrimReceive d b => Sys2Proof.Machine.execRingPrimReceive d b s
  | .runRepeatSend => Sys2Proof.Machine.execRunRepeatSend s
  | .gateWrite k q w => Sys2Proof.Machine.execGateWrite k q w s
  | .leaseSend => Sys2Proof.Machine.execLeaseSend s
  | .ringLeaseReceive d b => Sys2Proof.Machine.execRingLeaseReceive d b s
  | .leaseReturnTimeout => Sys2Proof.Machine.execLeaseReturnTimeout s
  | .tailstockTakeover => Sys2Proof.Machine.execTailstockTakeover s
  | .candidateTimeout => Sys2Proof.Machine.execCandidateTimeout s
  | .mirrorTimeout => Sys2Proof.Machine.execMirrorTimeout s
  | .ringEchoRequest d => Sys2Proof.Machine.execRingEchoRequest d s
  | .ringEchoReqReceive d b fine turn => Sys2Proof.Machine.execRingEchoReqReceive d b fine turn s
  | .ringEchoRespReceive d b fine => Sys2Proof.Machine.execRingEchoRespReceive d b fine s
  | .ringEchoTimeout d id => Sys2Proof.Machine.execRingEchoTimeout d id s
  | .ringCfgEnable w => Sys2Proof.Machine.execRingCfgEnable w s
  | .ringCfgDisable w => Sys2Proof.Machine.execRingCfgDisable w s
  | .downlinkEchoRequest p => Sys2Proof.Machine.execDownlinkEchoRequest p s
  | .pelnosEchoAnswer p b fine turn => Sys2Proof.Machine.execPelnosEchoAnswer p b fine turn s
  | .echoResponseReceive p l b fine => Sys2Proof.Machine.execEchoResponseReceive p l b fine s
  | .downlinkEchoTimeout p id => Sys2Proof.Machine.execDownlinkEchoTimeout p id s
  | .epochSyncSend p => Sys2Proof.Machine.execEpochSyncSend p s
  | .syncCheckSend p => Sys2Proof.Machine.execSyncCheckSend p s
  | .downlinkSyncReceive p b => Sys2Proof.Machine.execDownlinkSyncReceive p b s
  | .epochHoldEnd p => Sys2Proof.Machine.execEpochHoldEnd p s
  | .crystalQualify ms => Sys2Proof.Machine.execCrystalQualify ms s
  | .ringClockQualify d ok => Sys2Proof.Machine.execRingClockQualify d ok s
  | .clockSourceSwitch sel => Sys2Proof.Machine.execClockSourceSwitch sel s
  | .clockSwitchForced sel => Sys2Proof.Machine.execClockSwitchForced sel s
  | .clockMonitorTrip clock freq => Sys2Proof.Machine.execClockMonitorTrip clock freq s
  | .safeStateExit us => Sys2Proof.Machine.execSafeStateExit us s
  | .clockGateWrite w => Sys2Proof.Machine.execClockGateWrite w s
  | .feedLoss feed volt => Sys2Proof.Machine.execFeedLoss feed volt s
  | .feedGapEnd ns volt => Sys2Proof.Machine.execFeedGapEnd ns volt s
  | .outputHoldEnd => Sys2Proof.Machine.execOutputHoldEnd s
  | .feedReturn feed volt => Sys2Proof.Machine.execFeedReturn feed volt s
  | .feedLow feed volt => Sys2Proof.Machine.execFeedLow feed volt s
  | .supplyWarningEntry rail low => Sys2Proof.Machine.execSupplyWarningEntry rail low s
  | .supplyWarningClear rail low => Sys2Proof.Machine.execSupplyWarningClear rail low s
  | .capLift => Sys2Proof.Machine.execCapLift s
  | .railReset rail => Sys2Proof.Machine.execRailReset rail s
  | .downlinkLoss p => Sys2Proof.Machine.execDownlinkLoss p s
  | .downlinkReturn p => Sys2Proof.Machine.execDownlinkReturn p s
  | .pelnosDipStart p => Sys2Proof.Machine.execPelnosDipStart p s
  | .pelnosDipEnd p low => Sys2Proof.Machine.execPelnosDipEnd p low s
  | .pelnosPowerOnReset p => Sys2Proof.Machine.execPelnosPowerOnReset p s
  | .pelnosPadReset p => Sys2Proof.Machine.execPelnosPadReset p s
  | .pelnosSoftReset p => Sys2Proof.Machine.execPelnosSoftReset p s
  | .pelnosMonScanStart p => Sys2Proof.Machine.execPelnosMonScanStart p s
  | .pelnosMonConversion p code => Sys2Proof.Machine.execPelnosMonConversion p code s
  | .monSampleTick v0 i0 v1 i1 dly => Sys2Proof.Machine.execMonSampleTick v0 i0 v1 i1 dly s
  | .monOutput a b => Sys2Proof.Machine.execMonOutput a b s
  | .monDwellEnd => Sys2Proof.Machine.execMonDwellEnd s
  | .ilStaleTimeout m => Sys2Proof.Machine.execIlStaleTimeout m s
  | .holdLong => Sys2Proof.Machine.execHoldLong s
  | .complianceTrip g => Sys2Proof.Machine.execComplianceTrip g s
  | .monInjGo w => Sys2Proof.Machine.execMonInjGo w s
  | .monInjPeriodic => Sys2Proof.Machine.execMonInjPeriodic s
  | .monInjConversion k raw => Sys2Proof.Machine.execMonInjConversion k raw s
  | .refbufEnable en => Sys2Proof.Machine.execRefbufEnable en s
  | .refReady => Sys2Proof.Machine.execRefReady s
  | .monCalStart => Sys2Proof.Machine.execMonCalStart s
  | .monCalDone g o => Sys2Proof.Machine.execMonCalDone g o s
  | .monDmaEnable en => Sys2Proof.Machine.execMonDmaEnable en s
  | .monScanEnable en => Sys2Proof.Machine.execMonScanEnable en s
  | .monFiltWrite w => Sys2Proof.Machine.execMonFiltWrite w s
  | .monChcfgWrite c w => Sys2Proof.Machine.execMonChcfgWrite c w s
  | .eventRecordWrite => Sys2Proof.Machine.execEventRecordWrite s
  | .snapshotLatch => Sys2Proof.Machine.execSnapshotLatch s
  | .snapshotArm p => Sys2Proof.Machine.execSnapshotArm p s
  | .pelnosSnapshotLatch p => Sys2Proof.Machine.execPelnosSnapshotLatch p s
  | .snapshotBlockWrite => Sys2Proof.Machine.execSnapshotBlockWrite s
  | .periodicSnapshot => Sys2Proof.Machine.execPeriodicSnapshot s
  | .commitArmSend => Sys2Proof.Machine.execCommitArmSend s
  | .commitApply p => Sys2Proof.Machine.execCommitApply p s
  | .commitReissue => Sys2Proof.Machine.execCommitReissue s
  | .configScrubRead p => Sys2Proof.Machine.execConfigScrubRead p s
  | .powerOnReset below => Sys2Proof.Machine.execPowerOnReset below s
  | .warmReset => Sys2Proof.Machine.execWarmReset s
  | .warmResetWrite w => Sys2Proof.Machine.execWarmResetWrite w s
  | .clocksStageDone => Sys2Proof.Machine.execClocksStageDone s
  | .selftestComplete engs shm queues core => Sys2Proof.Machine.execSelftestComplete engs shm queues core s
  | .dramStage n spareBad c0 c1 c2 c3 ms => Sys2Proof.Machine.execDramStage n spareBad c0 c1 c2 c3 ms s
  | .stackRetry w => Sys2Proof.Machine.execStackRetry w s
  | .resetRelease => Sys2Proof.Machine.execResetRelease s
  | .pelnosResetRelease p mode => Sys2Proof.Machine.execPelnosResetRelease p mode s
  | .refreshHot n rank hot => Sys2Proof.Machine.execRefreshHot n rank hot s
  | .retrainAgeLag n c => Sys2Proof.Machine.execRetrainAgeLag n c s
  | .msixUnmask v => Sys2Proof.Machine.execMsixUnmask v s
  | .receivedTlpError e => Sys2Proof.Machine.execReceivedTlpError e s
  | .monitorClockReturn => Sys2Proof.Machine.execMonitorClockReturn s

end Sys2Proof.Machine
end

