-- ==== Sys2Proof/Machine/Idle.lean ====
section
/-!
DEFINITION. What time alone does: one cycle of the 320 MHz clock.  Spindle time advances by TIME_INC (R298), the counter of every
Pelnos whose matrix PLL is locked by four ticks of 781.25 ps, and a wrap of COARSE starts a frame (R45).
Choices of the model: log entry 6 (DESIGN CHOICE).
-/

namespace Sys2Proof.Machine

/-- Four ticks pass on a Pelnos; the fields of a new frame are sampled at its start. -/
def Pelnos.tick4 (c : Pelnos) : Pelnos :=
  if c.get P.PLL_STAT.LOCK = 1 then
    if c.coarse + 4 < 4096 then { c with coarse := c.coarse + 4 }
    else { c with coarse := c.coarse + 4 - 4096, frame := (c.frame + 1) % 2 ^ 32 }.frameStart
  else c

/-- The spindle counter runs: out of reset and of the safe state, from a qualified oscillator (R300, R336). -/
def State.counts (s : State) : Bool :=
  s.zget Z.BOOT_STAT.STAGE != 0 && !s.safe && s.qualified (s.zget Z.CLK_SRC.SEL)

/-- Cluster cycles in one cycle of the 320 MHz clock, in sixteenths, by level (R292). -/
def cycleRate (level : Nat) : Nat := ([20, 40, 60, 75] : List Nat).getD level 20

/-- The clock of cluster `n` runs: past stage CLOCKS, the gate open, no relock under way (R338, R339). -/
def State.clusterRuns (s : State) (n : Nat) : Bool :=
  decide (2 ≤ s.zget Z.BOOT_STAT.STAGE) && !s.safe && s.zget (ZC.CTL.EN.gcl n) == 1 && !s.gclStopped n

/-- The cycle counters of the clusters advance (R295). -/
def State.tickClusters (s : State) : State :=
  s.clusters fun s n =>
    if s.clusterRuns n then s.updGcl n fun g => { g with cyc := g.cyc + cycleRate (s.level n) } else s

/-- One cycle: INC is in units of 2⁻³² ns. -/
def State.idle (s : State) : State :=
  let t := s.time + (if s.counts then s.zget Z.TIME_INC.INC else 0)
  ((s.updTime fun _ => t).updChips (·.map Pelnos.tick4)).tickClusters

end Sys2Proof.Machine
end

