-- ==== Sys2Proof/WellFormed.lean ====
section
/-!
DEFINITION. Well-formed commands: the operands that a command of the table can carry.  Ranges of ports, lanes, engines and registers
are in the types; here stand the shapes the types do not hold: what kind of block a receive row is about (R96, R97, R245, R301, R309),
the 32 bytes of a ring entry (R231) and the 24 of a command's argument (R242), and the bit whose write a row is.
-/

namespace Sys2Proof

/-- A block is 16 bytes of payload under a SEQ of one byte (R97). -/
def RxBlock.wf (b : RxBlock) : Bool := b.blk.payload.length == 16 && decide (b.blk.seq < 256)

/-- Byte `i` of the payload. -/
def RxBlock.byte (b : RxBlock) (i : Nat) : Nat := (b.blk.payload.getD i 0).toNat

/-- Byte 0 of the payload: the OP of a downlink command, the TYPE of a ring message, the OP of an ECHO. -/
def RxBlock.op (b : RxBlock) : Nat := b.byte 0

/-- A block of kind `k` whose byte 0 is `op`. -/
def RxBlock.isType (b : RxBlock) (k : BlkKind) (op : Nat) : Bool := b.wf && b.blk.kind == k && b.op == op

/-- A CTRL message with OP `op` in byte 2 (R307). -/
def RxBlock.isCtrl (b : RxBlock) (op : Nat) : Bool := b.isType .data 3 && b.byte 2 == op

/-- A ring message that no other row is about: a TYPE outside 1 to 6, or CTRL with an OP outside 1 to 4 (R301, R307). -/
def RxBlock.isForward (b : RxBlock) : Bool :=
  b.wf && b.blk.kind == .data &&
    (b.op == 0 || decide (6 < b.op) || (b.op == 3 && !decide (1 ≤ b.byte 2 ∧ b.byte 2 ≤ 4)))

/-- The command is one the table's row describes. -/
def Instr.wf : Instr → Bool
  | .pixelLeadingEdge _ _ _ _ _ _ => true
  | .interpConversionDone _ _ _ => true
  | .pixelTrailingEdge _ _ _ _ _ => true
  | .totTimeout _ _ _ => true
  | .occupationEnd _ _ _ => true
  | .autoMask _ _ _ => true
  | .clearAll _ => true
  | .pixdataWrite _ _ => true
  | .pixdataRead _ => true
  | .dcCfgWrite _ _ _ => true
  | .settlingWindowEnd _ => true
  | .injGo _ => true
  | .injStop _ => true
  | .injectionPulse _ => true
  | .injSequenceEnd _ => true
  | .forPulseEnd _ _ => true
  | .calBlankEnd _ => true
  | .dllLock _ _ _ => true
  | .dllLockLost _ _ => true
  | .calPeriodStart _ => true
  | .calConversion _ _ _ _ => true
  | .calReset _ => true
  | .csuGo _ => true
  | .csuStop _ => true
  | .csuRunStart _ => true
  | .csuPulse _ => true
  | .csuRecordsEmit _ => true
  | .csuRowWrite _ _ => true
  | .columnDrainMove _ _ => true
  | .eocQueuePtrReset _ _ => true
  | .builderPop _ _ => true
  | .clusterClose _ _ => true
  | .builderStallEnd _ _ => true
  | .frameClose _ => true
  | .frameSendStart _ => true
  | .uplinkBlockTransmit _ => true
  | .laneMarkSend _ => true
  | .activeLanesWrite _ _ => true
  | .receiverDetect _ => true
  | .noRxTimeout _ => true
  | .trainBlockReceive _ b => b.wf && b.blk.kind == .train
  | .trainTimeout _ => true
  | .portActivate _ => true
  | .activationWaitExpiry _ => true
  | .uplinkBlockReceive _ _ b => b.wf && (b.blk.kind == .frame || b.blk.kind == .data || b.blk.kind == .status)
  | .symbolLockLoss _ => true
  | .laneMarkReceive _ _ _ b => b.wf && b.blk.kind == .laneMark
  | .markWaitExpiry _ => true
  | .retrainFail _ => true
  | .laneRetrainOrder _ => true
  | .laneEnWrite _ _ => true
  | .portRetrainOrder _ => true
  | .ulSleepRequest _ => true
  | .sleepReqReceive _ => true
  | .sleepAnnounceReceive _ _ => true
  | .sleepRefusedTimeout _ => true
  | .ulWakeRequest _ => true
  | .wakeReqReceive _ => true
  | .selfWake _ => true
  | .wakeAnnounce _ => true
  | .wakeReceive _ _ => true
  | .wakeTimeout _ _ => true
  | .dlQuietEnter _ => true
  | .dlQuietExit _ => true
  | .nearEndLoop _ _ _ => true
  | .portLoopWrite _ _ _ => true
  | .loopBlockReceive _ b => b.wf && b.blk.kind == .loop
  | .prbsGenEnable _ => true
  | .prbsCheckerLock _ => true
  | .pPrbsClear _ => true
  | .portPrbsClear _ => true
  | .eyeScanComplete _ _ _ _ => true
  | .reassemblyBlock _ => true
  | .reassemblyMissing _ => true
  | .portQueuePtrReset _ => true
  | .sideQueuePtrReset _ => true
  | .mergeCommit => true
  | .mergeWaitExpiry => true
  | .mergeHighWater => true
  | .mergeEmptyDue => true
  | .mergeEnWrite _ _ => true
  | .portResync _ => true
  | .portLeaveActive _ _ => true
  | .runSelfStop => true
  | .billetAllocate => true
  | .mergedFrameWrite _ => true
  | .stackSkipEnd _ => true
  | .dramRefresh _ _ _ => true
  | .retrainSlice _ _ _ => true
  | .retrainComplete _ _ _ _ => true
  | .pointTargetWrite _ _ => true
  | .thermalEmergencyEntry _ _ _ => true
  | .thermalEmergencyExit _ _ => true
  | .pointChangeDone _ => true
  | .gatherComplete => true
  | .pasrWake => true
  | .pasrIdleReentry => true
  | .pasrExit => true
  | .bufMapWrite _ => true
  | .dramLineRead _ _ _ => true
  | .sealedPageWrite _ addr bytes _ => decide (0 < bytes.length) && decide (addr.toNat % 64 + bytes.length ≤ 64)
  | .priorityWalkStart => true
  | .scrubPageVisit _ _ _ _ _ _ _ => true
  | .retireOrder _ => true
  | .migrationPageCopy _ _ _ => true
  | .migrationComplete _ => true
  | .migrationLag _ => true
  | .stackOut _ => true
  | .stackPowerDown _ => true
  | .freezeRelease _ => true
  | .rceClear => true
  | .trigFetch _ es => es.all fun e => e.2.length == 32
  | .ringTrigReceive _ b _ => b.isType .data 2
  | .contextLookup _ => true
  | .segmentRead => true
  | .carveDispatch _ _ => true
  | .carveSectionDone _ => true
  | .compressionStreamGrant _ => true
  | .compressBlock _ _ => true
  | .idleFlush _ _ => true
  | .outputChunkPush _ => true
  | .outputChunkGrant => true
  | .outputQueuePtrReset => true
  | .bufqTake _ entry => entry.length == 32
  | .bufEntryWrite _ => true
  | .xtrCompletionWrite _ => true
  | .doorbellWrite _ _ => true
  | .ringEnable _ w => bitAt w.toNat 8
  | .ringDisable _ w => !bitAt w.toNat 8
  | .ctrlFetch entry _ => entry.length == 32
  | .ctrlCompletionWrite => true
  | .feWrite _ _ arg => arg.length == 24
  | .feRead _ _ arg => arg.length == 24
  | .feBulk _ _ arg _ => arg.length == 24
  | .commitAt _ _ arg => arg.length == 24
  | .trueSnap _ _ arg => arg.length == 24
  | .engineLoad _ _ arg _ => arg.length == 24
  | .engineStart _ _ arg => arg.length == 24
  | .engineStop _ _ arg => arg.length == 24
  | .pin _ _ arg => arg.length == 24
  | .unpin _ _ arg => arg.length == 24
  | .mark _ _ arg => arg.length == 24
  | .fence _ _ arg => arg.length == 24
  | .monCfg _ _ arg _ => arg.length == 24
  | .runStart _ _ arg => arg.length == 24
  | .runStop _ _ arg => arg.length == 24
  | .regWr _ b => b.isType .data 1
  | .regRd _ b => b.isType .data 2
  | .pixWr _ b => b.isType .data 3
  | .pixRd _ b => b.isType .data 4
  | .pixStream _ b => b.isType .data 5
  | .commit _ b => b.isType .data 6
  | .unknownDownlinkOp _ b => b.wf && b.blk.kind == .data && (b.op == 0 || decide (6 < b.op))
  | .feReplyTimeout _ _ => true
  | .msixTimeout _ => true
  | .hostReadFail _ _ => true
  | .hostWriteFail _ => true
  | .bufStarveTimeout => true
  | .pcieLinkChange _ _ _ => true
  | .functionLevelReset => true
  | .pcieFundamentalReset => true
  | .pcieLinkTraining => true
  | .barAccessInvalid _ size _ _ => decide (0 < size.toNat)
  | .pairLowRead _ => true
  | .timeNowRead => true
  | .mirrorRead _ => true
  | .bar4Write _ bytes => decide (0 < bytes.length) && decide (bytes.length ≤ 64)
  | .registerWrite _ _ => true
  | .decompressImage => true
  | .add _ _ _ _ => true
  | .sub _ _ _ _ => true
  | .andR _ _ _ _ => true
  | .orR _ _ _ _ => true
  | .xorR _ _ _ _ => true
  | .shl _ _ _ _ => true
  | .shr _ _ _ _ => true
  | .sra _ _ _ _ => true
  | .mul _ _ _ _ => true
  | .mulh _ _ _ _ => true
  | .min _ _ _ _ => true
  | .max _ _ _ _ => true
  | .slt _ _ _ _ => true
  | .sltu _ _ _ _ => true
  | .clz _ _ _ => true
  | .popc _ _ _ => true
  | .addi _ _ _ _ => true
  | .andi _ _ _ _ => true
  | .ori _ _ _ _ => true
  | .xori _ _ _ _ => true
  | .shli _ _ _ _ => true
  | .shri _ _ _ _ => true
  | .srai _ _ _ _ => true
  | .lui _ _ _ => true
  | .bfx _ _ _ _ _ => true
  | .bfi _ _ _ _ _ => true
  | .lb _ _ _ _ _ => true
  | .lbu _ _ _ _ _ => true
  | .lh _ _ _ _ _ => true
  | .lhu _ _ _ _ _ => true
  | .lw _ _ _ _ _ => true
  | .sb _ _ _ _ => true
  | .sh _ _ _ _ => true
  | .sw _ _ _ _ => true
  | .hinc _ _ _ _ _ => true
  | .beq _ _ _ _ => true
  | .bne _ _ _ _ => true
  | .blt _ _ _ _ => true
  | .bge _ _ _ _ => true
  | .bltu _ _ _ _ => true
  | .bgeu _ _ _ _ => true
  | .jal _ _ _ => true
  | .jalr _ _ _ _ => true
  | .inp _ _ => true
  | .inpW _ _ => true
  | .peek _ _ _ => true
  | .out _ _ => true
  | .outm _ _ => true
  | .outmE _ _ => true
  | .tick _ _ _ => true
  | .event _ _ => true
  | .yield _ => true
  | .halt _ => true
  | .watchdogExpiry _ => true
  | .engineFeedPtrReset _ => true
  | .engineOffWrite _ _ => true
  | .clusterEnWrite _ _ => true
  | .dvfsTargetWrite _ _ => true
  | .dvfsPowerGood _ => true
  | .dvfsPllRelock _ => true
  | .dvfsPgTimeout _ => true
  | .syncSend => true
  | .ringSyncReceive _ b _ _ => b.isType .data 1
  | .syncLoss => true
  | .estimateUpdate _ => true
  | .incRecompute => true
  | .timeSet _ => true
  | .timeSlewWrite _ => true
  | .ringMessageForward _ b => b.isForward
  | .ringCtrlRunStart _ b => b.isCtrl 1
  | .ringCtrlRunStop _ b => b.isCtrl 2
  | .ringCtrlGate _ b => b.isCtrl 3
  | .ringCtrlMap _ b => b.isCtrl 4
  | .ringMirrorReceive _ b => b.isType .data 4
  | .ringPrimReceive _ b => b.isType .data 6
  | .runRepeatSend => true
  | .gateWrite _ _ _ => true
  | .leaseSend => true
  | .ringLeaseReceive _ b => b.isType .data 5
  | .leaseReturnTimeout => true
  | .tailstockTakeover => true
  | .candidateTimeout => true
  | .mirrorTimeout => true
  | .ringEchoRequest _ => true
  | .ringEchoReqReceive _ b _ _ => b.isType .echo 1
  | .ringEchoRespReceive _ b _ => b.isType .echo 2
  | .ringEchoTimeout _ _ => true
  | .ringCfgEnable w => bitAt w.toNat 10
  | .ringCfgDisable w => !bitAt w.toNat 10
  | .downlinkEchoRequest _ => true
  | .pelnosEchoAnswer _ b _ _ => b.isType .echo 1
  | .echoResponseReceive _ _ b _ => b.isType .echo 2
  | .downlinkEchoTimeout _ _ => true
  | .epochSyncSend _ => true
  | .syncCheckSend _ => true
  | .downlinkSyncReceive _ b => b.wf && b.blk.kind == .sync
  | .epochHoldEnd _ => true
  | .crystalQualify _ => true
  | .ringClockQualify _ _ => true
  | .clockSourceSwitch _ => true
  | .clockSwitchForced _ => true
  | .clockMonitorTrip _ _ => true
  | .safeStateExit _ => true
  | .clockGateWrite _ => true
  | .feedLoss _ _ => true
  | .feedGapEnd _ _ => true
  | .outputHoldEnd => true
  | .feedReturn _ _ => true
  | .feedLow _ _ => true
  | .supplyWarningEntry _ _ => true
  | .supplyWarningClear _ _ => true
  | .capLift => true
  | .railReset _ => true
  | .downlinkLoss _ => true
  | .downlinkReturn _ => true
  | .pelnosDipStart _ => true
  | .pelnosDipEnd _ _ => true
  | .pelnosPowerOnReset _ => true
  | .pelnosPadReset _ => true
  | .pelnosSoftReset _ => true
  | .pelnosMonScanStart _ => true
  | .pelnosMonConversion _ _ => true
  | .monSampleTick _ _ _ _ _ => true
  | .monOutput _ _ => true
  | .monDwellEnd => true
  | .ilStaleTimeout _ => true
  | .holdLong => true
  | .complianceTrip _ => true
  | .monInjGo w => bitAt w.toNat 8
  | .monInjPeriodic => true
  | .monInjConversion _ _ => true
  | .refbufEnable _ => true
  | .refReady => true
  | .monCalStart => true
  | .monCalDone _ _ => true
  | .monDmaEnable _ => true
  | .monScanEnable _ => true
  | .monFiltWrite _ => true
  | .monChcfgWrite _ _ => true
  | .eventRecordWrite => true
  | .snapshotLatch => true
  | .snapshotArm _ => true
  | .pelnosSnapshotLatch _ => true
  | .snapshotBlockWrite => true
  | .periodicSnapshot => true
  | .commitArmSend => true
  | .commitApply _ => true
  | .commitReissue => true
  | .configScrubRead _ => true
  | .powerOnReset _ => true
  | .warmReset => true
  | .warmResetWrite _ => true
  | .clocksStageDone => true
  | .selftestComplete _ _ _ _ => true
  | .dramStage _ _ _ _ _ _ _ => true
  | .stackRetry _ => true
  | .resetRelease => true
  | .pelnosResetRelease _ _ => true
  | .refreshHot _ _ _ => true
  | .retrainAgeLag _ _ => true
  | .msixUnmask _ => true
  | .receivedTlpError _ => true
  | .monitorClockReturn => true

end Sys2Proof
end

