-- ==== Sys2Proof/Safety.lean ====
section
/-!
DEFINITION. The terms in which statements about the block are written: what part of the state a command may touch, and the invariants
that every step keeps.
-/

namespace Sys2Proof.Machine

/-! ### Frames -/

/-- The state with Pelnos `c` on port `p`: nothing else changes. -/
def State.setChip (s : State) (p : Port) (c : Pelnos) : State := s.updChip p fun _ => c

/-- The state with receive path `q` on port `p`: nothing else changes. -/
def State.setPort (s : State) (p : Port) (q : PortIn) : State := s.updPort p fun _ => q

/-- Pelnos `c` with the fast-OR one-shots `fp` running (R40): nothing else changes. -/
def Pelnos.withPulse (c : Pelnos) (fp : BitVec 16) : Pelnos := { c with forPulse := fp }

/-- The Zwiuc register fields outside `fs` hold what they held. -/
def regsBut (fs : List Field) (s t : State) : Prop := ∀ k, k ∉ fs.map Field.key → Tab.get 0 t.zreg k = Tab.get 0 s.zreg k

/-- The register fields of a Pelnos outside `fs` hold what they held. -/
def chipRegsBut (fs : List Field) (c d : Pelnos) : Prop := ∀ k, k ∉ fs.map Field.key → Tab.get 0 d.regs k = Tab.get 0 c.regs k

/-- Between `s` and `t` nothing changes but Zwiuc register fields of `fs`. -/
def onlyRegs (fs : List Field) (s t : State) : Prop := t = s.updZreg (fun _ => t.zreg) ∧ regsBut fs s t

/-- What events may touch, and register fields of `fs` besides: event status, the event queue, pending messages and the output. -/
def onlyEvent (fs : List Field) (s t : State) : Prop :=
  t = (((s.updZreg fun _ => t.zreg).updEv fun _ => t.ev).updHost fun _ => t.host).updOut (fun _ => t.out) ∧ regsBut fs s t

/-- BAR0 takes writes: the boot is done (READY) and the clocks are not in the safe state (R336, R410). -/
def State.bar0Open (s : State) : Prop := s.zget Z.CLK_SRC.SAFE = 0 ∧ s.zget Z.BOOT_STAT.STAGE = 4

/-- Nothing but the merger follows a commit: no command waits, no context is open, nothing is pinned, no engine has a role. -/
def State.mergeAlone (s : State) : Prop := s.cmds = [] ∧ s.xtr.ctxs = [] ∧ s.buf.pins = [] ∧ ∀ e : Eng, s.engRole e = 0

/-- The writer has a line at hand at line `l` of billet `b`, a run is active, and no end of it is known. -/
def State.mergeOpen (s : State) (b l : Nat) : Prop :=
  s.run.active = true ∧ s.run.last = none ∧ s.buf.wbuf.length < 65536 ∧ s.buf.pos = some (b, l) ∧ s.mNext < 2 ^ 40 - 1

/-- An intact message `pl` of the timing ring arrives on side `d` in the rotation that consumes messages: the link is in service and no
checker runs on it, the message is not this node's own, and its originator is in the map. -/
def State.ringHears (s : State) (d : Side) (b : RxBlock) (pl : List Byte) : Prop :=
  intact (.ring d) b = true ∧ b.blk.kind = .data ∧ b.blk.payload = pl ∧ s.ringServes d = true ∧ (s.lane (.ring d)).badKind = 0 ∧
    (s.prbsCfg (.ring d)).1 = false ∧ (d = .east → s.ringServes .west = false) ∧ srcOf pl ≠ s.node ∧ s.strips pl = false

/-- Context `c` is the only one in use. -/
def State.oneCtx (s : State) (c : Ctx) : Prop := s.xtr.ctxs = [c]

/-- The extraction path with context `c` in place of all. -/
def State.setCtx (s : State) (c : Ctx) : State := s.updXtr fun x => { x with ctxs := [c] }

/-- Engine `i.eng` issues the word `w`: it is RUNNING, its clock goes, it does not wait in YIELD, and `w` stands at its PC, read
without error. -/
def State.runsWord (s : State) (i : Issue) (w : Nat) : Prop :=
  s.engReady i.eng = true ∧ i.fetch = .ok ∧ (s.eng i.eng).fetch.toNat = w

/-- An instruction of engine `e` changes the engine by `f`, retires, and the PC moves on by one word within 15 bits. -/
def State.retires (s : State) (e : Nat) (f : Engine → Engine) : State :=
  (s.updEng e fun x => { f x with pc := (x.pc + 4) % 32768 }).zwrap (ZE.INSTR.COUNT.geng e) 1

/-- An instruction of engine `e` changes the engine by `f`, retires, and the PC becomes `pc`. -/
def State.jumps (s : State) (e pc : Nat) (f : Engine → Engine) : State :=
  (s.updEng e fun x => { f x with pc := pc }).zwrap (ZE.INSTR.COUNT.geng e) 1

/-- The memory cell that address `a` of engine `e` names (R277): cluster-shared or data memory, whose it is, and the byte in it. -/
def ecell (e : Nat) (a : Word) : Bool × Nat × Nat :=
  if isShared a then (true, e / 24, a.toNat % 2 ^ 20) else (false, e, a.toNat % 2 ^ 17)

/-- The command that an entry of the CTRL ring with this opcode, TAG, PORTS and ARG begins; `data` is what its source holds, once read. -/
def State.newCmd (s : State) (op : Nat) (tag : Word) (ports : Half) (arg : List Byte) (data : Option (List Byte)) : Cmd :=
  { id := s.cmdCount, opcode := op, tag := tag.toNat, ports := ports.toNat, arg := arg, started := true, image := data }

/-- The state after the fetch of an entry, with `c` as the one command. -/
def State.after (s : State) (c : Cmd) : State := (((s.updCmds fun _ => [c]).updCmdCount (· + 1)).consume 0).shadow

/-- An entry of the CTRL ring can be fetched, and no command is under way. -/
def State.ctrlOpen (s : State) : Prop := s.ringUp 0 = true ∧ s.unfetched 0 ≠ 0 ∧ s.cmds = []

/-- An intact block of kind `k` with payload `pl` reaches the Pelnos on port `p`, which is out of reset with its downlink in ACTIVE, no
checker running and no far-end loop. -/
def State.pelnosHears (s : State) (p : Port) (b : RxBlock) (k : BlkKind) (pl : List Byte) : Prop :=
  intact (.down p) b = true ∧ b.blk.kind = k ∧ b.blk.payload = pl ∧ (s.chip p).inReset = false ∧ (s.lane (.down p)).badKind = 0 ∧
    (s.prbsCfg (.down p)).1 = false ∧ (s.chip p).get P.LINK_STAT.FAR_LOOP = 0 ∧ s.lst (.down p) = 5 ∧
    (s.chip p).get P.LINK_STAT.DL_STATE = 5

/-- Pelnos `c` after it has placed a READBACK record (R81, R245). -/
def Pelnos.answers (c : Pelnos) (pix staged : Bool) (addr data tag : Nat) (err : Bool) : Pelnos :=
  c.periph (readbackRec pix staged addr data tag err) 4

/-- A word of BAR0 whose write does nothing beyond its fields' access types: not a word that stages a time, enables a ring's link, moves a
ring, the shadow area or the snapshots, or switches a checker. -/
def plainWord (o : Nat) : Bool :=
  !(([0x4030, 0x4034, 0x7100, 0x7104, 0xA020, 0xA024, 0xA028, 0xA034] : List Nat).contains o) && !decide (0x5100 ≤ o ∧ o < 0x5180)
    && !(decide (0x7000 ≤ o ∧ o < 0x7100) && decide (o % 32 < 8)) && !(decide (0x10000 ≤ o ∧ o < 0x14000) && o % 0x400 == 0x128)

/-- `f` is the only field of the word at `o` with its key. -/
def soleField (o : Nat) (f : Field) : Prop := (zfields o).filter (fun g => g.key == f.key) = [f]

/-- What a read of a register word may touch: registers, latches and the unread marks of the monitor. -/
def onlyRead (s t : State) (v : Nat) : Prop :=
  t = ((((s.updZreg fun _ => t.zreg).updHost fun h => { h with latch := t.host.latch }).updMon fun m =>
    { m with unread := t.mon.unread, injUnread := t.mon.injUnread }).emit (.readData (leBytes v 4)))

/-- The byte address in BAR0 that a command writes which is the write of one register (R410); the commands that are no write of BAR0, the
writes that keep a rule of their own (REGISTER_WRITE, WARM_RESET_WRITE, CLOCK_GATE_WRITE) and a downlink's RETRAIN bit have none. -/
def bar0Word : Instr → Option Nat
  | .stackRetry _ => some Z.BOOT_CTL.RETRY.off
  | .pointTargetWrite n _ => some (ZS.DPT.TARGET.stack n).off
  | .pasrExit => some Z.BUF_PASR.EXIT.off
  | .bufMapWrite _ => some Z.BUF_MAP.GRAIN.off
  | .engineOffWrite e _ => some (ZE.CTL.OFF.geng e).off
  | .ringEnable r _ => some (ZR.CFG.EN.hring r).off
  | .ringDisable r _ => some (ZR.CFG.EN.hring r).off
  | .mergeEnWrite p _ => some (ZP.CTL.MERGE_EN.port p).off
  | .portResync p => some (ZP.CTL.RESYNC.port p).off
  | .retireOrder n => some (ZS.ICTL.RETIRE.stack n).off
  | .stackOut n => some (ZS.CTL.OUT.stack n).off
  | .freezeRelease n => some (ZS.FRZ.RELEASE.stack n).off
  | .rceClear => some Z.RCE_IDX.CLEAR.off
  | .laneRetrainOrder (.up p _) => some (ZP.LCTL.RETRAIN.port p).off
  | .laneRetrainOrder (.ring d) => some (ZP.LCTL.RETRAIN.ringLane d).off
  | .laneEnWrite p _ => some (ZP.LCTL.LANE_EN.port p).off
  | .portRetrainOrder p => some (ZP.DLSTAT.RETRAIN.port p).off
  | .ulSleepRequest p => some (ZP.LCTL.UL_SLEEP.port p).off
  | .ulWakeRequest p => some (ZP.LCTL.UL_SLEEP.port p).off
  | .portLoopWrite p _ _ => some (ZP.LCTL.LOOP.port p).off
  | .prbsGenEnable (.down p) => some (ZP.PRBS.GEN_EN.port p).off
  | .prbsGenEnable (.ring d) => some (ZP.PRBS.GEN_EN.ringLane d).off
  | .portPrbsClear p => some (ZP.PRBS.CLEAR.port p).off
  | .monInjGo _ => some Z.MON_INJ.GO.off
  | .refbufEnable _ => some Z.MON_CTL.REFBUF_EN.off
  | .monCalStart => some Z.MON_CTL.CAL.off
  | .monDmaEnable _ => some Z.MON_CTL.DMA_EN.off
  | .monScanEnable _ => some Z.MON_CTL.SCAN_EN.off
  | .monFiltWrite _ => some Z.MON_FILT.RATE.off
  | .monChcfgWrite c _ => some (Z.MON_CHCFGc.MODE.at (4 * c)).off
  | .clusterEnWrite n _ => some (ZC.CTL.EN.gcl n).off
  | .dvfsTargetWrite n _ => some (ZC.DVFS.TARGET.gcl n).off
  | .gateWrite k i _ => some (Z.RING_GATEk.START_LO.at (16 * k + 4 * i)).off
  | .ringCfgEnable _ => some Z.RING_CFG.EN.off
  | .ringCfgDisable _ => some Z.RING_CFG.EN.off
  | .timeSet _ => some (Z.TIME_SETk.VALUE.at 8).off
  | .timeSlewWrite _ => some Z.TIME_SLEW.SLEW.off
  | _ => none

/-! ### Invariants -/

/-- An engine as R270 to R273 have it: g0 holds zero, the PC names a word of the instruction memory, and both memories are canonical. -/
def Engine.ok (x : Engine) : Prop :=
  x.reg 0 = 0 ∧ x.pc % 4 = 0 ∧ x.pc < 32768 ∧ Tab.wf 0 x.imem = true ∧ Tab.wf 0 x.dmem = true

/-- The memory of the block is canonical: DRAM, monitor SRAM, cluster-shared memories. -/
def Memory.wf (s : State) : Bool := Tab.wf 0 s.buf.mem && Tab.wf 0 s.mon.sram && Tab.wf 0 s.shm

/-- The invariant of the block. -/
def State.ok (s : State) : Prop := (∀ e, (s.eng e).ok) ∧ Memory.wf s = true

/-- Every waiting command is one that the table describes. -/
def State.queueOk (s : State) : Prop := ∀ c ∈ s.pending, c.wf = true

end Sys2Proof.Machine
end

