-- ==== Sys2Proof/Certificates/Slice0/Obligations.lean ====
section
/-!
DEFINITION. The statements for the provers.  Each says what its docstring says; "the frame" is what the docstring calls unchanged.
-/

open Sys2Proof Sys2Proof.Machine

/-! ### The block as a machine -/

/-- One step takes the command at the front of the queue and runs it on the state with the rest of the queue. -/
def Obligations.StepTakesFrontCommand : Prop :=
  ∀ (s : State) (c : Instr) (cs : List Instr), s.pending = c :: cs → step s = exec c { s with pending := cs }

/-- A step on an empty queue answers a next state: spindle time moves on by INC where the counter counts (out of reset and of the safe
state, from a qualified oscillator), the tick count of every Pelnos whose PLL is locked by four ticks around 2^44, that of no other, and
the registers, memories, output and queues stand (the model's choice, log entry 6). -/
def Obligations.IdleStepPassesTime : Prop :=
  ∀ s : State, s.pending = [] →
    ∃ t, step s = .next t ∧
      t = ((s.updTime fun _ => t.time).updChips fun _ => t.chips).updGcls (fun _ => t.gcls) ∧
      t.time = s.time + (if s.zget Z.BOOT_STAT.STAGE ≠ 0 ∧ s.zget Z.CLK_SRC.SAFE = 0 ∧ s.qualified (s.zget Z.CLK_SRC.SEL) = true
        then s.zget Z.TIME_INC.INC else 0) ∧
      (∀ p, (s.chip p).get P.PLL_STAT.LOCK = 1 → (s.chip p).frame < 2 ^ 32 → (s.chip p).coarse < 4096 →
        (t.chip p).now = ((s.chip p).now + 4) % 2 ^ 44) ∧
      (∀ p, (s.chip p).get P.PLL_STAT.LOCK = 0 → t.chip p = s.chip p)

/-- Every step that answers a next state takes exactly the front command off the queue, puts none there and reorders none; on an empty
queue the queue stays empty. -/
def Obligations.QueueIsServedInOrder : Prop :=
  ∀ s t : State, step s = .next t → t.pending = s.pending.tail

/-- The invariant of the block is kept by every step from every state: g0 of every engine reads zero, every engine's PC is the address of a
word of its 32 KiB instruction memory, and DRAM, monitor SRAM, cluster-shared, instruction and data memories are in canonical form. -/
def Obligations.InvariantIsKeptByEveryStep : Prop :=
  ∀ s t : State, s.ok → step s = .next t → t.ok

/-- The invariant holds at reset, and so it does in every state in which every engine and memory is as at reset. -/
def Obligations.InvariantHoldsAtReset : Prop :=
  State.reset.ok ∧ State.reset.queueOk ∧
    ∀ s : State, s.engines = [] → s.shm = [] → s.buf.mem = [] → s.mon.sram = [] → s.ok

/-- No command ends in a fault or a refusal: whatever the state, every command has a next state.
The model's choices that it rests on are named in log entry 1. -/
def Obligations.EveryCommandHasANextState : Prop :=
  ∀ (c : Instr) (s : State), ∃ t, exec c s = .next t

/-- The state at reset: nothing waits, the reset is held (stage 0), every Zwiuc register field reads its reset value, every Pelnos is as
after its own reset, and no memory byte is listed.
The model's choices that it rests on are named in log entries 13 and 14. -/
def Obligations.ResetState : Prop :=
  State.reset.pending = [] ∧ (∀ f : Field, State.reset.zget f = f.reset) ∧
    (∀ p, (State.reset.chip p) = Pelnos.reset) ∧ (∀ f : Field, Pelnos.reset.get f = f.reset) ∧
    (∀ i, Pelnos.reset.pixWord i = 0x0030#16) ∧ (∀ k, (Pelnos.reset.quad k).gain = 16 ∧ (Pelnos.reset.quad k).offset = 16) ∧
    (∀ ch l, State.reset.memByte ch l = 0) ∧ State.reset.out = [] ∧ State.reset.cmds = [] ∧
    Z.MERGE_CFG.WAIT_US.reset = 50 ∧ Z.MERGE_CFG.DUE_US.reset = 40 ∧ Z.BUF_MAP.GRAIN.reset = 4 ∧ Z.MON_INJ.SEL.reset = 3

/-! ### Pelnos: pixels, injection -/

/-- Leading edges (R61, R47, R50, R51, R48).  On an enabled, unoccupied pixel with a locked DLL a leading edge starts a hit: with the free
interpolator of its quad it takes the whole FINE and claims it; with the interpolator taken, FINE[2:0] is 4 and LOWRES is set; with an
unlocked DLL FINE is 0x80 and LOWRES is set.  On an occupied pixel the hit is lost, DCn_PILEUP counts it, and the discriminator is high; a
pixel that is not enabled gives nothing; a discriminator that is already high has no leading edge.  All else stands (fast-OR one-shots
apart).
The model's choices that it rests on are named in log entries 1 and 5. -/
def Obligations.LeadingEdges : Prop :=
  ∀ (s : State) (p : Port) (c : Pelnos) (col row : Fin 512) (sub : Fin 4) (k : Fin 34) (m : Fin 8) (i : Nat) (x : Pixel) (q : Quad),
    s.chip p = c → i = col * 512 + row → c.pixel i = x → c.quad (quadOf i) = q → c.csu = none → x.high = false →
    (c.enabled i = true → x.occupied = false → c.dllLocked (col / 2) = true → k.val < 32 →
      c.get P.TDC_CFG.FINE_EN = 1 → q.interp = .free →
      ∃ fp, exec (.pixelLeadingEdge p col row sub k m) s = .next (s.setChip p (((c.setPixel i { x with
          high := true, hold := true,
          meas := some { tick := (c.now + sub) % 2 ^ 44, fine := 255 - (8 * k + m), lowres := false, dll := true } }).setQuad
            (quadOf i) { q with interp := .pixel }).withPulse fp))) ∧
    (c.enabled i = true → x.occupied = false → c.dllLocked (col / 2) = true → k.val < 32 →
      c.get P.TDC_CFG.FINE_EN = 1 → q.interp = .pixel →
      ∃ fp, exec (.pixelLeadingEdge p col row sub k m) s = .next (s.setChip p ((c.setPixel i { x with
          high := true, hold := true,
          meas := some { tick := (c.now + sub) % 2 ^ 44, fine := 8 * (31 - k) + 4, lowres := true, dll := true } }).withPulse fp))) ∧
    (c.enabled i = true → x.occupied = false → c.dllLocked (col / 2) = false → k.val < 32 → c.get P.TDC_CFG.FINE_EN = 0 →
      ∃ fp, exec (.pixelLeadingEdge p col row sub k m) s = .next (s.setChip p ((c.setPixel i { x with
          high := true, hold := true,
          meas := some { tick := (c.now + sub) % 2 ^ 44, fine := 0x80, lowres := true, dll := false } }).withPulse fp))) ∧
    (c.enabled i = true → x.occupied = true →
      ∃ fp, exec (.pixelLeadingEdge p col row sub k m) s = .next (s.setChip p (((c.setPixel i { x with high := true }).bump
        (P.DCn_PILEUP.COUNT.at (4 * (col / 2))) 1).withPulse fp))) ∧
    (c.enabled i = false →
      ∃ fp, exec (.pixelLeadingEdge p col row sub k m) s = .next (s.setChip p ((c.setPixel i { x with high := true }).withPulse fp))) ∧
    (∀ (dc quad : Fin 256),
      exec (.interpConversionDone p dc quad) s = .next (s.setChip p (c.setQuad (dc * 256 + quad)
        { c.quad (dc * 256 + quad) with interp := .free })))

/-- Trailing edges and the end of a hit (R54 to R58, R61).  The fall completes the hit in progress: TOT is the time since the start in
1/8 ticks, at most 511 (of a DLL that is locked); SHORT is set exactly with TOT 0 and LONG with 511, LOWRES is as at the start; a fall of a pixel with no start gives an ORPHAN whose FINE is the middle of its
eighth; 49.9 ns without a fall give TOT 511 and LONG and keep the pixel occupied until the fall, which then gives nothing.  A completed
hit takes the free hit register or waits for it, whether or not the pixel is still enabled, and a leading edge of a pixel that is not
enabled starts none; the end of the 25 ns moves a waiting hit into a free register.  Every other pixel, every
register and everything outside the Pelnos stand. -/
def Obligations.TrailingEdges : Prop :=
  ∀ (s : State) (p : Port) (c : Pelnos) (col row : Fin 512) (sub : Fin 4) (k : Fin 34) (i : Nat) (x : Pixel),
    s.chip p = c → i = col * 512 + row → c.pixel i = x →
    (∀ (m : Meas) (tot : Nat), x.high = true → x.meas = some m → x.reg = none → m.dll = true → k.val < 32 →
      tot = min (8 * (((c.now + sub) % 2 ^ 44 + 2 ^ 44 - m.tick % 2 ^ 44) % 2 ^ 44) + (31 - k) / 4 - m.fine / 32) 511 →
      exec (.pixelTrailingEdge p col row sub k) s = .next (s.setChip p (c.setPixel i { x with
        high := false, meas := none,
        reg := some {
          col := col, row := row, tick := m.tick, fine := m.fine, tot := tot, short := tot == 0, long := tot == 511,
          orphan := false, lowres := m.lowres, era := c.era } }))) ∧
    (∀ m : Meas, x.high = true → x.meas = some m →
      ∃ h : Hit, exec (.pixelTrailingEdge p col row sub k) s =
          .next (s.setChip p (c.setPixel i ({ x with high := false, meas := none }.complete h))) ∧
        h.orphan = false ∧ (h.short = true ↔ h.tot = 0) ∧ (h.long = true ↔ h.tot = 511) ∧ h.lowres = m.lowres ∧
        h.tick = m.tick ∧ h.fine = m.fine) ∧
    (x.high = true → x.meas = none → x.tail = true →
      exec (.pixelTrailingEdge p col row sub k) s = .next (s.setChip p (c.setPixel i { x with high := false, tail := false }))) ∧
    (x.high = true → x.meas = none → x.occupied = false → c.enabled i = true → x.reg = none → k.val < 32 →
      exec (.pixelTrailingEdge p col row sub k) s = .next (s.setChip p (c.setPixel i { x with
        high := false,
        reg := some {
          col := col, row := row, tick := (c.now + sub) % 2 ^ 44, fine := 32 * ((31 - k) / 4) + 16, tot := 0,
          short := false, long := false, orphan := true, lowres := false, era := c.era } }))) ∧
    (∀ m : Meas, x.meas = some m →
      exec (.totTimeout p col row) s = .next (s.setChip p (c.setPixel i ({ x with meas := none, tail := true }.complete
        {
          col := col, row := row, tick := m.tick, fine := m.fine, tot := 511, short := false, long := true, orphan := false,
          lowres := m.lowres, era := c.era })))) ∧
    (x.high = false → c.enabled i = false → ∀ n : Fin 8,
      ∃ fp, exec (.pixelLeadingEdge p col row sub k n) s = .next (s.setChip p ((c.setPixel i { x with high := true }).withPulse fp))) ∧
    (∀ h : Hit, x.reg = none → x.done = some h →
      exec (.occupationEnd p col row) s = .next (s.setChip p (c.setPixel i { x with
        hold := false, reg := some h, done := none }))) ∧
    (∀ h : Hit, x.reg = some h →
      exec (.occupationEnd p col row) s = .next (s.setChip p (c.setPixel i { x with hold := false })))

/-- Pixel configuration (R31, R32, R35, R36, R43).  A write through the window stores the word without its reserved bits and steps the
window, a read returns the word and steps it; INC 2 steps through the columns; the auto-mask of a pixel held high is set and its report
queued (the seventeenth makes AM_OVF pending), CLEAR_ALL releases every auto-mask; DC_MASK and DC_OFF are written; the settling window's
end lets SETTLE_BLANK go.
The model's choices that it rests on are named in log entries 1 and 5. -/
def Obligations.PixelConfiguration : Prop :=
  ∀ (s : State) (p : Port) (c : Pelnos), s.chip p = c →
    (∀ w : Half, w &&& 0x009F#16 = c.pixWord c.window &&& 0x009F#16 →
      ∃ fp, exec (.pixdataWrite p w) s = .next (s.setChip p
        ((({ c with pix := Tab.set 0x0030#16 c.pix c.window (w &&& 0x01FF#16) }.setPixel c.window
            { c.pixel c.window with amask := false }).withPulse fp).setWindow (pixStep (c.get P.PIXADDR.INC) c.window)))) ∧
    (exec (.pixdataRead p) s = .next ((s.emit (.chipWord p (c.pixWord c.window))).setChip p
        (c.setWindow (pixStep (c.get P.PIXADDR.INC) c.window)))) ∧
    (∀ col row : Fin 512, pixStep 0 (col * 512 + row) = col * 512 + row ∧
      (row.val < 511 → pixStep 1 (col * 512 + row) = col * 512 + (row + 1 : Nat)) ∧
      (col.val < 511 → row.val = 511 → pixStep 1 (col * 512 + row) = (col + 1 : Nat) * 512) ∧
      (col.val < 511 → pixStep 2 (col * 512 + row) = (col + 1 : Nat) * 512 + row) ∧
      (col.val = 511 → row.val < 511 → pixStep 2 (col * 512 + row) = row + 1)) ∧
    (∀ (col row : Fin 512) (i : Nat), i = col * 512 + row →
      c.get P.FE_CFG.AMASK_EN = 1 → (c.pixel i).high = true → c.enabled i = true →
      (c.amQueue.length < 16 → exec (.autoMask p col row) s = .next (s.setChip p
        { c.setPixel i { c.pixel i with amask := true } with amQueue := c.amQueue ++ [(col.val, row.val)] })) ∧
      (c.amQueue.length = 16 → exec (.autoMask p col row) s = .next (s.setChip p
        { c.setPixel i { c.pixel i with amask := true } with amOvf := true }))) ∧
    (∃ fp t, exec (.clearAll p) s = .next (s.setChip p { c with pixels := t, forPulse := fp }) ∧
      ∀ i, Tab.wf {} c.pixels = true → Tab.get {} t i = { c.pixel i with amask := false }) ∧
    (∀ (dc : Fin 256) (v : Half), c.get (P.DCn_CFG.DC_OFF.at (4 * dc)) = 0 →
      ∃ fp, exec (.dcCfgWrite p dc v) s = .next (s.setChip p (((if v.getLsbD 1 then
          ((c.put (P.DCn_CFG.DC_MASK.at (4 * dc)) (v.getLsbD 0).toNat).put (P.DCn_CFG.DC_OFF.at (4 * dc)) 1).put
            (P.DCn_DLL.LOCK.at (4 * dc)) 0
        else (c.put (P.DCn_CFG.DC_MASK.at (4 * dc)) (v.getLsbD 0).toNat).put (P.DCn_CFG.DC_OFF.at (4 * dc)) 0)).withPulse fp))) ∧
    ((∀ w ∈ c.settle, w.2 < c.frame * 4096) →
      exec (.settlingWindowEnd p) s = .next (s.setChip p { c with settleBlank := false }))

/-- Injection (R37 to R40).  GO with nothing running makes a sequence pending, GO while one or the statistics unit runs is lost and sets
GO_LOST; STOP ends it; a started sequence issues one pulse a frame while the downlink is locked, each with its charge (5 or 20 electrons
a DAC step), marks its frame CAL and holds the regions low; the sequence ends after its last pulse or with STOP; the blanking and a
region's one-shot pulse end.
The model's choices that it rests on are named in log entries 1 and 5. -/
def Obligations.Injection : Prop :=
  ∀ (s : State) (p : Port) (c : Pelnos), s.chip p = c →
    (c.inj = none → c.csu = none →
      exec (.injGo p) s = .next (s.setChip p { c with
        inj := some { started := false, stop := false, left := none, pulsed := false } })) ∧
    (c.inj ≠ none ∨ c.csu ≠ none → exec (.injGo p) s = .next (s.setChip p (c.put P.INJ_CFG.GO_LOST 1))) ∧
    (∀ q, c.inj = some q → exec (.injStop p) s = .next (s.setChip p { c with inj := some { q with stop := true } })) ∧
    (∀ q, c.inj = some q → q.started = true → q.pulsed = false → q.left ≠ some 0 → c.locked = true →
      ∃ fp, exec (.injectionPulse p) s = .next ((s.emit (.inject p (c.samp.dac * (if c.samp.range = 0 then 5 else 20)))).setChip p
        { c with
          inj := some { q with pulsed := true, left := q.left.map (· - 1) },
          frames := Tab.upd {} c.frames c.frame (fun b => { b with cal := true }), calBlank := true, forPulse := fp })) ∧
    (∀ q, c.inj = some q → q.started = true → q.stop = true ∨ q.left = some 0 →
      exec (.injSequenceEnd p) s = .next (s.setChip p { c with inj := none })) ∧
    (∀ q n, c.inj = some q → q.started = true → q.stop = false → q.left = some (n + 1) →
      exec (.injSequenceEnd p) s = .next (s.setChip p c)) ∧
    (∀ r : Fin 16, ∃ fp, exec (.forPulseEnd p r) s = .next (s.setChip p (c.withPulse fp)) ∧
      ∀ j : Fin 16, fp.getLsbD j = (c.forPulse.getLsbD j && j != r)) ∧
    (exec (.calBlankEnd p) s = .next (s.setChip p { c with calBlank := false }))

/-! ### Pelnos: delay lines, calibration, statistics -/

/-- Delay-locked loops and background calibration (R48, R49, R63 to R66).  A DLL locks with its control code while the PLL is locked and
the double-column powered; losing lock sets LOCK_LOST.  A calibration period counts (LAG when an age passes 10).  A quad that is free and
quiet takes one conversion a period: in an odd period its result is kept, in the following even period GAIN follows the difference of the
two results (nominal 48, no step within one) and OFFSET their sum (nominal 64, no step within two), by one step within 0 to 31.
CAL_RESET puts both trims to 16 and every quad to unconverged.
The model's choices that it rests on are named in log entries 1 and 5. -/
def Obligations.DelayLinesAndCalibration : Prop :=
  ∀ (s : State) (p : Port) (c : Pelnos), s.chip p = c →
    (∀ (dc : Fin 256) (ctrl : Byte), c.get P.PLL_STAT.LOCK = 1 → c.get (P.DCn_CFG.DC_OFF.at (4 * dc)) = 0 →
      exec (.dllLock p dc ctrl) s = .next (s.setChip p
        ((c.put (P.DCn_DLL.LOCK.at (4 * dc)) 1).put (P.DCn_DLL.CTRL.at (4 * dc)) ctrl.toNat))) ∧
    (∀ dc : Fin 256, c.get (P.DCn_DLL.LOCK.at (4 * dc)) = 1 →
      exec (.dllLockLost p dc) s = .next (s.setChip p
        ((c.put (P.DCn_DLL.LOCK.at (4 * dc)) 0).put (P.DCn_DLL.LOCK_LOST.at (4 * dc)) 1))) ∧
    (c.get P.PLL_STAT.LOCK = 1 → c.quads = [] →
      exec (.calPeriodStart p) s = .next (s.setChip p (if c.calPeriod < 10 then { c with calPeriod := c.calPeriod + 1 }
        else { c with calPeriod := c.calPeriod + 1 }.put P.CAL_STAT2.LAG 1))) ∧
    (∀ (dc quad : Fin 256) (code : Fin 64) (k : Nat) (q : Quad), k = dc * 256 + quad → c.quad k = q →
      c.get P.PLL_STAT.LOCK = 1 → c.get P.TDC_CFG.CAL_EN = 1 → c.get P.TDC_CFG.FINE_EN = 1 → q.last < c.calPeriod →
      q.interp = .free → c.quadQuiet k = true → c.csu = none →
      (c.calPeriod % 2 = 1 →
        exec (.calConversion p dc quad code) s = .next (s.setChip p (c.setQuad k { q with
          interp := .cal, last := c.calPeriod, convs := q.convs + 1, odd := some code.val }))) ∧
      (∀ a : Nat, c.calPeriod % 2 = 0 → q.odd = some a →
        exec (.calConversion p dc quad code) s = .next (s.setChip p (c.setQuad k { q with
          interp := .cal, last := c.calPeriod, convs := q.convs + 1,
          gain := if 49 < (code : Int) - a then q.gain - 1 else if (code : Int) - a < 47 then min 31 (q.gain + 1) else q.gain,
          offset := if 66 < a + code then q.offset - 1 else if a + code < 62 then min 31 (q.offset + 1) else q.offset,
          gainHist := (q.gain :: q.gainHist).take 8, offsetHist := (q.offset :: q.offsetHist).take 8 })))) ∧
    (∃ t, exec (.calReset p) s = .next (s.setChip p { c with quads := t }) ∧
      (Tab.wf {} c.quads = true → ∀ k, Tab.get {} t k = { c.quad k with
        gain := 16, offset := 16, convs := 0, odd := none, gainHist := [], offsetHist := [] }))

/-- The calibration statistics unit (R67 to R70).  GO with a valid slot and nothing running begins a run of N pulses, at least 16; else it
is lost and sets GO_LOST; the first frame start clears the statistics; each frame one pulse is issued while the downlink is locked; when
the pulses are issued one CAL_STAT record per valid slot goes into the current frame and DONE is set; a write of the row steps the slot
address; STOP ends the run.
The model's choices that it rests on are named in log entries 1 and 5. -/
def Obligations.CalibrationStatistics : Prop :=
  ∀ (s : State) (p : Port) (c : Pelnos), s.chip p = c →
    (c.csu = none → c.inj = none → Tab.any (fun _ x => x.valid) c.slots = true →
      exec (.csuGo p) s = .next (s.setChip p { c with csu := some {
        started := false, stop := false, issued := 0, total := max 15 (c.get P.CSU_N.NM1) + 1, pulse := none, pulsed := false,
        ended := false } })) ∧
    (c.inj ≠ none → exec (.csuGo p) s = .next (s.setChip p (c.put P.CSU_CTRL.GO_LOST 1))) ∧
    (∀ r, c.csu = some r → exec (.csuStop p) s = .next (s.setChip p { c with csu := some { r with stop := true } })) ∧
    (∀ r, c.csu = some r → r.started = false → r.stop = false →
      ∃ t, exec (.csuRunStart p) s = .next (s.setChip p { c with csu := some { r with started := true }, slots := t }) ∧
        (Tab.wf {} c.slots = true → ∀ k, Tab.get {} t k = { col := (c.slot k).col, row := (c.slot k).row, valid := (c.slot k).valid })) ∧
    (∀ r, c.csu = some r → r.started = true → r.ended = false → r.pulsed = false → r.issued < r.total → c.locked = true →
      ∃ fp, exec (.csuPulse p) s = .next ((s.emit (.inject p c.samp.charge)).setChip p ({ c with
        csu := some { r with issued := r.issued + 1, pulse := some (c.frame * 4096 + c.samp.time), pulsed := true },
        frames := Tab.upd {} c.frames c.frame (fun b => { b with cal := true }), calBlank := true }.withPulse fp))) ∧
    (∀ r, c.csu = some r → r.issued = r.total → c.slots = [] →
      exec (.csuRecordsEmit p) s = .next (s.setChip p ({ c with csu := none }.put P.CSU_CTRL.DONE 1))) ∧
    (∀ r, c.csu = some r → r.issued = r.total → (∀ j, j ≠ 0 → (c.slot j).valid = false) → (c.slot 0).valid = true →
      exec (.csuRecordsEmit p) s = .next (s.setChip p
        ({ c.periph (calStatRec (c.slot 0) r.total r.stop) 8 with csu := none }.put P.CSU_CTRL.DONE 1))) ∧
    (∀ row : Half, c.csu = none → c.get P.CSU_SLOT.SLOT < 64 →
      exec (.csuRowWrite p row) s = .next (s.setChip p { c.put P.CSU_SLOT.SLOT ((c.get P.CSU_SLOT.SLOT + 1) % 64) with
        slots := Tab.set {} c.slots (c.get P.CSU_SLOT.SLOT) { c.slot (c.get P.CSU_SLOT.SLOT) with row := row.toNat % 512 } }))

/-! ### Pelnos: pipeline -/

/-- End-of-column queues (R72, R74, R81).  The drain moves the one occupied hit register of a double-column into its queue, frees the
register for a waiting hit, and counts the hit in its region's PRIMITIVE; a full queue drops the hit, counts it in DCn_DROP and starts
the pending marker with the hit's tick, and a pending marker goes on counting; pointers that disagree leave one marker of 0xFFFF, count in
QRESET_COUNT and mark the current frame.
The model's choices that it rests on are named in log entries 1 and 5. -/
def Obligations.ColumnDrain : Prop :=
  ∀ (s : State) (p : Port) (c : Pelnos) (n : Fin 256) (d : DCol), s.chip p = c → c.dcol n = d →
    (∀ (i : Nat) (x : Pixel) (h : Hit), c.pixels = [(i, x)] → x.reg = some h → i / 1024 = n → h.orphan = true →
      (d.pend = none → d.queue.length < 64 →
        exec (.columnDrainMove p n) s = .next (s.setChip p
          ((c.setPixel i { x with reg := x.done, done := none }).setDcol n { d with
            served := i % 1024, queue := d.queue ++ [.hit h] }))) ∧
      (d.pend = none → d.queue.length = 64 →
        exec (.columnDrainMove p n) s = .next (s.setChip p
          (((c.setPixel i { x with reg := x.done, done := none }).setDcol n { d with
            served := i % 1024, pend := some (h.tick, 1, h.era) }).bump (P.DCn_DROP.COUNT.at (4 * n)) 1))) ∧
      (∀ t k e, d.pend = some (t, k, e) → k < 65535 →
        exec (.columnDrainMove p n) s = .next (s.setChip p
          (((c.setPixel i { x with reg := x.done, done := none }).setDcol n { d with
            served := i % 1024, pend := some (t, k + 1, e) }).bump (P.DCn_DROP.COUNT.at (4 * n)) 1)))) ∧
    (∀ (i : Nat) (x : Pixel) (h : Hit) (b : FrameBuf), c.pixels = [(i, x)] → x.reg = some h → i / 1024 = n → h.orphan = false →
      h.era = c.era → h.tick / 4096 = c.nextClose → c.nextClose < 2 ^ 32 → Tab.get {} c.frames c.nextClose = b → b.prims = [] →
      d.pend = none → d.queue = [] →
        exec (.columnDrainMove p n) s = .next (s.setChip p
          { ((c.setPixel i { x with reg := x.done, done := none }).setDcol n { d with served := i % 1024, queue := [.hit h] }) with
            frames := Tab.set {} c.frames c.nextClose { b with prims := Tab.set (0, 0) [] (regionOf i) (1, h.tick % 4096) } })) ∧
    (exec (.eocQueuePtrReset p n) s = .next (s.setChip p
      ({ (c.setDcol n { d with queue := [.mark c.now 0xFFFF c.era], pend := none }) with
        frames := Tab.upd {} c.frames c.frame (fun b => { b with qreset := true }) }.bump P.QRESET_COUNT.COUNT 1
          |>.put P.QRESET_COUNT.LAST_DC n)))

/-- Cluster builders (R76, R77, R78, R74, R85).  A hit from the next queue opens a cluster in a builder that holds none; a hit of the same
time beside a single anchor joins it; an ORPHAN leaves at once as its own record; a SHAVING marker goes to its frame; a pending
marker takes the slot that the pop frees.  A cluster whose HOLD has passed closes into its frame's records.  A stalled builder pops
nothing, and goes on when its outputs fit.
The model's choices that it rests on are named in log entries 1 and 5. -/
def Obligations.ClusterBuilders : Prop :=
  ∀ (s : State) (p : Port) (c : Pelnos) (g : Fin 16) (b : Builder), s.chip p = c → c.builder g = b →
    (∀ (j : Nat) (d : DCol) (h : Hit) (rest : List QItem), c.nextQueue g = some j → c.dcol (16 * g + j) = d →
      d.queue = .hit h :: rest → d.pend = none → b.stalled = [] →
      (h.orphan = false → c.samp.bypass = false → b.clusters = [] →
        exec (.builderPop p g) s = .next (s.setChip p ((c.setDcol (16 * g + j) { d with queue := rest }).setBuilder g { b with
          served := j, clusters := [⟨h, [], c.now, c.samp.hold⟩] }))) ∧
      (∀ k : Cluster, h.orphan = false → c.samp.bypass = false → b.clusters = [k] → k.others = [] → h.tick = k.anchor.tick →
        h.fine = k.anchor.fine → h.col = k.anchor.col → h.row = k.anchor.row + 1 →
        exec (.builderPop p g) s = .next (s.setChip p ((c.setDcol (16 * g + j) { d with queue := rest }).setBuilder g { b with
          served := j, clusters := [{ k with others := [h] }] }))) ∧
      (h.orphan = true ∨ c.samp.bypass = true → c.isClosed (h.tick / 4096) h.era = false →
        c.storeBytes + 8 ≤ 262144 - 4096 →
        exec (.builderPop p g) s = .next (s.setChip p
          (((c.setDcol (16 * g + j) { d with queue := rest }).setBuilder g { b with served := j }).addRec (h.tick / 4096)
            { hws := halves (headRec h 0) 4, frame := h.tick / 4096, hits := 1, src := h.col / 2, coarse := h.tick % 4096,
              shaving := false, era := h.era })))) ∧
    (∀ (j : Nat) (d : DCol) (t n e : Nat) (rest : List QItem), c.nextQueue g = some j → c.dcol (16 * g + j) = d →
      d.queue = .mark t n e :: rest → b.stalled = [] → c.isClosed (t / 4096) e = false → c.storeBytes + 8 ≤ 262144 - 4096 →
      exec (.builderPop p g) s = .next (s.setChip p
        (((c.setDcol (16 * g + j) (match d.pend with
            | some (t', n', e') => { d with queue := rest ++ [.mark t' n' e'], pend := none }
            | none => { d with queue := rest })).setBuilder g { b with served := j }).addRec (t / 4096)
          { hws := halves (shavingRec (16 * g + j) (t % 4096) n false 0) 4, frame := t / 4096, hits := n, src := 16 * g + j,
            coarse := t % 4096, shaving := true, era := e }))) ∧
    (b.stalled ≠ [] → exec (.builderPop p g) s = .next (s.setChip p c)) ∧
    (∀ k : Cluster, b.clusters = [k] → k.others = [] → k.hold ≤ ticksSince c.now k.opened → b.stalled = [] →
      c.isClosed (k.anchor.tick / 4096) k.anchor.era = false → c.storeBytes + 8 ≤ 262144 - 4096 →
      exec (.clusterClose p g) s = .next (s.setChip p ((c.setBuilder g { b with clusters := [] }).addRec (k.anchor.tick / 4096)
        { hws := halves (headRec k.anchor 0) 4, frame := k.anchor.tick / 4096, hits := 1, src := k.anchor.col / 2,
          coarse := k.anchor.tick % 4096, shaving := false, era := k.anchor.era }))) ∧
    (∀ r : PRec, b.stalled = [r] → c.isClosed r.frame r.era = false → c.storeBytes + 2 * r.hws.length ≤ 262144 - 4096 →
      exec (.builderStallEnd p g) s = .next (s.setChip p
        ((c.addRec r.frame r).setBuilder g { b with stalled := [] })))

/-- Frames and the uplink distributor (R83 to R90, R105, R106, R113).  The oldest open frame closes when 1 + CLOSE frames have begun after
it: it is listed for sending with its records and trailer, counted in SLEEP_FRAMES while the uplink sleeps, or dropped before
activation; a frame too young stands.  A closed frame begins transmission when nothing is being sent and the port is active, under the
lane mask in force; blocks leave lane after lane, a FRAME block on the lowest; a mark counts; a mask of 0 is ignored.
The model's choices that it rests on are named in log entries 1 and 5. -/
def Obligations.FramesAndDistributor : Prop :=
  ∀ (s : State) (p : Port) (c : Pelnos), s.chip p = c →
    (c.get P.SYNC_STAT.LOADED = 1 → c.nextClose < 2 ^ 32 → c.frame = c.nextClose + 1 + c.samp.close → c.samp.close < 16 →
      c.frame < 2 ^ 32 →
      (c.unsent c.nextClose = false → c.active = true →
        exec (.frameClose p) s = .next (s.setChip p { c with
          frames := Tab.set {} c.frames c.nextClose {}, late := none, nextClose := (c.nextClose + 1) % 2 ^ 32,
          settle := c.settle.filter fun w => decide ((c.nextClose + 1) * 4096 ≤ w.2),
          closed := c.closed ++ [(c.nextClose, c.closeHalves c.nextClose)] }.notePeak)) ∧
      (c.get P.LINK_STAT.UL_ASLEEP = 1 →
        exec (.frameClose p) s = .next (s.setChip p ({ c with
          frames := Tab.set {} c.frames c.nextClose {}, late := none, nextClose := (c.nextClose + 1) % 2 ^ 32,
          settle := c.settle.filter fun w => decide ((c.nextClose + 1) * 4096 ≤ w.2) }.bump P.SLEEP_FRAMES.COUNT 1)))) ∧
    (c.frame = c.nextClose + c.samp.close → c.frame < 2 ^ 32 → exec (.frameClose p) s = .next (s.setChip p c)) ∧
    (∀ (f : Nat) (hs : List Nat) (rest : List (Nat × List Nat)), c.closed = (f, hs) :: rest → c.sending = [] → c.active = true →
      c.statusDue f = false →
      exec (.frameSendStart p) s = .next (s.setChip p { c with
        closed := rest, sending := c.frameBlocks f hs, seq := (c.seq + (c.frameBlocks f hs).length) % 256, storeFull := false,
        laneMask := c.get P.ACTIVE_LANES.MASK })) ∧
    (∀ (b : Block) (rest : List Block), c.sending = b :: rest → b.kind ≠ .frame → c.echo = [] → c.laneMask = 0xFF → c.lane < 8 →
      exec (.uplinkBlockTransmit p) s = .next ((s.emit (.uplink p ((c.lane + 1) % 8) b (blockCrc b))).setChip p { c with
        sending := rest, lane := (c.lane + 1) % 8 })) ∧
    (∀ (b : Block) (rest : List Block), c.sending = b :: rest → b.kind = .frame → c.echo = [] → c.laneMask = 0xF0 →
      exec (.uplinkBlockTransmit p) s = .next ((s.emit (.uplink p 4 b (blockCrc b))).setChip p { c with
        sending := rest, lane := 4 })) ∧
    (∀ e es, c.echo = e :: es → c.sending = [] →
      exec (.uplinkBlockTransmit p) s = .next ((s.emit (.uplink p c.lowLane ⟨.echo, (c.seq + 255) % 256, pad16 e⟩
        (blockCrc ⟨.echo, (c.seq + 255) % 256, pad16 e⟩))).setChip p { c with echo := es, lane := c.lowLane })) ∧
    (c.get P.LINK_STAT.UL_ASLEEP = 0 →
      (∀ l : Fin 8, s.zget ((ZP.LSTATm.STATE.at (4 * l)).port p) = 5 ∧ (Tab.get {} s.lanes (8 * p + l)).gen = false) →
      exec (.laneMarkSend p) s = .next ((s.updOut (· ++ (List.range 8).map fun l =>
        .uplink p l ⟨.laneMark, (c.seq + 255) % 256, markPayload l c.markCnt c.laneMask⟩
          (blockCrc ⟨.laneMark, (c.seq + 255) % 256, markPayload l c.markCnt c.laneMask⟩))).setChip p
            { c with markCnt := (c.markCnt + 1) % 2 ^ 32 })) ∧
    (∀ mask : Half, exec (.activeLanesWrite p mask) s = .next (s.setChip p
      (if mask.toNat % 256 = 0 then c else c.put P.ACTIVE_LANES.MASK mask.toNat)))

/-! ### Serial lanes -/

/-- Bring-up of a lane (R101, R103, R122): DETECT leaves for TRAIN on an enabled lane that sees a termination, 16 good TRAIN blocks lead
to LOCK, 8 with RX_READY lead to CAP or, in a retrain, to ACTIVE, the fourth intact capability is judged; 100 ms without a
receiver raise NO_RX once; a timeout in CAP leads back to DETECT, a third one in TRAIN or LOCK retires an uplink lane or ring link; code
errors in four kind symbols in a row retrain an uplink lane or ring link and take the downlink to LOCK at Pelnos.
The model's choices that it rests on are named in log entries 1 and 7. -/
def Obligations.LaneBringUp : Prop :=
  (∀ (s : State) (k : Link), (s.lst k = 0 ∨ s.lst k = 1) → s.laneEnabled k = true →
    exec (.receiverDetect k) s = .next ((s.updLane k fun x => { x with
      good := 0, ready := 0, cap := 0, leaving := false, rejoin := false, badKind := 0, errs := [], lost := 0,
      mark := none }).setLst k 2)) ∧
  (∀ (s : State) (k : Link) (v : Fin 8), (s.setLst k v).lst k = v) ∧
  (∀ (s : State) (k : Link), s.lst k = 1 → (s.lane k).noRx = false →
    exec (.noRxTimeout k) s = .next (match k with
      | .up p l => (s.updLane k fun x => { x with noRx := true }).raisePort p 3 [b8 l]
      | .down p => (s.updLane k fun x => { x with noRx := true }).raisePort p 3 [8]
      | .ring _ => s.updLane k fun x => { x with noRx := true })) ∧
  (∀ (s u : State) (k : Link) (b : RxBlock), intact k b = true → b.blk.kind = .train → (s.lane k).badKind = 0 →
    (∀ p, k = .down p → (s.chip p).inReset = false) → u = s.trainPresets k b.blk →
    (u.lst k = 2 → (u.lane k).good < 15 →
      exec (.trainBlockReceive k b) s = .next (u.updLane k fun x => { x with good := (u.lane k).good + 1 })) ∧
    (u.lst k = 2 → (u.lane k).good = 15 → (∀ p, k ≠ .down p) →
      exec (.trainBlockReceive k b) s = .next ((u.updLane k fun x => { x with
        good := 16, ready := 0, badKind := 0, leaving := false, lost := 0, mark := none }).setLst k 3)) ∧
    (u.lst k = 3 → (u.lane k).ready = 7 → pbyte b.blk 4 % 2 = 1 → (u.lane k).capDone = false →
      exec (.trainBlockReceive k b) s = .next ((u.updLane k fun x => { x with ready := 8, cap := 0 }).setLst k 4)) ∧
    (u.lst k = 3 → pbyte b.blk 4 % 2 = 0 →
      exec (.trainBlockReceive k b) s = .next (u.updLane k fun x => { x with ready := 0 })) ∧
    (u.lst k = 4 → pbyte b.blk 1 = 4 → (u.lane k).cap < 3 →
      exec (.trainBlockReceive k b) s = .next (u.updLane k fun x => { x with cap := (u.lane k).cap + 1 }))) ∧
  (∀ (s : State) (k : Link), s.lst k = 4 → (s.lane k).cap < 4 → s.laneEnabled k = true →
    exec (.trainTimeout k) s = .next (s.enterDetect k)) ∧
  (∀ (s : State) (p : Port) (l : Fin 8), s.lst (.up p l) = 2 ∨ s.lst (.up p l) = 3 → (s.lane (.up p l)).fails = 2 →
    exec (.trainTimeout (.up p l)) s = .next (((s.updLane (.up p l) fun x => { x with fails := 0 }).zput
      (laneF ZP.LSTATm.STATE p l) 7).raisePort p 4 [b8 l, 1, b8 (s.port p).mask])) ∧
  (∀ (s : State) (d : Side), s.lst (.ring d) = 2 ∨ s.lst (.ring d) = 3 → (s.lane (.ring d)).fails = 2 →
    exec (.trainTimeout (.ring d)) s = .next ((s.updLane (.ring d) fun x => { x with fails := 0 }).setLst (.ring d) 7)) ∧
  (∀ (s : State) (k : Link), s.lst k = 3 → (s.lane k).fails < 2 →
    exec (.trainTimeout k) s = .next ((s.updLane k fun x => { x with fails := x.fails + 1 }).enterTrain k)) ∧
  (∀ (s : State) (k : Link), 4 ≤ (s.lane k).badKind → s.lst k = 5 →
    exec (.symbolLockLoss k) s = .next (match k with
      | .up p l => (s.updLane k fun x => { x with badKind := 0 }).retrainLane p l .other 0
      | .down p => (s.updLane k fun x => { x with badKind := 0 }).setChip p ((s.chip p).put P.LINK_STAT.DL_STATE 3)
      | .ring _ => ((s.updLane k fun x => { x with badKind := 0 }).updLane k fun x =>
          { x with cause := some .other }).enterTrain k))

/-- A port becomes active (R104, R105, R107): with the downlink and a lane in ACTIVE the link is up, Pelnos and the receive path start
from SEQ 0 without a mask, and PORT_UP names the lanes; 1 ms later P_ACTIVE_LANES gets the lanes that completed CAP and each raises
LANE_IN.  A mark is kept until every active lane has delivered its own; the one active lane's mark gives skew 0; a lane without
its mark counts it as lost; without marks to pair nothing happens.
The model's choices that it rests on are named in log entries 1 and 7. -/
def Obligations.PortActivationAndMarks : Prop :=
  ∀ (s : State) (p : Port) (ls : List (Fin 8)), s.activeLanes p = ls →
    (s.linkUp p = false → s.lst (.down p) = 5 → ls ≠ [] →
      exec (.portActivate p) s = .next (((((s.zput (ZP.STAT.LINK.port p) 1).setChip p { s.chip p with
        active := true, seq := 0, markCnt := 0 }).setPort p { s.port p with
          arrived := [], expect := 0, held := [], discard := false, resync := false, holdGap := false, lastNum := none, cur := none,
          mask := 0, waitMask := true, asleep := false, dlSeq := 0, markCnt := none, echo := { acq := true, epoch := s.portEpoch },
          scrubPos := 0, scrubStart := s.time }).mergeUp p).raisePort p 0 [b8 (maskOf ls)])) ∧
    ((s.port p).waitMask = true →
      exec (.activationWaitExpiry p) s = .next (ls.foldl (fun s l => s.raisePort p 5 [b8 l, b8 (maskOf ls)])
        ((s.setPort p { s.port p with waitMask := false, mask := maskOf ls }).dlSend p [regWr .own [(0x033, maskOf ls)]]))) ∧
    (∀ (l : Fin 8) (at_ : Nat) (b : RxBlock), s.lst (.up p l) = 5 → intact (.up p l) b = true → b.blk.kind = .laneMark →
      (s.lane (.up p l)).badKind = 0 → (s.port p).markCnt = none →
      ((∃ j ∈ ls, j ≠ l ∧ (s.lane (.up p j)).mark = none) →
        exec (.laneMarkReceive p l at_ b) s = .next ((s.setPort p { s.port p with
          markCnt := some (beNat (slice b.blk.payload 2 4)) }).updLane (.up p l) fun x => { x with mark := some at_ })) ∧
      (ls = [l] → (s.port p).mask = 2 ^ l.val → (s.lane (.up p l)).rejoin = false →
        ∃ t, exec (.laneMarkReceive p l at_ b) s = .next t ∧ t = (s.updLanes fun _ => t.lanes).updZreg (fun _ => t.zreg) ∧
          regsBut [laneF ZP.LSTATm.SKEW p l] s t ∧ t.zget (laneF ZP.LSTATm.SKEW p l) = 0 ∧
          t.lane (.up p l) = { s.lane (.up p l) with mark := none, lost := 0 })) ∧
    ((s.port p).markCnt = none → exec (.markWaitExpiry p) s = .next s) ∧
    (∀ (l : Fin 8) (n : Nat), (s.port p).markCnt = some n → ls = [l] → (s.lane (.up p l)).mark = none →
      (s.lane (.up p l)).lost < 2 →
      ∃ t, exec (.markWaitExpiry p) s = .next t ∧
        t = (s.updLanes fun _ => t.lanes).setPort p { s.port p with markCnt := none } ∧
        t.lane (.up p l) = { s.lane (.up p l) with lost := (s.lane (.up p l)).lost + 1 })

/-- Retraining (R98, R108, R109, R110, R122).  An intact block of a frame on an active lane waits for reassembly, a damaged one is
counted in CRC_ERR.  A lane of a mask with others leaves the mask first, with LANE_OUT; the only lane takes the port down
and through bring-up; a lane outside the mask trains at once.  A failed eye retrain returns to service MARGINAL, the
third other failed attempt retires the lane.  Orders retrain a lane or link, a sleeping lane wakes first; clearing a LANE_EN bit of a
lane outside the mask disables it.
The model's choices that it rests on are named in log entries 1 and 7. -/
def Obligations.Retraining : Prop :=
  (∀ (s : State) (p : Port) (l : Fin 8) (b : RxBlock), s.lst (.up p l) = 5 → (s.lane (.up p l)).badKind = 0 →
    (intact (.up p l) b = true → b.blk.kind = .frame ∨ b.blk.kind = .status → s.zget (laneF ZP.LSTATm.LOOPED p l) = 0 →
      exec (.uplinkBlockReceive p l b) s = .next (s.setPort p { s.port p with arrived := (s.port p).arrived ++ [b.blk] })) ∧
    (intact (.up p l) b = false → s.zget (ZP.LCTL.ERR_LIMIT.port p) = 0 →
      ∃ t, exec (.uplinkBlockReceive p l b) s = .next t ∧ t = (s.updLanes fun _ => t.lanes).updZreg (fun _ => t.zreg) ∧
        regsBut [laneF ZP.LSTATm.CRC_ERR p l] s t ∧
        t.zget (laneF ZP.LSTATm.CRC_ERR p l) = min (s.zget (laneF ZP.LSTATm.CRC_ERR p l) + 1) 65535)) ∧
  (∀ (s : State) (p : Port) (l : Fin 8) (c : RetrainCause) (out : Nat),
    (bitAt (s.port p).mask l = true → (s.port p).mask ≠ 2 ^ l.val →
      s.retrainLane p l c out = ((s.writeMask p ((s.port p).mask - 2 ^ l.val)).raisePort p 4
        [b8 l, b8 out, b8 ((s.port p).mask - 2 ^ l.val)]).updLane (.up p l) fun x => { x with cause := some c, leaving := true }) ∧
    ((s.port p).mask = 2 ^ l.val → s.retrainLane p l c out = (s.portLeave p 1).restartPort p) ∧
    (bitAt (s.port p).mask l = false → (s.lane (.up p l)).leaving = false →
      s.retrainLane p l c out = (s.updLane (.up p l) fun x => { x with cause := some c }).enterTrain (.up p l))) ∧
  (∀ (s : State) (p : Port) (l : Fin 8), s.lst (.up p l) = 2 ∨ s.lst (.up p l) = 3 →
    ((s.lane (.up p l)).cause = some .eye →
      exec (.retrainFail (.up p l)) s = .next ((((((s.updLane (.up p l) fun y => { y with cause := none, attempts := 0 }).zput
        (laneF ZP.LSTATm.STATE p l) 5).zput (laneF ZP.LSTATm.MARGINAL p l) 1).raisePort p 6
          [b8 l, b8 (s.lane (.up p l)).eyeW, b8 (s.lane (.up p l)).eyeH])).laneIn p l)) ∧
    ((s.lane (.up p l)).cause = some .other → (s.lane (.up p l)).attempts = 2 →
      ∃ t, exec (.retrainFail (.up p l)) s = .next t ∧ t.lst (.up p l) = 7)) ∧
  (∀ (s : State) (p : Port) (l : Fin 8), s.bar0Open →
    (s.lst (.up p l) = 5 → exec (.laneRetrainOrder (.up p l)) s = .next (s.retrainLane p l .other 0)) ∧
    (s.lst (.up p l) = 6 → exec (.laneRetrainOrder (.up p l)) s = .next
      ((s.updLane (.up p l) fun x => { x with cause := some .other }).emit (.orderedSet p false true 0x5A))) ∧
    (s.lst (.up p l) = 7 → exec (.laneRetrainOrder (.up p l)) s = .next
      ((s.updLane (.up p l) fun x => { x with fails := 0, attempts := 0, cause := some .other }).enterTrain (.up p l))) ∧
    exec (.laneRetrainOrder (.down p)) s = .next s ∧
    exec (.portRetrainOrder p) s = .next ((s.portLeave p 1).restartPort p) ∧
    (∀ m : Byte, m.toNat = s.zget (ZP.LCTL.LANE_EN.port p) → exec (.laneEnWrite p m) s = .next s) ∧
    (∀ m : Byte, m = BitVec.ofNat 8 (s.zget (ZP.LCTL.LANE_EN.port p)) ^^^ BitVec.ofNat 8 (2 ^ l.val) →
      bitAt (s.zget (ZP.LCTL.LANE_EN.port p)) l = true → (s.port p).mask = 0 →
      ∃ t, exec (.laneEnWrite p m) s = .next t ∧ t = s.updZreg (fun _ => t.zreg) ∧
        regsBut [ZP.LCTL.LANE_EN.port p, laneF ZP.LSTATm.STATE p l] s t ∧ t.lst (.up p l) = 0 ∧
        t.zget (ZP.LCTL.LANE_EN.port p) = m.toNat)) ∧
  (∀ (s : State) (d : Side), s.bar0Open → s.lst (.ring d) ≠ 0 →
    exec (.laneRetrainOrder (.ring d)) s = .next
      ((s.updLane (.ring d) fun x => { x with fails := 0, attempts := 0, cause := some .other }).enterTrain (.ring d)))

/-- Uplink sleep and downlink quiet (R111 to R116).  A request goes out and is waited for; Pelnos falls asleep only with SLEEP_EN, FE_EN 0
and nothing running, and refuses otherwise; the lanes go to SLEEP and the port is not waited for; a request unanswered sets
SLEEP_REFUSED; a wake request, or with AUTO_WAKE a cause of its own, wakes the uplink, whose lanes return to ACTIVE; a lane that misses
the wake retrains.  The downlink goes quiet when ordered and idle, and leaves quiet with WAKE.
The model's choices that it rests on are named in log entries 1 and 7. -/
def Obligations.SleepAndQuiet : Prop :=
  ∀ (s : State) (p : Port) (c : Pelnos) (q : PortIn), s.chip p = c → s.port p = q →
    (s.bar0Open → exec (.ulSleepRequest p) s = .next (((s.zput (ZP.LCTL.UL_SLEEP.port p) 1).setPort p { q with
      sleepWait := !q.asleep }).emit (.orderedSet p false false 0x5A))) ∧
    (s.bar0Open → exec (.ulWakeRequest p) s = .next ((s.zput (ZP.LCTL.UL_SLEEP.port p) 0).emit (.orderedSet p false true 0x5A))) ∧
    (c.inReset = false → c.get P.LINK_STAT.UL_ASLEEP = 0 →
      (c.get P.LINK_CTL.SLEEP_EN = 1 → c.get P.FE_CFG.FE_EN = 0 → c.inj = none → c.csu = none →
        (∀ l : Fin 8, s.lst (.up p l) = 5) → c.closed = [] → c.sending = [] →
        exec (.sleepReqReceive p) s = .next ((s.setChip p ((c.bump P.SLEEP_FRAMES.COUNT 0).put P.LINK_STAT.UL_ASLEEP 1)).emit
          (.orderedSet p true false 0xA5))) ∧
      (c.get P.LINK_CTL.SLEEP_EN = 0 ∨ c.get P.FE_CFG.FE_EN = 1 ∨ c.inj ≠ none ∨ c.csu ≠ none →
        exec (.sleepReqReceive p) s = .next (s.setChip p (c.put P.LINK_STAT.SLEEP_REFUSED 1)))) ∧
    (∀ l : Fin 8, s.lst (.up p l) = 5 →
      exec (.sleepAnnounceReceive p l) s = .next (((s.zput (laneF ZP.LSTATm.STATE p l) 6).setPort p { q with
        asleep := true, sleepWait := false }).mergeDown p)) ∧
    (q.sleepWait = true →
      exec (.sleepRefusedTimeout p) s = .next (((s.setPort p { q with sleepWait := false }).zput
        (ZP.DLSTAT.SLEEP_REFUSED.port p) 1).raisePort p 7 [])) ∧
    (c.get P.LINK_STAT.UL_ASLEEP = 1 → c.inReset = false →
      exec (.wakeReqReceive p) s = .next (s.setChip p { c with waking := true })) ∧
    (c.get P.LINK_CTL.AUTO_WAKE = 1 → c.get P.LINK_STAT.UL_ASLEEP = 1 → c.get P.FE_CFG.FE_EN = 1 ∨ c.amOvf = true →
      exec (.selfWake p) s = .next (s.setChip p { c with waking := true })) ∧
    (c.get P.LINK_CTL.AUTO_WAKE = 0 → exec (.selfWake p) s = .next s) ∧
    (c.waking = true →
      exec (.wakeAnnounce p) s = .next ((s.setChip p { c.put P.LINK_STAT.UL_ASLEEP 0 with waking := false }).emit
        (.orderedSet p true true 0xA5))) ∧
    (∀ l : Fin 8, s.lst (.up p l) = 6 → (s.lane (.up p l)).cause = none →
      exec (.wakeReceive p l) s = .next (((s.zput (laneF ZP.LSTATm.STATE p l) 5).setPort p { q with asleep := false }).mergeUp p)) ∧
    (∀ l : Fin 8, s.lst (.up p l) = 6 → exec (.wakeTimeout p l) s = .next (s.retrainLane p l .other 0)) ∧
    (s.zget (ZP.LCTL.DL_QUIET.port p) = 1 → s.zget (ZP.DLSTAT.QUIET.port p) = 0 → q.dlWait = [] →
      exec (.dlQuietEnter p) s = .next ((s.zput (ZP.DLSTAT.QUIET.port p) 1).emit (.orderedSet p false false 0xA5))) ∧
    (s.zget (ZP.DLSTAT.QUIET.port p) = 1 →
      exec (.dlQuietExit p) s = .next ((s.zput (ZP.DLSTAT.QUIET.port p) 0).emit (.orderedSet p false true 0xA5)))

/-- Loops, pattern generators and the eye monitor (R117 to R122).  A near-end loop shows LOOPED on a lane outside the mask; a far-end loop
is ordered by a LOOP block, refused during a run, obeyed and answered by Pelnos, and shown on the lane whose answer returns.
A generator starts on a lane outside the mask; a checker locks after 64 good bits; the CLEAR bits zero the counts; an eye result is
shown, and a small one raises EYE.
The model's choices that it rests on are named in log entries 1 and 7. -/
def Obligations.LoopsAndPatterns : Prop :=
  ∀ (s : State) (p : Port) (c : Pelnos) (l : Fin 8), s.chip p = c →
    (∀ loop : Fin 4, loop = 1 ∨ loop = 2 → c.get P.LINK_CTL.LOOP = 0 → c.get P.LINK_CTL.SLEEP_EN ≤ 1 →
      c.get P.LINK_CTL.AUTO_WAKE ≤ 1 → bitAt (s.port p).mask l = false →
      ∃ (c' : Pelnos) (fp : BitVec 16), exec (.nearEndLoop p loop l) s = .next ((s.setChip p (c'.withPulse fp)).zput (laneF ZP.LSTATm.LOOPED p l) 1) ∧
        c' = { c with regs := c'.regs } ∧ c'.get P.LINK_CTL.LOOP = loop ∧ c'.get P.LINK_CTL.LOOP_LANE = l ∧
        c'.get P.LINK_CTL.SLEEP_EN = c.get P.LINK_CTL.SLEEP_EN ∧ c'.get P.LINK_CTL.AUTO_WAKE = c.get P.LINK_CTL.AUTO_WAKE) ∧
    (s.bar0Open → s.run.active = true → s.zget (ZP.LCTL.LOOP.port p) ≠ 3 →
      exec (.portLoopWrite p 3 l) s = .next (s.raisePort p 8 [3, b8 l])) ∧
    (s.bar0Open → s.run.active = false → s.zget (ZP.LCTL.LOOP.port p) = 0 → (s.port p).asleep = false →
      exec (.portLoopWrite p 3 l) s = .next (((s.zput (ZP.LCTL.LOOP.port p) 3).zput (ZP.LCTL.LOOP_LANE.port p) l).dlBlock p .loop
        [b8 l, 1])) ∧
    (∀ b : RxBlock, b.blk.kind = .loop → b.blk.payload.length = 16 → pbyte b.blk 0 = l → pbyte b.blk 1 = 1 →
      (intact (.down p) b = true → c.inReset = false → (s.lane (.down p)).badKind = 0 → s.lst (.down p) = 5 →
        c.get P.LINK_STAT.DL_STATE = 5 →
        exec (.loopBlockReceive (.down p) b) s = .next ((s.setChip p { c.put P.LINK_STAT.FAR_LOOP 1 with loopLane := l }).emit
          (.uplink p l b.blk b.crc))) ∧
      (intact (.up p l) b = true → (s.lane (.up p l)).badKind = 0 →
        exec (.loopBlockReceive (.up p l) b) s = .next (s.zput (laneF ZP.LSTATm.LOOPED p l) 1)) ∧
      (∀ d : Side, intact (.ring d) b = true → (s.lane (.ring d)).badKind = 0 → s.zget (ZP.LSTATm.LOOPED.ringLane d) = 0 →
        s.zget (ZP.LCTL.LOOP.ringLane d) ≠ 3 →
        exec (.loopBlockReceive (.ring d) b) s = .next (((s.zput (ZP.LSTATm.LOOPED.ringLane d) 1).ringLink d 2 0).emit
          (.ring d b.blk b.crc)))) ∧
    (bitAt c.laneMask l = false → c.get P.LINK_STAT.UL_ASLEEP = 0 →
      exec (.prbsGenEnable (.up p l)) s = .next ((s.setChip p (c.put P.PRBS_CFG.GEN_EN (c.get P.PRBS_CFG.GEN_EN ||| 2 ^ l.val))).updLane
        (.up p l) fun x => { x with gen := true })) ∧
    (s.bar0Open → exec (.prbsGenEnable (.down p)) s = .next ((s.zput (ZP.PRBS.GEN_EN.port p) 1).updLane (.down p) fun x =>
      { x with gen := true })) ∧
    (∀ d : Side, s.bar0Open → exec (.prbsGenEnable (.ring d)) s = .next ((s.zput (ZP.PRBS.GEN_EN.ringLane d) 1).updLane (.ring d) fun x =>
      { x with gen := true })) ∧
    (∀ k : Link, (s.prbsCfg k).1 = true → (s.prbsCfg k).2.2 = false → 64 ≤ (s.lane k).prbsRun →
      exec (.prbsCheckerLock k) s = .next ((s.updLane k fun y => { y with prbsWinErr := 0, prbsWinBits := 0 }).setPrbsLock k true)) ∧
    (∀ k : Link, (s.prbsCfg k).2.2 = true → 256 < (s.lane k).prbsWinErr →
      exec (.prbsCheckerLock k) s = .next ((s.updLane k fun y => { y with
        prbsRun := 0, prbsWinErr := 0, prbsWinBits := 0 }).setPrbsLock k false)) ∧
    (exec (.pPrbsClear p) s = .next ((s.setChip p (c.put P.PRBS_ERR.COUNT 0)).updLane (.down p) fun x => { x with prbsErr := 0 })) ∧
    (s.bar0Open → ∃ t, exec (.portPrbsClear p) s = .next t ∧ t = s.updLanes (fun _ => t.lanes) ∧
      t.lane (.up p l) = { s.lane (.up p l) with prbsErr := 0, prbsBits := 0 }) ∧
    (∀ (w : Fin 64) (h : Byte), 20 ≤ w.val → 10 ≤ h.toNat →
      (exec (.eyeScanComplete (.up p l) w h none) s = .next (((((((s.zput (ZP.EYE.WIDTH.port p) w).zput (ZP.EYE.HEIGHT.port p) h.toNat).zput
        (ZP.EYE.LANE.port p) l).zput (ZP.EYE.VALID.port p) 1).zput (ZP.EYE.BELOW_MIN.port p) 0)).updLane (.up p l) fun x =>
          { x with eyeW := w, eyeH := h.toNat })) ∧
      (exec (.eyeScanComplete (.down p) w h none) s = .next (s.setChip p ((((c.put P.EYE.WIDTH w).put P.EYE.HEIGHT h.toNat).put
        P.EYE.VALID 1).put P.EYE.BELOW_MIN 0)))) ∧
    (∀ (w : Fin 64) (h : Byte), w.val < 20 → s.lst (.up p l) ≠ 5 →
      exec (.eyeScanComplete (.up p l) w h none) s = .next (((((((s.zput (ZP.EYE.WIDTH.port p) w).zput (ZP.EYE.HEIGHT.port p) h.toNat).zput
        (ZP.EYE.LANE.port p) l).zput (ZP.EYE.VALID.port p) 1).zput (ZP.EYE.BELOW_MIN.port p) 1).updLane (.up p l) fun x =>
          { x with eyeW := w, eyeH := h.toNat }).raisePort p 9 [b8 l, b8 w, h, 1, 0, 0]))

/-! ### Ingress and merge -/

/-- Reassembly and parsing (R124, R125, R129, R130, R132).  The block with the expected SEQ is passed on; a SHAVING record of an open frame
enters the record queue and its hits count in FESHAVE; a block 1 to 63 ahead is held, one 64 to 127 ahead resynchronises
and counts, a stale one counts and goes, and after a link event all but a FRAME block is dropped.  The end of the window declares the
missing block: MISSING counts, the stream is discarded to the next FRAME block, and the block behind it is taken.
The model's choices that it rests on are named in log entries 1, 9 and 15. -/
def Obligations.Reassembly : Prop :=
  ∀ (s : State) (p : Port) (q : PortIn) (b : Block) (rest : List Block), s.port p = q →
    (q.arrived = b :: rest → q.resync = true → b.kind ≠ .frame →
      exec (.reassemblyBlock p) s = .next (s.setPort p { q with arrived := rest })) ∧
    (q.arrived = b :: rest → q.resync = false → q.expect < 256 →
      (∀ (o : OpenFrame) (hws : List Nat) (v : Nat), b.seq = q.expect → b.kind = .data → q.discard = false → q.held = [] →
        q.cur = some o → o.carry = [] → o.drop = false → o.late = false → o.excess = none → o.bytes = 0 → s.mNext ≤ o.frame →
        q.pend = none → q.queue = [] → bytesHalves b.payload = hws ++ [0, 0, 0, 0] → hws.length = 4 → hws.headD 0 / 4096 = 2 →
        v = recVal hws → seal64 v = v → bits v 24 16 ≠ 0xFFFF →
        ∃ t, exec (.reassemblyBlock p) s = .next t ∧ t = (s.setPort p (t.port p)).updZreg (fun _ => t.zreg) ∧
          regsBut [ZP.FESHAVE.HITS.port p] s t ∧
          t.zget (ZP.FESHAVE.HITS.port p) = sat (ZP.FESHAVE.HITS.port p).wid (s.zget (ZP.FESHAVE.HITS.port p) + bits v 24 16) ∧
          t.port p = { q with
            arrived := rest, expect := (q.expect + 1) % 256,
            queue := [⟨o.frame, hws, bits v 24 16, bits v 40 12, true⟩],
            cur := some { o with rcount := o.rcount + 1, bytes := 8 } }) ∧
      ((b.seq + 256 - q.expect) % 256 ∈ Finset.Icc 1 63 → q.held = [] →
        exec (.reassemblyBlock p) s = .next (s.setPort p { q with arrived := rest, held := [b] })) ∧
      ((b.seq + 256 - q.expect) % 256 ∈ Finset.Icc 64 127 → q.cur = none → q.gapEvent = true →
        exec (.reassemblyBlock p) s = .next ((s.zbump (ZP.REASM.RESYNC.port p) 1).setPort p { q with
          arrived := rest, held := [], resync := true, holdGap := true, discard := true })) ∧
      ((b.seq + 256 - q.expect) % 256 ∈ Finset.Icc 128 255 →
        exec (.reassemblyBlock p) s = .next ((s.zbump (ZP.REASM.STALE.port p) 1).setPort p { q with arrived := rest }))) ∧
    (q.held = [b] → b.seq = (q.expect + 1) % 256 → b.kind = .data → q.cur = none → q.gapEvent = true →
      exec (.reassemblyMissing p) s = .next ((s.zbump (ZP.REASM.MISSING.port p) 1).setPort p { q with
        held := [], expect := (q.expect + 2) % 256, holdGap := true, discard := true })) ∧
    (q.held = [] → exec (.reassemblyMissing p) s = .next s)

/-- Queue resets and membership (R134, R135, R143, R145, R148, R338).  A record queue whose pointers disagree keeps one QRESET marker for
each frame it held; a side queue empties both queues and discards the stream.  Setting MERGE_EN enters the port through SYNC, or through
DOWN without its link, and is refused with the port's gate off; clearing it takes the port out.  RESYNC acts as a gap.  A port that
leaves ACTIVE drops its link, its open frame, its waiting blocks and its downlink traffic, and Pelnos stops.
The model's choices that it rests on are named in log entries 1, 9 and 15. -/
def Obligations.QueuesAndMembership : Prop :=
  ∀ (s : State) (p : Port) (q : PortIn), s.port p = q →
    (q.cur = none → q.pend = none → q.side = [] →
      exec (.portQueuePtrReset p) s = .next (((s.setPort p { q with
        queue := ((q.queue.map (·.frame)).dedup).map fun f => ⟨f, halves (zMarker p 4 0 0xFFFF 0) 4, 0xFFFF, 0, true⟩ }).zbump
          (ZP.QDROP.QRESET.port p) 1).raisePort p 14 (leBytes ((q.queue.map (·.frame)).dedup.headD s.mNext) 5 ++ [1]))) ∧
    (∀ (e : SideEntry) (es : List SideEntry), q.side = e :: es →
      exec (.sideQueuePtrReset p) s = .next ((s.setPort p { q with
        queue := [], pend := none, side := [], cur := none, discard := true }).raisePort p 14 (leBytes e.frame 5 ++ [2]))) ∧
    (s.bar0Open → s.zget (ZP.CTL.MERGE_EN.port p) = 0 →
      (bitAt (s.zget Z.CLK_GATE.PORT) p = true →
        exec (.mergeEnWrite p true) s = .next ((s.zput (ZP.CTL.MERGE_EN.port p) 1).zput (ZP.STAT.STATE.port p)
          (if s.zget (ZP.STAT.LINK.port p) = 1 ∧ q.asleep = false then 2 else 1))) ∧
      (bitAt (s.zget Z.CLK_GATE.PORT) p = false →
        exec (.mergeEnWrite p true) s = .next (s.raise 539 (leBytes (0x10000 + 0x400 * p.val) 4 ++ [0]))) ∧
      exec (.mergeEnWrite p false) s = .next s) ∧
    (s.bar0Open → s.zget (ZP.CTL.MERGE_EN.port p) = 1 → q.queue = [] → q.side = [] → q.pend = none → q.cur = none →
      exec (.mergeEnWrite p false) s = .next (((s.zput (ZP.CTL.MERGE_EN.port p) 0).zput (ZP.STAT.STATE.port p) 0).setPort p { q with
        heldExpect := s.run.active })) ∧
    (s.bar0Open → q.cur = none → q.gapEvent = true →
      exec (.portResync p) s = .next ((s.zbump (ZP.REASM.RESYNC.port p) 1).setPort p { q with holdGap := true, discard := true })) ∧
    (∀ cause : Fin 3, s.zget (ZP.STAT.LINK.port p) = 1 →
      ∃ t, exec (.portLeaveActive p cause) s = .next t ∧ t.zget (ZP.STAT.LINK.port p) = 0 ∧ (t.port p).cur = none ∧
        (t.port p).arrived = [] ∧ (t.port p).held = [] ∧ (t.port p).mask = 0 ∧ (t.port p).outst = [] ∧ (t.port p).dlWait = [] ∧
        (t.chip p).active = false ∧ (t.chip p).frames = [] ∧ (t.chip p).sending = [] ∧ (t.chip p).forPulse = 0 ∧
        (∀ o, o ≠ p → t.port o = s.port o ∧ t.chip o = s.chip o))

/-- The merge (R11, R136, R137, R140, R142, R144, R148).  When every port waited for is complete, frame M commits: the complete port's part
leaves its queues, its counters move, the lines go to the writer's buffer, and M counts.  After the wait, or above high water (EARLY), it
commits without the ports still waited for, which are STALLED; with no complete port it commits empty when due, as a header of two
lines; frame 2^40 − 1 ends the run by itself.
The model's choices that it rests on are named in log entries 1, 9 and 15. -/
def Obligations.Merge : Prop :=
  ∀ (s : State) (m b l : Nat), s.mNext = m → s.mergeAlone →
    (∀ (p : Port) (x : Seg), s.mergeOpen b l → s.completePorts = [p] → s.waitedPorts = [] → x = (s.port p).segment p m →
      l + totalLines [x] ≤ 1024 →
      ∃ t, exec .mergeCommit s = .next t ∧ t.mNext = m + 1 ∧ t.buf.pos = some (b, l + totalLines [x]) ∧
        t.buf.wbuf.length = s.buf.wbuf.length + totalLines [x] ∧ t.run.mAt = s.time ∧
        (t.port p).queue = (s.port p).queue.filter (fun r => decide (m < r.frame)) ∧
        (t.port p).side = ((s.port p).side.drop 1).filter (fun e => decide (m < e.frame)) ∧
        t.zget (ZP.LASTF.FRAME.port p) = m ∧ t.buf.mem = s.buf.mem ∧ t.chips = s.chips ∧ t.lanes = s.lanes) ∧
    (∀ p p' : Port, s.mergeOpen b l → s.completePorts = [p] → s.waitedPorts = [p'] → l < 900 →
      (s.overMark = false → s.waitPassed = true →
        ∃ t, exec .mergeWaitExpiry s = .next t ∧ t.mNext = m + 1 ∧ t.zget (ZP.STAT.STATE.port p') = 4 ∧
          t.zget Z.MERGE_CNT.EARLY = s.zget Z.MERGE_CNT.EARLY ∧ t.buf.mem = s.buf.mem ∧ t.chips = s.chips ∧ t.lanes = s.lanes) ∧
      (s.overMark = true →
        ∃ t, exec .mergeHighWater s = .next t ∧ t.mNext = m + 1 ∧ t.zget (ZP.STAT.STATE.port p') = 4 ∧
          t.zget Z.MERGE_CNT.EARLY = sat Z.MERGE_CNT.EARLY.wid (s.zget Z.MERGE_CNT.EARLY + 1) ∧
          t.buf.mem = s.buf.mem ∧ t.chips = s.chips ∧ t.lanes = s.lanes)) ∧
    (s.mergeOpen b l → l ≤ 1022 → s.completePorts = [] → s.waitedPorts = [] →
      s.frameEnd m + usUnits s.run.dueUs + s.waitUnits ≤ s.time →
      ∃ t, exec .mergeEmptyDue s = .next t ∧ t.mNext = m + 1 ∧ t.buf.pos = some (b, l + 2) ∧
        t.buf.wbuf = s.buf.wbuf ++ [⟨b * 65536 + 64 * l, (s.frameHeader m [] false).take 64⟩,
          ⟨b * 65536 + 64 * (l + 1), ((s.frameHeader m [] false).drop 64).take 64⟩] ∧
        t.buf.mem = s.buf.mem ∧ t.chips = s.chips ∧ t.lanes = s.lanes) ∧
    (m = 2 ^ 40 - 1 → s.run.active = true → s.buf.wbuf.length < 65536 → s.buf.pos = some (b, l) → l ≤ 1022 →
      s.completePorts = [] → s.waitedPorts = [] → s.frameEnd m + usUnits s.run.dueUs + s.waitUnits ≤ s.time →
      ∃ t, exec .runSelfStop s = .next t ∧ t.run.active = false ∧ t.run.last = some (2 ^ 40 - 1) ∧
        t.zget Z.TIME_STAT.RUN_ACTIVE = 0 ∧ t.chips = s.chips ∧ t.lanes = s.lanes)

/-! ### Event buffer: writer, DRAM, integrity -/

/-- The buffer writer (R156, R158, R159, R162, R182).  The allocator hands out the next billet in rotation: its GEN counts and the
billet before it links to it; a billet with lines left is kept.  A line of the writer's buffer goes to DRAM: its 64 bytes stand at
its place and no other byte changes; a line whose channel takes no write waits.  A skipped stack whose channels are active again
accepts writes.
The model's choices that it rests on are named in log entries 1 and 10. -/
def Obligations.BufferWriter : Prop :=
  ∀ s : State,
    (∀ a b : Nat, s.buf.pos = none → s.buf.alloc = some a → b = (a + 1) % billetCount → s.inRotation b = true → s.buf.dir = [] →
      exec .billetAllocate s = .next (((s.updBillet a fun x => { x with next := b }).updBillet b fun x => { x with
        gen := (x.gen + 1) % 2 ^ 32 }).updBuf fun x => { x with alloc := some b, pos := some (b, 0) })) ∧
    (∀ b l : Nat, s.buf.pos = some (b, l) → l < 1024 → exec .billetAllocate s = .next s) ∧
    (∀ (w : WLine) (rest : List WLine) (ch l : Nat), s.buf.wbuf = w :: rest → s.place w.addr = (ch, l) → w.bytes.length = 64 →
      (s.takesWrite w.addr = true →
        ∃ t, exec (.mergedFrameWrite 1) s = .next t ∧ t.buf.wbuf = rest ∧
          (∀ j : Fin 64, t.memByte ch (l + j) = w.bytes.getD j 0) ∧
          (∀ ch' l', oldKey ch' l' < oldKey ch l ∨ oldKey ch l + 64 ≤ oldKey ch' l' → t.memByte ch' l' = s.memByte ch' l') ∧
          t = (s.updBuf fun _ => t.buf).updZreg (fun _ => t.zreg)) ∧
      (s.takesWrite w.addr = false → ∀ n, exec (.mergedFrameWrite n) s = .next s)) ∧
    (∀ n : Fin 8, bitAt (s.zget Z.BUF_STAT.SKIPPED) n = true → (∀ c : Fin 4, s.chState n c = 2) →
      exec (.stackSkipEnd n) s = .next (s.zput Z.BUF_STAT.SKIPPED (s.zget Z.BUF_STAT.SKIPPED - 2 ^ n.val))) ∧
    (∀ n : Fin 8, bitAt (s.zget Z.BUF_STAT.SKIPPED) n = false → exec (.stackSkipEnd n) s = .next s)

/-- DRAM training and operating points (R168, R170 to R173, R178, R398).  A refresh changes nothing.  A slice starts on an active channel
with none in its stack and ends with its data counted; a retrain that meets the margins stores its set, one that does not is
MARGINAL and keeps the old.  A new TARGET stalls the channels and switches, and the switch ends with the set of the new point; the
thermal emergency switches too, its end returns to TARGET.  A hot die shows, an old training raises its lag.
The model's choices that it rests on are named in log entries 1 and 10. -/
def Obligations.DramTraining : Prop :=
  ∀ (s : State) (n : Fin 8),
    (∀ (rank : Fin 8) (bank : Nat), exec (.dramRefresh n rank bank) s = .next s) ∧
    (∀ c : Fin 4, s.zget (ZS.CTL.RETRAIN_EN.stack n) = 1 → s.chState n c = 2 → s.slicing n = false →
      Tab.get 0 (s.stack n).slices c < 16 → s.zget Z.BUF_STAT.PASR = 0 →
      exec (.retrainSlice n c true) s = .next (s.zput (chanF ZS.CHSTATc.SLICE n c) 1)) ∧
    (∀ c : Fin 4, s.slicing n = true → exec (.retrainSlice n c true) s = .next s) ∧
    (∀ c : Fin 4, s.zget (chanF ZS.CHSTATc.SLICE n c) = 1 → (s.stack n).waiting = false →
      exec (.retrainSlice n c false) s = .next ((s.zput (chanF ZS.CHSTATc.SLICE n c) 0).updStack n fun x => { x with
        slices := Tab.upd 0 x.slices c (· + 1) })) ∧
    (∀ (c : Fin 4) (w h : Byte), Tab.get 0 (s.stack n).slices c ≠ 0 → s.zget (chanF ZS.CHSTATc.SLICE n c) = 0 → s.chState n c = 2 →
      ∃ t, exec (.retrainComplete n c w h) s = .next t ∧
        regsBut [chanF ZS.CHSTATc.MARGIN_W n c, chanF ZS.CHSTATc.MARGIN_H n c, chanF ZS.TRAINc.DONE n c,
          chanF ZS.CHSTATc.MARGINAL n c, setF n c (s.zget (ZS.DPT.POINT.stack n)), chanF ZS.TRAINc.NOSET n c,
          (evBits (320 + 12 * n + 7)).1, Z.EVT_STAT.FILTERED] s t ∧
        Tab.get 0 (t.stack n).slices c = 0 ∧ t.buf.mem = s.buf.mem ∧
        t.zget (chanF ZS.TRAINc.DONE n c) = sat (chanF ZS.TRAINc.DONE n c).wid (s.zget (chanF ZS.TRAINc.DONE n c) + 1) ∧
        (16 ≤ w.toNat → 10 ≤ h.toNat → t.zget (chanF ZS.CHSTATc.MARGINAL n c) = 0 ∧
          t.zget (setF n c (s.zget (ZS.DPT.POINT.stack n))) = 1 ∧
          Tab.get 0 (t.stack n).trained (c + 4 * s.zget (ZS.DPT.POINT.stack n)) = s.time) ∧
        (w.toNat < 16 ∨ h.toNat < 10 → t.zget (chanF ZS.CHSTATc.MARGINAL n c) = 1 ∧ (t.stack n).trained = (s.stack n).trained)) ∧
    (∀ target : Bool, s.bar0Open → s.zget (ZS.DPT.EMERG.stack n) = 0 → s.zget (ZS.DPT.SWITCHING.stack n) = 0 →
      s.zget (ZS.DPT.POINT.stack n) = target.toNat →
      exec (.pointTargetWrite n target) s = .next ((s.zput (ZS.DPT.TARGET.stack n) target.toNat).updStack n fun x => { x with
        waiting := false })) ∧
    (∀ target : Bool, s.bar0Open → s.zget (ZS.DPT.EMERG.stack n) = 0 → s.zget (ZS.DPT.SWITCHING.stack n) = 0 →
      s.zget (ZS.DPT.POINT.stack n) ≠ target.toNat → s.zget Z.BUF_STAT.PASR = 0 → (s.stack n).training = false →
      s.slicing n = false → (∀ c : Fin 4, s.chState n c = 2) →
      ∃ t, exec (.pointTargetWrite n target) s = .next t ∧ t.zget (ZS.DPT.TARGET.stack n) = target.toNat ∧
        t.zget (ZS.DPT.SWITCHING.stack n) = 1 ∧ (t.stack n).goal = target.toNat ∧ (∀ c : Fin 4, t.chState n c = 3) ∧
        t.buf.mem = s.buf.mem ∧ t.out = s.out) ∧
    (s.zget (ZS.DPT.SWITCHING.stack n) = 1 → s.wantedPoint n = (s.stack n).goal → (s.stack n).goal < 2 →
      (∀ c : Fin 4, s.chState n c = 3 ∧ s.zget (setF n c (s.stack n).goal) = 1) →
      ∃ t, exec (.pointChangeDone n) s = .next t ∧ t.zget (ZS.DPT.SWITCHING.stack n) = 0 ∧
        t.zget (ZS.DPT.POINT.stack n) = (s.stack n).goal ∧ (∀ c : Fin 4, t.chState n c = 2) ∧ (t.stack n).slices = [] ∧
        t.buf.mem = s.buf.mem ∧ t.out = s.out) ∧
    (∀ (temp : Byte) (stall : Fin 20001),
      (temp.toNat < s.zget (ZS.DPT.T_EMERG.stack n) →
        exec (.thermalEmergencyEntry n temp stall) s = .next (s.zput (ZS.DPT.TEMP.stack n) temp.toNat)) ∧
      (s.zget (ZS.DPT.EMERG.stack n) = 0 → s.zget (ZS.DPT.T_EMERG.stack n) ≤ temp.toNat → (s.stack n).training = true →
        s.slicing n = false →
        exec (.thermalEmergencyEntry n temp stall) s = .next ((((s.zput (ZS.DPT.TEMP.stack n) temp.toNat).zput
          (ZS.DPT.EMERG.stack n) 1).raiseStack n 9 [1, temp, 0, 0, 0, 0]).zput (ZS.DPT.POINT.stack n) 1)) ∧
      (s.zget (ZS.DPT.EMERG.stack n) = 1 → temp.toNat ≤ s.zget (ZS.DPT.T_CLEAR.stack n) →
        s.zget (ZS.DPT.SWITCHING.stack n) = 1 →
        exec (.thermalEmergencyExit n temp) s = .next (((s.zput (ZS.DPT.TEMP.stack n) temp.toNat).zput
          (ZS.DPT.EMERG.stack n) 0).raiseStack n 9 [0, temp, 0, 0, 0, 0]))) ∧
    (∀ (rank : Fin 8), (s.stack n).hot = 0 →
      exec (.refreshHot n rank true) s = .next ((s.updStack n fun x => { x with hot := 2 ^ rank.val }).zput
        (ZS.REFR.HOT.stack n) 1)) ∧
    (∀ c : Fin 4, exec (.retrainAgeLag n c) s = .next ((s.zput Z.BG_LAG.LAG (s.zget Z.BG_LAG.LAG ||| 2)).raiseStack n 6
      ([3, b8 (4 * n + c)] ++ leBytes (max 200 ((s.time - Tab.get 0 (s.stack n).trained (c + 4 * s.zget (ZS.DPT.POINT.stack n)))
        / (1000000 * nsUnits))) 4)))

/-- The gather, self-refresh and the map (R174 to R176).  A gather with nothing pinned ends with DONE, MOVED 0 and partial-array
self-refresh; an access to a kept rank wakes it, idleness puts it back, EXIT ends it.  The map changes only outside a run with nothing
pinned, and is refused otherwise.
The model's choices that it rests on are named in log entries 1 and 10. -/
def Obligations.GatherAndSelfRefresh : Prop :=
  ∀ s : State,
    (s.zget Z.BUF_STAT.GATHER = 1 → s.buf.billets = [] → s.buf.dir = [] →
      ∃ t, exec .gatherComplete s = .next t ∧ t.zget Z.BUF_STAT.GATHER = 0 ∧ t.zget Z.BUF_GATHER.DONE = 1 ∧
        t.zget Z.BUF_GATHER.MOVED = 0 ∧ t.zget Z.BUF_STAT.PASR = 1 ∧ t.zget Z.BUF_PASR.ACTIVE = 1 ∧
        (∀ (n : Fin 8) (c : Fin 4), s.inService n = true → s.chState n c = 2 → t.chState n c = 5) ∧
        (∀ ch l, ch < 32 → l < 2 ^ 32 → (bitAt (s.zget Z.BUF_KEEP.RANK0) (ch / 4) = true ∨ 2 ^ 31 ≤ l) →
          t.memByte ch l = s.memByte ch l) ∧
        (∀ ch l, ch < 32 → l < 2 ^ 31 → bitAt (s.zget Z.BUF_KEEP.RANK0) (ch / 4) = false → t.memByte ch l = 0)) ∧
    (s.zget Z.BUF_STAT.GATHER = 0 → exec .gatherComplete s = .next s) ∧
    (s.zget Z.BUF_PASR.ACTIVE = 1 → exec .pasrWake s = .next (s.zput Z.BUF_PASR.AWAKE 1)) ∧
    (s.zget Z.BUF_PASR.ACTIVE = 0 → exec .pasrWake s = .next s) ∧
    (exec .pasrIdleReentry s = .next (s.zput Z.BUF_PASR.AWAKE 0)) ∧
    (s.bar0Open → s.zget Z.BUF_STAT.PASR = 1 → (∀ n : Fin 8, s.inService n = false) → s.buf.stks = [] →
      (∀ n : Fin 8, s.zget (ZS.DPT.SWITCHING.stack n) = 1) →
      exec .pasrExit s = .next ((((s.zput Z.BUF_STAT.PASR 0).zput Z.BUF_PASR.ACTIVE 0).zput Z.BUF_PASR.AWAKE 0).updBuf fun b =>
        { b with prioStart := s.time })) ∧
    (∀ w : Word, s.bar0Open → w.toNat % 32 ≠ s.zget Z.BUF_MAP.GRAIN + 16 * s.zget Z.BUF_MAP.HASH → bitAt w.toNat 8 = false →
      (s.run.active = true ∨ s.anyPin = true → exec (.bufMapWrite w) s = .next (s.zput Z.BUF_MAP.REFUSED 1)) ∧
      (s.run.active = false → s.anyPin = false →
        exec (.bufMapWrite w) s = .next ((s.zput Z.BUF_MAP.GRAIN (w.toNat % 16)).zput Z.BUF_MAP.HASH (w.toNat / 16 % 2))))

/-- Reads, writes and scrubbing of DRAM (R180, R181, R183, R184, R187 to R190).  A line without damage is delivered as stored and its 64
bytes count.  One flagged byte of an event page is corrected from the page's check lines: the line is delivered as stored, CE counts,
and the page is set RESCRUB.  A partial write stores its bytes and no other.  A scrub of a sound page reads it whole and clears
RESCRUB; a byte that is wrong again at the verify read becomes hard and enters the table.  A due priority walk starts.
The model's choices that it rests on are named in log entries 1 and 10. -/
def Obligations.DramLinesAndScrub : Prop :=
  ∀ (s : State) (ch : Fin 32), s.buf.dmg = [] → s.zget (ZS.ICTL.SPARE.stack (ch.val / 4)) = 0 →
    (∀ (line : Fin 67108864), s.poisoned ch (64 * line / 2048) = false → s.zget Z.BUF_PASR.ACTIVE = 0 →
      exec (.dramLineRead ch line []) s = .next ((s.zwrap (ZS.RBYTES.BYTES.stack (ch.val / 4)) 64).emit (.line ch (64 * line)
        ((List.range 64).map fun j => s.memByte ch (64 * line + j)) false))) ∧
    (∀ (page : Fin 1966080) (u : Upset), u.pos.val < 32 → oddMask u.mask = true → s.poisoned ch page = false →
      s.openPage ch page = false → s.buf.rce = [] → s.zget Z.BUF_PASR.ACTIVE = 0 →
      ∀ line : Fin 67108864, line.val = 32 * page + u.pos →
      ∃ t, exec (.dramLineRead ch line [u]) s = .next t ∧ t.buf.mem = s.buf.mem ∧
        t.out = s.out ++ [.line ch (64 * line) ((List.range 64).map fun j => s.memByte ch (64 * line + j)) false] ∧
        t.zget (ZS.ECNT.CE.stack (ch.val / 4)) = sat (ZS.ECNT.CE.stack (ch.val / 4)).wid (s.zget (ZS.ECNT.CE.stack (ch.val / 4)) + 1) ∧
        t.pageBits ch page = s.pageBits ch page ||| 2#2) ∧
    (∀ (addr : Word) (bytes : List Byte), bytes.length ≤ 64 - addr.toNat % 64 →
      ∃ t, exec (.sealedPageWrite ch addr bytes []) s = .next t ∧ t.buf.dmg = [] ∧
        (∀ j, j < bytes.length → t.memByte ch (addr.toNat + j) = bytes.getD j 0) ∧
        (∀ ch' l', oldKey ch' l' < oldKey ch addr.toNat ∨ oldKey ch addr.toNat + bytes.length ≤ oldKey ch' l' →
          t.memByte ch' l' = s.memByte ch' l') ∧
        t = (s.updBuf fun _ => t.buf).updZreg (fun _ => t.zreg)) ∧
    (∀ (page : Fin 2097152) (prio : Bool) (pos : Byte), s.scrubs ch page = true →
      ∃ t, exec (.scrubPageVisit ch page prio false pos [] []) s = .next t ∧ t.buf.mem = s.buf.mem ∧ t.buf.dmg = [] ∧
        t.pageBits ch page = s.pageBits ch page &&& 1#2 ∧
        t.zget (if prio then Z.SCRUB_POS.PRIO_POS else Z.SCRUB_POS.FULL_POS) = pos.toNat ∧ t.out = s.out) ∧
    (∀ (page : Fin 1966080) (u : Upset) (prio : Bool) (pos : Byte), u.pos.val < 32 → oddMask u.mask = true →
      (s.upset ch page u).scrubs ch page = true → s.buf.rce = [] → s.openPage ch page = false →
      ∃ t, exec (.scrubPageVisit ch (Fin.castLE (by decide) page) prio false pos [u] [u]) s = .next t ∧ t.buf.mem = s.buf.mem ∧
        Tab.get none t.buf.rce 0 = some ⟨ch, pageAddr page u.pos + u.col, u.mask.toNat % 256, 0, s.buf.fullLap % 65536,
          s.buf.fullLap % 65536⟩) ∧
    (s.buf.prioStart = 0 → s.zget Z.SCRUB_CFG.MBPS ≠ 0 → s.zget Z.SCRUB_POS.PAUSED = 0 → s.zget Z.BUF_STAT.PASR = 0 →
      exec .priorityWalkStart s = .next ((s.updBuf fun b => { b with prioStart := s.time }).zput Z.SCRUB_POS.PRIO_POS 0))

/-- Retirement and loss of stacks (R192 to R196, R199, R200).  An order retires the selected rank: the spare begins its migration; each
page copied counts; the last one puts the spare in service and clears the rank's hard count; a long migration raises its lag; a bad
spare, or an order, takes the stack out of service; an empty stack out of service powers down; a released channel loses its
record and goes to OFF; CLEAR removes a table entry.
The model's choices that it rests on are named in log entries 1 and 10. -/
def Obligations.RetirementAndLoss : Prop :=
  ∀ (s : State) (n : Fin 8),
    (s.bar0Open → s.inService n = true → s.zget (ZS.MIG.ACTIVE.stack n) = 0 → s.pasr = false →
      s.zget (ZS.ICTL.SPARE.stack n) = 0 → s.zget (ZS.ICTL.RANK_SEL.stack n) < 8 →
      ∃ t, exec (.retireOrder n) s = .next t ∧ t.zget (ZS.ICTL.SPARE.stack n) = 1 ∧
        t.zget (ZS.ICTL.SPARE_RANK.stack n) = s.zget (ZS.ICTL.RANK_SEL.stack n) ∧ t.zget (ZS.MIG.ACTIVE.stack n) = 1 ∧
        t.zget (ZS.MIG.RANK.stack n) = s.zget (ZS.ICTL.RANK_SEL.stack n) ∧ t.zget (ZS.MIG.PAGES.stack n) = 0 ∧
        t.zget Z.SCRUB_POS.PAUSED = 1 ∧ (t.stack n).migStart = s.time ∧ (t.stack n).migCause = 2 ∧ t.buf.mem = s.buf.mem) ∧
    (s.zget (ZS.MIG.ACTIVE.stack n) = 1 → s.zget (ZS.MIG.PAGES.stack n) < 1048576 → s.zget (ZS.MIG.RANK.stack n) < 8 →
      s.buf.dmg = [] →
      ∃ t, exec (.migrationPageCopy n false []) s = .next t ∧
        t.zget (ZS.MIG.PAGES.stack n) = s.zget (ZS.MIG.PAGES.stack n) + 1 ∧ t.buf.mem = s.buf.mem ∧ t.buf.dmg = [] ∧ t.out = s.out) ∧
    (s.zget (ZS.MIG.ACTIVE.stack n) = 1 → s.zget (ZS.MIG.PAGES.stack n) < 1048576 → s.inService n = true →
      ∃ t, exec (.migrationPageCopy n true []) s = .next t ∧ t.inService n = false ∧ t.zget (ZS.MIG.ACTIVE.stack n) = 0 ∧
        t.buf.mem = s.buf.mem) ∧
    (s.zget (ZS.MIG.ACTIVE.stack n) = 1 → s.zget (ZS.MIG.PAGES.stack n) = 1048576 → s.zget (ZS.MIG.RANK.stack n) < 8 →
      ∃ t, exec (.migrationComplete n) s = .next t ∧ t.zget (ZS.ICTL.SPARE.stack n) = 2 ∧ t.zget (ZS.MIG.ACTIVE.stack n) = 0 ∧
        t.buf.mem = s.buf.mem) ∧
    (s.zget (ZS.MIG.ACTIVE.stack n) = 1 →
      exec (.migrationLag n) s = .next ((s.zput Z.BG_LAG.LAG (s.zget Z.BG_LAG.LAG ||| 4)).raiseStack n 6
        ([2, b8 (4 * n + s.zget (ZS.MIG.RANK.stack n) / 2)] ++ leBytes ((s.time - (s.stack n).migStart) / (1000000 * nsUnits)) 4))) ∧
    (s.bar0Open → s.inService n = true →
      ∃ t, exec (.stackOut n) s = .next t ∧ t.inService n = false ∧ t.zget (ZS.MIG.ACTIVE.stack n) = 0 ∧ (t.stack n).due = [] ∧
        t.buf.mem = s.buf.mem ∧ (∀ m : Fin 8, m ≠ n → t.inService m = s.inService m)) ∧
    (s.inService n = false → (s.stack n).ready = true → s.buf.billets = [] → s.buf.dir = [] → (∀ c : Fin 4, s.chState n c = 2) →
      ∃ t, exec (.stackPowerDown n) s = .next t ∧ (∀ c : Fin 4, t.chState n c = 0) ∧ (t.stack n).off = true ∧
        t.buf.mem = s.buf.mem ∧ t.out = s.out) ∧
    (∀ (c : Fin 4) (f : Freeze), s.bar0Open → s.zget (ZS.FRZ.SEL.stack n) = c → Tab.get none (s.stack n).freeze c = some f →
      ∃ t, exec (.freezeRelease n) s = .next t ∧ Tab.get none (t.stack n).freeze c = none ∧ t.chState n c = 0 ∧
        bitAt (t.zget (ZS.FRZ.FROZEN.stack n)) c = false ∧ t.buf.mem = s.buf.mem ∧ t.out = s.out) ∧
    (s.bar0Open → exec .rceClear s = .next (s.updBuf fun b => { b with rce := Tab.set none b.rce (s.zget Z.RCE_IDX.ENTRY) none }))

/-! ### Extraction -/

/-- Requests (R202 to R205, R207, R208, R210).  A fetched entry takes a context with the fields that R202 lays out and its class;
one that breaks R203 is refused with REJECTED_PARAM, a run that is not in the buffer with EXPIRED; without a context to take nothing is
fetched.  A ring TRIG is ignored without RING_EN, refused and recorded without a context or CTRL ring, and taken
otherwise.  At the look-up a window that is merged is read, one ahead by at most 10 ms waits, any other is REJECTED_FUTURE.
The model's choices that it rests on are named in log entries 1, 12 and 18. -/
def Obligations.ExtractionRequests : Prop :=
  ∀ s : State,
    (∀ (r : Fin 4) (n : Fin 65536) (e : List Byte), s.ringUp (r + 1) = true → s.unfetched (r + 1) ≠ 0 →
      (∀ k, k < r.val → s.unfetched (k + 1) = 0) → s.ctx? n = none →
      (s.mayTake r = false → exec (.trigFetch r [(n, e)]) s = .next s) ∧
      (s.mayTake r = true → ∃ (t : State) (c : Ctx), exec (.trigFetch r [(n, e)]) s = .next t ∧
        t = ((s.updXtr fun x => { x with ctxs := x.ctxs ++ [c], fetched := x.fetched + 1 }).updZreg (fun _ => t.zreg)).updOut
          (fun _ => t.out) ∧
        regsBut [ZR.CIDX.INDEX.hring (r + 1)] s t ∧
        t.zget (ZR.CIDX.INDEX.hring (r + 1)) = (s.zget (ZR.CIDX.INDEX.hring (r + 1)) + 1) % 2 ^ 32 ∧
        c.num = n ∧ c.order = r ∧ c.cls = r ∧ c.ring = false ∧ c.wstart = leNat (slice e 0 8) ∧ c.ports = leNat (slice e 12 2) ∧
        c.tag = leNat (slice e 16 4) ∧ c.carve = byteAt e 14 % 128 ∧ c.level = byteAt e 15 % 8 ∧ c.comp = bitAt (byteAt e 15) 3 ∧
        c.aux = bitAt (byteAt e 22) 0 ∧ c.nowait = bitAt (byteAt e 22) 1 ∧
        (leNat (slice e 8 4) = 0 ∨ 1048576 < leNat (slice e 8 4) ∨ leNat (slice e 12 2) = 0 ∨ 128 ≤ byteAt e 14 ∨ 16 ≤ byteAt e 15 ∨
            4 ≤ byteAt e 22 ∨ (0 < byteAt e 15 ∧ byteAt e 15 < 8) → c.status = some 3 ∧ c.phase = .held) ∧
        (∀ id : Nat, leNat (slice e 20 2) = id → id ≠ 0xFFFF → 0 < leNat (slice e 8 4) → leNat (slice e 8 4) ≤ 1048576 →
          leNat (slice e 12 2) ≠ 0 → byteAt e 14 < 128 → byteAt e 15 < 16 → byteAt e 15 = 0 ∨ 8 ≤ byteAt e 15 → byteAt e 22 < 4 →
          slice e 23 9 = List.replicate 9 0 →
          (s.runKnown id = true → c.status = none ∧ c.phase = .lookup ∧ c.runId = id ∧ c.len = leNat (slice e 8 4)) ∧
          (s.runKnown id = false → c.status = some 1 ∧ c.phase = .held)))) ∧
    (∀ (d : Side) (b : RxBlock) (num : Fin 65536) (pl : List Byte), s.ringHears d b pl → byteAt pl 0 = 2 →
      (s.zget Z.XTR_CFG.RING_EN = 0 → exec (.ringTrigReceive d b num) s = .next (s.ringEast pl)) ∧
      (s.zget Z.XTR_CFG.RING_EN ≠ 0 → s.zget (ZR.CFG.EN.hring 6) = 0 ∨ s.mayTake (byteAt pl 1 / 64 % 2) = false →
        ∃ t, exec (.ringTrigReceive d b num) s = .next (t.ringEast pl) ∧
          onlyEvent [Z.XTR_REFUSED.COUNT, Z.XTR_LASTREF.WSTART, Z.XTR_LASTREF2.LENM1, Z.XTR_LASTREF2.SRC, Z.XTR_LASTREF2.CLASS,
            Z.RING_EVSTAT.PEND, Z.EVT_STAT.FILTERED] s t ∧
          t.zget Z.XTR_REFUSED.COUNT = sat 32 (s.zget Z.XTR_REFUSED.COUNT + 1) ∧
          t.zget Z.XTR_LASTREF2.LENM1 = beNat (slice pl 8 3) % 2 ^ 20 ∧ t.zget Z.XTR_LASTREF2.SRC = byteAt pl 1 % 64 ∧
          t.zget Z.XTR_LASTREF2.CLASS = byteAt pl 1 / 64 % 2 ∧
          t.zget Z.XTR_LASTREF.WSTART % 2 ^ 48 = beNat (slice pl 2 6) % 2 ^ 48 ∧ bitAt (t.zget Z.RING_EVSTAT.PEND) 4 = true) ∧
      (s.zget Z.XTR_CFG.RING_EN ≠ 0 → s.zget (ZR.CFG.EN.hring 6) ≠ 0 → s.mayTake (byteAt pl 1 / 64 % 2) = true →
        s.ctx? num = none → (∀ k : Fin 8, s.zget (Z.RING_GATEk_1.EN.at (16 * k)) = 0) →
        ∃ c : Ctx, exec (.ringTrigReceive d b num) s = .next ((s.updXtr fun x => { x with ctxs := x.ctxs ++ [c] }).ringEast pl) ∧
          c.num = num ∧ c.order = 4 ∧ c.cls = byteAt pl 1 / 64 % 2 ∧ c.ring = true ∧ c.tag = beNat (slice pl 13 3) ∧
          c.len = beNat (slice pl 8 3) % 2 ^ 20 + 1 ∧ c.ports = beNat (slice pl 11 2) ∧ c.nowait = false ∧
          c.wstart % 2 ^ 48 = beNat (slice pl 2 6) % 2 ^ 48 ∧ s.nowTick ≤ c.wstart + 2 ^ 47 ∧
          c.carve = s.zget (Z.XTR_PROFk.CARVE.at (4 * (beNat (slice pl 8 3) / 2 ^ 20))) ∧
          (bitAt (byteAt pl 1) 7 = true → c.status = some 3) ∧
          (s.run.epoch = none → beNat (slice pl 11 2) ≠ 0 → bitAt (byteAt pl 1) 7 = false → c.comp = true →
            c.status = some 1))) ∧
    (∀ (n : Fin 65536) (c : Ctx), s.oneCtx c → c.num = n → c.phase = .lookup → c.status = none → c.secs = [] → 0 < c.len →
      (s.runIsOn c.runId = true → s.mNext ≤ s.needed c → c.nowait = false →
        (s.epochTime : Int) + ((c.lastTick : Int) - 12800000) * tickUnits ≤ s.time →
        exec (.contextLookup n) s = .next (s.setCtx { c with phase := .wait, waited := true })) ∧
      (s.runIsOn c.runId = true → s.mNext ≤ s.needed c →
        c.nowait = true ∨ (s.time : Int) < (s.epochTime : Int) + ((c.lastTick : Int) - 12800000) * tickUnits →
        exec (.contextLookup n) s = .next (s.setCtx { c with phase := .held, status := some 2 })) ∧
      (s.runIsOn c.runId = false ∨ s.needed c < s.mNext →
        ∃ live, exec (.contextLookup n) s = .next (s.setCtx { c with
            phase := .read, since := s.time, live := live, next := c.first, epoch := s.epochOf c.runId,
            ready := { c with epoch := s.epochOf c.runId }.header }) ∧
          ∀ f, f ∈ live ↔ c.first ≤ f ∧ f ≤ c.last ∧ ∃ x p, s.framePlace c.runId f = .at_ x p))

/-- Reads and carving (R211 to R217, R225, R282).  The next frame of the one context that reads enters its stream as a section: EXPIRED
without content, BEYOND_END without content, or as header and segments give it (here in DRAM without damage); with no context in READ nothing is read.  A section to
be carved goes to the engine of its program that waits, waits while all are at work, and passes with CARVE_SKIPPED where none
runs the program; the ended output of the engine becomes the section.
The model's choices that it rests on are named in log entries 1, 12 and 18. -/
def Obligations.ExtractionReads : Prop :=
  ∀ (s : State) (c : Ctx), s.oneCtx c → c.cls < 4 →
    (c.phase ≠ .read → exec .segmentRead s = .next s) ∧
    (c.phase = .read → c.status = none → c.secs = [] → c.first ≤ c.next → c.next ≤ c.last → c.comp = false → c.carve = 0 →
      ∃ (t : State) (c' : Ctx), exec .segmentRead s = .next t ∧ t.oneCtx c' ∧ c'.next = c.next + 1 ∧ c'.nsect = c.nsect + 1 ∧
        c'.secs = [] ∧ c'.complete = decide (c.next = c.last) ∧ (c.next < c.last → c'.phase = .read) ∧
        (s.framePlace c.runId c.next = .beyond → t = s.updXtr (fun _ => t.xtr) ∧ c'.nbey = c.nbey + 1 ∧ c'.nexp = c.nexp ∧
          c'.ready = c.ready ++ leBytes c.next 5 ++ [0] ++ leBytes (2 + if c.qmark then 1024 else 0) 2 ++ List.replicate 8 0) ∧
        (s.framePlace c.runId c.next = .expired → t = (s.updXtr fun _ => t.xtr).updZreg (fun _ => t.zreg) ∧
          regsBut [Z.BUF_DIRCNT.GENMISS] s t ∧ c'.nexp = c.nexp + 1 ∧ c'.nbey = c.nbey ∧
          c'.ready = c.ready ++ leBytes c.next 5 ++ [0] ++ leBytes (1 + if c.qmark then 1024 else 0) 2 ++ List.replicate 8 0) ∧
        (∀ x pinned, s.buf.dmg = [] → s.framePlace c.runId c.next = .at_ x pinned → c'.nexp = c.nexp ∧ c'.nbey = c.nbey ∧ t.buf.mem = s.buf.mem ∧
          c'.ready = c.ready ++ (c.sectionOf c.next (s.readFrame x c.ports).1.1 (s.readFrame x c.ports).1.2 pinned).bytes c.qmark)) ∧
    (∀ (n : Fin 65536) (f : Fin 1099511627776) (x : Section), c.num = n → c.phase = .read → c.status = none → c.secs = [x] →
      x.frame = f → c.next < f.val → c.next < c.last →
      (x.stage = .carve → s.carvers c.carve = [] → exec (.carveDispatch n f) s = .next (s.setCtx { c with
        secs := [{ x with flags := x.flags ||| 512, stage := .done }] })) ∧
      (x.stage = .carve → s.carvers c.carve ≠ [] → s.idleCarvers c.carve = [] → exec (.carveDispatch n f) s = .next s) ∧
      (∀ e : Eng, x.stage = .carve → s.idleCarvers c.carve = [e.val] → (s.eng e).cur = none →
        exec (.carveDispatch n f) s = .next (((((s.setCtx { c with secs := [{ x with stage := .engine e }] }).updXtr fun y =>
          { y with chosen := Tab.set 0 y.chosen c.carve (e + 1) }).zwrap (ZC.FEED.HALFWORDS.gcl (e / 24)) (carveMsg n x).items.length).updEng e
            fun y => y.open_ (carveMsg n x)).zput (ZE.STAT.MSG_OPEN.geng e) 1)) ∧
      (∀ (e : Eng) (m : EngMsg) (y : SubSec) (a b u v : Nat) (recs : List Nat), x.stage = .engine e → (s.eng e).cur = some m →
        m.job = some ⟨n, f⟩ → x.subs = [y] → y.poison = false → y.port = a % 256 → (s.eng e).out = [a, b, u, v] ++ recs →
        (∀ w ∈ recs, bitAt w 17 = false) →
        ((s.eng e).ended = true →
          exec (.carveSectionDone e) s = .next ((s.setCtx { c with secs := [{ x with
            stage := .done, subs := [{ y with carved := true, hws := recs.map (· % 65536) }] }] }).updEng e fun z =>
              { z with cur := some { m with job := none } })) ∧
        ((s.eng e).ended = false → exec (.carveSectionDone e) s = .next s)))

/-- Compression (R218, R254, R256 to R258, R262).  The waiting context takes the free stream with the settings of Z_COMP_CFG.  At level 0
the rest of a complete stream is written stored and ends it; a complete stream with nothing pending ends in the empty fixed
block; a coded block that is smaller than the stored one and passes the check is written as it is; one that fails the
check counts, raises COMP_CHECK and is written stored; short input makes no block.  An idle flush writes the empty stored block.
The model's choices that it rests on are named in log entries 1, 12 and 18. -/
def Obligations.Compression : Prop :=
  ∀ (s : State) (c : Ctx) (k : Fin 8), s.oneCtx c → c.cls < 4 →
    (c.wantsStream = true → exec (.compressionStreamGrant k) s = .next (s.setCtx { c with
      zs := some k.val, zsect := s.zget Z.COMP_CFG.SECT_FLUSH == 1, zcheck := s.zget Z.COMP_CFG.CHECK_EN == 1,
      zidle := s.zget Z.COMP_CFG.IDLE_US })) ∧
    (c.wantsStream = false → exec (.compressionStreamGrant k) s = .next s) ∧
    (c.zs = some k.val → c.zdone = false → c.zsect = false → c.secs = [] →
      (∀ coded : List Bool, c.complete = true → c.ready = [] →
        ∃ c' : Ctx, exec (.compressBlock k coded) s = .next (s.setCtx c') ∧ c'.zdone = true ∧
          c'.zbits = c.zbits ++ [true, true, false, false, false, false, false, false, false, false]) ∧
      (∀ coded : List Bool, c.complete = true → c.level = 0 → 0 < c.ready.length → c.ready.length ≤ 65535 →
        ∃ c' : Ctx, exec (.compressBlock k coded) s = .next ((s.zwrap Z.COMP_IN.BYTES c.ready.length).setCtx c') ∧
          c'.zdone = true ∧ c'.raw = true ∧ c'.ready = [] ∧
          c'.zbits = c.zbits ++ storedBits c.zbits.length true c.ready) ∧
      (∀ coded : List Bool, c.complete = true → c.level ≠ 0 → 0 < c.ready.length → c.ready.length ≤ 65535 → c.level ≤ 3 →
        coded.length < (storedBits c.zbits.length true c.ready).length →
        (blockDecodes coded c.hist c.ready true 1 = true →
          ∃ c' : Ctx, exec (.compressBlock k coded) s = .next ((s.zwrap Z.COMP_IN.BYTES c.ready.length).setCtx c') ∧
            c'.zdone = true ∧ c'.raw = c.raw ∧ c'.ready = [] ∧ c'.zbits = c.zbits ++ coded ∧
            c'.hist = (c.ready.reverse ++ c.hist).take 32768) ∧
        (blockDecodes coded c.hist c.ready true 1 = false → c.zcheck = true →
          ∃ c' : Ctx, exec (.compressBlock k coded) s = .next (((((s.zbump Z.COMP_CHK.MISMATCH 1).raise 542
              ([b8 k] ++ leBytes c.num 2 ++ leBytes c.zoff 4)).zbump Z.COMP_BLK.STORED 1).zwrap Z.COMP_IN.BYTES c.ready.length).setCtx c') ∧
            c'.zdone = true ∧ c'.raw = true ∧ c'.zbits = c.zbits ++ storedBits c.zbits.length true c.ready)) ∧
      (∀ coded : List Bool, c.complete = false → c.ready.length < 65535 → exec (.compressBlock k coded) s = .next s) ∧
      (∀ coded : List Bool, c.zidle ≠ 0 → c.complete = false → c.starved = false → c.ready = [] → c.zbits ≠ [] → c.zflush = false →
        ∃ c' : Ctx, exec (.idleFlush k coded) s = .next ((s.zbump Z.COMP_BLK.FLUSH 1).setCtx c') ∧ c'.zflush = true ∧
          c'.zbits = c.zbits ++ storedBits c.zbits.length false [] ∧ c'.ready = [] ∧ c'.zdone = false) ∧
      (∀ coded : List Bool, c.zidle = 0 → exec (.idleFlush k coded) s = .next s))

/-- The output queue, buffers and completions (R219 to R224, R239 to R241).  A stream pushes 4,096 bytes, at its end what is left; a full
queue takes nothing.  The grant goes to the lower class, and writes the chunk to the stream's buffer.  A reset of the queue counts, and the
stream that lost a chunk goes on with a QRESET marker.  A stream takes the next buffer; a bad entry returns at once as BAD.
Returned buffers and finished contexts are written to CMPL in the layout of R240, and the context is freed.
The model's choices that it rests on are named in log entries 1, 12 and 18. -/
def Obligations.OutputAndCompletions : Prop :=
  ∀ (s : State) (c : Ctx) (n : Fin 65536), c.num = n → c.cls < 4 → c.secs = [] →
    (s.oneCtx c → c.comp = false → c.pushed = false → c.status = none →
      (4096 < c.ready.length → s.xtr.queue.length < 2048 →
        ∃ t, exec (.outputChunkPush n) s = .next t ∧ t = s.updXtr (fun _ => t.xtr) ∧
          t.xtr.queue = s.xtr.queue ++ [⟨n, c.ready.take 4096, s.time, false⟩] ∧
          ∃ c' : Ctx, t.oneCtx c' ∧ c'.ready = c.ready.drop 4096 ∧ c'.pushed = false) ∧
      (c.complete = true → c.ready.length ≤ 4096 → s.xtr.queue.length < 2048 →
        ∃ t, exec (.outputChunkPush n) s = .next t ∧ t = s.updXtr (fun _ => t.xtr) ∧
          t.xtr.queue = s.xtr.queue ++ [⟨n, c.ready, s.time, true⟩] ∧
          ∃ c' : Ctx, t.oneCtx c' ∧ c'.ready = [] ∧ c'.pushed = true ∧ c'.endBits = 8) ∧
      (2048 ≤ s.xtr.queue.length → exec (.outputChunkPush n) s = .next s)) ∧
    (∀ (b : HostBuf) (bytes : List Byte), s.oneCtx c → s.dmaOk = true → s.xtr.queue = [⟨n, bytes, s.time, false⟩] → c.dma = [] → c.sep = false →
      c.buf = some b → bytes ≠ [] → b.used + bytes.length < b.size → c.granted = false →
      ∃ t, exec .outputChunkGrant s = .next t ∧
        t = ((s.updXtr fun _ => t.xtr).zwrap Z.XTR_DBYTES.BYTES bytes.length).emit (.hostWrite (b.addr + b.used) bytes) ∧
        t.xtr.queue = [] ∧ ∃ c' : Ctx, t.oneCtx c' ∧ c'.bytes = c.bytes + bytes.length ∧ c'.dma = [] ∧
          c'.buf = some { b with used := b.used + bytes.length }) ∧
    (∀ (d : Ctx) (x y : Chunk), s.xtr.ctxs = [c, d] → s.dmaOk = true → s.xtr.queue = [x, y] → x.ctx = c.num → y.ctx = d.num →
      d.num ≠ c.num → d.cls < c.cls → c.cls ≠ 3 → c.dma = [] → c.sep = false → d.dma = [] → d.sep = false → c.buf = none → d.buf = none →
      ∃ t, exec .outputChunkGrant s = .next t ∧ t.xtr.queue = [x] ∧ t.out = s.out ∧
        ∃ d' : Ctx, t.ctx? d.num = some d' ∧ d'.dma = y.bytes ∧ d'.granted = y.last) ∧
    (s.dmaOk = false → exec .outputChunkGrant s = .next s) ∧
    (s.xtr.queue = [] → exec .outputQueuePtrReset s = .next ((s.zbump Z.XTR_QRESET.COUNT 1).raise 529 [0, 0, 0])) ∧
    (∀ x : Chunk, s.oneCtx c → s.xtr.queue = [x] → x.ctx = n → c.comp = false → c.hdrs = [] →
      ∃ (t : State) (c' : Ctx), exec .outputQueuePtrReset s = .next (t.raise 529 [1, 0, 0]) ∧
        t = (s.updXtr fun _ => t.xtr).zbump Z.XTR_QRESET.COUNT 1 ∧ t.xtr.queue = [] ∧ t.oneCtx c' ∧ c'.qreset = true ∧ c'.qmark = true ∧
        c'.pushed = false ∧ c'.ready = halvesBytes (halves (zMarker 0 4 0 0xFFFF 0) 4) ++ c.ready) ∧
    (∀ e : List Byte, s.oneCtx c → c.starved = true → s.ringUp 5 = true → s.unfetched 5 ≠ 0 →
      ∃ t, exec (.bufqTake n e) s = .next t ∧
        t.zget (ZR.CIDX.INDEX.hring 5) = (s.zget (ZR.CIDX.INDEX.hring 5) + 1) % 2 ^ 32 ∧ t.host.starved = false ∧
        (bufqOk e = false → ∃ c' : Ctx, t.oneCtx c' ∧ c' = { c with rets := c.rets ++ [⟨leNat (slice e 12 4), 0, c.seq, false, true⟩] }) ∧
        (bufqOk e = true → c.sep = false → c.dma.length < leNat (slice e 8 4) → c.granted = false →
          ∃ c' : Ctx, t.oneCtx c' ∧ c'.seq = c.seq + 1 ∧ c'.dma = [] ∧ c'.bytes = c.bytes + c.dma.length ∧
            c'.buf = some ⟨leNat (slice e 0 8), leNat (slice e 8 4), leNat (slice e 12 4), c.dma.length, c.seq⟩ ∧
            t.out.getLast? = some (.hostWrite (leNat (slice e 0 8)) c.dma))) ∧
    (s.oneCtx c → c.starved = false → ∀ e, exec (.bufqTake n e) s = .next s) ∧
    (∀ (r : BufRet) (rest : List BufRet), s.oneCtx c → c.rets = r :: rest →
      (s.ringRoom 6 = true →
        ∃ c' : Ctx, exec (.bufEntryWrite n) s = .next ((s.setCtx c').cmplPut (leBytes c.tag 4 ++ leBytes r.id 4 ++ leBytes r.used 4 ++
            leBytes r.seq 2 ++ [b8 ((if r.last then 1 else 0) + if r.bad then 2 else 0), 0] ++ leBytes n 2 ++ List.replicate 12 0 ++
            [b8 (1 + 16 * c.order)])) ∧ c'.rets = rest ∧ c'.num = n) ∧
      (s.ringRoom 6 = false → exec (.bufEntryWrite n) s = .next s)) ∧
    (∀ o : Fin 5, s.oneCtx c → c.order = o →
      (c.finished = true → s.ringRoom 6 = true → c.status = some 2 ∨ c.status = some 3 →
        exec (.xtrCompletionWrite o) s = .next ((((s.cmplPut c.xtrEntry).updXtr fun x => { x with ctxs := [] }).zbump
          (Z.XTR_CNTc.COUNT.at (4 * c.cls)) 1).zbump Z.XTR_STATUSCNT.REJECTED 1)) ∧
      (c.finished = true → s.ringRoom 6 = true → c.status = none → c.nexp + c.nbey < c.nsect →
        exec (.xtrCompletionWrite o) s = .next (((s.cmplPut c.xtrEntry).updXtr fun x => { x with ctxs := [] }).zbump
          (Z.XTR_CNTc.COUNT.at (4 * c.cls)) 1)) ∧
      (c.finished = false → exec (.xtrCompletionWrite o) s = .next s))

/-! ### Gouge engines -/

/-- The encodings (R273, R274): the fields of the R, I and J formats stand where R273 has them, every word of the 16 register instructions
is legal, and a word with a set bit in a field that R274 shows as 0, or with an OP or FN of no row, is not.
The model's choices that it rests on are named in log entries 1 and 18. -/
def Obligations.EngineEncoding : Prop :=
  (∀ (fn : Fin 2048) (rd rs1 rs2 : Reg), bits (encR fn rd rs1 rs2) 26 6 = 0 ∧ bits (encR fn rd rs1 rs2) 21 5 = rd ∧
    bits (encR fn rd rs1 rs2) 16 5 = rs1 ∧ bits (encR fn rd rs1 rs2) 11 5 = rs2 ∧ bits (encR fn rd rs1 rs2) 0 11 = fn ∧
    (legalWord (encR fn rd rs1 rs2) = true ↔ fn.val < 14 ∨ (fn.val < 16 ∧ rs2 = 0))) ∧
  (∀ (op : Fin 64) (a b : Reg) (imm : Half), bits (encI op a b imm.toNat) 26 6 = op ∧ bits (encI op a b imm.toNat) 21 5 = a ∧
    bits (encI op a b imm.toNat) 16 5 = b ∧ bits (encI op a b imm.toNat) 0 16 = imm.toNat) ∧
  (∀ (rd : Reg) (off : BitVec 21), bits (encJ rd off.toNat) 26 6 = 0x28 ∧ bits (encJ rd off.toNat) 21 5 = rd ∧
    bits (encJ rd off.toNat) 0 21 = off.toNat ∧ legalWord (encJ rd off.toNat) = true) ∧
  (∀ (op : Fin 64) (a b : Reg) (imm : Half), op.val ≠ 0 →
    (legalWord (encI op a b imm.toNat) = true ↔
      op.val ∈ [0x01, 0x02, 0x03, 0x04, 0x10, 0x11, 0x12, 0x13, 0x14, 0x15, 0x16, 0x17, 0x18, 0x20, 0x21, 0x22, 0x23, 0x24, 0x25,
        0x28, 0x29] ∨
      (op.val ∈ [0x05, 0x06, 0x07] ∧ imm.toNat < 32) ∨ (op.val = 0x08 ∧ b = 0) ∨ (op.val ∈ [0x09, 0x0A] ∧ imm.toNat < 1024) ∨
      (op.val ∈ [0x30, 0x33, 0x34] ∧ b = 0 ∧ imm.toNat < 2) ∨ (op.val = 0x31 ∧ b = 0 ∧ imm.toNat < 8) ∨
      (op.val ∈ [0x32, 0x35] ∧ b = 0 ∧ imm = 0) ∨ (op.val ∈ [0x36, 0x37] ∧ a = 0 ∧ b = 0 ∧ imm = 0)))

/-- The register and immediate instructions (R272, R274, R275).  Where an engine issues the word of the instruction, the destination gets
the result of R274, modulo 2^32, the PC moves on by a word within 15 bits, INSTR counts, and nothing else changes; a write to g0 is
discarded.
The model's choices that it rests on are named in log entries 1 and 18. -/
def Obligations.EngineArithmetic : Prop :=
  (∀ (x : Engine) (v : Word) (r : Reg), x.setReg 0 v = x ∧ (r ≠ 0 → (x.setReg r v).reg r = v) ∧
    (∀ q, q ≠ r → (x.setReg r v).reg q = x.reg q)) ∧
  ∀ (s : State) (i : Issue) (rd rs1 rs2 : Reg) (a b : Word), a = s.ereg i.eng rs1 → b = s.ereg i.eng rs2 →
    (s.runsWord i (encR 0 rd rs1 rs2) → exec (.add i rd rs1 rs2) s = .next (s.retires i.eng (·.setReg rd (a + b)))) ∧
    (s.runsWord i (encR 1 rd rs1 rs2) → exec (.sub i rd rs1 rs2) s = .next (s.retires i.eng (·.setReg rd (a - b)))) ∧
    (s.runsWord i (encR 2 rd rs1 rs2) → exec (.andR i rd rs1 rs2) s = .next (s.retires i.eng (·.setReg rd (a &&& b)))) ∧
    (s.runsWord i (encR 3 rd rs1 rs2) → exec (.orR i rd rs1 rs2) s = .next (s.retires i.eng (·.setReg rd (a ||| b)))) ∧
    (s.runsWord i (encR 4 rd rs1 rs2) → exec (.xorR i rd rs1 rs2) s = .next (s.retires i.eng (·.setReg rd (a ^^^ b)))) ∧
    (s.runsWord i (encR 5 rd rs1 rs2) → exec (.shl i rd rs1 rs2) s = .next (s.retires i.eng (·.setReg rd (a <<< (b.toNat % 32))))) ∧
    (s.runsWord i (encR 6 rd rs1 rs2) → exec (.shr i rd rs1 rs2) s = .next (s.retires i.eng (·.setReg rd (a >>> (b.toNat % 32))))) ∧
    (s.runsWord i (encR 7 rd rs1 rs2) → exec (.sra i rd rs1 rs2) s = .next (s.retires i.eng (·.setReg rd (a.sshiftRight (b.toNat % 32))))) ∧
    (s.runsWord i (encR 8 rd rs1 rs2) → exec (.mul i rd rs1 rs2) s = .next (s.retires i.eng (·.setReg rd (a * b)))) ∧
    (s.runsWord i (encR 9 rd rs1 rs2) → ∃ v : Word, exec (.mulh i rd rs1 rs2) s = .next (s.retires i.eng (·.setReg rd v)) ∧
      v.toInt = a.toInt * b.toInt / 2 ^ 32) ∧
    (s.runsWord i (encR 10 rd rs1 rs2) → ∃ v : Word, exec (.min i rd rs1 rs2) s = .next (s.retires i.eng (·.setReg rd v)) ∧
      v.toInt = min a.toInt b.toInt) ∧
    (s.runsWord i (encR 11 rd rs1 rs2) → ∃ v : Word, exec (.max i rd rs1 rs2) s = .next (s.retires i.eng (·.setReg rd v)) ∧
      v.toInt = max a.toInt b.toInt) ∧
    (s.runsWord i (encR 12 rd rs1 rs2) → exec (.slt i rd rs1 rs2) s =
      .next (s.retires i.eng (·.setReg rd (if a.toInt < b.toInt then 1 else 0)))) ∧
    (s.runsWord i (encR 13 rd rs1 rs2) → exec (.sltu i rd rs1 rs2) s =
      .next (s.retires i.eng (·.setReg rd (if a.toNat < b.toNat then 1 else 0)))) ∧
    (s.runsWord i (encR 14 rd rs1 0) → ∃ n : Nat, exec (.clz i rd rs1) s = .next (s.retires i.eng (·.setReg rd (BitVec.ofNat 32 n))) ∧
      n ≤ 32 ∧ (∀ k, k < n → a.getLsbD (31 - k) = false) ∧ (n < 32 → a.getLsbD (31 - n) = true)) ∧
    (s.runsWord i (encR 15 rd rs1 0) → exec (.popc i rd rs1) s = .next (s.retires i.eng (·.setReg rd
      (BitVec.ofNat 32 (Finset.univ.filter fun k : Fin 32 => a.getLsbD k = true).card)))) ∧
    (∀ imm : Half,
      (s.runsWord i (encI 0x01 rd rs1 imm.toNat) → exec (.addi i rd rs1 imm) s =
        .next (s.retires i.eng (·.setReg rd (a + imm.signExtend 32)))) ∧
      (s.runsWord i (encI 0x02 rd rs1 imm.toNat) → exec (.andi i rd rs1 imm) s =
        .next (s.retires i.eng (·.setReg rd (a &&& imm.zeroExtend 32)))) ∧
      (s.runsWord i (encI 0x03 rd rs1 imm.toNat) → exec (.ori i rd rs1 imm) s =
        .next (s.retires i.eng (·.setReg rd (a ||| imm.zeroExtend 32)))) ∧
      (s.runsWord i (encI 0x04 rd rs1 imm.toNat) → exec (.xori i rd rs1 imm) s =
        .next (s.retires i.eng (·.setReg rd (a ^^^ imm.zeroExtend 32)))) ∧
      (s.runsWord i (encI 0x08 rd 0 imm.toNat) → exec (.lui i rd imm) s =
        .next (s.retires i.eng (·.setReg rd (imm ++ 0#16))))) ∧
    (∀ n : Fin 32,
      (s.runsWord i (encI 0x05 rd rs1 n) → exec (.shli i rd rs1 n) s = .next (s.retires i.eng (·.setReg rd (a <<< n.val)))) ∧
      (s.runsWord i (encI 0x06 rd rs1 n) → exec (.shri i rd rs1 n) s = .next (s.retires i.eng (·.setReg rd (a >>> n.val)))) ∧
      (s.runsWord i (encI 0x07 rd rs1 n) → exec (.srai i rd rs1 n) s = .next (s.retires i.eng (·.setReg rd (a.sshiftRight n.val))))) ∧
    (∀ pos wid : Fin 32,
      (s.runsWord i (encI 0x09 rd rs1 (pos + 32 * wid.val)) → ∃ v : Word,
        exec (.bfx i rd rs1 pos wid) s = .next (s.retires i.eng (·.setReg rd v)) ∧
        ∀ k, k < 32 → v.getLsbD k = (decide (k ≤ wid.val ∧ pos.val + k < 32) && a.getLsbD (pos + k))) ∧
      (s.runsWord i (encI 0x0A rd rs1 (pos + 32 * wid.val)) → ∃ v : Word,
        exec (.bfi i rd rs1 pos wid) s = .next (s.retires i.eng (·.setReg rd v)) ∧
        ∀ k, k < 32 → v.getLsbD k =
          if pos.val ≤ k ∧ k ≤ pos + wid then a.getLsbD (k - pos) else (s.ereg i.eng rd).getLsbD k))

/-- Loads, stores and HINC (R274, R277 to R279).  At an aligned address a load gives the bytes there, little-endian, extended as R274 says;
a store and HINC write their bytes and no other: the byte at any address of any engine reads as before unless it is the same cell.  An
address is taken modulo 2^21, data memory appears 8 times, shared memory once for its cluster.  An uncorrectable word is used as read,
counted and reported.
The model's choices that it rests on are named in log entries 1 and 18. -/
def Obligations.EngineMemory : Prop :=
  (∀ (s : State) (e f : Eng) (a b : Word) (v : Byte), (ecell e a = ecell f b → s.ebyte e a = s.ebyte f b) ∧
    (s.setEbyte e a v).ebyte f b = (if ecell f b = ecell e a then v else s.ebyte f b)) ∧
  ∀ (s : State) (i : Issue) (rd rs1 : Reg) (imm : Half) (a : Word) (e : Nat), e = i.eng → a = s.ereg e rs1 + imm.signExtend 32 →
    (s.runsWord i (encI 0x10 rd rs1 imm.toNat) → exec (.lb i rd rs1 imm .ok) s =
      .next (s.retires e (·.setReg rd ((s.ebyte e a).signExtend 32)))) ∧
    (s.runsWord i (encI 0x11 rd rs1 imm.toNat) → exec (.lbu i rd rs1 imm .ok) s =
      .next (s.retires e (·.setReg rd ((s.ebyte e a).zeroExtend 32)))) ∧
    (s.runsWord i (encI 0x12 rd rs1 imm.toNat) → a.toNat % 2 = 0 → exec (.lh i rd rs1 imm .ok) s =
      .next (s.retires e (·.setReg rd ((s.ebyte e (a + 1) ++ s.ebyte e a).signExtend 32)))) ∧
    (s.runsWord i (encI 0x13 rd rs1 imm.toNat) → a.toNat % 2 = 0 → exec (.lhu i rd rs1 imm .ok) s =
      .next (s.retires e (·.setReg rd ((s.ebyte e (a + 1) ++ s.ebyte e a).zeroExtend 32)))) ∧
    (s.runsWord i (encI 0x14 rd rs1 imm.toNat) → a.toNat % 4 = 0 → exec (.lw i rd rs1 imm .ok) s =
      .next (s.retires e (·.setReg rd (s.ebyte e (a + 3) ++ s.ebyte e (a + 2) ++ s.ebyte e (a + 1) ++ s.ebyte e a)))) ∧
    (∀ w : Word, s.runsWord i (encI 0x14 rd rs1 imm.toNat) → a.toNat % 4 = 0 → isShared a = false → (s.eng e).cur = none →
      exec (.lw i rd rs1 imm (.uncorrectable w)) s = .next (((s.zbump (ZE.ECC.UE.geng e) 1).engEvent e 3 2
        ([0] ++ leBytes (s.eng e).pc 2 ++ leBytes a.toNat 4)).retires e (·.setReg rd w))) ∧
    (s.runsWord i (encI 0x15 rd rs1 imm.toNat) → exec (.sb i rd rs1 imm) s =
      .next ((s.setEbyte e a ((s.ereg e rd).extractLsb' 0 8)).retires e id)) ∧
    (s.runsWord i (encI 0x16 rd rs1 imm.toNat) → a.toNat % 2 = 0 → exec (.sh i rd rs1 imm) s =
      .next (((s.setEbyte e a ((s.ereg e rd).extractLsb' 0 8)).setEbyte e (a + 1) ((s.ereg e rd).extractLsb' 8 8)).retires e id)) ∧
    (s.runsWord i (encI 0x17 rd rs1 imm.toNat) → a.toNat % 4 = 0 → exec (.sw i rd rs1 imm) s =
      .next (((((s.setEbyte e a ((s.ereg e rd).extractLsb' 0 8)).setEbyte e (a + 1) ((s.ereg e rd).extractLsb' 8 8)).setEbyte e (a + 2)
        ((s.ereg e rd).extractLsb' 16 8)).setEbyte e (a + 3) ((s.ereg e rd).extractLsb' 24 8)).retires e id)) ∧
    (∀ v : Word, s.runsWord i (encI 0x18 rd rs1 imm.toNat) → a.toNat % 4 = 0 →
      v = (s.ebyte e (a + 3) ++ s.ebyte e (a + 2) ++ s.ebyte e (a + 1) ++ s.ebyte e a) + s.ereg e rd →
      exec (.hinc i rd rs1 imm .ok) s =
        .next (((((s.setEbyte e a (v.extractLsb' 0 8)).setEbyte e (a + 1) (v.extractLsb' 8 8)).setEbyte e (a + 2)
          (v.extractLsb' 16 8)).setEbyte e (a + 3) (v.extractLsb' 24 8)).retires e id))

/-- Branches and jumps (R273 to R275).  A taken branch goes to PC + 4 × off within 15 bits, one that is not taken to the next word; JAL and
JALR also write PC + 4; no register, memory or other state changes besides.
The model's choices that it rests on are named in log entries 1 and 18. -/
def Obligations.EngineBranches : Prop :=
  ∀ (s : State) (i : Issue) (rd rs1 rs2 : Reg) (a b : Word) (pc : Nat), a = s.ereg i.eng rs1 → b = s.ereg i.eng rs2 →
    pc = (s.eng i.eng).pc →
    (∀ (off : Half) (tgt : Nat), (tgt : Int) = ((pc : Int) + 4 * off.toInt) % 32768 →
      (s.runsWord i (encI 0x20 rs1 rs2 off.toNat) → exec (.beq i rs1 rs2 off) s =
        .next (if a = b then s.jumps i.eng tgt id else s.retires i.eng id)) ∧
      (s.runsWord i (encI 0x21 rs1 rs2 off.toNat) → exec (.bne i rs1 rs2 off) s =
        .next (if a ≠ b then s.jumps i.eng tgt id else s.retires i.eng id)) ∧
      (s.runsWord i (encI 0x22 rs1 rs2 off.toNat) → exec (.blt i rs1 rs2 off) s =
        .next (if a.toInt < b.toInt then s.jumps i.eng tgt id else s.retires i.eng id)) ∧
      (s.runsWord i (encI 0x23 rs1 rs2 off.toNat) → exec (.bge i rs1 rs2 off) s =
        .next (if b.toInt ≤ a.toInt then s.jumps i.eng tgt id else s.retires i.eng id)) ∧
      (s.runsWord i (encI 0x24 rs1 rs2 off.toNat) → exec (.bltu i rs1 rs2 off) s =
        .next (if a.toNat < b.toNat then s.jumps i.eng tgt id else s.retires i.eng id)) ∧
      (s.runsWord i (encI 0x25 rs1 rs2 off.toNat) → exec (.bgeu i rs1 rs2 off) s =
        .next (if b.toNat ≤ a.toNat then s.jumps i.eng tgt id else s.retires i.eng id))) ∧
    (∀ (off : BitVec 21) (tgt : Nat), (tgt : Int) = ((pc : Int) + 4 * off.toInt) % 32768 → s.runsWord i (encJ rd off.toNat) →
      exec (.jal i rd off) s = .next (s.jumps i.eng tgt (·.setReg rd (BitVec.ofNat 32 (pc + 4))))) ∧
    (∀ imm : Half, s.runsWord i (encI 0x29 rd rs1 imm.toNat) → (a + imm.signExtend 32).toNat % 4 = 0 →
      exec (.jalr i rd rs1 imm) s = .next (s.jumps i.eng ((a + imm.signExtend 32).toNat % 32768)
        (·.setReg rd (BitVec.ofNat 32 (pc + 4)))))

/-- Streams and control (R274, R275, R280, R281, R285, R297).  IN pops the head item or returns BLANK; IN.W changes nothing while there is
no message; PEEK pops nothing; OUT pushes an item; OUTM ends the message, which goes to the ring as PRIM, or as telemetry; OUTM.E
on an empty message sends nothing; TICK gives F × 4,096; EVENT raises kind 0; YIELD releases the message and takes the next
or waits; HALT enters HALTED with the PC of the next instruction.
The model's choices that it rests on are named in log entries 1 and 18. -/
def Obligations.EngineStreams : Prop :=
  ∀ (s : State) (i : Issue) (rd : Reg) (e : Nat) (x : Engine) (v : Nat), e = i.eng → s.eng e = x → v = (s.ereg e rd).toNat →
    (∀ (m : EngMsg) (it : Nat) (rest : List Nat), x.cur = some m → m.items = it :: rest →
      (s.runsWord i (encI 0x30 rd 0 0) → exec (.inp i rd) s = .next (s.retires e fun x =>
        { x with cur := some { m with items := rest } }.setReg rd (BitVec.ofNat 32 it))) ∧
      (s.runsWord i (encI 0x30 rd 0 1) → exec (.inpW i rd) s = .next (s.retires e fun x =>
        { x with cur := some { m with items := rest } }.setReg rd (BitVec.ofNat 32 it))) ∧
      (∀ k : Fin 8, s.runsWord i (encI 0x31 rd 0 k) → exec (.peek i rd k) s =
        .next (s.retires e (·.setReg rd (BitVec.ofNat 32 ((it :: rest).getD k 0)))))) ∧
    (x.cur = none →
      (s.runsWord i (encI 0x30 rd 0 0) → exec (.inp i rd) s = .next (s.retires e (·.setReg rd 0))) ∧
      (s.runsWord i (encI 0x30 rd 0 1) → exec (.inpW i rd) s = .next s)) ∧
    (s.engRole e = 1 ∨ s.engRole e = 2 → x.out.length < 5 → s.runsWord i (encI 0x32 rd 0 0) →
      exec (.out i rd) s = .next (s.retires e fun x => { x with out := x.out ++ [v % 2 ^ 18], opened := true })) ∧
    (∀ m : EngMsg, s.engRole e = 0 → x.cur = some m → x.ended = false → x.out = [] → bitAt v 17 = true → (v % 256) ∈ m.ports →
      0 < m.size → s.runsWord i (encI 0x32 rd 0 0) →
      exec (.out i rd) s = .next (s.retires e fun x => { x with out := [v % 2 ^ 18], opened := true })) ∧
    (s.engRole e = 2 → x.out = [] → s.runsWord i (encI 0x33 rd 0 0) →
      exec (.outm i rd) s = .next ((s.engEvent e 1 0 ([1] ++ leBytes (v % 65536) 2)).retires e fun x =>
        { x with out := [], opened := false })) ∧
    (s.engRole e = 1 → s.zget (ZE.CTL.DEST.geng e) = 0 → x.out = [] → s.runsWord i (encI 0x33 rd 0 0) →
      exec (.outm i rd) s = .next ((s.ringEast ([6, b8 (s.zget Z.RING_CFG.NODE_ID), b8 e, 1] ++ beBytes (v % 65536) 2 ++
        List.replicate 8 0 ++ beBytes (x.frame % 65536) 2)).retires e fun x => { x with out := [], opened := false })) ∧
    (s.engRole e = 1 ∨ s.engRole e = 2 → x.out = [] → s.runsWord i (encI 0x33 rd 0 1) →
      exec (.outmE i rd) s = .next (s.retires e fun x => { x with out := [], opened := false })) ∧
    (s.engRole e = 0 → x.ended = false → x.out = [] → s.runsWord i (encI 0x33 rd 0 1) →
      exec (.outmE i rd) s = .next (s.retires e fun x => { x with opened := false, ended := true })) ∧
    (s.runsWord i (encI 0x34 rd 0 0) → exec (.tick i rd false) s =
      .next (s.retires e (·.setReg rd (BitVec.ofNat 32 (x.frame * 4096))))) ∧
    (s.runsWord i (encI 0x34 rd 0 1) → exec (.tick i rd true) s =
      .next (s.retires e (·.setReg rd (BitVec.ofNat 32 (x.frame * 4096 / 2 ^ 32))))) ∧
    (s.runsWord i (encI 0x35 rd 0 0) → exec (.event i rd) s = .next (((s.zput (ZE.EVVAL.VALUE.geng e) v).engEvent e 0 0
      ([0] ++ leBytes x.pc 2 ++ leBytes v 4 ++ leBytes (s.zget (ZE.MSGS.COUNT.geng e)) 4)).retires e id)) ∧
    (∀ m : EngMsg, s.engRole e ≠ 0 → x.opened = false → x.cur = some m → m.job = none → s.runsWord i (encI 0x36 0 0 0) →
      (∀ (n : EngMsg) (rest : List EngMsg), x.inq = n :: rest →
        exec (.yield i) s = .next (((s.zbump (ZE.MSGS.COUNT.geng e) 1).zput (ZE.STAT.MSG_OPEN.geng e) 1).retires e fun x =>
          { x with cur := some n, frame := n.frame, yielded := false, out := [], opened := false, ended := false, inq := rest })) ∧
      (x.inq = [] →
        exec (.yield i) s = .next (((s.zbump (ZE.MSGS.COUNT.geng e) 1).zput (ZE.STAT.MSG_OPEN.geng e) 0).retires e fun x =>
          { x with cur := none, out := [], opened := false, ended := false, yielded := true }))) ∧
    (s.engRole e ≠ 0 → x.opened = false → x.cur = none → s.runsWord i (encI 0x37 0 0 0) →
      ∃ t, exec (.halt i) s = .next t ∧ t = (s.updEngines fun _ => t.engines).updZreg (fun _ => t.zreg) ∧
        regsBut [ZE.STAT.STATE.geng e, ZE.STAT.FAULT.geng e, ZE.STAT.MSG_OPEN.geng e, ZE.FPC.PC.geng e, ZE.INSTR.COUNT.geng e] s t ∧
        t.engState e = 4 ∧ t.zget (ZE.FPC.PC.geng e) = (x.pc + 4) % 32768 ∧ t.zget (ZE.STAT.FAULT.geng e) = 0 ∧
        (t.eng e).dmem = x.dmem ∧ (t.eng e).regs = x.regs ∧ (t.eng e).inq = [])

/-- Faults and what stops an engine (R271, R279, R284, R289, R291, R293).  A word of no row, or one with an uncorrectable error,
faults with ILLEGAL, a misaligned access or target with MISALIGN, a sixth halfword with OVERRUN, an expired watchdog with WATCHDOG; the
faulting instruction has no effect but the fault: FAULTED, FPC, FINFO, STAT.FAULT, and both memories kept.  An engine that does
not issue changes nothing.  OFF is refused while RUNNING and loses the memories otherwise; a feed reset leaves a QRESET marker.
The model's choices that it rests on are named in log entries 1 and 18. -/
def Obligations.EngineFaults : Prop :=
  (∀ (s : State) (e : Eng) (code : Fin 16) (info : Nat), info < 2 ^ 32 → s.engRole e ≠ 0 → (s.eng e).pc < 32768 →
    (∀ m, (s.eng e).cur = some m → m.job = none) →
    ∃ t, s.engFault e code info = t ∧ t.engState e = 5 ∧ t.zget (ZE.STAT.FAULT.geng e) = code % 2 ^ ZE.STAT.FAULT.wid ∧
      t.zget (ZE.FPC.PC.geng e) = (s.eng e).pc ∧ t.zget (ZE.FINFO.INFO.geng e) = info ∧ t.zget (ZE.STAT.MSG_OPEN.geng e) = 0 ∧
      (t.eng e).dmem = (s.eng e).dmem ∧ (t.eng e).imem = (s.eng e).imem ∧ (t.eng e).cur = none ∧ (t.eng e).inq = [] ∧
      t.shm = s.shm ∧ t.buf = s.buf ∧ t.xtr = s.xtr ∧ (∀ f : Eng, f ≠ e → t.eng f = s.eng f) ∧
      t.zget (ZE.INSTR.COUNT.geng e) = s.zget (ZE.INSTR.COUNT.geng e)) ∧
  ∀ (s : State) (e : Eng) (rd rs1 rs2 : Reg) (imm : Half) (w : Word), w = (s.eng e).fetch →
    (s.engReady e = true → legalWord w.toNat = false →
      exec (.add ⟨e, .ok⟩ rd rs1 rs2) s = .next (s.engFault e 1 w.toNat) ∧
      exec (.yield ⟨e, .ok⟩) s = .next (s.engFault e 1 w.toNat)) ∧
    (∀ x : Word, s.engReady e = true →
      exec (.add ⟨e, .uncorrectable x⟩ rd rs1 rs2) s = .next ((s.zbump (ZE.ECC.UE.geng e) 1).engFault e 1 x.toNat)) ∧
    (s.engReady e = true → w.toNat = encR 0 rd rs1 rs2 →
      exec (.add ⟨e, .corrected⟩ rd rs1 rs2) s = exec (.add ⟨e, .ok⟩ rd rs1 rs2) (s.zbump (ZE.ECC.CE.geng e) 1)) ∧
    (s.engReady e = false → exec (.add ⟨e, .ok⟩ rd rs1 rs2) s = .next s ∧ exec (.yield ⟨e, .ok⟩) s = .next s) ∧
    (∀ (a : Word) (x : Ecc), a = s.ereg e rs1 + imm.signExtend 32 → s.engReady e = true →
      (w.toNat = encI 0x14 rd rs1 imm.toNat → a.toNat % 4 ≠ 0 →
        exec (.lw ⟨e, .ok⟩ rd rs1 imm x) s = .next (s.engFault e 2 a.toNat)) ∧
      (w.toNat = encI 0x12 rd rs1 imm.toNat → a.toNat % 2 ≠ 0 →
        exec (.lh ⟨e, .ok⟩ rd rs1 imm x) s = .next (s.engFault e 2 a.toNat)) ∧
      (w.toNat = encI 0x13 rd rs1 imm.toNat → a.toNat % 2 ≠ 0 →
        exec (.lhu ⟨e, .ok⟩ rd rs1 imm x) s = .next (s.engFault e 2 a.toNat)) ∧
      (w.toNat = encI 0x17 rd rs1 imm.toNat → a.toNat % 4 ≠ 0 →
        exec (.sw ⟨e, .ok⟩ rd rs1 imm) s = .next (s.engFault e 2 a.toNat)) ∧
      (w.toNat = encI 0x16 rd rs1 imm.toNat → a.toNat % 2 ≠ 0 →
        exec (.sh ⟨e, .ok⟩ rd rs1 imm) s = .next (s.engFault e 2 a.toNat)) ∧
      (w.toNat = encI 0x18 rd rs1 imm.toNat → a.toNat % 4 ≠ 0 →
        exec (.hinc ⟨e, .ok⟩ rd rs1 imm x) s = .next (s.engFault e 2 a.toNat)) ∧
      (w.toNat = encI 0x29 rd rs1 imm.toNat → a.toNat % 4 ≠ 0 →
        exec (.jalr ⟨e, .ok⟩ rd rs1 imm) s = .next (s.engFault e 2 a.toNat))) ∧
    (s.engReady e = true → w.toNat = encI 0x32 rd 0 0 → s.engRole e ≠ 0 → (s.eng e).out.length = 5 →
      exec (.out ⟨e, .ok⟩ rd) s = .next (s.engFault e 3 (1 + 256 * 5))) ∧
    (s.engReady e = true → w.toNat = encI 0x36 0 0 0 → (s.eng e).opened = true →
      exec (.yield ⟨e, .ok⟩) s = .next (s.engFault e 3 (3 + 256 * (s.eng e).out.length))) ∧
    (s.engReady e = true → w.toNat = encI 0x33 rd 0 0 → s.engRole e ≠ 0 → (s.eng e).out.length = 5 →
      exec (.outm ⟨e, .ok⟩ rd) s = .next (s.engFault e 3 (1 + 256 * 5))) ∧
    (s.engReady e = true → w.toNat = encI 0x32 rd 0 0 → s.engRole e = 0 → (s.eng e).ended = true →
      exec (.out ⟨e, .ok⟩ rd) s = .next (s.engFault e 3 (2 + 256 * (s.eng e).out.length))) ∧
    (s.engReady e = true → w.toNat = encI 0x37 0 0 0 → (s.eng e).opened = true →
      exec (.halt ⟨e, .ok⟩) s = .next (s.engFault e 3 (3 + 256 * (s.eng e).out.length))) ∧
    (s.engState e = 3 → (s.eng e).yielded = false → s.zget (ZE.WD.LOG2.geng e) ≠ 0 →
      exec (.watchdogExpiry e) s = .next (s.engFault e 4 (2 ^ max 10 (s.zget (ZE.WD.LOG2.geng e))))) ∧
    (s.zget (ZE.WD.LOG2.geng e) = 0 → exec (.watchdogExpiry e) s = .next s) ∧
    (s.engRole e ≠ 0 → s.engState e = 3 →
      ∃ items, exec (.engineFeedPtrReset e) s = .next ((s.updEng e fun x => { x with
          inq := [], cur := x.cur.map fun m => { m with items := items } }).zbump (ZE.FEED.DROPPED.geng e) 0xFFFF) ∧
        items.length = 4 ∧ items.map (· % 65536) = halves (zMarker 0 4 0 0xFFFF 0) 4 ∧ items.map (· / 65536) = [1, 1, 1, 5]) ∧
    (s.engRole e = 0 → exec (.engineFeedPtrReset e) s = .next s) ∧
    (s.bar0Open → s.zget (ZE.CTL.OFF.geng e) = 0 →
      (s.engState e = 3 → exec (.engineOffWrite e true) s = .next (s.zput (ZE.CTL.REFUSED.geng e) 1)) ∧
      (s.engState e ≠ 3 → exec (.engineOffWrite e true) s = .next (((((s.updEng e fun _ => {}).zput (ZE.CTL.OFF.geng e) 1).zput
        (ZE.STAT.STATE.geng e) 0).zput (ZE.STAT.PROG.geng e) 0).zput (ZE.STAT.ROLE.geng e) 0))) ∧
    (s.bar0Open → s.zget (ZE.CTL.OFF.geng e) = 1 → s.zget (ZC.CTL.EN.gcl (e / 24)) = 1 →
      exec (.engineOffWrite e false) s = .next ((s.zput (ZE.CTL.OFF.geng e) 0).zput (ZE.STAT.STATE.geng e) 1))

/-! ### CTRL commands -/

/-- Front-end commands (R242 to R245, R388, R395, R397, R266).  A command with its ports in ACTIVE sends its downlink blocks and awaits
a reply to each, a port that is not in ACTIVE fails it, PORTS 0 completes it OK, a breach of its rules completes it REJECTED_PARAM, a
tick that is too near LATE_TICK.  A block goes out with the lowest free TAG.  COMMIT blocks go out when their tick falls due, held
commits after clearance for a frame start.  A damaged image is a decode error, a sound one is applied.
The model's choices that it rests on are named in log entries 1 and 11. -/
def Obligations.CtrlFrontEnd : Prop :=
  (∀ (s : State) (p : Port) (i : DlItem), s.linkUp p = true → (s.port p).dlWait = [] → (s.port p).outst = [] → i.sh = false →
    s.zget (ZP.DLSTAT.QUIET.port p) = 0 →
    ∃ b : Block, s.dlSend p [i] = (s.setPort p { s.port p with
        dlSeq := ((s.port p).dlSeq + 1) % 256,
        outst := [⟨0, i.purpose, i.op, replies i.op i.bytes, s.time⟩] }).emit (.downlink p b (blockCrc b)) ∧
      b = { kind := .data, seq := (s.port p).dlSeq, payload := pad16 ([b8 i.op, 0] ++ i.bytes) }) ∧
  (∀ (s : State) (p : Port) (tag : Word) (ports : Half) (arg : List Byte) (c : Cmd), s.ctrlOpen → arg.length = 24 →
    ports.toNat = 2 ^ p.val →
    (c = s.newCmd 1 tag ports arg none → c.wellFormed = true →
      (s.linkUp p = true → bitAt (c.num 0 1) 0 = false →
        exec (.feWrite tag ports arg) s = .next ((s.after { c with left := [(p.val, 1)] }).dlSend p
          [regWr (.cmd c.id) [(c.num 2 2, c.num 8 2)]])) ∧
      (s.linkUp p = true → c.num 0 1 = 1 → c.num 4 2 ≤ 511 → c.num 6 2 ≤ 511 →
        exec (.feWrite tag ports arg) s = .next ((s.after { c with left := [(p.val, 1)] }).dlSend p
          [{
            purpose := .cmd c.id, op := 3, sh := false, bytes := [0, 0] ++ beBytes (c.num 4 2) 2 ++ beBytes (c.num 6 2) 2 ++
            beBytes (c.num 8 2) 2 }])) ∧
      (bitAt (c.num 0 1) 0 = true → 511 < c.num 4 2 ∨ 511 < c.num 6 2 →
        exec (.feWrite tag ports arg) s = .next (s.after { c with result := some 2 })) ∧
      (s.linkUp p = false → bitAt (c.num 0 1) 0 = false →
        exec (.feWrite tag ports arg) s = .next (s.after { c with fail := 2 ^ p.val, result := some 1 })) ∧
      (bitAt (c.num 0 1) 0 = false →
        exec (.feWrite tag 0 arg) s = .next (s.after { c with ports := 0, result := some 0 }))) ∧
    (c = s.newCmd 1 tag ports arg none → c.wellFormed = false →
      exec (.feWrite tag ports arg) s = .next (s.after { c with result := some 2 })) ∧
    (c = s.newCmd 2 tag ports arg none → c.wellFormed = true → c.num 8 8 % 32 = 0 → bitAt (c.num 0 1) 0 = false → s.linkUp p = true →
      exec (.feRead tag ports arg) s = .next ((s.after { c with left := [(p.val, 1)] }).dlSend p
        [{ purpose := .cmd c.id, op := 2, sh := false, bytes := [b8 (c.num 0 1 / 2), 0] ++ beBytes (c.num 2 2) 2 }])) ∧
    (c = s.newCmd 2 tag ports arg none → c.wellFormed = true → c.num 8 8 % 32 ≠ 0 →
      exec (.feRead tag ports arg) s = .next (s.after { c with result := some 2 })) ∧
    (∀ img : List Byte, c = s.newCmd 3 tag ports arg (some img) → c.wellFormed = true → c.num 0 1 = 0 → 0 < c.num 8 4 →
      c.num 8 4 ≤ 6 → c.num 4 4 + c.num 8 4 ≤ 262144 → c.num 20 4 = 2 * c.num 8 4 → img.length = 2 * c.num 8 4 → s.linkUp p = true →
      exec (.feBulk tag ports arg (some img)) s = .next ((s.after { c with rdata := leBytes (c.num 8 4) 4, left := [(p.val, 2)] }).dlSend p
        [regWr (.cmd c.id) [(0x20, c.num 4 4 / 512 + 512), (0x21, c.num 4 4 % 512)],
          { purpose := .cmd c.id, op := 5, sh := false, bytes := [b8 (c.num 8 4), 0] ++ halvesBytes (leHalves img) }])) ∧
    (∀ data, c = s.newCmd 3 tag ports arg data → c.wellFormed = true → c.num 8 4 = 0 ∨ 262144 < c.num 4 4 + c.num 8 4 →
      exec (.feBulk tag ports arg data) s = .next (s.after { c with result := some 2 })) ∧
    (∀ t : Nat, c = s.newCmd 4 tag ports arg none → c.wellFormed = true → c.num 0 8 = t →
      (t < s.nowTick + 20480 → exec (.commitAt tag ports arg) s = .next (s.after { c with result := some 3 })) ∧
      (s.nowTick + 20480 ≤ t →
        exec (.commitAt tag ports arg) s = .next ((s.after { c with tick := t, rdata := leBytes t 8 }).updPort p fun q =>
          { q with commitTill := s.tickTime t }))) ∧
    (∀ t : Nat, c = s.newCmd 5 tag 0 arg none → c.wellFormed = true → c.num 0 8 = t → s.snapUnbuilt = false →
      (c.num 8 8 % 4096 ≠ 0 → exec (.trueSnap tag 0 arg) s = .next (s.after { c with result := some 2 })) ∧
      (t ≠ 0 → t < s.nowTick + 20477 → c.num 8 8 % 4096 = 0 → exec (.trueSnap tag 0 arg) s = .next (s.after { c with result := some 3 })) ∧
      (t % 4 = 0 → s.nowTick + 20480 ≤ t → c.num 8 8 % 4096 = 0 → s.buf.stageLost = false → s.snaps.length < 256 →
        exec (.trueSnap tag 0 arg) s = .next ((s.after { c with tick := t, rdata := leBytes t 8 }).updSnaps (· ++
          [{ seq := s.zget Z.TRUE_SEQ.SEQ + 1, tick := t, instant := s.tickTime t, cmd := some c.id, tag := c.tag,
             dest := c.num 8 8, runId := s.run.id }]))))) ∧
  (∀ (s : State) (p : Port) (c : Cmd) (q : PortIn), s.cmds = [c] → s.port p = q → c.opcode = 4 → c.started = true → c.result = none →
    c.ports = 2 ^ p.val → c.fail = 0 → q.dlWait = [] → s.linkUp p = true → s.snaps = [] → s.warned = false →
    (c.armed = false → s.tickTime c.tick ≤ s.time + 8192 * tickUnits →
      exec .commitArmSend s = .next (((s.updCmds fun _ => [{ c with
          armed := true, held := false, rdata := leBytes c.tick 8, left := [(p.val, 1)] }]).setPort p { q with
            commitPend := false, commitTill := s.tickTime c.tick }).dlSend p [{
              purpose := .cmd c.id, op := 6, sh := false, bytes := [0, 0] ++ beBytes (c.tick / 4096 % 2 ^ 32) 4 ++ beBytes (c.tick % 4096) 2 }])) ∧
    (c.armed = false → s.time + 8192 * tickUnits < s.tickTime c.tick → exec .commitArmSend s = .next s) ∧
    (c.held = true → s.epochTime ≤ s.time →
      ∃ t, t % 4096 = 0 ∧ s.time + 8192 * tickUnits ≤ s.tickTime t ∧ s.tickTime t < s.time + 12288 * tickUnits ∧
        exec .commitReissue s = .next (((s.updCmds fun _ => [{ c with
          armed := true, held := false, tick := t, rdata := leBytes t 8, left := [(p.val, 1)] }]).setPort p { q with
            commitPend := false, commitTill := s.tickTime t }).dlSend p [{
              purpose := .cmd c.id, op := 6, sh := false, bytes := [0, 0] ++ beBytes (t / 4096 % 2 ^ 32) 4 ++ beBytes 0 2 }]))) ∧
  (∀ s : State, s.warned = true → exec .commitReissue s = .next s) ∧
  (∀ (s : State) (c : Cmd) (img : List Byte), s.cmds = [c] → c.opcode = 3 → c.started = true → c.result = none → c.left = [] → c.tick = 0 →
    bitAt (c.num 0 1) 0 = true → c.image = some img →
    (∀ code off : Nat, inflate (sourceBytes img (c.num 20 4)) (2 * c.num 8 4) = .error (code, off) →
      exec .decompressImage s = .next ((((s.zbump Z.COMP_DEC.ERRORS 1).zput Z.COMP_DEC.LAST_ERR code).raise 543
        (leBytes 3 2 ++ leBytes c.tag 4 ++ [b8 code] ++ leBytes off 4)).updCmds fun _ => [{ c with result := some 2, rdata := [] }])) ∧
    (∀ bs : List Byte, inflate (sourceBytes img (c.num 20 4)) (2 * c.num 8 4) = .ok bs → bs.length = 2 * c.num 8 4 → c.ports = 0 →
      exec .decompressImage s = .next ((s.zbump Z.COMP_DEC.IMAGES 1).updCmds fun _ =>
        [{ c with tick := 1, rdata := leBytes (c.num 8 4) 4, result := some 0 }])))

/-- Commands to engines, pins, marks, fences, the monitor and runs (R165 to R167, R242 to R244, R272, R286, R287, R369).  A load sets the
engine's memories, role, program, watchdog and limit; a start sets PC and registers; a stop halts; refusals change nothing but the
command.  A PIN of frames to come takes a slot, UNPIN frees one.  MARK stands in the next frame; FENCE completes at once or waits.  RUN_START sets epoch,
RUN_ID and the first frame; RUN_STOP sets the last one.
The model's choices that it rests on are named in log entries 1 and 11. -/
def Obligations.CtrlRunsAndEngines : Prop :=
  ∀ (s : State) (tag : Word) (arg : List Byte) (c : Cmd), s.ctrlOpen → arg.length = 24 → c.wellFormed = true →
    (∀ e : Eng, c.num 0 1 = e.val / 24 → c.num 4 4 = 2 ^ (e.val % 24) →
      (∀ (m : EngImage) (img : List Byte), c = s.newCmd 0x10 tag 0 arg (some img) → c.num 3 1 = 0 → 0 < c.num 1 1 → c.num 1 1 < 128 →
        c.num 2 1 < 3 → c.num 16 4 = img.length →
        (parseImage (c.num 2 1) img = none → exec (.engineLoad tag 0 arg (some img)) s = .next (s.after { c with result := some 2 })) ∧
        (parseImage (c.num 2 1) img = some m → (∀ f : Eng, s.engProg f = c.num 1 1 → s.engRole f = c.num 2 1) →
          (s.engState e = 0 ∨ s.engState e = 3 →
            exec (.engineLoad tag 0 arg (some img)) s = .next (s.after { c with result := some 4 })) ∧
          (s.engState e ≠ 0 → s.engState e ≠ 3 →
            ∃ t, exec (.engineLoad tag 0 arg (some img)) s = .next t ∧ t.cmds = [{ c with result := some 0 }] ∧ t.engState e = 2 ∧
              t.engRole e = c.num 2 1 ∧ t.engProg e = c.num 1 1 ∧ t.zget (ZE.WD.LOG2.geng e) = m.wd ∧
              t.zget (ZE.OUTLIM.EXTRA.geng e) = m.extra ∧
              (∀ k, k < 8192 → Tab.get 0 (t.eng e).imem k = m.words.getD k 0xDC000000#32) ∧
              (∀ k, k < 131072 → Tab.get 0 (t.eng e).dmem k = m.data.getD k 0) ∧ (∀ f : Eng, f ≠ e → t.eng f = s.eng f) ∧
              (∀ k, Tab.get 0 t.shm k = if e.val / 24 * 2 ^ 20 + m.soff ≤ k ∧ k < e.val / 24 * 2 ^ 20 + m.soff + m.shared.length
                then m.shared.getD (k - (e.val / 24 * 2 ^ 20 + m.soff)) 0 else Tab.get 0 s.shm k)))) ∧
      (c = s.newCmd 0x11 tag 0 arg none →
        (s.engState e = 0 ∨ s.engState e = 1 → exec (.engineStart tag 0 arg) s = .next (s.after { c with result := some 4 })) ∧
        (s.engState e = 3 → exec (.engineStart tag 0 arg) s = .next (s.after { c with result := some 0 })) ∧
        (s.engState e = 2 ∨ s.engState e = 4 ∨ s.engState e = 5 →
          ∃ t, exec (.engineStart tag 0 arg) s = .next t ∧ t.cmds = [{ c with result := some 0 }] ∧ t.engState e = 3 ∧ (t.eng e).pc = 0 ∧
            (t.eng e).reg 1 = BitVec.ofNat 32 e ∧ (t.eng e).reg 2 = BitVec.ofNat 32 (s.engRole e) ∧
            (∀ r : Reg, r ≠ 1 → r ≠ 2 → (t.eng e).reg r = 0) ∧ (t.eng e).dmem = (s.eng e).dmem ∧ (t.eng e).imem = (s.eng e).imem ∧
            t.shm = s.shm ∧ ∀ f : Eng, f ≠ e → t.eng f = s.eng f)) ∧
      (c = s.newCmd 0x12 tag 0 arg none →
        (s.engState e ≠ 3 → exec (.engineStop tag 0 arg) s = .next (s.after { c with result := some 0 })) ∧
        (s.engState e = 3 → s.engRole e ≠ 0 → (∀ m, (s.eng e).cur = some m → m.job = none) → (s.eng e).pc < 32768 →
          ∃ t, exec (.engineStop tag 0 arg) s = .next t ∧ t.cmds = [{ c with result := some 0 }] ∧ t.engState e = 4 ∧
            t.zget (ZE.FPC.PC.geng e) = (s.eng e).pc ∧ t.zget (ZE.STAT.FAULT.geng e) = 0 ∧ (t.eng e).cur = none ∧ (t.eng e).inq = [] ∧
            (t.eng e).dmem = (s.eng e).dmem))) ∧
    (c = s.newCmd 0x20 tag 0 arg none →
      (c.num 16 2 = 0xFFFF → s.run.epoch = none → exec (.pin tag 0 arg) s = .next (s.after { c with result := some 4 })) ∧
      (c.num 16 2 ≠ 0xFFFF → c.num 8 8 < c.num 0 8 → exec (.pin tag 0 arg) s = .next (s.after { c with result := some 2 })) ∧
      (s.run.active = true → c.num 16 2 = s.run.id → s.run.id ≠ 0xFFFF → c.num 0 8 ≤ c.num 8 8 →
        (s.epochTime : Int) + c.num 8 8 * tickUnits ≤ (s.time : Int) + 12800000 * tickUnits → s.run.epoch.isSome = true →
        s.run.last = none → s.buf.pins = [] → s.buf.dir = [] → s.buf.pdir = [] → s.buf.billets = [] → s.buf.pinLost = false →
        s.mNext ≤ c.num 8 8 / 4096 →
        exec (.pin tag 0 arg) s = .next ((s.after c).updBuf fun b => { b with pins := Tab.set none [] 0 (some {
          first := c.num 0 8 / 4096, last := c.num 8 8 / 4096, runId := s.run.id, cmd := some c.id }) }))) ∧
    (c = s.newCmd 0x21 tag 0 arg none →
      (63 < c.num 0 1 → exec (.unpin tag 0 arg) s = .next (s.after { c with result := some 2 })) ∧
      (c.num 0 1 < 64 → Tab.get none s.buf.pins (c.num 0 1) = none →
        exec (.unpin tag 0 arg) s = .next (s.after { c with result := some 4 })) ∧
      (∀ r : PinRange, c.num 0 1 < 64 → s.buf.pinLost = false → Tab.get none s.buf.pins (c.num 0 1) = some r → r.cmd = none →
        r.billets = [] → s.buf.pdir = [] →
        exec (.unpin tag 0 arg) s = .next ((s.after { c with result := some 0 }).updBuf fun b => { b with
          pins := Tab.set none b.pins (c.num 0 1) none }))) ∧
    (c = s.newCmd 0x30 tag 0 arg none →
      (c.num 0 4 = 0 → exec (.mark tag 0 arg) s = .next (s.after { c with result := some 2 })) ∧
      (c.num 0 4 ≠ 0 → s.run.active = false → exec (.mark tag 0 arg) s = .next (s.after { c with result := some 4 })) ∧
      (c.num 0 4 ≠ 0 → s.run.active = true → s.run.last = none →
        exec (.mark tag 0 arg) s = .next (s.after { c with tick := s.mNext }))) ∧
    (c = s.newCmd 0x40 tag 0 arg none →
      (c.num 0 1 = 0 → exec (.fence tag 0 arg) s = .next (s.after { c with tick := s.xtr.fetched, result := some 0 })) ∧
      (∀ x : Ctx, c.num 0 1 = 1 → s.oneCtx x → (∃ n, x.fetched = some n ∧ n < s.xtr.fetched) →
        exec (.fence tag 0 arg) s = .next (s.after { c with tick := s.xtr.fetched }))) ∧
    (∀ data, c = s.newCmd 0x50 tag 0 arg data →
      (c.num 8 4 % 8 ≠ 0 ∨ c.num 8 4 < 8 ∨ 2048 < c.num 8 4 →
        exec (.monCfg tag 0 arg data) s = .next (s.after { c with result := some 2 })) ∧
      (∀ img : List Byte, data = some img → c.num 8 4 = img.length → img.length % 8 = 0 → 8 ≤ img.length → img.length ≤ 2048 →
        exec (.monCfg tag 0 arg data) s = .next (s.after (if (monEntries img).all monEntryOk = true then c
          else { c with result := some 2 })))) ∧
    (c = s.newCmd 0x60 tag 0 arg none →
      (s.run.active = true → exec (.runStart tag 0 arg) s = .next (s.after { c with result := some 4 })) ∧
      (s.run.active = false → s.ringEn = false → s.canRun = true → s.pasr = false →
        (1000000000 ≤ c.num 6 4 → exec (.runStart tag 0 arg) s = .next (s.after { c with result := some 2 })) ∧
        (∀ e : Nat, c.num 6 4 < 1000000000 → s.time + 1000000 * nsUnits ≤ e →
          (c.num 0 6 ≠ 0 ∨ c.num 6 4 ≠ 0 → e = (c.num 0 6 * 1000000000 + c.num 6 4) * nsUnits) →
          (c.num 0 6 = 0 → c.num 6 4 = 0 → e % (1000000 * nsUnits) = 0 ∧ s.time + 2000000 * nsUnits ≤ e ∧
            e < s.time + 3000000 * nsUnits) →
          ∃ t, exec (.runStart tag 0 arg) s = .next t ∧ t.run.active = true ∧ t.run.epoch = some e ∧ t.run.last = none ∧
            t.run.id = (if 0xFFFE ≤ s.run.id then 0 else s.run.id + 1) ∧ t.mNext = 0 ∧ t.zget Z.TIME_STAT.RUN_ACTIVE = 1 ∧
            t.cmds = [{ c with
              result := some 0, rdata := leBytes t.run.id 2 ++ [0, 0] ++ leBytes (e / nsUnits % 1000000000) 4 ++
              leBytes (e / nsUnits / 1000000000) 6 }] ∧ t.buf.mem = s.buf.mem ∧ t.chips = s.chips))) ∧
    (c = s.newCmd 0x61 tag 0 arg none →
      (s.run.active = false → exec (.runStop tag 0 arg) s = .next (s.after { c with result := some 4 })) ∧
      (s.run.active = true → s.ringEn = false → c.num 8 8 ≠ 0 → s.mNext ≤ c.num 8 8 / 4096 → s.xtr.ctxs = [] →
        exec (.runStop tag 0 arg) s = .next ((s.after c).updRun fun r => { r with
          pasr := bitAt (c.num 0 1) 0, last := some (c.num 8 8 / 4096) })))

/-! ### Host rings and the Pelnos downlink -/

/-- Rings, doorbells and messages (R232 to R237, R240, R243, R244, R247, R249).  A doorbell moves the index of an enabled ring within SIZE,
never backwards, and is recorded for a disabled host-written ring; enabling resets the indices or takes what is recorded, disabling stops; a fetched
entry with an unknown opcode completes REJECTED_PARAM; the oldest finished command gets its entry; late and masked messages are sent; a reply that
does not come fails its command; a failed read or write stops the ring and reports it; starvation is reported once.
The model's choices that it rests on are named in log entries 1, 8, 11 and 12. -/
def Obligations.HostRings : Prop :=
  ∀ s : State,
    (∀ (r : Fin 8) (v : Word) (own : Nat), own = s.zget (if r.val < 6 then ZR.CIDX.INDEX.hring r else ZR.PIDX.INDEX.hring r) →
      (s.safe = true → exec (.doorbellWrite r v) s = .next s) ∧
      (s.bar0Open → s.zget (ZR.CFG.EN.hring r) = 0 → r.val < 6 →
        exec (.doorbellWrite r v) s = .next (s.updHost fun h => { h with bell := Tab.set none h.bell r (some v.toNat) })) ∧
      (s.bar0Open → s.zget (ZR.CFG.EN.hring r) = 0 → 6 ≤ r.val → exec (.doorbellWrite r v) s = .next s) ∧
      (s.bar0Open → s.zget (ZR.CFG.EN.hring r) = 1 → r.val < 6 →
        (s.ringSize r < idxDiff v.toNat own → exec (.doorbellWrite r v) s = .next (s.ringErr r 0 v.toNat)) ∧
        (idxDiff v.toNat own ≤ s.ringSize r → idxDiff v.toNat own < idxDiff (s.zget (ZR.PIDX.INDEX.hring r)) own →
          exec (.doorbellWrite r v) s = .next (s.ringErr r 1 v.toNat)) ∧
        (idxDiff v.toNat own ≤ s.ringSize r → idxDiff (s.zget (ZR.PIDX.INDEX.hring r)) own ≤ idxDiff v.toNat own →
          exec (.doorbellWrite r v) s = .next (s.zput (ZR.PIDX.INDEX.hring r) v.toNat))) ∧
      (s.bar0Open → s.zget (ZR.CFG.EN.hring r) = 1 → 6 ≤ r.val → idxDiff own v.toNat ≤ s.ringSize r →
        idxDiff own v.toNat ≤ idxDiff own (s.zget (ZR.CIDX.INDEX.hring r)) →
        exec (.doorbellWrite r v) s = .next ((s.zput (ZR.CIDX.INDEX.hring r) v.toNat).updHost fun h => { h with
          waitAt := Tab.set 0 h.waitAt r s.time }))) ∧
    (∀ (r : Fin 6) (w : Word) (n : Nat), s.bar0Open → s.zget (ZR.CFG.LOG2SIZE.hring r) = n → bitAt w.toNat 10 = false →
      (s.zget (ZR.CFG.EN.hring r) = 0 → w.toNat % 32 = n → 6 ≤ n → n ≤ 20 →
        ∃ t, exec (.ringEnable (Fin.castLE (by decide) r) w) s = .next t ∧ t.zget (ZR.CFG.EN.hring r) = 1 ∧
          t.zget (ZR.CIDX.INDEX.hring r) = 0 ∧ Tab.get none t.host.bell r = none ∧
          (Tab.get none s.host.bell r = none → t.zget (ZR.PIDX.INDEX.hring r) = 0) ∧
          (∀ v, Tab.get none s.host.bell r = some v → v < 2 ^ 32 →
            (v ≤ 2 ^ n → t.zget (ZR.PIDX.INDEX.hring r) = v) ∧
            (2 ^ n < v → t.zget (ZR.PIDX.INDEX.hring r) = 0 ∧ t.zget Z.HOST_ERR.RING_ERR = 1)) ∧
          ((∀ v, Tab.get none s.host.bell r = some v → v ≤ 2 ^ n) → t = (s.updZreg fun _ => t.zreg).updHost (fun _ => t.host) ∧
            regsBut [ZR.CFG.EN.hring r, ZR.CIDX.INDEX.hring r, ZR.PIDX.INDEX.hring r] s t)) ∧
      (s.zget (ZR.CFG.EN.hring r) = 0 → w.toNat % 32 = n → n < 6 ∨ 20 < n →
        exec (.ringEnable (Fin.castLE (by decide) r) w) s = .next (s.zput (ZR.CFG.ERR.hring r) 1)) ∧
      (s.zget (ZR.CFG.EN.hring r) = 1 →
        exec (.ringEnable (Fin.castLE (by decide) r) w) s =
          .next (if w.toNat % 32 = n then s else s.zput (ZR.CFG.REFUSED.hring r) 1)) ∧
      (w.toNat % 32 = n →
        exec (.ringDisable (Fin.castLE (by decide) r) w) s = .next (((s.zput (ZR.CFG.EN.hring r) 0).zput (ZR.CFG.ERR.hring r) 0).updHost
          fun h => { h with since := Tab.set 0 h.since r 0, waitAt := Tab.set 0 h.waitAt r 0, bell := Tab.set none h.bell r none }))) ∧
    (∀ (e : List Byte) (d : Option (List Byte)) (c : Cmd), s.ringUp 0 = true → s.unfetched 0 ≠ 0 → s.cmds = [] →
      c = { id := s.cmdCount, opcode := leNat (slice e 0 2), ports := leNat (slice e 2 2), tag := leNat (slice e 4 4),
            arg := (slice e 8 24 ++ List.replicate 24 0).take 24, image := d, started := true } → c.opcode ∉ ctrlOps →
      exec (.ctrlFetch e d) s = .next (s.after { c with result := some 2 })) ∧
    (∀ (e : List Byte) (d : Option (List Byte)), s.ringUp 0 = false ∨ s.unfetched 0 = 0 → exec (.ctrlFetch e d) s = .next s) ∧
    (∀ (c : Cmd) (r : Nat), s.cmds = [c] → c.started = true → c.result = some r → c.opcode ≠ 2 → c.opcode ≠ 4 →
      (s.ringRoom 6 = true →
        exec .ctrlCompletionWrite s = .next ((s.updCmds fun _ => []).cmplPut (leBytes c.tag 4 ++ leBytes c.opcode 2 ++ [b8 r, b8 c.cflags] ++
          leBytes c.fail 2 ++ [0, 0] ++ (c.rdata ++ List.replicate 16 0).take 16 ++ [0, 0, b8 (3 + 16 * 5)]))) ∧
      (s.ringRoom 6 = false → exec .ctrlCompletionWrite s = .next s)) ∧
    (∀ evt : Bool, ∀ r : Nat, r = (if evt then 7 else 6) → s.zget (ZR.CFG.EN.hring r) = 1 → Tab.get 0 s.host.since r ≠ 0 →
      idxDiff (s.zget (ZR.PIDX.INDEX.hring r)) (s.zget (ZR.CIDX.INDEX.hring r)) ≠ 0 →
      (Tab.get 0 s.host.waitAt r + max 1 (s.zget (ZR.COAL.TIMEOUT_US.hring r)) * 1000 * nsUnits ≤ s.time →
        exec (.msixTimeout evt) s = .next ((s.clearSince r).message (s.zget (ZR.CFG.VECTOR.hring r)))) ∧
      (s.time < Tab.get 0 s.host.waitAt r + max 1 (s.zget (ZR.COAL.TIMEOUT_US.hring r)) * 1000 * nsUnits →
        exec (.msixTimeout evt) s = .next s)) ∧
    (∀ (v : Fin 64) (e : MsixEntry), Tab.get {} s.host.msix v = e →
      (s.host.pba.getLsbD v = true →
        ∃ t, exec (.msixUnmask v) s = .next (t.emit (.msix v e.addr e.data)) ∧ t = s.updHost (fun _ => t.host) ∧
          t.host.pba = s.host.pba &&& ~~~ BitVec.ofNat 64 (2 ^ v.val) ∧ Tab.get {} t.host.msix v = { e with ctrl := 0 }) ∧
      (s.host.pba.getLsbD v = false →
        exec (.msixUnmask v) s = .next (s.updHost fun h => { h with msix := Tab.set {} h.msix v { e with ctrl := 0 } }))) ∧
    (∀ (p : Port) (q : PortIn) (o : Outst) (c : Cmd) (tag : Byte), s.port p = q → q.outst = [o] → q.dlWait = [] → o.tag = tag.toNat →
      s.cmds = [c] → o.purpose = .cmd c.id → c.opcode = 1 → c.started = true → c.result = none → c.fail = 0 → c.left = [(p.val, o.left)] →
      (o.sent + s.zget Z.HOST_TMO.FE_US * 1000 * nsUnits ≤ s.time →
        exec (.feReplyTimeout p tag) s = .next ((s.setPort p { q with outst := [] }).updCmds fun _ =>
          [{ c with fail := 2 ^ p.val, left := [], result := some 1 }])) ∧
      (s.time < o.sent + s.zget Z.HOST_TMO.FE_US * 1000 * nsUnits → exec (.feReplyTimeout p tag) s = .next s)) ∧
    (∀ (r : Fin 6) (cause : Fin 4), s.ringUp r = true → s.unfetched r ≠ 0 →
      ∃ t, exec (.hostReadFail (.ring r) cause) s = .next t ∧ t.zget (ZR.CFG.ERR.hring r) = 1 ∧ t.zget Z.HOST_ERR.RING_ERR = 1 ∧
        t.zget Z.HOST_ERR.DMA_ERR = 1 ∧ t.zget (ZR.CIDX.INDEX.hring r) = s.zget (ZR.CIDX.INDEX.hring r) ∧
        t.host.aerUnc = s.host.aerUnc ||| (if cause = 0 then 0x4000#32 else if cause = 1 then 0x1000#32 else 0#32) ∧
        bitAt (t.zget Z.HOST_EVSTAT.PEND) 3 = true ∧ bitAt (t.zget Z.HOST_EVSTAT.PEND) 1 = true ∧ t.xtr = s.xtr ∧ t.cmds = s.cmds) ∧
    (∀ (c : Cmd) (cause : Fin 4), s.cmds = [c] → c.started = true → c.result = none → c.image = none → c.opcode = 3 ∨ c.opcode = 0x10 →
      ∃ t, exec (.hostReadFail (.cmd c.id) cause) s = .next t ∧ t.cmds = [{ c with result := some 5, rdata := [], left := [] }] ∧
        t.zget Z.HOST_ERR.DMA_ERR = 1 ∧ t.zget Z.HOST_ERR.RING_ERR = s.zget Z.HOST_ERR.RING_ERR) ∧
    (∀ evt : Bool, ∀ r : Nat, r = (if evt then 7 else 6) → s.ringUp r = true →
      ∃ t, exec (.hostWriteFail (.entry evt)) s = .next t ∧ t.zget (ZR.CFG.ERR.hring r) = 1 ∧ t.zget Z.HOST_ERR.RING_ERR = 1 ∧
        t.zget (ZR.PIDX.INDEX.hring r) = s.zget (ZR.PIDX.INDEX.hring r) ∧ t.xtr = s.xtr ∧ t.cmds = s.cmds) ∧
    (s.zget Z.HOST_SHADOW.EN = 1 →
      ∃ t, exec (.hostWriteFail .shadow) s = .next t ∧ t.zget Z.HOST_SHADOW.EN = 0 ∧ t.zget Z.HOST_ERR.RING_ERR = 1) ∧
    (∀ (c : Ctx) (n : Fin 65536), s.oneCtx c → c.num = n →
      ∃ t, exec (.hostWriteFail (.stream n)) s = .next t ∧ t.oneCtx { c with poison := true } ∧ t.zget Z.HOST_ERR.DMA_ERR = 1) ∧
    (∀ c : Ctx, s.oneCtx c → c.starved = true → s.unfetched 5 = 0 →
      (s.host.starved = false → exec .bufStarveTimeout s = .next (((s.zput Z.HOST_ERR.STARVED 1).updHost fun h =>
        { h with starved := true }).raise 528 [1, 0, 0])) ∧
      (s.host.starved = true → exec .bufStarveTimeout s = .next s))

/-- Commands on the downlink (R245, R9, R323, R324, R391, R395).  Pelnos applies a register write to its word, an SH field in its staged
copy only, and answers with READBACK; it answers ERR to an address that does not decode, a bad count and an unknown OP; reads, pixel words and
streams are answered as asked; COMMIT waits for its tick, is refused when that has passed, and is cancelled by bit 15.  SYNC compares or loads
the counter, ECHO is answered, the hold ends; the commit applies the staged values; the snapshot latch arms and latches.
The model's choices that it rests on are named in log entries 1, 8, 11 and 12. -/
def Obligations.PelnosDownlink : Prop :=
  ∀ (s : State) (p : Port) (c : Pelnos), s.chip p = c →
    (∀ (b : RxBlock) (pl : List Byte) (tag : Nat), s.pelnosHears p b .data pl → byteAt pl 1 = tag →
      (byteAt pl 0 = 1 → byteAt pl 2 = 1 →
        (pDecodes (half pl 4) = true →
          exec (.regWr p b) s = .next ((s.pWrite p (half pl 4) (half pl 6)).updChip p fun c =>
            c.answers false false (half pl 4) (half pl 6) tag false)) ∧
        (pDecodes (half pl 4) = false →
          exec (.regWr p b) s = .next (s.setChip p (c.answers false false (half pl 4) 0 tag true))) ∧
        (half pl 4 = 0x11 →
          ∃ t, exec (.regWr p b) s = .next t ∧ t = s.setChip p (t.chip p) ∧ (t.chip p).get P.THR.THR = c.get P.THR.THR ∧
            Tab.get none (t.chip p).staged P.THR.THR.key =
              if half pl 6 % 1024 = c.get P.THR.THR then none else some (half pl 6 % 1024))) ∧
      (byteAt pl 0 = 1 → byteAt pl 2 = 0 ∨ 3 < byteAt pl 2 →
        exec (.regWr p b) s = .next (s.setChip p (c.answers false false 0 0 tag true))) ∧
      (byteAt pl 0 = 2 → pDecodes (half pl 4) = true →
        exec (.regRd p b) s = .next (s.setChip p ((c.afterRead (half pl 4)).answers false (byteAt pl 2 % 2 == 1) (half pl 4)
          (if byteAt pl 2 % 2 = 1 then c.stagedWord (half pl 4) else c.word (half pl 4)) tag false))) ∧
      (byteAt pl 0 = 2 → pDecodes (half pl 4) = false →
        exec (.regRd p b) s = .next (s.setChip p (c.answers false (byteAt pl 2 % 2 == 1) (half pl 4) 0 tag true))) ∧
      (byteAt pl 0 = 3 → half pl 4 < 512 → half pl 6 < 512 →
        exec (.pixWr p b) s = .next (s.setChip p ((c.writePix (half pl 4 * 512 + half pl 6) (BitVec.ofNat 16 (half pl 8))).answers true false
          (half pl 4 * 512 + half pl 6) (half pl 8) tag false))) ∧
      (byteAt pl 0 = 3 → 512 ≤ half pl 4 ∨ 512 ≤ half pl 6 →
        exec (.pixWr p b) s = .next (s.setChip p (c.answers true false 0 0 tag true))) ∧
      (byteAt pl 0 = 4 → byteAt pl 2 = 1 → half pl 4 < 512 → half pl 6 < 512 →
        exec (.pixRd p b) s = .next (s.setChip p (c.answers true false (half pl 4 * 512 + half pl 6)
          (c.pixWord (half pl 4 * 512 + half pl 6)).toNat tag false))) ∧
      (byteAt pl 0 = 4 → byteAt pl 2 = 0 ∨ 16 < byteAt pl 2 →
        exec (.pixRd p b) s = .next (s.setChip p (c.answers true false 0 0 tag true))) ∧
      (byteAt pl 0 = 5 → byteAt pl 2 = 2 →
        exec (.pixStream p b) s = .next (s.setChip p (((c.writePixdata (BitVec.ofNat 16 (half pl 4))).writePixdata
          (BitVec.ofNat 16 (half pl 6))).answers false false 0x22 (half pl 6) tag false))) ∧
      (byteAt pl 0 = 6 →
        (bitAt (half pl 8) 15 = true →
          exec (.commit p b) s = .next (s.setChip p ({ c with commit := none }.answers false false 0 0x8000 tag false))) ∧
        (∀ ahead : Nat, bitAt (half pl 8) 15 = false → ahead = ticksSince (beNat (slice pl 4 4) * 4096 + half pl 8 % 4096) c.now →
          (ahead = 0 ∨ 2 ^ 43 ≤ ahead → exec (.commit p b) s = .next (s.setChip p (c.answers false false 0 0 tag true))) ∧
          (0 < ahead → ahead < 2 ^ 43 →
            exec (.commit p b) s = .next (s.setChip p ({ c with
              commit := some (beNat (slice pl 4 4), half pl 8 % 4096) }.answers false false 0 0 tag false))))) ∧
      (byteAt pl 0 = 0 ∨ 6 < byteAt pl 0 →
        exec (.unknownDownlinkOp p b) s = .next (s.setChip p (c.answers false false 0 0 tag true)))) ∧
    (∀ (b : RxBlock) (pl : List Byte) (t : Nat), s.pelnosHears p b .sync pl →
      t = (beNat (slice pl 0 4) * 4096 + half pl 4 % 4096 + 2 ^ 44 - 64) % 2 ^ 44 →
      (bitAt (half pl 4) 15 = false → c.now % 2 ^ 44 = t → exec (.downlinkSyncReceive p b) s = .next s) ∧
      (bitAt (half pl 4) 15 = false → c.now % 2 ^ 44 ≠ t →
        exec (.downlinkSyncReceive p b) s = .next (s.setChip p ((c.put P.SYNC_STAT.SLIP 1).bump P.SYNC_STAT.SLIPS 1))) ∧
      (bitAt (half pl 4) 15 = true → c.coarse < 4096 →
        ∃ d : Pelnos, exec (.downlinkSyncReceive p b) s = .next (s.setChip p d) ∧ d.now % 2 ^ 44 = t ∧ d.get P.SYNC_STAT.LOADED = 1 ∧
          (bitAt (half pl 4) 14 = true → d.get P.SYNC_STAT.HOLD = 1))) ∧
    (∀ (b : RxBlock) (pl : List Byte) (fine : Byte) (turn : Fin 16777216), s.pelnosHears p b .echo pl → byteAt pl 0 = 1 →
      exec (.pelnosEchoAnswer p b fine turn) s = .next (s.setChip p { c with echo := c.echo ++ [[2, pl.getD 1 0] ++
        beBytes (c.frame % 2 ^ 32) 4 ++ beBytes (c.coarse * 256 + fine.toNat) 3 ++ beBytes turn 3 ++ [b8 (c.get P.SYNC_STAT.SLIP)]] })) ∧
    (c.frame < 2 ^ 31 → exec (.epochHoldEnd p) s = .next (s.setChip p (c.put P.SYNC_STAT.HOLD 0))) ∧
    (c.frame % 2 ^ 32 ≥ 2 ^ 31 → exec (.epochHoldEnd p) s = .next s) ∧
    (∀ (f k v : Nat), (s.port p).dlWait = [] → c.commit = some (f, k) → v < 1024 → v ≠ c.get P.THR.THR →
      c.staged = [(P.THR.THR.key, some v)] →
      (ticksSince (c.now + 3) (f * 4096 + k) < 2 ^ 43 →
        ∃ d : Pelnos, exec (.commitApply p) s = .next (s.setChip p d) ∧ d.get P.THR.THR = v ∧ d.staged = [] ∧ d.commit = none ∧
          d.settleBlank = true ∧ d.settle ≠ [] ∧ chipRegsBut [P.THR.THR] c d) ∧
      (2 ^ 43 ≤ ticksSince (c.now + 3) (f * 4096 + k) → exec (.commitApply p) s = .next s)) ∧
    (∃ d : Pelnos, exec (.snapshotArm p) s = .next (s.setChip p d) ∧ d.get P.SNAP_CTL.ARM = 1 ∧ d.get P.SNAP_CTL.TAKEN = 0 ∧
      chipRegsBut [P.SNAP_CTL.ARM, P.SNAP_CTL.TAKEN] c d) ∧
    (c.get P.SNAP_CTL.ARM = 1 → c.frame % 65536 = c.get P.SNAP_FRAME.FRAME → c.coarse / 4 = c.get P.SNAP_COARSE.COARSE / 4 →
      ∃ d : Pelnos, exec (.pelnosSnapshotLatch p) s = .next (s.setChip p d) ∧ d.get P.SNAP_CTL.ARM = 0 ∧ d.get P.SNAP_CTL.TAKEN = 1 ∧
        d.get P.SNAP_PILEUP.HALF + 65536 * d.get (P.SNAP_PILEUP.HALF.at 1) =
          (∑ n : Fin 256, c.get (P.DCn_PILEUP.COUNT.at (4 * n))) % 2 ^ 32 ∧
        d.get P.SNAP_COPYk.IMAGE = c.word 0x34 % 65536 ∧ d = { c with regs := d.regs }) ∧
    (c.get P.SNAP_CTL.ARM = 0 → exec (.pelnosSnapshotLatch p) s = .next s)

/-- Link loss, supply, resets and monitor of Pelnos (R345 to R348, R404).  Loss of the downlink unlocks the PLL and every DLL and unloads
the counter; its return locks the PLL and starts bring-up at DETECT.  A dip shows while it lasts and counts when it ends.  The hard
resets return all of the chip to its reset state and hold it; the soft reset keeps what R404 names and sets SOFT_DONE; the release samples the
mode.  A monitor scan takes the enabled channels in order, and a result that overwrites an unread one sets OVR.
The model's choices that it rests on are named in log entries 1, 8, 11 and 12. -/
def Obligations.PelnosSupplyAndMonitor : Prop :=
  ∀ (s : State) (p : Port) (c : Pelnos), s.chip p = c →
    (∃ d : Pelnos, exec (.downlinkLoss p) s = .next (s.setChip p d) ∧ d.get P.PLL_STAT.LOCK = 0 ∧
      (∀ n : Fin 256, d.get (P.DCn_DLL.LOCK.at (4 * n)) = 0) ∧ d.get P.SYNC_STAT.LOADED = 0 ∧ d.get P.LINK_STAT.DL_LOST = 1 ∧
      d.get P.LINK_STAT.DL_STATE = 1 ∧ d.get P.SNAP_CTL.ARM = 0 ∧ d.inj = none ∧ d.csu = none ∧ d.frames = [] ∧ d.forPulse = 0 ∧
      (c.get P.PLL_STAT.LOCK = 1 → d.get P.PLL_STAT.LOCK_LOST = 1) ∧ d.pix = c.pix ∧ d.staged = c.staged ∧ d.commit = none) ∧
    (s.linkUp p = false → c.inReset = false →
      ∃ t, exec (.downlinkReturn p) s = .next t ∧ (t.chip p).get P.PLL_STAT.LOCK = 1 ∧
        t.lst (.down p) = (if s.laneEnabled (.down p) then 1 else 0) ∧ t.buf = s.buf ∧ t.run = s.run ∧ t.out = s.out ∧
        ∀ q : Port, q ≠ p → t.chip q = s.chip q ∧ t.port q = s.port q) ∧
    (exec (.pelnosDipStart p) s = .next (s.setChip p ((c.put P.PWR_STAT.WARN 1).updFrame c.frame fun b => { b with supply := true }))) ∧
    (∀ low : Fin 4096,
      (c.get P.PWR_STAT.WARN = 1 →
        exec (.pelnosDipEnd p low) s = .next (s.setChip p ((((c.put P.PWR_STAT.WARN 0).put P.PWR_STAT.DIP 1).bump P.PWR_DIPS.COUNT 1).put
          P.PWR_MIN.MIN (min (c.get P.PWR_MIN.MIN) low)))) ∧
      (c.get P.PWR_STAT.WARN = 0 → exec (.pelnosDipEnd p low) s = .next s)) ∧
    (exec (.pelnosPowerOnReset p) s = .next (s.setChip p { Pelnos.reset with inReset := true })) ∧
    (exec (.pelnosPadReset p) s = .next (s.setChip p { Pelnos.reset with inReset := true })) ∧
    (∃ d : Pelnos, exec (.pelnosSoftReset p) s = .next (s.setChip p d) ∧ d.get P.RST.SOFT_DONE = 1 ∧ d.frame = c.frame ∧
      d.coarse = c.coarse ∧ d.staged = [] ∧ d.commit = none ∧ (∀ i, d.pixWord i = 0x0030#16) ∧
      (∀ f : Field, 0x200 ≤ f.off → f.off ≤ 0x206 → f.lsb < 64 → d.get f = c.get f) ∧
      (∀ f : Field, f.off = 0x40 ∨ (0x50 ≤ f.off ∧ f.off ≤ 0x52) → f.lsb < 64 → d.get f = c.get f) ∧
      (∀ f : Field, 0x10 ≤ f.off → f.off ≤ 0x36 → f.lsb < 64 → d.get f = f.reset)) ∧
    (∀ mode : Bool,
      (c.inReset = true → exec (.pelnosResetRelease p mode) s = .next (s.setChip p { c.put P.PWR_STAT.MODE mode.toNat with inReset := false })) ∧
      (c.inReset = false → exec (.pelnosResetRelease p mode) s = .next s)) ∧
    (c.get P.MON_CTL.EN = 0 → exec (.pelnosMonScanStart p) s = .next s) ∧
    (c.get P.MON_CTL.EN = 1 → c.monScan = [] → c.get P.MON_EN0.CH < 65536 →
      ∃ ks : List Nat, exec (.pelnosMonScanStart p) s = .next (s.setChip p { c with monScan := ks }) ∧ ks.Pairwise (· < ·) ∧
        ∀ k, k ∈ ks ↔ (k < 16 ∧ bitAt (c.get P.MON_EN0.CH) k = true) ∨
          (16 ≤ k ∧ k < 24 ∧ bitAt (c.get P.MON_EN1.CH) (k - 16) = true)) ∧
    (c.get P.MON_CTL.EN = 1 → c.monScan ≠ [] → exec (.pelnosMonScanStart p) s = .next (s.setChip p { c with monDue := true })) ∧
    (∀ (k : Fin 24) (rest : List Nat) (code : Fin 4096), c.monScan = k.val :: rest → c.get P.MON_CTL.RECORD = 0 → c.monDue = false →
      ∃ d : Pelnos, exec (.pelnosMonConversion p code) s = .next (s.setChip p d) ∧
        chipRegsBut [P.MON_DATAk.CODE.at k, P.MON_DATAk.OVR.at k, P.MON_DATAk.VALID.at k] c d ∧
        d = { c with regs := d.regs, monScan := rest, monFresh := c.monFresh ||| BitVec.ofNat 24 (2 ^ k.val) } ∧
        d.get (P.MON_DATAk.CODE.at k) = code ∧ d.get (P.MON_DATAk.VALID.at k) = 1 ∧
        (c.monFresh.getLsbD k = true → d.get (P.MON_DATAk.OVR.at k) = 1)) ∧
    (∀ code : Fin 4096, c.monScan = [] → exec (.pelnosMonConversion p code) s = .next s)

/-! ### Register access and resets of the endpoint -/

/-- Reads of BAR0 (R7, R9, R326, R390, R420 to R422).  A read of a mapped word delivers the latched high word if a low-word read left one,
else the word as it stands; its RC fields are then zero, no other field changes, and the low word of a pair latches its high word.  TIME_NOW0
latches both its partners.  The mirror gives its image and clears nothing.  An unmapped word reads zero and reports BAD_ACCESS; in the
safe state only the clock/power group reads as it stands (R336).
The model's choices that it rests on are named in log entries 1, 13, 19 and 23. -/
def Obligations.RegisterReads : Prop :=
  ∀ s : State,
    (∀ (off : Fin 524288) (v : Nat), inMsix off = false → zmapped off = true → s.safe = false ∨ powerGroup off = true →
      v = (Tab.get none s.host.latch off).getD (s.zword off) →
      ∃ t, exec (.pairLowRead off) s = .next t ∧ onlyRead s t v ∧ (∀ f, soleField off f → f.acc = .rc → t.zget f = 0) ∧
        (∀ k, (∀ f ∈ zfields off, f.acc = .rc → f.key ≠ k) → Tab.get 0 t.zreg k = Tab.get 0 s.zreg k) ∧
        Tab.get none t.host.latch off = none ∧
        (pairLow off = true → Tab.get none t.host.latch (off.val + 4) = some (s.zword (off.val + 4))) ∧
        (off.val ≠ 0x4000 → ∀ o : Nat, o ≠ off → pairLow off = false ∨ o ≠ off.val + 4 →
          Tab.get none t.host.latch o = Tab.get none s.host.latch o)) ∧
    (s.safe = false → Tab.get none s.host.latch 0x4000 = none →
      ∃ t, exec .timeNowRead s = .next t ∧ onlyRead s t (s.zword 0x4000) ∧ t.zreg = s.zreg ∧
        Tab.get none t.host.latch 0x4004 = some (s.zword 0x4004) ∧ Tab.get none t.host.latch 0x4008 = some (s.zword 0x4008)) ∧
    (s.safe = true → exec .timeNowRead s = .next (s.emit (.readData [0, 0, 0, 0]))) ∧
    (∀ off : Fin 524288, inMsix off = true → exec (.pairLowRead off) s = .next (s.emit (.readData (leBytes (s.msixRead off) 4)))) ∧
    (∀ off : Fin 524288,
      (s.safe = true → inMsix off = false → powerGroup off = false → exec (.pairLowRead off) s = .next (s.emit (.readData [0, 0, 0, 0]))) ∧
      (s.safe = false → inMsix off = false → zmapped off = false →
        exec (.pairLowRead off) s = .next ((s.badAccess 0 4 false false off).emit (.readData [0, 0, 0, 0])))) ∧
    (∀ off : Fin 524288,
      (s.safe = true ∨ inMsix off = true → exec (.mirrorRead off) s = .next (s.emit (.readData [0, 0, 0, 0]))) ∧
      (s.safe = false → inMsix off = false → zmapped off = true →
        exec (.mirrorRead off) s = .next (s.emit (.readData (leBytes (Tab.get 0 s.mirror off) 4)))) ∧
      (s.safe = false → inMsix off = false → zmapped off = false →
        exec (.mirrorRead off) s = .next ((s.badAccess 0 4 false true off).emit (.readData [0, 0, 0, 0]))))

/-- Writes of registers and memories (R7, R9, R230, R249, R288, R336, R390, R410, R420, R461).  A word with no command of its own takes a write by
the access type of each field; what has a command of its own, and every RO, RC and SH field, stands.  A ring's BASE and the shadow's ADDR
refuse a change while enabled.  Before READY and in the safe state only the named words take writes.  A write of the mirror, a narrow write, a
write of BAR2 that is no doorbell and a BAR4 write of a wrong size are discarded and reported; engine and shared memories and the MSI-X table take their bytes.
The model's choices that it rests on are named in log entries 1, 13, 19 and 23. -/
def Obligations.RegisterWrites : Prop :=
  ∀ s : State,
    (∀ (off : Fin 1048576) (w : Word), s.bar0Open → inMsix off = false → off.val < 0x80000 → zmapped off = true → plainWord off = true →
      ∃ t, exec (.registerWrite off w) s = .next t ∧ t = s.updZreg (fun _ => t.zreg) ∧
        (∀ f, soleField off f → ownCommand f = false →
          (f.acc = .rw ∨ f.acc = .st → t.zget f = f.merged off w.toNat (s.zget f)) ∧
          (f.acc = .w1c → s.zget f < 2 ^ f.wid → t.zget f = s.zget f &&& (2 ^ f.wid - 1 - f.merged off w.toNat 0))) ∧
        (∀ k, (∀ f ∈ zfields off, ownCommand f = false → f.acc = .rw ∨ f.acc = .st ∨ f.acc = .w1c → f.key ≠ k) →
          Tab.get 0 t.zreg k = Tab.get 0 s.zreg k)) ∧
    (∀ (r : Fin 8) (hi : Bool) (w : Word) (o : Fin 1048576), o.val = 0x7000 + 32 * r.val + 4 * hi.toNat → s.bar0Open →
      s.zget (ZR.CFG.EN.hring r) ≠ 0 →
      exec (.registerWrite o w) s =
        .next (if (ZR.BASE.BASE.hring r).merged o w.toNat (s.zget (ZR.BASE.BASE.hring r)) = s.zget (ZR.BASE.BASE.hring r) then s
          else s.zput (ZR.CFG.REFUSED.hring r) 1)) ∧
    (∀ w : Word, s.bar0Open → s.zget Z.HOST_SHADOW.EN = 1 → bitAt w.toNat 0 = false →
      exec (.registerWrite ⟨0x7100, by decide⟩ w) s = .next (s.zput Z.HOST_SHADOW.EN 0)) ∧
    (∀ w : Word, s.bar0Open →
      exec (.registerWrite ⟨0x4030, by decide⟩ w) s = .next (s.updRing fun r => { r with set0 := w.toNat }) ∧
      exec (.registerWrite ⟨0x4034, by decide⟩ w) s = .next (s.updRing fun r => { r with set1 := w.toNat })) ∧
    (∀ (v : Fin 64) (o : Fin 1048576) (w : Word) (e : MsixEntry), Tab.get {} s.host.msix v = e →
      (o.val = 0x7800 + 16 * v.val →
        exec (.registerWrite o w) s =
          .next (s.updHost fun h => { h with msix := Tab.set {} h.msix v { e with addr := e.addr / 2 ^ 32 * 2 ^ 32 + w.toNat } })) ∧
      (o.val = 0x7804 + 16 * v.val →
        exec (.registerWrite o w) s =
          .next (s.updHost fun h => { h with msix := Tab.set {} h.msix v { e with addr := e.addr % 2 ^ 32 + w.toNat * 2 ^ 32 } })) ∧
      (o.val = 0x7808 + 16 * v.val →
        exec (.registerWrite o w) s = .next (s.updHost fun h => { h with msix := Tab.set {} h.msix v { e with data := w.toNat } }))) ∧
    (∀ (off : Fin 1048576) (w : Word), inMsix off = false → s.safe = true → powerGroup off = false →
      exec (.registerWrite off w) s = .next s) ∧
    (∀ (off : Fin 1048576) (w : Word), s.safe = false → off.val < 0x80000 → inMsix off = false →
      (zmapped off = false → exec (.registerWrite off w) s = .next (s.badAccess 0 4 true false off)) ∧
      (zmapped off = true → s.zget Z.BOOT_STAT.STAGE < 4 → off.val ≠ 0x18 → off.val ≠ 0x1C → powerGroup off = false →
        exec (.registerWrite off w) s = .next (s.zput Z.HOST_ERR.BAD_ACCESS 1))) ∧
    (∀ (off : Fin 1048576) (w : Word), s.safe = false → 0x80000 ≤ off.val →
      exec (.registerWrite off w) s = .next (s.badAccess 0 4 true true (off.val - 0x80000))) ∧
    (∀ (size : Byte) (off : BitVec 24),
      (s.safe = false → size.toNat ≠ 4 → inMsix off.toNat = false → off.toNat < 0x80000 →
        exec (.barAccessInvalid 0 size true off) s = .next (s.badAccess 0 size.toNat true false off.toNat)) ∧
      (size.toNat < 4 → inMsix off.toNat = true → ∀ wr : Bool,
        exec (.barAccessInvalid 0 size wr off) s =
          .next (if wr then s.badAccess 0 size.toNat true false off.toNat
            else (s.badAccess 0 size.toNat false false off.toNat).emit (.readData (leBytes 0 size.toNat)))) ∧
      (s.safe = true → ∀ bar : Fin 3, exec (.barAccessInvalid bar size true off) s = .next s ∨ bar = 0 ∧ (inMsix off.toNat = true ∨ powerGroup (off.toNat - off.toNat % 4) = true)) ∧
      (s.safe = false → size.toNat ≠ 4 ∨ off.toNat % 0x1000 ≠ 0 ∨ 0x8000 ≤ off.toNat →
        exec (.barAccessInvalid 1 size true off) s = .next (s.badAccess 2 size.toNat true false off.toNat)) ∧
      (exec (.barAccessInvalid 1 size false off) s = .next s) ∧
      (s.safe = false → (size.toNat ≠ 4 ∧ size.toNat ≠ 8) ∨ off.toNat % size.toNat ≠ 0 ∨ (0xF00000 ≤ off.toNat ∧ off.toNat < 0xF40000) →
        exec (.barAccessInvalid 2 size true off) s = .next (s.badAccess 4 size.toNat true false off.toNat))) ∧
    (∀ (off : BitVec 24) (bytes : List Byte), s.safe = false →
      (bytes.length ≠ 4 ∧ bytes.length ≠ 8 ∨ off.toNat % bytes.length ≠ 0 →
        exec (.bar4Write off bytes) s = .next (s.badAccess 4 bytes.length true false off.toNat)) ∧
      (bytes.length = 4 ∨ bytes.length = 8 → off.toNat % bytes.length = 0 →
        (∀ (e : Fin 96) (y : Nat), off.toNat = e.val * 0x28000 + 0x8000 + y → y < 0x20000 →
          (s.engState e ≠ engOff →
            ∃ t, exec (.bar4Write off bytes) s = .next t ∧ t = s.updEng e (fun x => { x with dmem := (t.eng e).dmem }) ∧
              (∀ k, k < bytes.length → Tab.get 0 (t.eng e).dmem (y + k) = bytes.getD k 0) ∧
              (∀ a, a < y ∨ y + bytes.length ≤ a → Tab.get 0 (t.eng e).dmem a = Tab.get 0 (s.eng e).dmem a)) ∧
          (s.engState e = engOff → exec (.bar4Write off bytes) s = .next (s.badAccess 4 bytes.length true false off.toNat))) ∧
        (∀ (e : Fin 96) (y : Nat), off.toNat = e.val * 0x28000 + y → y < 0x8000 →
          (s.engState e ≠ engOff → s.engState e ≠ engRunning →
            ∃ t, exec (.bar4Write off bytes) s = .next t ∧ t = s.updEng e (fun x => { x with imem := (t.eng e).imem }) ∧
              (∀ k, k < bytes.length / 4 → (Tab.get 0 (t.eng e).imem (y / 4 + k)).toNat = leNat (slice bytes (4 * k) 4)) ∧
              (∀ a, a < y / 4 ∨ (y + bytes.length) / 4 ≤ a → Tab.get 0 (t.eng e).imem a = Tab.get 0 (s.eng e).imem a)) ∧
          (s.engState e = engOff ∨ s.engState e = engRunning →
            exec (.bar4Write off bytes) s = .next (s.badAccess 4 bytes.length true false off.toNat))) ∧
        (0xF00000 ≤ off.toNat → off.toNat < 0xF40000 →
          exec (.bar4Write off bytes) s = .next (s.badAccess 4 bytes.length true false off.toNat)) ∧
        (∀ y n : Nat, off.toNat = 0xF40000 + y → y < 0x80000 →
          n = s.zget Z.HOST_SHWIN.CLUSTER * 0x100000 + s.zget Z.HOST_SHWIN.HALF * 0x80000 + y →
          (s.zget (ZC.CTL.EN.gcl (s.zget Z.HOST_SHWIN.CLUSTER)) ≠ 0 →
            ∃ t, exec (.bar4Write off bytes) s = .next t ∧ t = s.updShm (fun _ => t.shm) ∧
              (∀ k, k < bytes.length → Tab.get 0 t.shm (n + k) = bytes.getD k 0) ∧
              (∀ a, a < n ∨ n + bytes.length ≤ a → Tab.get 0 t.shm a = Tab.get 0 s.shm a)) ∧
          (s.zget (ZC.CTL.EN.gcl (s.zget Z.HOST_SHWIN.CLUSTER)) = 0 →
            exec (.bar4Write off bytes) s = .next (s.badAccess 4 bytes.length true false off.toNat))) ∧
        (0xFC0000 ≤ off.toNat → exec (.bar4Write off bytes) s = .next s))) ∧
    (∀ (off : BitVec 24) (bytes : List Byte), s.safe = true → exec (.bar4Write off bytes) s = .next s)

/-- The endpoint (R249 to R251, R402, R411).  A link that comes up, goes down or retrains raises LINK and nothing is lost; it comes up only
after training has started, at a speed MAX_SPEED allows.  A function level reset discards commands and contexts and clears every ring's EN and the
shadow and vector settings; a fundamental reset also takes the link down and clears the configuration space.  Ingest, merge, buffer contents,
runs, time, ring and monitor go on.  A bad TLP is logged in the AER status and reported.
The model's choices that it rests on are named in log entries 1, 13, 19 and 23. -/
def Obligations.EndpointLinkAndResets : Prop :=
  ∀ s : State,
    (∀ (speed : Fin 7) (width : Fin 32) (flit : Bool),
      (speed ≠ 0 → s.pwr.training = true → speed.val ≤ s.zget Z.HOST_LINK.MAX_SPEED →
        s.zget Z.HOST_LINK.SPEED ≠ speed ∨ s.zget Z.HOST_LINK.WIDTH ≠ width ∨ s.zget Z.HOST_LINK.FLIT ≠ flit.toNat →
        ∃ t, exec (.pcieLinkChange speed width flit) s = .next t ∧
          onlyEvent [Z.HOST_LINK.SPEED, Z.HOST_LINK.WIDTH, Z.HOST_LINK.FLIT, Z.HOST_EVSTAT.PEND, Z.EVT_STAT.FILTERED] s t ∧
          t.zget Z.HOST_LINK.SPEED = speed ∧ t.zget Z.HOST_LINK.WIDTH = width ∧ t.zget Z.HOST_LINK.FLIT = flit.toNat ∧
          bitAt (t.zget Z.HOST_EVSTAT.PEND) 0 = true) ∧
      (speed ≠ 0 → s.pwr.training = false ∨ s.zget Z.HOST_LINK.MAX_SPEED < speed.val →
        exec (.pcieLinkChange speed width flit) s = .next s) ∧
      (s.zget Z.HOST_LINK.SPEED ≠ 0 → ∃ t, exec (.pcieLinkChange 0 width flit) s = .next t ∧
        onlyEvent [Z.HOST_LINK.SPEED, Z.HOST_LINK.WIDTH, Z.HOST_LINK.FLIT, Z.HOST_EVSTAT.PEND, Z.EVT_STAT.FILTERED] s t ∧
        t.zget Z.HOST_LINK.SPEED = 0 ∧ t.zget Z.HOST_LINK.WIDTH = 0 ∧ bitAt (t.zget Z.HOST_EVSTAT.PEND) 0 = true)) ∧
    (∃ t, exec .functionLevelReset s = .next t ∧ t.cmds = [] ∧ t.xtr.ctxs = [] ∧ t.xtr.queue = [] ∧
      (∀ r : Fin 8, t.zget (ZR.CFG.EN.hring r) = 0 ∧ t.zget (ZR.CFG.ERR.hring r) = 0 ∧ t.zget (ZR.CFG.VECTOR.hring r) = 0) ∧
      t.zget Z.HOST_SHADOW.EN = 0 ∧ t.zget Z.HOST_SHADOW.ADDR = 0 ∧ t.host.msix = [] ∧ t.host.pba = 0 ∧
      regsBut ([0, 1, 2, 3, 4, 5, 6, 7].flatMap (fun r => [ZR.CFG.EN.hring r, ZR.CFG.ERR.hring r, ZR.CFG.VECTOR.hring r]) ++
        [Z.HOST_SHADOW.EN, Z.HOST_SHADOW.ADDR]) s t ∧
      t.run = s.run ∧ t.buf = { s.buf with pins := t.buf.pins } ∧ t.time = s.time ∧ t.ring = s.ring ∧ t.mon = s.mon ∧ t.pwr = s.pwr ∧
      t.lanes = s.lanes ∧ t.chips = s.chips ∧ t.engines = s.engines ∧ t.shm = s.shm ∧ t.ev = s.ev ∧ t.out = s.out ∧
      (∀ p, t.port p = { s.port p with dlWait := (t.port p).dlWait, commitPend := false }) ∧
      (∀ x ∈ t.snaps, x ∈ s.snaps ∧ x.cmd = none)) ∧
    (∃ t, exec .pcieFundamentalReset s = .next t ∧ t.cmds = [] ∧ t.xtr.ctxs = [] ∧ t.xtr.queue = [] ∧
      t.pwr = { s.pwr with perst := true, training := false } ∧ t.zget Z.HOST_LINK.SPEED = 0 ∧
      (∀ r : Fin 8, t.zget (ZR.CFG.EN.hring r) = 0) ∧ t.zget Z.HOST_SHADOW.EN = 0 ∧ t.host.aerUnc = 0 ∧ t.host.aerCor = 0 ∧
      t.host.msix = [] ∧ t.host.pba = 0 ∧ (s.zget Z.HOST_LINK.SPEED ≠ 0 → bitAt (t.zget Z.HOST_EVSTAT.PEND) 0 = true) ∧
      t.run = s.run ∧ t.buf = { s.buf with pins := t.buf.pins } ∧ t.time = s.time ∧ t.ring = s.ring ∧ t.mon = s.mon ∧ t.lanes = s.lanes ∧
      t.chips = s.chips ∧ t.engines = s.engines ∧ t.shm = s.shm) ∧
    (exec .pcieLinkTraining s = .next (s.updPwr fun p => { p with perst := false, training := true })) ∧
    (∀ (e : TlpError) (b : BitVec 32), b = (match e with | .ecrc => 0x80000 | .malformed => 0x40000 | .poisoned => 0x1000) →
      exec (.receivedTlpError e) s = .next ((s.updHost fun h => { h with aerUnc := s.host.aerUnc ||| b }).aer
        (s.host.aerUnc ||| b).toNat s.host.aerCor.toNat 0))

/-! ### The timing ring -/

/-- Ring messages (R302 to R308, R320, R321).  A message that is heard east-going is handled and goes on unchanged, own messages and those of
nodes outside the map are stripped, a west-going one is forwarded or turned.  CTRL counts only from the headstock: RUN_START with a new number
starts the run, RUN_STOP sets its last frame, GATE and MAP write their registers.  The tailstock collects MIRROR items.  The headstock repeats
RUN_START and sends every gate it writes; elsewhere a change of a gate is refused.
The model's choices that it rests on are named in log entries 1, 8 and 16. -/
def Obligations.RingMessages : Prop :=
  ∀ s : State,
    (∀ (d : Side) (b : RxBlock) (pl : List Byte), s.ringHears d b pl →
      (byteAt pl 0 = 0 ∨ 6 < byteAt pl 0 ∨ (byteAt pl 0 = 3 ∧ (byteAt pl 2 = 0 ∨ 4 < byteAt pl 2)) →
        exec (.ringMessageForward d b) s = .next (s.ringEast pl)) ∧
      (byteAt pl 0 = 6 → exec (.ringPrimReceive d b) s = .next (s.ringEast pl)) ∧
      (s.fromHeadstock pl = false → byteAt pl 0 = 3 →
        (byteAt pl 2 = 1 → exec (.ringCtrlRunStart d b) s = .next (s.ringEast pl)) ∧
        (byteAt pl 2 = 2 → exec (.ringCtrlRunStop d b) s = .next (s.ringEast pl)) ∧
        (byteAt pl 2 = 3 → exec (.ringCtrlGate d b) s = .next (s.ringEast pl)) ∧
        (byteAt pl 2 = 4 → exec (.ringCtrlMap d b) s = .next (s.ringEast pl))) ∧
      (s.fromHeadstock pl = true → byteAt pl 0 = 3 →
        (∀ k, k = byteAt pl 3 % 8 → byteAt pl 2 = 3 →
          ∃ t : State, exec (.ringCtrlGate d b) s = .next (t.ringEast pl) ∧
            onlyRegs ([Z.RING_GATEk.START_LO, Z.RING_GATEk_1.START_HI, Z.RING_GATEk_1.EN, Z.RING_GATEk_1.CLASS0, Z.RING_GATEk_1.CLASS1,
              Z.RING_GATEk_2.END_LO, Z.RING_GATEk_3.END_HI].map fun f => f.at (16 * k)) s t ∧
            t.gate Z.RING_GATEk_1.START_HI k = beNat (slice pl 4 2) ∧ t.gate Z.RING_GATEk.START_LO k = beNat (slice pl 6 4) ∧
            t.gate Z.RING_GATEk_3.END_HI k = beNat (slice pl 10 2) ∧ t.gate Z.RING_GATEk_2.END_LO k = beNat (slice pl 12 4) ∧
            t.gate Z.RING_GATEk_1.EN k = byteAt pl 3 / 8 % 2 ∧ t.gate Z.RING_GATEk_1.CLASS0 k = byteAt pl 3 / 16 % 2 ∧
            t.gate Z.RING_GATEk_1.CLASS1 k = byteAt pl 3 / 32 % 2) ∧
        (byteAt pl 2 = 4 →
          ∃ t : State, exec (.ringCtrlMap d b) s = .next (t.ringEast pl) ∧ t.ring = { s.ring with mapSeen := true } ∧
            t.zget Z.RING_MAP.MASK = beNat (slice pl 4 8) ∧
            regsBut [Z.RING_MAP.MASK, Z.RING_EVSTAT.PEND, Z.EVT_STAT.FILTERED] s t ∧
            (s.zget Z.RING_MAP.MASK ≠ beNat (slice pl 4 8) → bitAt (t.zget Z.RING_EVSTAT.PEND) 3 = true) ∧
            (s.zget Z.RING_MAP.MASK = beNat (slice pl 4 8) → t.zget Z.RING_EVSTAT.PEND = s.zget Z.RING_EVSTAT.PEND)) ∧
        (∀ n e m : Nat, byteAt pl 2 = 1 → pl.length = 16 → n = beNat (slice pl 4 2) →
          e = (beNat (slice pl 6 6) * 1000000000 + beNat (slice pl 12 4)) * nsUnits →
          (n = s.zget Z.RING_RUN.RUN_NUM → bitAt (byteAt pl 3) 0 = false ∨ s.run.active = true →
            exec (.ringCtrlRunStart d b) s = .next (s.ringEast pl)) ∧
          (n ≠ s.zget Z.RING_RUN.RUN_NUM ∨ bitAt (byteAt pl 3) 0 = true → s.canRun = true → s.run.active = false →
            s.zget Z.BUF_STAT.PASR = 0 → m < 2 ^ 40 → e + m * (4096 * tickUnits) ≥ s.time →
            m = 0 ∨ e + (m - 1) * (4096 * tickUnits) < s.time →
            ∃ t : State, exec (.ringCtrlRunStart d b) s = .next (t.ringEast pl) ∧ t.run.active = true ∧ t.run.epoch = some e ∧
              t.run.last = none ∧ t.run.id = (if 0xFFFE ≤ s.run.id then 0 else s.run.id + 1) ∧ t.mNext = m ∧
              t.zget Z.RING_RUN.RUN_NUM = n ∧ t.zget Z.RING_RUN.ACTIVE = 1 ∧ t.zget Z.TIME_STAT.RUN_ACTIVE = 1 ∧
              t.buf.mem = s.buf.mem ∧ t.chips = s.chips ∧ t.xtr = s.xtr ∧ t.mon = s.mon)) ∧
        (∀ f : Nat, byteAt pl 2 = 2 → f = beNat (slice pl 6 8) / 4096 →
          (beNat (slice pl 4 2) ≠ s.zget Z.RING_RUN.RUN_NUM ∨ s.run.active = false ∨ s.run.last ≠ none →
            exec (.ringCtrlRunStop d b) s = .next (s.ringEast pl)) ∧
          (beNat (slice pl 4 2) = s.zget Z.RING_RUN.RUN_NUM → s.run.active = true → s.run.last = none →
            (s.mNext ≤ f → s.xtr.ctxs = [] →
              exec (.ringCtrlRunStop d b) s = .next (((s.zput Z.RING_RUN.ACTIVE 0).updRun fun r => { r with
                pasr := s.zget Z.RING_CFG.STOP_RETAIN == 1, last := some f }).ringEast pl)) ∧
            (f < s.mNext →
              ∃ t : State, exec (.ringCtrlRunStop d b) s = .next (t.ringEast pl) ∧ t.run.active = false ∧ t.run.last = some f ∧
                t.run.id = s.run.id ∧ t.zget Z.RING_RUN.ACTIVE = 0 ∧ t.zget Z.TIME_STAT.RUN_ACTIVE = 0 ∧ t.chips = s.chips ∧
                t.buf.mem = s.buf.mem)))) ∧
      (byteAt pl 0 = 4 →
        (byteAt pl 2 % 64 ≠ s.node ∨ s.role ≠ roTailstock ∨ s.fromHeadstock pl = false →
          exec (.ringMirrorReceive d b) s = .next (s.ringEast pl)) ∧
        (byteAt pl 2 % 64 = s.node → s.role = roTailstock → s.fromHeadstock pl = true → ∀ (i : Nat) (have_ : BitVec 16),
          i = byteAt pl 3 % 16 → have_ = (if i = 0 then 0 else s.ring.mirrorHave) ||| BitVec.ofNat 16 (2 ^ i) →
          ∃ t : State, exec (.ringMirrorReceive d b) s = .next (t.ringEast pl) ∧ onlyRegs [Z.RING_STAT.MIRROR_VALID] (s.updRing fun _ => t.ring) t ∧
            t.ring = { s.ring with
              mirror := Tab.set [] s.ring.mirror i (slice pl 4 12), mirrorHave := have_, mirrorAt := t.ring.mirrorAt } ∧
            (have_ = 0xFFFF#16 → beNat (slice (Tab.get [] t.ring.mirror 0) 0 4) = s.lseq →
              t.zget Z.RING_STAT.MIRROR_VALID = 1 ∧ t.ring.mirrorAt = s.time) ∧
            (have_ ≠ 0xFFFF#16 ∨ beNat (slice (Tab.get [] t.ring.mirror 0) 0 4) ≠ s.lseq →
              t.zreg = s.zreg ∧ t.ring.mirrorAt = s.ring.mirrorAt)))) ∧
    (∀ (d : Side) (b : RxBlock) (pl : List Byte), intact (.ring d) b = true → b.blk.kind = .data → b.blk.payload = pl →
      s.ringServes d = true → (s.lane (.ring d)).badKind = 0 → (s.prbsCfg (.ring d)).1 = false →
      (∀ c ∈ [Instr.ringMessageForward d b, .ringPrimReceive d b, .ringMirrorReceive d b, .ringCtrlRunStart d b, .ringCtrlRunStop d b,
          .ringCtrlGate d b, .ringCtrlMap d b], c.wf = true →
        (d = .east → s.ringServes .west = true → exec c s = .next (s.ringBlock .west pl)) ∧
        (d = .west → srcOf pl = s.node → exec c s = .next s) ∧
        (d = .west → srcOf pl ≠ s.node → s.strips pl = true → exec c s = .next (s.zbump Z.RING_MSG.STRIPPED 1)))) ∧
    (∀ (d : Side) (b : RxBlock) (t : State), intact (.ring d) b = false → s.ringServes d = true → t = s.discardBlock (.ring d) b →
      t.ringServes (otherSide d) = true → b.damaged = true →
      exec (.ringMessageForward d b) s = .next (t.emit (.abort (.ring (otherSide d))))) ∧
    (s.role = roHeadstock → s.zget Z.RING_RUN.ACTIVE = 1 →
      exec .runRepeatSend s = .next (s.ringEast ([3, b8 s.node, 1, 1] ++ beBytes (s.zget Z.RING_RUN.RUN_NUM) 2 ++
        (beTime s.epochTime).take 10))) ∧
    (s.role ≠ roHeadstock ∨ s.zget Z.RING_RUN.ACTIVE ≠ 1 → exec .runRepeatSend s = .next s) ∧
    (∀ (k : Fin 8) (i : Fin 4) (w : Word) (fs : List Field), s.bar0Open →
      fs = (match i with
        | 0 => [Z.RING_GATEk.START_LO]
        | 1 => [Z.RING_GATEk_1.START_HI, Z.RING_GATEk_1.EN, Z.RING_GATEk_1.CLASS0, Z.RING_GATEk_1.CLASS1]
        | 2 => [Z.RING_GATEk_2.END_LO]
        | 3 => [Z.RING_GATEk_3.END_HI]) →
      (s.role = roHeadstock →
        ∃ t : State, exec (.gateWrite k i w) s =
            .next (t.ringEast ([3, b8 s.node, 3, b8 (k.val + 8 * t.gateBits k)] ++ t.gateTicks k)) ∧
          onlyRegs (fs.map fun f => f.at (16 * k.val)) s t ∧ ∀ f ∈ fs, t.gate f k = w.toNat / 2 ^ f.lsb % 2 ^ f.wid) ∧
      (s.role ≠ roHeadstock →
        ((∃ f ∈ fs, w.toNat / 2 ^ f.lsb % 2 ^ f.wid ≠ s.gate f k) → exec (.gateWrite k i w) s = .next (s.zput Z.RING_STAT.REFUSED 1)) ∧
        ((∀ f ∈ fs, w.toNat / 2 ^ f.lsb % 2 ^ f.wid = s.gate f k) → exec (.gateWrite k i w) s = .next s)))

/-- Time over the ring (R303, R311, R313 to R315).  The headstock sends SYNC in both rotations; a node forwards each copy in its rotation with
HOPS + 1 and its own time, at HOPS 62 no more; a consumed copy in ACQUIRE or LOCKED gives θ, from which the servo steps or trims;
sixteen good ones lock, a large one unlocks.  LOSS periods without SYNC bring steady rest.  The estimate, INC at the headstock, the setting
of the time and the slew are as R313 and R314 have them.
The model's choices that it rests on are named in log entries 1, 8 and 16. -/
def Obligations.TimeOverTheRing : Prop :=
  ∀ s : State,
    (s.role = roHeadstock → s.ringEn = true → ∀ (pl : List Byte) (u : State),
      pl = [1, b8 s.node, 0, b8 (s.zget Z.TIME_STAT.TAI_SET + 2 * s.zget Z.RING_RUN.ACTIVE)] ++ beTime s.time →
      u = (if s.ringServes .east then s.ringBlock .east pl else s) →
      exec .syncSend s = .next (if s.ringServes .west then u.ringBlock .west pl else u)) ∧
    (s.role ≠ roHeadstock → exec .syncSend s = .next s) ∧
    (∀ (d : Side) (b : RxBlock) (pl : List Byte) (fine : Fin 2048) (n rot : Nat), intact (.ring d) b = true → b.blk.kind = .data →
      b.blk.payload = pl → s.ringServes d = true → (s.lane (.ring d)).badKind = 0 → (s.prbsCfg (.ring d)).1 = false → byteAt pl 0 = 1 →
      rot = (match d with | .west => 0 | .east => 1) →
      (srcOf pl = s.node → exec (.ringSyncReceive d b fine n) s = .next s) ∧
      (srcOf pl ≠ s.node → s.strips pl = true → exec (.ringSyncReceive d b fine n) s = .next (s.zbump Z.RING_MSG.STRIPPED 1)) ∧
      (srcOf pl ≠ s.node → s.strips pl = false →
        ∃ t : State, exec (.ringSyncReceive d b fine n) s = .next
            (if byteAt pl 2 < 62 ∧ t.ringServes (otherSide d) = true then
              t.ringBlock (otherSide d) (slice pl 0 2 ++ [b8 (byteAt pl 2 + 1)] ++ slice pl 3 1 ++ beTime t.time)
            else t) ∧ t.hopsOf rot = some (byteAt pl 2) ∧ t.run.active = s.run.active ∧ t.buf = s.buf ∧ t.chips = s.chips ∧ t.xtr = s.xtr) ∧
      (srcOf pl ≠ s.node → s.strips pl = false → 62 ≤ byteAt pl 2 ∨ s.ringServes (otherSide d) = false → s.following = true →
        s.zget Z.TIME_STAT.CLK_DIR = rot → s.hopsOf (1 - rot) = none → s.fromHeadstock pl = false →
        ∃ t : State, exec (.ringSyncReceive d b fine n) s = .next t ∧ t.timeState = tsRest ∧ t.ring.hold = true ∧ t.time = s.time ∧
          bitAt (t.zget Z.TIME_EVSTAT.PEND) 1 = true) ∧
      (srcOf pl ≠ s.node → s.strips pl = false → 62 ≤ byteAt pl 2 ∨ s.ringServes (otherSide d) = false → s.timeState = tsRest →
        s.hopsOf (1 - rot) = none → s.fromHeadstock pl = true →
        ∃ t : State, exec (.ringSyncReceive d b fine n) s = .next t ∧ t.zget Z.TIME_STAT.CLK_DIR = rot ∧ t.time = s.time ∧
          (s.ring.run16 + 1 < 16 → t.timeState = tsRest ∧ t.ring.run16 = s.ring.run16 + 1) ∧
          (16 ≤ s.ring.run16 + 1 → t.timeState = tsAcquire ∧ t.ring.integ = 0 ∧ t.ring.hold = false)) ∧
      (srcOf pl ≠ s.node → s.strips pl = false → 62 ≤ byteAt pl 2 ∨ s.ringServes (otherSide d) = false → s.following = true →
        s.zget Z.TIME_STAT.CLK_DIR = rot → s.hopsOf (1 - rot) = none → s.fromHeadstock pl = true → s.run.active = false → ∀ theta : Int,
        theta = (readTime (pl.drop 4) : Int) + s.linkDelay d - ((s.time : Int) + fine.val * 6553600) →
        ∃ t : State, exec (.ringSyncReceive d b fine n) s = .next t ∧ t.zget Z.TIME_STAT.HOPS = (byteAt pl 2 + 1) % 64 ∧
          t.ring.lastSync = s.time ∧ t.zget Z.TIME_OFFSET.THETA = satBits 32 (theta / 65536) ∧
          ((max 1 (s.zget Z.TIME_CFG.LIMIT_NS) * nsUnits : Nat) < theta.natAbs →
            t.time = ((s.time : Int) + theta).toNat ∧ t.ring.integ = 0 ∧ t.zget Z.TIME_STAT.EST_VALID = 0) ∧
          (theta.natAbs ≤ (max 1 (s.zget Z.TIME_CFG.LIMIT_NS) * nsUnits : Nat) → t.time = s.time ∧
            ∀ part : Int, part = 1000000 * theta / ((s.syncPeriod * 2 ^ s.zget Z.TIME_CFG.KI_LOG2 : Nat) : Int) →
              t.ring.integ = max (-trimMax) (min trimMax (s.ring.integ + part))) ∧
          (s.timeState = tsLocked → t.timeState = if nsUnits < theta.natAbs then tsAcquire else tsLocked) ∧
          (s.timeState = tsAcquire → 10 * theta.natAbs ≤ nsUnits →
            (s.ring.run16 + 1 < 16 → t.timeState = tsAcquire ∧ t.ring.run16 = s.ring.run16 + 1) ∧
            (16 ≤ s.ring.run16 + 1 → t.timeState = tsLocked)) ∧
          (s.timeState = tsAcquire → nsUnits < 10 * theta.natAbs → t.timeState = tsAcquire ∧ t.ring.run16 = 0))) ∧
    (s.following = true → s.ring.lastSync + max 1 (s.zget Z.RING_SYNC.LOSS) * s.syncPeriod * 1000 * nsUnits ≤ s.time →
      ∃ t : State, exec .syncLoss s = .next t ∧ t.timeState = tsRest ∧ t.ring.hold = true ∧ t.ring.restAt = s.time ∧ t.time = s.time ∧
        t.zget Z.TIME_REST.COUNT = sat 16 (s.zget Z.TIME_REST.COUNT + 1) ∧ bitAt (t.zget Z.TIME_EVSTAT.PEND) 1 = true ∧
        t.hopsOf (s.zget Z.TIME_STAT.CLK_DIR) = none) ∧
    (s.following = false ∨ s.time < s.ring.lastSync + max 1 (s.zget Z.RING_SYNC.LOSS) * s.syncPeriod * 1000 * nsUnits →
      exec .syncLoss s = .next s) ∧
    (s.following = false → ∀ r : Bool, exec (.estimateUpdate r) s = .next s) ∧
    (s.following = true →
      (∃ t : State, exec (.estimateUpdate true) s = .next t ∧ t.ring.samples = [] ∧ t.zget Z.TIME_STAT.EST_VALID = 0 ∧ t.time = s.time) ∧
      (∀ e : Int, s.fit = some e → ∃ t : State, exec (.estimateUpdate false) s = .next t ∧ t.zget Z.TIME_XTAL.EPS = satBits 32 e ∧
        t.zget Z.TIME_STAT.EST_VALID = (if s.zget Z.TIME_STAT.EST_VALID = 1 ∨
          (s.timeState = tsLocked ∧ s.ring.lockedAt + s.gateUnits ≤ s.time) then 1 else 0) ∧
        (s.zget Z.TIME_STAT.EST_VALID = 1 → t.ring.eps0 = some (e, s.time)) ∧
        (16 < (e - signedOf 32 (s.zget Z.TIME_XTAL.EPS)).natAbs → bitAt (t.zget Z.TIME_EVSTAT.PEND) 4 = true))) ∧
    (s.timeState = tsAcquire ∨ s.timeState = tsLocked → exec .incRecompute s = .next s) ∧
    (s.timeState = tsRest → exec .incRecompute s = .next (if s.ring.eps0 = none then s else s.setInc (s.incFor 0))) ∧
    (s.timeState = tsHeadstock ∨ s.timeState = tsFree → ∀ left : Int,
      left = (if s.ring.slewNow = 0 then s.slewNs else s.slewNs - max (-1000) (min 1000 s.slewNs)) →
      exec .incRecompute s = .next (((s.zput Z.TIME_SLEW.SLEW (wrapBits 32 left)).updRing fun r => { r with
        slewNow := if 0 < left then 1 else if left < 0 then 2 else 0 }).setInc (s.incFor
          (max (-160000) (min 160000 (signedOf 32 (s.zget Z.TIME_TRIM.TRIM))) +
            (if 0 < left then 16000 else if left < 0 then -16000 else 0))))) ∧
    (s.timeState = tsHeadstock ∨ s.timeState = tsFree → s.ring.eps0 = none → s.slewNs = 0 → ∀ trim : Int,
      trim = signedOf 32 (s.zget Z.TIME_TRIM.TRIM) → -160000 ≤ trim → trim ≤ 160000 →
      ∃ t : State, exec .incRecompute s = .next t ∧ onlyRegs [Z.TIME_SLEW.SLEW, Z.TIME_INC.INC] (s.updRing fun _ => t.ring) t ∧
        t.slewNs = 0 ∧ t.ring = { s.ring with slewNow := 0 } ∧
        (16000000000 * (t.zget Z.TIME_INC.INC : Int) - nominalInc * (16000000000 + trim)).natAbs ≤ 16000000000 / 2) ∧
    (∀ w : Word, s.bar0Open →
      ((s.timeState = tsHeadstock ∨ s.timeState = tsFree) ∧ s.run.active = false ∧ s.ring.set1 < 1000000000 →
        ∃ t : State, exec (.timeSet w) s = .next t ∧ t.time = timeOf3 s.ring.set0 s.ring.set1 w.toNat ∧ t.zget Z.TIME_STAT.TAI_SET = 1 ∧
          t.zget Z.TIME_STAT.EST_VALID = 0 ∧ t.run = s.run ∧ t.zget Z.TIME_INC.INC = s.zget Z.TIME_INC.INC) ∧
      ((s.timeState ≠ tsHeadstock ∧ s.timeState ≠ tsFree) ∨ s.run.active = true ∨ 1000000000 ≤ s.ring.set1 →
        exec (.timeSet w) s = .next (s.zput Z.TIME_STAT.SET_REFUSED 1)) ∧
      exec (.timeSlewWrite w) s = .next (s.zput Z.TIME_SLEW.SLEW w.toNat))

/-- Roles on the ring (R318 to R322, R461).  A headstock or candidate sends LEASE with LSEQ one higher; with both sides wrapped it returns at
once.  A headstock without a LEASE returned within L/2, or one that consumes another's lease, demotes; the tailstock takes over after L without
renewal, a ROLE 1 node becomes candidate after L; a higher SRC is stripped, every other LEASE is consumed and goes on with this node's bit.
The mirror lapses after L.  EN opens and closes the bypass; NODE_ID, ROLE and RING_KEY refuse a change while it is set.
The model's choices that it rests on are named in log entries 1, 8 and 16. -/
def Obligations.RingRoles : Prop :=
  ∀ s : State,
    ((s.role ≠ roHeadstock ∧ s.role ≠ roCandidate) ∨ s.ringEn = false → exec .leaseSend s = .next s) ∧
    (s.role = roHeadstock ∨ s.role = roCandidate → s.ringEn = true →
      ∀ (n tail : Nat) (ok : Bool), n = (s.lseq + 1) % 2 ^ 32 →
        (s.zget Z.RING_LEASE.NEXT_TAIL_EN = 1 → tail = s.zget Z.RING_LEASE.NEXT_TAIL) →
        (s.zget Z.RING_LEASE.NEXT_TAIL_EN ≠ 1 → tail = s.ring.prevHs.getD 0) →
        ok = (bitAt (s.zget Z.RING_MAP.MASK) tail && (s.zget Z.RING_LEASE.NEXT_TAIL_EN == 1 || s.ring.prevHs.isSome)) →
        (s.ringServes .east = true ∨ s.ringServes .west = true →
          exec .leaseSend s = .next (((((s.zput Z.RING_LSEQ.LSEQ n).zput Z.RING_STAT.TS_ID tail).zput Z.RING_STAT.TS_VALID
            ok.toNat).updRing fun r => { r with leases := r.leases ++ [(n, s.time)] }).ringEast
              ([5, b8 s.node, b8 (tail + 128 * ok.toNat), b8 (max 1 (s.zget Z.RING_LEASE.L_MS))] ++ beBytes n 4 ++ beBytes (2 ^ s.node) 8))) ∧
        (s.ringServes .east = false → s.ringServes .west = false →
          ∃ t, exec .leaseSend s = .next t ∧ t.role = roHeadstock ∧ t.lseq = n ∧ t.zget Z.RING_MAP.MASK = 2 ^ s.node % 2 ^ 64 ∧
            t.ring.acted = max s.ring.acted s.time ∧ t.time = s.time ∧
            (s.role = roCandidate → t.timeState = tsHeadstock ∧ t.zget Z.RING_STAT.HS_VALID = 1) ∧
            (s.role = roHeadstock → t.timeState = s.timeState))) ∧
    (s.role = roHeadstock → s.ring.acted + msUnits (max 1 (s.zget Z.RING_LEASE.L_MS)) / 2 < s.time →
      ∃ t, exec .leaseReturnTimeout s = .next t ∧ t.role = roPlain ∧ t.ring.leases = [] ∧ bitAt (t.zget Z.RING_EVSTAT.PEND) 2 = true ∧
        t.time = s.time ∧ (s.timeState = tsHeadstock → t.timeState = tsRest ∧ t.ring.hold = true)) ∧
    (s.role ≠ roHeadstock ∨ s.time ≤ s.ring.acted + msUnits (max 1 (s.zget Z.RING_LEASE.L_MS)) / 2 →
      exec .leaseReturnTimeout s = .next s) ∧
    (s.role = roTailstock → s.cfgRole ≠ 0 → s.ring.renewed + msUnits s.ring.lms ≤ s.time →
      exec .tailstockTakeover s = exec .leaseSend (s.zput Z.RING_STAT.ROLE_NOW roCandidate)) ∧
    (s.role ≠ roTailstock ∨ s.cfgRole = 0 ∨ s.time < s.ring.renewed + msUnits s.ring.lms → exec .tailstockTakeover s = .next s) ∧
    (s.ringEn = true → s.cfgRole = 1 → s.role = roPlain → s.ring.renewed ≤ s.ring.enabled →
      s.ring.enabled + msUnits (if s.ringServes .east = true ∨ s.ringServes .west = true then max 1 (s.zget Z.RING_LEASE.L_MS) else 100)
        ≤ s.time →
      exec .candidateTimeout s = exec .leaseSend (s.zput Z.RING_STAT.ROLE_NOW roCandidate)) ∧
    (s.ringEn = false ∨ s.cfgRole ≠ 1 ∨ s.role ≠ roPlain ∨ s.ring.enabled < s.ring.renewed → exec .candidateTimeout s = .next s) ∧
    (s.role = roTailstock → s.ring.mirrorAt + msUnits s.ring.lms ≤ s.time →
      ∃ t, exec .mirrorTimeout s = .next t ∧ onlyEvent [Z.RING_STAT.MIRROR_VALID, Z.RING_EVSTAT.PEND, Z.EVT_STAT.FILTERED] s t ∧
        t.zget Z.RING_STAT.MIRROR_VALID = 0 ∧ bitAt (t.zget Z.RING_EVSTAT.PEND) 5 = true) ∧
    (s.role ≠ roTailstock ∨ s.time < s.ring.mirrorAt + msUnits s.ring.lms → exec .mirrorTimeout s = .next s) ∧
    (∀ (d : Side) (b : RxBlock) (pl : List Byte) (n mask : Nat), intact (.ring d) b = true → b.blk.kind = .data → b.blk.payload = pl →
      s.ringServes d = true → (s.lane (.ring d)).badKind = 0 → (s.prbsCfg (.ring d)).1 = false → byteAt pl 0 = 5 →
      n = beNat (slice pl 4 4) → mask = beNat (slice pl 8 8) →
      (d = .east → s.ringServes .west = true → exec (.ringLeaseReceive d b) s = .next (s.ringBlock .west pl)) ∧
      (d = .west ∨ s.ringServes .west = false → srcOf pl = s.node →
        ((∀ x ∈ s.ring.leases, x.1 ≠ n) → exec (.ringLeaseReceive d b) s = .next s) ∧
        (∀ at_ : Nat, s.ring.leases.find? (fun x => x.1 == n) = some (n, at_) →
          (s.role = roHeadstock → at_ + msUnits (max 1 (s.zget Z.RING_LEASE.L_MS)) / 2 < s.time →
            exec (.ringLeaseReceive d b) s =
              .next (s.updRing fun r => { r with leases := r.leases.filter fun y => y.1 != n })) ∧
          (s.role = roCandidate ∨ s.time ≤ at_ + msUnits (max 1 (s.zget Z.RING_LEASE.L_MS)) / 2 →
            s.role = roHeadstock ∨ s.role = roCandidate →
            ∃ t, exec (.ringLeaseReceive d b) s = .next t ∧ t.role = roHeadstock ∧ t.zget Z.RING_MAP.MASK = mask ∧
              t.ring.acted = max s.ring.acted at_ ∧ t.ring.mapSeen = true ∧
              (s.role = roCandidate → t.timeState = tsHeadstock ∧ t.zget Z.TIME_STAT.HOPS = 0)))) ∧
      (s.ringHears d b pl → s.role = roHeadstock ∨ s.role = roCandidate → s.node < srcOf pl →
        exec (.ringLeaseReceive d b) s = .next s) ∧
      (s.ringHears d b pl → (s.role ≠ roHeadstock ∧ s.role ≠ roCandidate) ∨ srcOf pl < s.node →
        ∃ t : State, exec (.ringLeaseReceive d b) s = .next (t.ringEast (slice pl 0 8 ++ beBytes (mask ||| 2 ^ s.node) 8)) ∧
          t.time = s.time ∧ t.run.active = s.run.active ∧ t.buf = s.buf ∧
          (bitAt mask s.node = true → bitAt (t.zget Z.RING_EVSTAT.PEND) 3 = true) ∧
          (s.role = roHeadstock ∨ s.role = roCandidate → bitAt (t.zget Z.RING_EVSTAT.PEND) 2 = true) ∧
          (s.lseq < n → t.lseq = n ∧ t.zget Z.RING_STAT.TS_ID = byteAt pl 2 % 64 ∧ t.zget Z.RING_STAT.TS_VALID = byteAt pl 2 / 128 ∧
            t.ring.renewed = s.time ∧ t.ring.lms = max 1 (byteAt pl 3) ∧ t.zget Z.RING_STAT.HS_VALID = 1 ∧
            t.zget Z.RING_STAT.HS_ID = srcOf pl ∧
            t.role = (if byteAt pl 2 / 128 = 1 ∧ byteAt pl 2 % 64 = s.node ∧ s.cfgRole ≠ 0 then roTailstock else roPlain)) ∧
          (n ≤ s.lseq → t.lseq = s.lseq ∧ t.ring.renewed = s.ring.renewed ∧
            t.role = (if s.role = roHeadstock ∨ s.role = roCandidate then roPlain else s.role)))) ∧
    (∀ w : Word, s.bar0Open →
      (s.ringEn = false → s.zget Z.CLK_GATE.RING ≠ 0 →
        ∃ t, exec (.ringCfgEnable w) s = .next t ∧ t.ringEn = true ∧ t.node = w.toNat % 64 ∧
          t.zget Z.RING_CFG.ROLE = w.toNat / 256 % 4 ∧ t.zget Z.RING_CFG.RING_KEY = w.toNat / 65536 ∧
          t.zget Z.RING_CFG.STOP_RETAIN = w.toNat / 2048 % 2 ∧ t.ring.bypass = false ∧ t.ring.enabled = s.time ∧
          t.ring.mapSeen = false ∧ t.role = roPlain ∧ t.zget Z.RING_STAT.HS_VALID = 0 ∧ t.time = s.time ∧ t.timeState = s.timeState ∧
          (∀ d : Side, t.lst (.ring d) = if bitAt (s.zget (ZP.LCTL.LANE_EN.ringLane d)) 0 then 1 else 0)) ∧
      (s.ringEn = true → w.toNat % 64 ≠ s.node ∨ w.toNat / 256 % 4 ≠ s.zget Z.RING_CFG.ROLE ∨
          w.toNat / 65536 ≠ s.zget Z.RING_CFG.RING_KEY →
        exec (.ringCfgEnable w) s = .next ((s.zput Z.RING_CFG.STOP_RETAIN (w.toNat / 2048)).zput Z.RING_STAT.REFUSED 1)) ∧
      (s.ringEn = true → w.toNat % 64 = s.node → w.toNat / 256 % 4 = s.zget Z.RING_CFG.ROLE →
          w.toNat / 65536 = s.zget Z.RING_CFG.RING_KEY →
        exec (.ringCfgEnable w) s = .next (s.zput Z.RING_CFG.STOP_RETAIN (w.toNat / 2048))) ∧
      (s.ringEn = false → s.zget Z.CLK_GATE.RING = 0 →
        ∃ t, exec (.ringCfgEnable w) s = .next t ∧ t.ringEn = false ∧ t.ring = s.ring ∧ t.lanes = s.lanes ∧
          bitAt (t.zget Z.PWR_EVSTAT.PEND) 3 = true) ∧
      (s.ringEn = true →
        ∃ t, exec (.ringCfgDisable w) s = .next t ∧ t.ringEn = false ∧ t.ring.bypass = true ∧ t.role = roPlain ∧
          (∀ d : Side, t.lst (.ring d) = 0) ∧ t.time = s.time ∧ t.node = s.node ∧
          t.timeState = (if s.following = true ∨ (s.role = roHeadstock ∧ s.timeState = tsHeadstock) ∨
            (s.role = roCandidate ∧ s.timeState = tsHeadstock) then tsRest else s.timeState) ∧
          (s.role = roHeadstock ∨ s.role = roCandidate → bitAt (t.zget Z.RING_EVSTAT.PEND) 2 = true)) ∧
      (s.ringEn = false →
        ∃ t, exec (.ringCfgDisable w) s = .next t ∧ t.ringEn = false ∧ t.node = w.toNat % 64 ∧ t.zget Z.RING_CFG.ROLE = w.toNat / 256 % 4 ∧
          t.zget Z.RING_CFG.RING_KEY = w.toNat / 65536 ∧ t.ring = s.ring ∧ t.lanes = s.lanes))

/-- ECHO on ring links and on front-end ports, and the SYNC blocks of a port (R309, R310, R323, R324).  A request keeps its stamp by ID, a
request received is answered with T2 and T3, a response gives RTT = (T4 − T1) − (T3 − T2), averaged over the last 2^AVG_LOG2; late
requests are forgotten, on a port counted, the sixteenth in a row raised.  A port's OFFSET is (T1 + D_down) less the Pelnos time; a
SLIP is answered with a LOAD SYNC.  LOAD and check SYNC carry the tick at the estimated arrival plus 64.
The model's choices that it rests on are named in log entries 1, 8 and 16. -/
def Obligations.EchoAndSync : Prop :=
  ∀ s : State,
    (∀ (d : Side) (id : Nat), id = (s.ringEcho d).nextId →
      (s.ringServes d = true → exec (.ringEchoRequest d) s = .next ((s.updEcho d fun e => { e with
        nextId := (id + 1) % 256,
        open_ := e.open_.filter (fun x => x.1 != id) ++ [(id, s.time + s.asymTx d)] }).ringEchoBlock d [1, b8 id])) ∧
      (s.ringServes d = false → exec (.ringEchoRequest d) s = .next s)) ∧
    (∀ (d : Side) (b : RxBlock) (fine : Fin 2048) (pl : List Byte), intact (.ring d) b = true → b.blk.kind = .echo →
      b.blk.payload = pl → s.ringServes d = true → (s.lane (.ring d)).badKind = 0 → (s.prbsCfg (.ring d)).1 = false →
      (byteAt pl 0 = 1 → ∀ turn : Fin 65536,
        exec (.ringEchoReqReceive d b fine turn) s = .next (s.ringEchoBlock d ([2, b8 (byteAt pl 1)] ++
          stampBytes ((s.time : Int) + fine.val * 6553600 - s.asymRx d) ++
          stampBytes ((s.time : Int) + fine.val * 6553600 + turn.val * 6553600 + s.asymTx d)))) ∧
      (byteAt pl 0 = 2 → (∀ x ∈ (s.ringEcho d).open_, x.1 ≠ byteAt pl 1) → exec (.ringEchoRespReceive d b fine) s = .next s) ∧
      (∀ (t1 rtt : Int) (k : Nat), byteAt pl 0 = 2 → (s.ringEcho d).open_.find? (fun x => x.1 == byteAt pl 1) = some (byteAt pl 1, t1) →
        rtt = stampDiff ((s.time : Int) + fine.val * 6553600 - s.asymRx d - t1) -
          stampDiff (readStamp (slice pl 8 6) - readStamp (slice pl 2 6)) →
        k = 2 ^ min 10 (s.zget Z.RING_ECHO.AVG_LOG2) →
        ∃ t, exec (.ringEchoRespReceive d b fine) s = .next t ∧
          onlyRegs (match d with
            | .east => [Z.RING_DLY_E.DELAY, Z.RING_DLY_E.VALID]
            | .west => [Z.RING_DLY_W.DELAY, Z.RING_DLY_W.VALID])
            (s.updEcho d fun e => { e with
              open_ := e.open_.filter (fun y => y.1 != byteAt pl 1), rtts := (rtt :: e.rtts).take k }) t ∧
          ∀ v : Int, v = ((rtt :: (s.ringEcho d).rtts).take k).foldl (· + ·) 0 /
              (2 * ((rtt :: (s.ringEcho d).rtts).take k).length : Nat) / 2 ^ 22 →
            t.zget (match d with | .east => Z.RING_DLY_E.DELAY | .west => Z.RING_DLY_W.DELAY) = v.toNat % 2 ^ 31 ∧
            t.zget (match d with | .east => Z.RING_DLY_E.VALID | .west => Z.RING_DLY_W.VALID) =
              if k ≤ (s.ringEcho d).rtts.length + 1 then 1 else 0)) ∧
    (∀ (d : Side) (id : Byte), ∃ t, exec (.ringEchoTimeout d id) s = .next t ∧
      t = s.updEcho d (fun e => { e with open_ := (t.ringEcho d).open_ }) ∧
      ∀ x, x ∈ (t.ringEcho d).open_ ↔ x ∈ (s.ringEcho d).open_ ∧ (x.1 ≠ id.toNat ∨ (s.time : Int) < x.2 + 100000 * nsUnits)) ∧
    (∀ (p : Port) (q : PortIn), s.port p = q →
      (s.linkUp p = true → (q.echo.acq = true → q.echo.sent < 16) → (q.echo.acq = false → s.zget (ZP.ECHO_CTL.EN.port p) ≠ 0) →
        exec (.downlinkEchoRequest p) s = .next ((s.setPort p { q with echo := { q.echo with
          nextId := (q.echo.nextId + 1) % 256, sent := q.echo.sent + q.echo.acq.toNat,
          open_ := q.echo.open_.filter (fun x => x.1 != q.echo.nextId) ++ [(q.echo.nextId, s.time)] } }).dlBlock p .echo
            [1, b8 q.echo.nextId])) ∧
      (s.linkUp p = false ∨ (q.echo.acq = true ∧ 16 ≤ q.echo.sent) ∨ (q.echo.acq = false ∧ s.zget (ZP.ECHO_CTL.EN.port p) = 0) →
        exec (.downlinkEchoRequest p) s = .next s) ∧
      (∀ (l : Fin 8) (b : RxBlock) (fine : Fin 2048) (pl : List Byte), s.lst (.up p l) = 5 → intact (.up p l) b = true →
        b.blk.kind = .echo → b.blk.payload = pl → byteAt pl 0 = 2 → (s.lane (.up p l)).badKind = 0 → (s.prbsCfg (.up p l)).1 = false →
        ((∀ x ∈ q.echo.open_, x.1 ≠ byteAt pl 1) → exec (.echoResponseReceive p l b fine) s = .next s) ∧
        (∀ (t1 k : Nat) (rtt off : Int), q.echo.open_.find? (fun x => x.1 == byteAt pl 1) = some (byteAt pl 1, t1) →
          q.echo.acq = false → q.echo.loadSent = true → k = 2 ^ min 10 (s.zget (ZP.ECHO_CTL.AVG_LOG2.port p)) → bitAt (byteAt pl 12) 0 = false →
          rtt = (s.time : Int) + fine.val * 6553600 - t1 - beNat (slice pl 9 3) * 13107200 → 0 ≤ rtt →
          off = (t1 : Int) + (rtt + s.portAsym p) / 2 - q.echo.epoch -
            (beNat (slice pl 2 4) * 4096 * 3355443200 + beNat (slice pl 6 3) % 2 ^ 20 * 13107200) →
          -(2 ^ 31 * 4096 * 3355443200) ≤ off → off < 2 ^ 31 * 4096 * 3355443200 →
          (q.echo.n + 1 < k →
            exec (.echoResponseReceive p l b fine) s = .next ((s.setPort p { q with echo := { q.echo with
              open_ := q.echo.open_.filter (fun y => y.1 != byteAt pl 1), timeouts := 0, n := q.echo.n + 1, burst := [],
              sumRtt := q.echo.sumRtt + rtt.toNat, sumOff := q.echo.sumOff + off } }).zput (ZP.ECHO_STAT.LOADED.port p) 1)) ∧
          (q.echo.n + 1 = k →
            ∃ t, exec (.echoResponseReceive p l b fine) s = .next t ∧
              t.zget (ZP.OFFSET.OFFSET.port p) = satBits 32 ((q.echo.sumOff + off) / (k : Int) / 65536) ∧
              t.zget (ZP.ECHO_STAT.RTT.port p) = sat 24 ((q.echo.sumRtt + rtt.toNat) / k * 1000 / nsUnits) ∧
              t.zget (ZP.ECHO_STAT.VALID.port p) = 1 ∧ t.zget (ZP.ECHO_STAT.LOADED.port p) = 1 ∧ (t.port p).echo.n = 0 ∧
              (t.port p).echo.rtt = (q.echo.sumRtt + rtt.toNat) / k ∧ t.chips = s.chips ∧ t.time = s.time ∧
              (∀ r : Port, r ≠ p → t.port r = s.port r)))) ∧
      (∀ (l : Fin 8) (b : RxBlock) (fine : Fin 2048) (pl : List Byte) (t1 : Nat), s.lst (.up p l) = 5 → intact (.up p l) b = true →
        b.blk.kind = .echo → b.blk.payload = pl → byteAt pl 0 = 2 → (s.lane (.up p l)).badKind = 0 → (s.prbsCfg (.up p l)).1 = false →
        q.echo.open_.find? (fun x => x.1 == byteAt pl 1) = some (byteAt pl 1, t1) → bitAt (byteAt pl 12) 0 = true →
        ∃ t, exec (.echoResponseReceive p l b fine) s = .next t ∧ t.zget (ZP.ECHO_STAT.SLIP.port p) = 1 ∧
          bitAt (t.zget Z.TIME_EVSTAT.PEND) 5 = true ∧ (t.port p).echo.loadSent = true ∧
          ∃ pre blk crc, t.out = pre ++ [.downlink p blk crc] ∧ blk.kind = .sync) ∧
      (∀ id : Byte,
        ((∀ x ∈ q.echo.open_, x.1 ≠ id.toNat) → exec (.downlinkEchoTimeout p id) s = .next s) ∧
        (∀ t1 : Nat, q.echo.open_.find? (fun x => x.1 == id.toNat) = some (id.toNat, t1) →
          (s.time < t1 + 1000000 * nsUnits → exec (.downlinkEchoTimeout p id) s = .next s) ∧
          (t1 + 1000000 * nsUnits ≤ s.time → q.echo.acq = false →
            (q.echo.timeouts + 1 < 16 →
              exec (.downlinkEchoTimeout p id) s = .next (s.setPort p { q with echo := { q.echo with
                open_ := q.echo.open_.filter (fun y => y.1 != id.toNat), timeouts := q.echo.timeouts + 1 } })) ∧
            (16 ≤ q.echo.timeouts + 1 →
              ∃ t, exec (.downlinkEchoTimeout p id) s = .next t ∧
                t.port p = { q with echo := { q.echo with
                  open_ := q.echo.open_.filter (fun y => y.1 != id.toNat), timeouts := 0 } } ∧
                onlyEvent [Z.TIME_EVSTAT.PEND, Z.EVT_STAT.FILTERED] (s.setPort p (t.port p)) t ∧
                bitAt (t.zget Z.TIME_EVSTAT.PEND) 5 = true)))) ∧
      (s.linkUp p = true → s.run.active = true → s.time < s.epochTime → s.epochTime ≤ s.time + 200 * 1000 * nsUnits → ∀ u : Int,
        u = ((s.time : Int) + (q.echo.rtt + s.portAsym p) / 2 - s.run.epoch.getD q.echo.epoch) / tickUnits + 64 →
        exec (.epochSyncSend p) s = .next ((s.setPort p { q with echo := { q.echo with
          epoch := s.run.epoch.getD q.echo.epoch, loadRtt := q.echo.rtt, loadSent := true } }).dlBlock p .sync
            (beBytes (wrapBits 32 (u / 4096)) 4 ++
              beBytes ((u % 4096).toNat + 16384 * (if u < 0 then 1 else 0) + 32768) 2))) ∧
      (s.linkUp p = false ∨ s.run.active = false ∨ s.epochTime ≤ s.time ∨ s.time + 200 * 1000 * nsUnits < s.epochTime →
        exec (.epochSyncSend p) s = .next s) ∧
      (s.linkUp p = true → q.echo.loadSent = true → ∀ u : Int,
        u = ((s.time : Int) + (q.echo.loadRtt + s.portAsym p) / 2 - q.echo.epoch) / tickUnits + 64 →
        exec (.syncCheckSend p) s = .next (s.dlBlock p .sync (beBytes (wrapBits 32 (u / 4096)) 4 ++ beBytes (u % 4096).toNat 2))) ∧
      (s.linkUp p = false ∨ q.echo.loadSent = false → exec (.syncCheckSend p) s = .next s))

/-! ### Clocks, levels, feeds -/

/-- References, clock monitors, the safe state and the gating tree (R333 to R338).  A reference qualifies and is lost as R333 says; the source
changes only to the qualified one that the time state asks for, a forced change counts.  A trip shows in CLK_MON and has the effect of R335; the
safe state stops DMA, darkens every link and sends the outputs to the fault level, and at its end commands are aborted, contexts discarded
and the run ended.  A gate with an enabled child is not closed.
The model's choices that it rests on are named in log entries 1 and 21. -/
def Obligations.ClocksAndSafeState : Prop :=
  ∀ s : State,
    (∀ ms : Byte,
      (s.zget Z.CLK_SRC.XTAL_QUAL = 1 → exec (.crystalQualify ms) s = .next s) ∧
      (s.zget Z.CLK_SRC.XTAL_QUAL ≠ 1 →
        exec (.crystalQualify ms) s = .next ((s.zput Z.CLK_SRC.XTAL_QUAL 1).zput Z.CLK_SRC.XTAL_MS ms.toNat))) ∧
    (∀ (d : Side) (sel : Nat) (f : Field), sel = (match d with | .west => 1 | .east => 2) →
      f = (match d with | .west => Z.CLK_SRC.RW_QUAL | .east => Z.CLK_SRC.RE_QUAL) →
      (s.lst (.ring d) = 5 ∨ s.safe = true → exec (.ringClockQualify d true) s = .next (s.zput f 1)) ∧
      (s.lst (.ring d) ≠ 5 → s.safe = false → exec (.ringClockQualify d true) s = .next s) ∧
      (s.zget f ≠ 1 → exec (.ringClockQualify d false) s = .next s) ∧
      (s.zget f = 1 → s.zget Z.CLK_SRC.SEL ≠ sel → exec (.ringClockQualify d false) s = .next (s.zput f 0)) ∧
      (s.zget f = 1 → s.zget Z.CLK_SRC.SEL = sel → s.zget Z.CLK_SRC.XTAL_QUAL = 1 →
        ∃ t, exec (.ringClockQualify d false) s = .next t ∧ t.zget f = 0 ∧ t.zget Z.CLK_SRC.SAFE = s.zget Z.CLK_SRC.SAFE ∧
          t.timeState = (if s.following = true then tsRest else s.timeState)) ∧
      (s.zget f = 1 → s.zget Z.CLK_SRC.SEL = sel → s.zget Z.CLK_SRC.XTAL_QUAL ≠ 1 → s.safe = false →
        ∃ t, exec (.ringClockQualify d false) s = .next t ∧ t.zget f = 0 ∧ t.zget Z.CLK_SRC.SAFE = 1 ∧ t.zget Z.CLK_SRC.SEL = 3)) ∧
    (∀ sel : Fin 3,
      (sel.val ≠ s.zget Z.CLK_SRC.SEL → s.safe = false → sel.val = (if s.following = true then s.zget Z.TIME_STAT.CLK_DIR + 1 else 0) →
        s.qualified sel = true →
        (∃ t, exec (.clockSourceSwitch sel) s = .next t ∧ onlyEvent [Z.CLK_SRC.SEL, Z.PWR_EVSTAT.PEND, Z.EVT_STAT.FILTERED] s t ∧
          t.zget Z.CLK_SRC.SEL = sel ∧ bitAt (t.zget Z.PWR_EVSTAT.PEND) 1 = true) ∧
        (∃ t, exec (.clockSwitchForced sel) s = .next t ∧
          onlyEvent [Z.CLK_SRC.SEL, Z.CLK_SRC.FORCED, Z.PWR_EVSTAT.PEND, Z.EVT_STAT.FILTERED] s t ∧ t.zget Z.CLK_SRC.SEL = sel ∧
          t.zget Z.CLK_SRC.FORCED = sat 8 (s.zget Z.CLK_SRC.FORCED + 1) ∧ bitAt (t.zget Z.PWR_EVSTAT.PEND) 1 = true)) ∧
      (sel.val = s.zget Z.CLK_SRC.SEL ∨ s.safe = true ∨ sel.val ≠ (if s.following = true then s.zget Z.TIME_STAT.CLK_DIR + 1 else 0) ∨
        s.qualified sel = false →
        exec (.clockSourceSwitch sel) s = .next s ∧ exec (.clockSwitchForced sel) s = .next s)) ∧
    (∀ (k : Fin 19) (freq : Bool),
      (s.clockMasked k freq = true → exec (.clockMonitorTrip k freq) s = .next s) ∧
      (s.clockMasked k freq = false →
        ∃ t, exec (.clockMonitorTrip k freq) s = .next t ∧ bitAt (t.zget Z.CLK_MON.TRIP) k = true ∧ bitAt (t.zget Z.PWR_EVSTAT.PEND) 0 = true ∧
          t.time = s.time ∧ t.buf.mem = s.buf.mem ∧
          (k = 0 → t.zget Z.CLK_SRC.XTAL_QUAL = 0 ∧
            (s.zget Z.CLK_SRC.SEL = 0 → s.timeState = tsHeadstock ∨ s.ringEn = false → t.zget Z.CLK_SRC.SAFE = 1) ∧
            (s.zget Z.CLK_SRC.SEL ≠ 0 → t.zget Z.CLK_SRC.SAFE = s.zget Z.CLK_SRC.SAFE ∧ t.timeState = s.timeState)) ∧
          (k = 1 → t.zget Z.CLK_SRC.RW_QUAL = 0) ∧ (k = 2 → t.zget Z.CLK_SRC.RE_QUAL = 0) ∧
          (k = 3 → s.safe = false → t.zget Z.CLK_SRC.SAFE = 1 ∧ t.zget Z.CLK_SRC.SEL = 3 ∧ t.host.dmaStop = true ∧
            t.ring.bypass = true ∧ t.zget Z.SAFE_STAT.COUNT = sat 16 (s.zget Z.SAFE_STAT.COUNT + 1) ∧
            bitAt (t.zget Z.PWR_EVSTAT.PEND) 2 = true ∧ (∀ d : Side, t.lst (.ring d) = 0) ∧
            (∀ (p : Port) (l : Fin 8), t.lst (.down p) = 0 ∧ t.lst (.up p l) = 0) ∧
            (∀ m : Fin 16, t.zget (ZI.STAT.CODE.il m) = 3994 ∧ t.zget (ZI.STAT.FAULT.il m) = 1 ∧ t.zget (ZI.STAT.CAUSE.il m) = 6)) ∧
          (∀ n : Fin 4, k.val = 4 + n.val →
            t = ((((s.updZreg fun _ => t.zreg).updEv fun _ => t.ev).updHost fun _ => t.host).updOut fun _ => t.out).updGcl n
              fun g => { g with tripped := true }) ∧
          (∀ n : Fin 8, k.val = 8 + n.val → s.inService n = true → s.safe = false → bitAt (t.zget Z.BUF_STAT.SKIPPED) n = true) ∧
          (k = 16 → t.zget Z.HOST_LINK.SPEED = 0 ∧ bitAt (t.zget Z.HOST_EVSTAT.PEND) 0 = true ∧ t.cmds = s.cmds ∧ t.xtr = s.xtr) ∧
          (k = 17 → t.pwr.monTrip = true ∧ t.mon.dwell = false ∧
            ∀ m : Fin 16, t.zget (ZI.STAT.CODE.il m) = 3994 ∧ t.zget (ZI.STAT.FAULT.il m) = 1 ∧ t.zget (ZI.STAT.CAUSE.il m) = 6) ∧
          (k = 18 → onlyEvent [Z.CLK_MON.TRIP, Z.PWR_EVSTAT.PEND, Z.EVT_STAT.FILTERED] s t))) ∧
    (∀ us : Word,
      (s.exitSel = none ∨ s.safe = false → exec (.safeStateExit us) s = .next s) ∧
      (∀ sel : Nat, s.exitSel = some sel → s.safe = true →
        ∃ t, exec (.safeStateExit us) s = .next t ∧ t.zget Z.CLK_SRC.SAFE = 0 ∧ t.zget Z.CLK_SRC.SEL = sel % 4 ∧ t.host.dmaStop = false ∧
          t.xtr.ctxs = [] ∧ t.xtr.queue = [] ∧ t.run.active = false ∧ t.zget Z.SAFE_STAT.LAST_US = sat 16 us.toNat ∧ t.time = s.time ∧
          bitAt (t.zget Z.PWR_EVSTAT.PEND) 2 = true ∧ t.buf.mem = s.buf.mem ∧
          (s.run.active = true → t.run.last = some (s.mNext - 1) ∧ t.zget Z.TIME_STAT.RUN_ACTIVE = 0) ∧
          (s.timeState = tsHeadstock → t.zget Z.TIME_STAT.TAI_SET = 0 ∧ t.timeState = tsHeadstock))) ∧
    (∀ w : Word, ∃ t, exec (.clockGateWrite w) s = .next t ∧
      onlyEvent [Z.CLK_GATE.PORT, Z.CLK_GATE.STACK, Z.CLK_GATE.RING, Z.CLK_GATE.MON, Z.PWR_EVSTAT.PEND, Z.EVT_STAT.FILTERED] s t ∧
      (∀ p : Fin 16, bitAt (t.zget Z.CLK_GATE.PORT) p =
        if bitAt w.toNat p then bitAt (s.zget Z.CLK_GATE.PORT) p || !bitAt (s.zget Z.BOOT_FAIL.PORT) p
        else bitAt (s.zget Z.CLK_GATE.PORT) p &&
          (s.zget (ZP.LCTL.LANE_EN.port p) != 0 || s.zget (ZP.CTL.MERGE_EN.port p) == 1)) ∧
      (∀ n : Fin 8, bitAt (t.zget Z.CLK_GATE.STACK) n = (bitAt w.toNat (16 + n.val) || (bitAt (s.zget Z.CLK_GATE.STACK) n && s.stackBusy n))) ∧
      bitAt (t.zget Z.CLK_GATE.RING) 0 = (bitAt w.toNat 24 || (bitAt (s.zget Z.CLK_GATE.RING) 0 && s.ringEn)) ∧
      bitAt (t.zget Z.CLK_GATE.MON) 0 = (bitAt w.toNat 25 || (bitAt (s.zget Z.CLK_GATE.MON) 0 && s.zget Z.MON_CTL.SCAN_EN == 1)) ∧
      (∀ p : Fin 16, bitAt w.toNat p = false → bitAt (s.zget Z.CLK_GATE.PORT) p = true → s.portBusy p = true →
        bitAt (t.zget Z.PWR_EVSTAT.PEND) 3 = true)) ∧
    (s.pwr.monTrip = true → ∃ t, exec .monitorClockReturn s = .next t ∧ t.pwr = { s.pwr with monTrip := false } ∧ t.mon = s.mon) ∧
    (s.pwr.monTrip = false → exec .monitorClockReturn s = .next s)

/-- The levels of the gouge clusters, feeds and supply warnings (R338 to R343).  Raising ramps, relocks and rests; lowering relocks and ramps; a
failed ramp returns to the level in force until TARGET is written again.  A feed that is lost or returns is reported; the gap holds the
outputs until 2 µs after its end.  A warning caps every cluster at L1 until 1 ms after clearance and leaves its figures.
The model's choices that it rests on are named in log entries 1 and 21. -/
def Obligations.LevelsFeedsAndWarnings : Prop :=
  ∀ s : State,
    (∀ n : Fin 4,
      (s.bar0Open → exec (.clusterEnWrite n true) s = .next (s.zput (ZC.CTL.EN.gcl n) 1)) ∧
      (s.bar0Open → (∀ j : Fin 24, s.zget (ZE.CTL.OFF.geng (24 * n.val + j.val)) ≠ 0) →
        exec (.clusterEnWrite n false) s = .next (s.zput (ZC.CTL.EN.gcl n) 0)) ∧
      (s.bar0Open → ∀ j : Fin 24, s.zget (ZE.CTL.OFF.geng (24 * n.val + j.val)) = 0 → s.zget (ZC.CTL.EN.gcl n) = 1 →
        exec (.clusterEnWrite n false) s = .next (s.gateRefused (ZC.CTL.EN.gcl n).off 0)) ∧
      (∀ (target : Fin 4) (goal lvl : Nat), s.bar0Open → (s.gcl n).phase = .idle → lvl = s.zget (ZC.DVFS.LEVEL.gcl n) →
        goal = (if s.zget (ZC.DVFS.CAPPED.gcl n) = 1 then min target.val 1 else target.val) → (s.gcl n).rail = lvl →
        ∃ t, exec (.dvfsTargetWrite n target) s = .next t ∧ onlyRegs [ZC.DVFS.TARGET.gcl n, ZC.DVFS.SWITCHING.gcl n] (s.updGcl n fun _ => t.gcl n) t ∧
          t.zget (ZC.DVFS.TARGET.gcl n) = target ∧ t.gcl n = { s.gcl n with failed := false, goal := goal, phase := (t.gcl n).phase } ∧
          (lvl < goal → (t.gcl n).phase = .rampUp ∧ t.zget (ZC.DVFS.SWITCHING.gcl n) = 1) ∧
          (goal < lvl → (t.gcl n).phase = .relockDown ∧ t.zget (ZC.DVFS.SWITCHING.gcl n) = 1) ∧
          (goal = lvl → (t.gcl n).phase = .idle ∧ t.zget (ZC.DVFS.SWITCHING.gcl n) = 0)) ∧
      (∀ target : Fin 4, s.bar0Open → (s.gcl n).phase ≠ .idle →
        exec (.dvfsTargetWrite n target) s = .next ((s.zput (ZC.DVFS.TARGET.gcl n) target).updGcl n fun g => { g with failed := false })) ∧
      ((s.gcl n).phase = .rampUp → (s.gcl n).failed = false → (s.gcl n).goal = s.effTarget n → s.zget (ZC.DVFS.LEVEL.gcl n) < (s.gcl n).goal →
        exec (.dvfsPowerGood n) s = .next ((s.zput (ZC.DVFS.SWITCHING.gcl n) 1).updGcl n fun g => { g with
          rail := g.goal, phase := .relockUp })) ∧
      ((s.gcl n).phase = .rampDown → (s.gcl n).failed = false → (s.gcl n).goal = s.effTarget n → s.zget (ZC.DVFS.LEVEL.gcl n) = (s.gcl n).goal →
        exec (.dvfsPowerGood n) s = .next ((s.zput (ZC.DVFS.SWITCHING.gcl n) 0).updGcl n fun g => { g with
          rail := g.goal, phase := .idle })) ∧
      ((s.gcl n).phase = .rampUp ∨ (s.gcl n).phase = .rampDown → (s.gcl n).failed = true → s.zget (ZC.DVFS.LEVEL.gcl n) = (s.gcl n).goal →
        exec (.dvfsPowerGood n) s = .next ((s.zput (ZC.DVFS.SWITCHING.gcl n) 0).updGcl n fun g => { g with
          rail := g.goal, phase := .idle })) ∧
      ((s.gcl n).phase ≠ .rampUp → (s.gcl n).phase ≠ .rampDown →
        exec (.dvfsPowerGood n) s = .next s ∧ exec (.dvfsPgTimeout n) s = .next s) ∧
      (s.effTarget n = (s.gcl n).goal → (s.gcl n).goal < 4 → (s.gcl n).failed = false →
        ((s.gcl n).phase = .relockUp → (s.gcl n).rail = (s.gcl n).goal →
          ∃ t, exec (.dvfsPllRelock n) s = .next t ∧
            onlyRegs [ZC.DVFS.LEVEL.gcl n, ZC.DVFS.SWITCHING.gcl n] (s.updGcl n fun g => { g with tripped := false, phase := .idle }) t ∧
            t.zget (ZC.DVFS.LEVEL.gcl n) = (s.gcl n).goal ∧ t.zget (ZC.DVFS.SWITCHING.gcl n) = 0) ∧
        ((s.gcl n).phase = .relockDown → (s.gcl n).goal < (s.gcl n).rail →
          ∃ t, exec (.dvfsPllRelock n) s = .next t ∧
            onlyRegs [ZC.DVFS.LEVEL.gcl n, ZC.DVFS.SWITCHING.gcl n] (s.updGcl n fun g => { g with tripped := false, phase := .rampDown }) t ∧
            t.zget (ZC.DVFS.LEVEL.gcl n) = (s.gcl n).goal ∧ t.zget (ZC.DVFS.SWITCHING.gcl n) = 1)) ∧
      ((s.gcl n).phase ≠ .relockUp → (s.gcl n).phase ≠ .relockDown →
        exec (.dvfsPllRelock n) s = .next (s.updGcl n fun g => { g with tripped := false })) ∧
      ((s.gcl n).phase = .rampUp ∨ (s.gcl n).phase = .rampDown →
        ∃ t, exec (.dvfsPgTimeout n) s = .next t ∧ bitAt (t.zget Z.PWR_DVFS.PG_FAIL) n = true ∧ bitAt (t.zget Z.PWR_EVSTAT.PEND) 4 = true ∧
          t.gcl n = { s.gcl n with failed := true, phase := .rampDown, goal := s.zget (ZC.DVFS.LEVEL.gcl n) } ∧
          t.zget (ZC.DVFS.LEVEL.gcl n) = s.zget (ZC.DVFS.LEVEL.gcl n) ∧ t.zget (ZC.DVFS.TARGET.gcl n) = s.zget (ZC.DVFS.TARGET.gcl n))) ∧
    (∀ (feed : Bool) (volt : Byte) (ok other v : Field), ok = (if feed then Z.PWR_FEED.B_OK else Z.PWR_FEED.A_OK) →
      other = (if feed then Z.PWR_FEED.A_OK else Z.PWR_FEED.B_OK) → v = (if feed then Z.PWR_FEED.B_V else Z.PWR_FEED.A_V) →
      (s.zget ok = 0 → exec (.feedLoss feed volt) s = .next s) ∧
      (s.zget ok ≠ 0 → s.zget other = 1 →
        exec (.feedLoss feed volt) s = .next ((((s.zput ok 0).zput v volt.toNat).zbump Z.PWR_FEED.SWITCHES 1).updPwr fun p => { p with
          hold := true, holdAt := if p.hold then p.holdAt else s.time, gapFeed := feed.toNat, gapEnd := none })) ∧
      (s.zget ok ≠ 0 → s.zget other ≠ 1 →
        ∃ t, exec (.feedLoss feed volt) s = .next t ∧ onlyEvent [ok, v, Z.PWR_EVSTAT.PEND, Z.EVT_STAT.FILTERED] s t ∧ t.zget ok = 0 ∧
          t.zget v = volt.toNat ∧ bitAt (t.zget Z.PWR_EVSTAT.PEND) 5 = true) ∧
      (s.zget ok = 1 → exec (.feedReturn feed volt) s = .next s) ∧
      (s.zget ok ≠ 1 →
        ∃ t, exec (.feedReturn feed volt) s = .next t ∧ onlyEvent [ok, v, Z.PWR_EVSTAT.PEND, Z.EVT_STAT.FILTERED] s t ∧ t.zget ok = 1 ∧
          t.zget v = volt.toNat ∧ bitAt (t.zget Z.PWR_EVSTAT.PEND) 5 = true) ∧
      (s.zget ok = 1 → s.zget other = 1 → volt.toNat < 108 →
        ∃ t, exec (.feedLow feed volt) s = .next t ∧ onlyEvent [v, Z.PWR_EVSTAT.PEND, Z.EVT_STAT.FILTERED] s t ∧ t.zget v = volt.toNat ∧
          bitAt (t.zget Z.PWR_EVSTAT.PEND) 5 = true) ∧
      (s.zget ok ≠ 1 ∨ s.zget other ≠ 1 ∨ 108 ≤ volt.toNat → exec (.feedLow feed volt) s = .next s)) ∧
    (∀ (ns : Word) (volt : Byte),
      (s.pwr.hold = true → s.pwr.gapEnd = none →
        ∃ t, exec (.feedGapEnd ns volt) s = .next t ∧
          onlyEvent [Z.PWR_EVSTAT.PEND, Z.EVT_STAT.FILTERED] (s.updPwr fun p => { p with gapEnd := some s.time }) t ∧
          bitAt (t.zget Z.PWR_EVSTAT.PEND) 5 = true) ∧
      (s.pwr.hold = false ∨ s.pwr.gapEnd ≠ none → exec (.feedGapEnd ns volt) s = .next s)) ∧
    (∀ at_ : Nat, s.pwr.gapEnd = some at_ →
      (s.pwr.hold = true → at_ + 2000 * nsUnits ≤ s.time → s.zget Z.MON_CTL.CAL_WAIT = 0 →
        exec .outputHoldEnd s = .next (s.updPwr fun p => { p with hold := false, gapEnd := none })) ∧
      (s.time < at_ + 2000 * nsUnits → exec .outputHoldEnd s = .next s)) ∧
    (s.pwr.gapEnd = none → exec .outputHoldEnd s = .next s) ∧
    (∀ (rail : Fin 12) (low : Fin 4096),
      (bitAt (s.zget Z.PWR_RAIL.WARN) rail = true →
        exec (.supplyWarningEntry rail low) s = .next (s.updPwr fun p => { p with
          warnMin := Tab.upd 0 p.warnMin rail fun m => min m low.val })) ∧
      (bitAt (s.zget Z.PWR_RAIL.WARN) rail = false →
        ∃ t, exec (.supplyWarningEntry rail low) s = .next t ∧ bitAt (t.zget Z.PWR_RAIL.WARN) rail = true ∧
          bitAt (t.zget Z.PWR_RAIL.DIPPED) rail = true ∧ bitAt (t.zget Z.PWR_EVSTAT.PEND) 4 = true ∧
          t.pwr = { s.pwr with
            warnAt := Tab.set 0 s.pwr.warnAt rail (s.time + 1), warnMin := Tab.set 0 s.pwr.warnMin rail low } ∧
          t.time = s.time ∧ (s.warned = false → t.mon.sup = true ∧ ∀ n : Fin 4, t.zget (ZC.DVFS.CAPPED.gcl n) = 1 ∧
            t.zget (ZC.DVFS.LEVEL.gcl n) = s.zget (ZC.DVFS.LEVEL.gcl n))) ∧
      (bitAt (s.zget Z.PWR_RAIL.WARN) rail = false → exec (.supplyWarningClear rail low) s = .next s) ∧
      (bitAt (s.zget Z.PWR_RAIL.WARN) rail = true → ∀ (us min_ : Nat), min_ = min low.val (Tab.get 0 s.pwr.warnMin rail) →
        us = (s.time - (Tab.get 0 s.pwr.warnAt rail - 1)) / (1000 * nsUnits) →
        ∃ t, exec (.supplyWarningClear rail low) s = .next t ∧ bitAt (t.zget Z.PWR_RAIL.WARN) rail = false ∧
          t.zget Z.PWR_WARN.RAIL = rail ∧ t.zget Z.PWR_WARN.DUR_US = sat 16 us ∧ t.zget Z.PWR_WARN.MIN = min_ ∧
          bitAt (t.zget Z.PWR_EVSTAT.PEND) 4 = true ∧
          (s.zget Z.PWR_RAIL.WARN = 2 ^ rail.val → t.pwr.clearAt = s.time) ∧
          regsBut [Z.PWR_RAIL.WARN, Z.PWR_WARN.RAIL, Z.PWR_WARN.DUR_US, Z.PWR_WARN.MIN, Z.PWR_EVSTAT.PEND, Z.EVT_STAT.FILTERED] s t)) ∧
    (s.warned = true ∨ s.time < s.pwr.clearAt + 1000000 * nsUnits → exec .capLift s = .next s) ∧
    (s.warned = false → s.pwr.clearAt + 1000000 * nsUnits ≤ s.time →
      ∃ t, exec .capLift s = .next t ∧ (∀ n : Fin 4, t.zget (ZC.DVFS.CAPPED.gcl n) ≠ 1 ∧
        t.zget (ZC.DVFS.LEVEL.gcl n) = s.zget (ZC.DVFS.LEVEL.gcl n) ∧ t.zget (ZC.DVFS.TARGET.gcl n) = s.zget (ZC.DVFS.TARGET.gcl n)) ∧
        t.pwr = s.pwr ∧ t.time = s.time)

/-! ### The environment monitor -/

/-- The scan of the monitor and the interlock outputs (R356 to R360, R362 to R364, R371 to R374).  CODE follows the line of R371 within its clamps.  A
sample tick fills the raw buffer; an output counts as valid outside the settling windows and drives the range; at every boundary the written
settings are taken over and a dwell may begin.  A dwell's end writes the mean of the valid outputs and moves to the next scanned index.  A
compliance trip writes BROKEN at once.  Stopping the scan, and an output that has gone stale, bring the fault level.
The model's choices that it rests on are named in log entries 1 and 20. -/
def Obligations.MonitorScan : Prop :=
  (∀ v lo hi : Nat, lo ≠ hi →
    41 ≤ ilCode v lo hi ∧ ilCode v lo hi ≤ 3932 ∧
    (lo < hi → lo ≤ v → v ≤ hi →
      (100 * ((hi : Int) - lo) * ilCode v lo hi - (5 * ((hi : Int) - lo) + 90 * ((v : Int) - lo)) * 4096).natAbs ≤ 50 * (hi - lo)) ∧
    (hi < lo → hi ≤ v → v ≤ lo →
      (100 * ((lo : Int) - hi) * ilCode v lo hi - (5 * ((lo : Int) - hi) + 90 * ((lo : Int) - v)) * 4096).natAbs ≤ 50 * (lo - hi))) ∧
  ∀ (s : State) (idx : Nat), idx = s.zget Z.MON_SCAN.INDEX →
    (s.ilForced = true → (∀ (v0 i0 v1 i1 : BitVec 12) (dly : Fin 3), exec (.monSampleTick v0 i0 v1 i1 dly) s = .next s) ∧
      (∀ a b : MonOut, exec (.monOutput a b) s = .next s) ∧ exec .monDwellEnd s = .next s) ∧
    (s.ilForced = false → ∀ (v0 i0 v1 i1 : BitVec 12) (dly : Fin 3),
      (s.scanRuns = false → s.zget Z.MON_CTL.DMA_EN = 0 → exec (.monSampleTick v0 i0 v1 i1 dly) s = .next s) ∧
      (s.scanRuns = true →
        ∃ t, exec (.monSampleTick v0 i0 v1 i1 dly) s = .next t ∧ onlyRegs [Z.MON_DMA_CNT.COUNT] (s.updMon fun _ => t.mon) t ∧
          t.mon = { s.mon with
            sram := t.mon.sram, g0 := { s.mon.g0 with clip := s.mon.g0.clip || v0 == 0 || v0 == 4095 || i0 == 0 || i0 == 4095 },
            g1 := { s.mon.g1 with clip := s.mon.g1.clip || v1 == 0 || v1 == 4095 || i1 == 0 || i1 == 4095 } } ∧
          (s.zget Z.MON_CTL.DMA_EN = 0 → t.mon.sram = s.mon.sram ∧ t.zreg = s.zreg) ∧
          (∀ n e : Nat, n = s.zget Z.MON_DMA_CNT.COUNT → s.zget Z.MON_CTL.DMA_EN ≠ 0 →
            e = v0.toNat + i0.toNat * 2 ^ 12 + v1.toNat * 2 ^ 24 + i1.toNat * 2 ^ 36 + idx * 2 ^ 48 + s.chRange (2 * idx) * 2 ^ 52 +
              s.chRange (2 * idx + 1) * 2 ^ 54 + dly * 2 ^ 56 + (if s.monHeld then 2 ^ 59 else 0) →
            t.zget Z.MON_DMA_CNT.COUNT = (n + 1) % 2 ^ 32 ∧
            (∀ k, k < 8 → Tab.get 0 t.mon.sram (n % 32768 * 8 + k) = BitVec.ofNat 8 (e / 256 ^ k)) ∧
            (∀ a, a < n % 32768 * 8 ∨ n % 32768 * 8 + 8 ≤ a → Tab.get 0 t.mon.sram a = Tab.get 0 s.mon.sram a)))) ∧
    (s.ilForced = false → (∀ c ∈ s.cmds, c.opcode ≠ 0x50) → ∀ a b : MonOut,
      ∃ t, exec (.monOutput a b) s = .next t ∧ t.cmds = s.cmds ∧ t.time = s.time ∧ t.mon.sup = s.warned ∧ t.mon.sram = s.mon.sram ∧
        (s.monHeld = false → t.mon.filt = s.filtWord ∧ ∀ c : Fin 32, t.chcfg c = s.chcfgWord c) ∧
        (s.monHeld = true → t.mon.filt = s.mon.filt ∧ t.mon.chcfg = s.mon.chcfg ∧ t.zget Z.MON_SCAN.INDEX = idx) ∧
        (s.scanRuns = true → s.mon.dwell = false → s.monHeld = false → s.filtWord = s.mon.filt →
          (∀ c : Fin 32, s.chcfgWord c = s.chcfg c) → ∀ j : Nat, s.nextIndex idx = some j → j < 16 →
          t.mon.dwell = true ∧ t.mon.settle = 3 ∧ t.zget Z.MON_SCAN.INDEX = j ∧ t.mon.g0.vals = [] ∧ t.mon.g1.vals = []) ∧
        (s.scanRuns = true → s.mon.dwell = true → s.scanned idx = true → s.filtWord = s.mon.filt →
          (∀ c : Fin 32, s.chcfgWord c = s.chcfg c) → s.mon.g0.pend = none →
          t.mon.dwell = true ∧ t.mon.settle = s.mon.settle - 1 ∧ t.zget Z.MON_SCAN.INDEX = idx ∧
          (s.chMode (2 * idx) ≠ 0 → s.mon.g0.broken = false →
            t.mon.g0.last = a.value.toNat ∧ t.mon.g0.clip = false ∧ t.mon.g0.settle = s.mon.g0.settle - 1 ∧
            t.mon.g0.vals = (if s.mon.settle = 0 ∧ s.mon.g0.settle = 0 ∧ s.mon.g0.clip = false then s.mon.g0.vals ++ [a.value.toNat]
              else s.mon.g0.vals) ∧
            (s.chAuto (2 * idx) = false ∨ s.monHeld = true ∨ (1000 ≤ a.amp ∧ a.amp ≤ 9000) → t.mon.g0.pend = none) ∧
            (s.chAuto (2 * idx) = true → s.monHeld = false → ∀ up : Bool,
              (up = true ↔ (s.chMode (2 * idx) = 1 ∧ 9000 < a.amp) ∨ (s.chMode (2 * idx) ≠ 1 ∧ a.amp < 1000)) →
              (up = true → t.mon.g0.pend = (if s.chRange (2 * idx) < 3 then some (s.chRange (2 * idx) + 1) else none)) ∧
              (up = false → a.amp < 1000 ∨ 9000 < a.amp →
                t.mon.g0.pend = (if 0 < s.chRange (2 * idx) then some (s.chRange (2 * idx) - 1) else none)))))) ∧
    (s.ilForced = false → s.mon.dwell = false ∨ s.scanRuns = false ∨ s.groupDone 0 = false ∨ s.groupDone 1 = false →
      exec .monDwellEnd s = .next s) ∧
    (s.mon.dwell = true → s.scanRuns = true → s.groupDone 0 = true → s.groupDone 1 = true → idx < 16 →
      ∃ t, exec .monDwellEnd s = .next t ∧ t.time = s.time ∧ t.mon.sram = s.mon.sram ∧
        (s.chMode (2 * idx) ≠ 0 → s.mon.g0.broken = false → s.mon.g0.vals ≠ [] → s.mon.g0.pend = none →
          t.zget (Z.MON_DATAc.VALUE.at (8 * idx)) = s.mon.g0.vals.sum / s.mon.g0.vals.length % 2 ^ 24 ∧
          t.zget (Z.MON_DATAc.SETTLE.at (8 * idx)) = 0 ∧ t.zget (Z.MON_DATAc.BROKEN.at (8 * idx)) = 0 ∧
          t.zget (Z.MON_DATAc.RNG.at (8 * idx)) = s.chRange (2 * idx) % 4 ∧
          t.zget (Z.MON_DATAc.OVR.at (8 * idx)) = (if bitAt s.mon.unread.toNat (2 * idx) then 1 else 0) ∧
          bitAt t.mon.unread.toNat (2 * idx) = true ∧ Tab.get 0 t.mon.res (2 * idx) = s.mon.g0.vals.sum / s.mon.g0.vals.length + 1) ∧
        (s.monHeld = true → t.zget Z.MON_SCAN.INDEX = idx ∧ t.mon.dwell = true ∧ t.mon.g0.vals = [] ∧ t.mon.g1.vals = []) ∧
        (s.monHeld = false → ∀ j : Nat, s.nextIndex (idx + 1) = some j → j < 16 →
          t.zget Z.MON_SCAN.INDEX = j ∧ t.mon.dwell = true ∧ t.mon.settle = 3 ∧ t.mon.g0.vals = [] ∧ t.mon.g1.vals = [] ∧
          t.zget Z.MON_SCAN.PASSES = (if j ≤ idx then sat 16 (s.zget Z.MON_SCAN.PASSES + 1) else s.zget Z.MON_SCAN.PASSES))) ∧
    (∀ m : Fin 16,
      (s.ilStale m = false → exec (.ilStaleTimeout m) s = .next s) ∧
      (s.ilStale m = true → s.ilForced = false → s.monHeld = false → s.zget (ZI.PAIR.EN.il m) ≠ 0 →
        s.zget (ZI.LOW.LOW.il m) ≠ s.zget (ZI.HIGH.HIGH.il m) → s.chBad (2 * m.val) = false → s.zget Z.MON_CTL.SCAN_EN ≠ 0 →
        s.zget Z.MON_CTL.REF_READY ≠ 0 →
        ∃ t, exec (.ilStaleTimeout m) s = .next t ∧ t.zget (ZI.STAT.CODE.il m) = 3994 ∧ t.zget (ZI.STAT.FAULT.il m) = 1 ∧
          t.zget (ZI.STAT.CAUSE.il m) = 3 ∧ t.mon = s.mon ∧
          (s.zget (ZI.STAT.FAULT.il m) = 0 → bitAt (t.zget Z.MON_EVSTAT.PEND) 2 = true) ∧
          (∀ k : Fin 16, k ≠ m → t.zget (ZI.STAT.CODE.il k) = s.zget (ZI.STAT.CODE.il k)))) ∧
    (s.monHeld = true → s.ilForced = false → s.holdStart + 100000000 * nsUnits ≤ s.time → s.mon.long ≠ some s.holdStart →
      ∃ t, exec .holdLong s = .next t ∧
        onlyEvent [Z.MON_EVSTAT.PEND, Z.EVT_STAT.FILTERED] (s.updMon fun m => { m with long := some s.holdStart }) t ∧
        bitAt (t.zget Z.MON_EVSTAT.PEND) 2 = true) ∧
    (s.monHeld = false ∨ s.time < s.holdStart + 100000000 * nsUnits ∨ s.mon.long = some s.holdStart → exec .holdLong s = .next s) ∧
    (∀ (g : Fin 2) (c : Nat), c = 2 * idx + g.val →
      (s.mon.dwell = false ∨ s.scanRuns = false ∨ s.chMode c = 0 ∨ (s.grp g).broken = true → exec (.complianceTrip g) s = .next s) ∧
      (s.mon.dwell = true → s.scanRuns = true → s.chMode c ≠ 0 → (s.grp g).broken = false → c < 32 →
        ∃ t, exec (.complianceTrip g) s = .next t ∧ (t.grp g).broken = true ∧ (t.grp g).pend = none ∧
          t.zget (Z.MON_DATAc.VALUE.at (4 * c)) = 0 ∧ t.zget (Z.MON_DATAc.BROKEN.at (4 * c)) = 1 ∧
          t.zget (Z.MON_DATAc.OVR.at (4 * c)) = (if bitAt s.mon.unread.toNat c then 1 else 0) ∧
          bitAt (t.zget Z.MON_EVSTAT.PEND) 1 = true ∧ t.grp (1 - g) = s.grp (1 - g))) ∧
    (s.bar0Open →
      (s.zget Z.CLK_GATE.MON = 0 → exec (.monScanEnable true) s = .next (s.gateRefused 0x6000 0)) ∧
      (s.zget Z.CLK_GATE.MON ≠ 0 → exec (.monScanEnable true) s = .next (s.zput Z.MON_CTL.SCAN_EN 1)) ∧
      (∃ t, exec (.monScanEnable false) s = .next t ∧ t.zget Z.MON_CTL.SCAN_EN = 0 ∧ t.mon = { s.mon with dwell := false } ∧
        (s.ilForced = false → s.monHeld = false → ∀ m : Fin 16, t.zget (ZI.STAT.CODE.il m) = 3994 ∧ t.zget (ZI.STAT.FAULT.il m) = 1) ∧
        (s.ilForced = false → s.monHeld = true → ∀ m : Fin 16, t.zget (ZI.STAT.CODE.il m) = s.zget (ZI.STAT.CODE.il m))) ∧
      (∀ w : Word,
        (filtOk w.toNat = false → exec (.monFiltWrite w) s = .next (s.zput Z.MON_CTL.REFUSED 1)) ∧
        (filtOk w.toNat = true →
          ∃ t, exec (.monFiltWrite w) s = .next t ∧
            onlyRegs [Z.MON_FILT.F_EXC, Z.MON_FILT.RATE, Z.MON_FILT.NOTCH, Z.MON_FILT.DWELL_N] s t ∧
            t.zget Z.MON_FILT.F_EXC = w.toNat % 2 ^ 14 ∧ t.zget Z.MON_FILT.RATE = w.toNat / 2 ^ 14 % 8 ∧
            t.zget Z.MON_FILT.NOTCH = w.toNat / 2 ^ 17 % 4 ∧ t.zget Z.MON_FILT.DWELL_N = w.toNat / 2 ^ 19 % 8) ∧
        ∀ c : Fin 32, ∃ t, exec (.monChcfgWrite c w) s = .next t ∧
          onlyRegs ([Z.MON_CHCFGc.MODE, Z.MON_CHCFGc.AUTO, Z.MON_CHCFGc.RANGE, Z.MON_CHCFGc.VAMP].map fun f => f.at (4 * c.val)) s t ∧
          t.zget (Z.MON_CHCFGc.MODE.at (4 * c.val)) = w.toNat % 4 ∧ t.zget (Z.MON_CHCFGc.AUTO.at (4 * c.val)) = w.toNat / 4 % 2 ∧
          t.zget (Z.MON_CHCFGc.RANGE.at (4 * c.val)) = w.toNat / 8 % 4 ∧ t.zget (Z.MON_CHCFGc.VAMP.at (4 * c.val)) = w.toNat / 32 % 4))

/-- Injected conversions, the reference buffer, calibration and the raw buffer (R365 to R368, R376).  A request marks the selected inputs, a
conversion gives the corrected code with OVR while its predecessor is unread, and an IL_VREF outside its limits is raised.  REF_READY comes 5 ms
after the buffer is switched on and goes at once; a calibration waits for injected conversions and for REF_READY, stores factors within
the limits and keeps the old ones otherwise.  DMA_EN starts the count and latches the time of entry 0.
The model's choices that it rests on are named in log entries 1 and 20. -/
def Obligations.MonitorService : Prop :=
  ∀ s : State,
    (s.bar0Open →
      (∀ w : Word, ∃ t, exec (.monInjGo w) s = .next t ∧ onlyRegs [Z.MON_INJ.SEL, Z.MON_INJ.PERIOD_MS] (s.updMon fun _ => t.mon) t ∧
        t.zget Z.MON_INJ.SEL = w.toNat % 256 ∧ t.zget Z.MON_INJ.PERIOD_MS = w.toNat / 65536 % 1024 ∧
        t.mon = (if bitAt w.toNat 8 then { s.mon with injPend := s.mon.injPend ||| BitVec.ofNat 8 w.toNat, injAt := s.time } else s.mon)) ∧
      (s.zget Z.MON_CTL.REFBUF_EN = 1 → exec (.refbufEnable true) s = .next s) ∧
      (s.zget Z.MON_CTL.REFBUF_EN ≠ 1 →
        exec (.refbufEnable true) s = .next ((s.zput Z.MON_CTL.REFBUF_EN 1).updMon fun m => { m with refAt := s.time })) ∧
      exec (.refbufEnable false) s = .next ((s.zput Z.MON_CTL.REFBUF_EN 0).zput Z.MON_CTL.REF_READY 0) ∧
      (s.zget Z.MON_CTL.CAL_BUSY = 1 → exec .monCalStart s = .next s) ∧
      (s.zget Z.MON_CTL.CAL_BUSY ≠ 1 →
        (s.mon.injPend ≠ 0 ∨ s.zget Z.MON_CTL.REF_READY = 0 ∨ s.monHeld = true →
          exec .monCalStart s = .next (s.zput Z.MON_CTL.CAL_WAIT 1)) ∧
        (s.mon.injPend = 0 → s.zget Z.MON_CTL.REF_READY ≠ 0 → s.monHeld = false → s.ilForced = false →
          exec .monCalStart s = .next (((s.zput Z.MON_CTL.CAL_WAIT 1).zput Z.MON_CTL.CAL_WAIT 0).zput Z.MON_CTL.CAL_BUSY 1))) ∧
      (exec (.monDmaEnable false) s = .next (s.zput Z.MON_CTL.DMA_EN 0)) ∧
      (s.zget Z.MON_CTL.DMA_EN = 1 → exec (.monDmaEnable true) s = .next s) ∧
      (s.zget Z.MON_CTL.DMA_EN ≠ 1 → ∀ at_ : Nat, at_ % (4000 * nsUnits) = 0 → s.time ≤ at_ → at_ < s.time + 4000 * nsUnits →
        ∃ t, exec (.monDmaEnable true) s = .next t ∧ onlyRegs [Z.MON_CTL.DMA_EN, Z.MON_DMA_CNT.COUNT, Z.MON_DMA_T0k.VALUE,
            Z.MON_DMA_T0k.VALUE.at 4, Z.MON_DMA_T0k.VALUE.at 8] s t ∧
          t.zget Z.MON_CTL.DMA_EN = 1 ∧ t.zget Z.MON_DMA_CNT.COUNT = 0 ∧
          t.zget Z.MON_DMA_T0k.VALUE = at_ / 65536 % 65536 + at_ / (1000000000 * nsUnits) % 65536 * 65536 ∧
          t.zget (Z.MON_DMA_T0k.VALUE.at 4) = at_ / nsUnits % 1000000000 ∧
          t.zget (Z.MON_DMA_T0k.VALUE.at 8) = at_ / (1000000000 * nsUnits) / 65536 % 2 ^ 32)) ∧
    (∀ p : Nat, p = s.zget Z.MON_INJ.PERIOD_MS →
      (p = 0 ∨ s.time < s.mon.injAt + p * 1000000 * nsUnits → exec .monInjPeriodic s = .next s) ∧
      (p ≠ 0 → s.mon.injAt + p * 1000000 * nsUnits ≤ s.time →
        exec .monInjPeriodic s = .next (s.updMon fun m => { m with
          injPend := m.injPend ||| BitVec.ofNat 8 (s.zget Z.MON_INJ.SEL), injAt := s.time }))) ∧
    (∀ (k : Fin 8) (raw : BitVec 12),
      (s.monClocked = false ∨ s.mon.injPend.getLsbD k = false → exec (.monInjConversion k raw) s = .next s) ∧
      (s.monClocked = true → s.mon.injPend.getLsbD k = true → ∀ (adc code : Nat) (off : Int), adc = k.val % 4 →
        off = signedOf 12 (s.zget (Z.MON_CALk.OFFSET.at (4 * adc))) →
        code = (max 0 (min 4095 (((raw.toNat : Int) - off) * s.zget (Z.MON_CALk.GAIN.at (4 * adc)) / 32768))).toNat →
        ∃ t, exec (.monInjConversion k raw) s = .next t ∧ t.zget (Z.MON_INJDk.CODE.at (4 * k.val)) = code ∧
          t.zget (Z.MON_INJDk.VALID.at (4 * k.val)) = 1 ∧
          t.zget (Z.MON_INJDk.OVR.at (4 * k.val)) = (if s.mon.injUnread.getLsbD k then 1 else 0) ∧
          t.zget (Z.MON_INJDk.SUPPLY.at (4 * k.val)) = (if s.warned then 1 else 0) ∧
          t.mon = { s.mon with
            injPend := s.mon.injPend &&& ~~~ BitVec.ofNat 8 (2 ^ k.val), injUnread := s.mon.injUnread ||| BitVec.ofNat 8 (2 ^ k.val) } ∧
          (k = 1 → code < 450 ∨ 1725 < code → bitAt (t.zget Z.MON_EVSTAT.PEND) 2 = true) ∧
          (s.zget Z.MON_CTL.CAL_WAIT = 1 → s.monHeld = false → s.mon.injPend = BitVec.ofNat 8 (2 ^ k.val) →
            t.zget Z.MON_CTL.CAL_BUSY = 1 ∧ t.zget Z.MON_CTL.CAL_WAIT = 0))) ∧
    (s.zget Z.MON_CTL.REFBUF_EN = 1 → s.mon.refAt + 5000000 * nsUnits ≤ s.time →
      ∃ t, exec .refReady s = .next t ∧ onlyRegs [Z.MON_CTL.REF_READY, Z.MON_CTL.CAL_WAIT, Z.MON_CTL.CAL_BUSY] s t ∧
        t.zget Z.MON_CTL.REF_READY = 1 ∧ (s.zget Z.MON_CTL.CAL_WAIT = 0 → t.zget Z.MON_CTL.CAL_BUSY = s.zget Z.MON_CTL.CAL_BUSY) ∧
        (s.zget Z.MON_CTL.CAL_WAIT = 1 → s.mon.injPend = 0 → s.monHeld = false → s.ilForced = false →
          t.zget Z.MON_CTL.CAL_BUSY = 1 ∧ t.zget Z.MON_CTL.CAL_WAIT = 0)) ∧
    (s.zget Z.MON_CTL.REFBUF_EN ≠ 1 ∨ s.time < s.mon.refAt + 5000000 * nsUnits → exec .refReady s = .next s) ∧
    (∀ (g : Vector Half 4) (o : Vector (BitVec 12) 4),
      (s.zget Z.MON_CTL.CAL_BUSY = 0 ∨ s.zget Z.MON_CTL.REF_READY ≠ 1 ∨ s.ilForced = true → exec (.monCalDone g o) s = .next s) ∧
      (s.zget Z.MON_CTL.CAL_BUSY ≠ 0 → s.zget Z.MON_CTL.REF_READY = 1 → s.ilForced = false →
        ∃ t, exec (.monCalDone g o) s = .next t ∧ t.zget Z.MON_CTL.CAL_BUSY = 0 ∧ t.zget Z.MON_CTL.CAL_DONE = 1 ∧
          bitAt (t.zget Z.MON_EVSTAT.PEND) 4 = true ∧
          t.mon = { s.mon with settle := if s.mon.dwell then max s.mon.settle 4 else s.mon.settle } ∧
          ((∀ k : Fin 4, 31130 ≤ g[k].toNat ∧ g[k].toNat ≤ 34406 ∧ -64 ≤ o[k].toInt ∧ o[k].toInt ≤ 64) →
            ∀ k : Fin 4, t.zget (Z.MON_CALk.GAIN.at (4 * k.val)) = g[k].toNat ∧
              t.zget (Z.MON_CALk.OFFSET.at (4 * k.val)) = o[k].toNat) ∧
          ((∃ k : Fin 4, g[k].toNat < 31130 ∨ 34406 < g[k].toNat ∨ o[k].toInt < -64 ∨ 64 < o[k].toInt) →
            t.zget Z.MON_CTL.CAL_FAIL = 1 ∧ ∀ k : Fin 4,
              t.zget (Z.MON_CALk.GAIN.at (4 * k.val)) = s.zget (Z.MON_CALk.GAIN.at (4 * k.val)) ∧
              t.zget (Z.MON_CALk.OFFSET.at (4 * k.val)) = s.zget (Z.MON_CALk.OFFSET.at (4 * k.val)))))

/-! ### Events and snapshots -/

/-- Events, trued snapshots and the configuration scrub (R235, R246, R382, R383, R389 to R394, R399).  A source that fires sets its PEND bit
whatever the enables hold; disabled, filtered, queued or dropped as R382 says.  The head of the queue becomes one 32-byte write when EVT can take it.
At T the mirror takes the image of every register, TRUE_SEQ and TRUE_TICK follow, and the ports in ACTIVE are noted; the block of
4 KiB is written when no image is outstanding, and its command or TEL_IDX follows.  A periodic snapshot that could not begin is skipped.
The scrub reads 16 words and ends its lap after the last.
The model's choices that it rests on are named in log entries 1 and 17. -/
def Obligations.EventsAndSnapshots : Prop :=
  ∀ s : State,
    (∀ (src sev : Nat) (d : List Byte) (pend en : Field) (i : Nat), src < 544 → (pend, en, i) = evBits src →
      (bitAt ((s.raiseSev src sev d).zget pend) i = true) ∧
      (bitAt (s.zget en) i = false → s.raiseSev src sev d = s.zput pend (s.zget pend ||| 2 ^ i)) ∧
      (bitAt (s.zget en) i = true →
        (sev < s.zget Z.EVT_CFG.MIN_SEV →
          s.raiseSev src sev d = (s.zput pend (s.zget pend ||| 2 ^ i)).zbump Z.EVT_STAT.FILTERED 1) ∧
        (s.zget Z.EVT_CFG.MIN_SEV ≤ sev → s.ev.queue.length < 256 →
          s.raiseSev src sev d = (s.zput pend (s.zget pend ||| 2 ^ i)).updEv fun e => { e with
            queue := e.queue ++ [⟨src, sev, s.time, (d ++ List.replicate 12 0).take 12⟩] }) ∧
        (s.zget Z.EVT_CFG.MIN_SEV ≤ sev → 256 ≤ s.ev.queue.length → ∀ u : State,
          u = (s.zput pend (s.zget pend ||| 2 ^ i)).updEv (fun e => { e with lost := min 65535 (e.lost + 1) }) →
          s.raiseSev src sev d = if (s.evMap src).2 = true then u.message (s.evMap src).1 else u))) ∧
    (s.ev.queue = [] ∨ s.ringRoom 7 = false → exec .eventRecordWrite s = .next s) ∧
    (∀ (e : EvRec) (rest : List EvRec) (i : Nat), s.ev.queue = e :: rest → s.ringRoom 7 = true → i = s.zget (ZR.PIDX.INDEX.hring 7) →
      ∃ (t : State) (more : List Out), exec .eventRecordWrite s = .next t ∧
        t.out = s.out ++ .hostWrite (s.ringAddr 7 i) ((evtBytes e s.ev.lost ++ List.replicate 31 0).take 31 ++
          [b8 (128 * (1 - i / 2 ^ s.zget (ZR.CFG.LOG2SIZE.hring 7) % 2))]) :: more ∧
        (s.zget Z.HOST_SHADOW.EN = 0 → (s.evMap e.src).2 = false → s.countDue 7 = false →
          Tab.get 0 s.host.since 7 + 1 < max 1 (s.zget (ZR.COAL.COUNT.hring 7)) → more = []) ∧
        t.zget (ZR.PIDX.INDEX.hring 7) = (i + 1) % 2 ^ 32 ∧ regsBut [ZR.PIDX.INDEX.hring 7] s t ∧
        t.ev = { s.ev with queue := rest, lost := 0 } ∧
        t = (((s.updZreg fun _ => t.zreg).updEv fun _ => t.ev).updHost fun _ => t.host).updOut fun _ => t.out) ∧
    ((∀ x ∈ s.snaps, x.latched = true ∨ s.time < x.instant) → exec .snapshotLatch s = .next s) ∧
    (∀ x : Snap, s.snaps = [x] → x.latched = false → x.instant ≤ s.time →
      ∃ t, exec .snapshotLatch s = .next t ∧ t.mirror = s.image ∧ t.zget Z.TRUE_SEQ.SEQ = x.seq % 2 ^ 32 ∧
        t.zget Z.TRUE_TICK.TICK = x.tick % 2 ^ 64 ∧ t.time = s.time ∧ t.chips = s.chips ∧ t.buf = s.buf ∧
        (∃ a : Nat, t.snaps = [{ x with latched := true, active := a, flags := s.snapFlags x }] ∧
          ∀ p : Port, bitAt a p.val = s.linkUp p) ∧
        (∀ p : Port, s.linkUp p = false ∨ bitAt x.armed p.val = false → t.port p = s.port p)) ∧
    ((∀ x ∈ s.snaps, x.latched = false) → exec .snapshotBlockWrite s = .next s) ∧
    (∀ x : Snap, (s.snapBlock x).length = 4096) ∧
    (∀ (x : Snap) (blk : List Byte), s.snaps = [x] → x.latched = true → (∀ p : Port, s.snapTraffic x.seq p = false) → s.dmaOk = true →
      s.zget Z.BUF_PASR.ACTIVE = 0 → blk = x.built.getD (s.snapBlock x) →
      (x.cmd = none → s.cmds = [] →
        exec .snapshotBlockWrite s = .next (((s.updSnaps fun _ => []).emit (.hostWrite (s.zget Z.TEL_BASE.BASE * 4096 +
          4096 * (s.zget Z.TEL_IDX.COUNT % 2 ^ min 10 (s.zget Z.TEL_CFG.LOG2N))) blk)).zwrap Z.TEL_IDX.COUNT 1)) ∧
      (∀ c : Cmd, x.cmd = some c.id → s.cmds = [c] → c.started = true → c.result = none →
        exec .snapshotBlockWrite s = .next (((s.updSnaps fun _ => []).emit (.hostWrite x.dest blk)).updCmds fun _ =>
          [{ c with
              fail := x.active - x.valid, result := some (if x.active - x.valid = 0 then 0 else 1), left := [],
              rdata := leBytes x.tick 8 }]))) ∧
    (∀ period : Nat, period = max 1 (s.zget Z.TEL_CFG.PERIOD_MS) * 1000000 * nsUnits →
      (s.zget Z.TEL_CFG.EN = 0 ∨ s.time < s.ev.telAt → exec .periodicSnapshot s = .next s) ∧
      (s.zget Z.TEL_CFG.EN ≠ 0 → s.ev.telAt + period ≤ s.time →
        exec .periodicSnapshot s = .next ((s.updEv fun e => { e with telAt := e.telAt + period }).zbump Z.TEL_SKIP.COUNT 1)) ∧
      (s.zget Z.TEL_CFG.EN ≠ 0 → s.ev.telAt ≤ s.time → s.time < s.ev.telAt + period →
        ((∃ x ∈ s.snaps, x.built = none) ∨ s.buf.stageLost = true ∨ 256 ≤ s.snaps.length → exec .periodicSnapshot s = .next s) ∧
        ((∀ x ∈ s.snaps, x.built ≠ none) → s.buf.stageLost = false → s.snaps.length < 256 → ∀ x : Snap,
          x = { seq := s.zget Z.TRUE_SEQ.SEQ + 1, tick := (s.nowTick + 20480 + 3) / 4 * 4,
                instant := s.epochTime + (s.nowTick + 20480 + 3) / 4 * 4 * tickUnits, cmd := none, tag := 0, dest := 0, runId := s.run.id } →
          exec .periodicSnapshot s =
            .next ((s.updEv fun e => { e with telAt := e.telAt + period }).updSnaps fun l => l ++ [x])))) ∧
    (∀ (p : Port) (q : PortIn), s.port p = q →
      (bitAt (s.zget Z.CSCRUB_CFG.PORTS) p.val = false ∨ s.linkUp p = false ∨ s.pasr = true → exec (.configScrubRead p) s = .next s) ∧
      (bitAt (s.zget Z.CSCRUB_CFG.PORTS) p.val = true → s.linkUp p = true → s.pasr = false → ∀ u : State,
        u = s.dlUrgent p [{
          purpose := .scrub q.scrubPos 16, op := 4, sh := false,
          bytes := [16, 0] ++ beBytes (q.scrubPos / 512) 2 ++ beBytes (q.scrubPos % 512) 2 }] →
        (q.scrubPos + 16 < 262144 →
          exec (.configScrubRead p) s = .next (u.setPort p { u.port p with scrubPos := q.scrubPos + 16 })) ∧
        (∀ ms : Nat, 262144 ≤ q.scrubPos + 16 → ms = min 65535 ((s.time - q.scrubStart) / (1000000 * nsUnits)) →
          (ms ≤ 60 → exec (.configScrubRead p) s = .next ((u.setPort p { u.port p with scrubPos := 0, scrubStart := s.time }).zput
            (Z.CSCRUB_LAPp.LAP_MS.at (4 * p.val)) ms)) ∧
          (60 < ms →
            ∃ t, exec (.configScrubRead p) s = .next t ∧ (t.port p).scrubPos = 0 ∧ t.zget (Z.CSCRUB_LAPp.LAP_MS.at (4 * p.val)) = ms ∧
              bitAt (t.zget Z.BG_LAG.LAG) 3 = true ∧ bitAt (t.zget (ZP.EVSTAT.PEND.port p)) 19 = true))))

/-! ### Resets and bring-up -/

/-- Resets and bring-up of Zwiuc (R402, R403, R406 to R409, R412, R416, R344).  A power-on, a rail and a warm reset return every register to its reset
value, record their cause, and every Pelnos sees its downlink lost; a warm reset keeps the ST fields, the qualified crystal and, with KEEP, what
the DRAM holds.  The key is asked for.  The stages follow one another; a failed self-test degrades the device; a stack whose four channels
complete enters service; READY needs a stack, and a retry that finds one turns FAILED into READY.
The model's choices that it rests on are named in log entries 1, 10, 14 and 22. -/
def Obligations.ResetsAndBringUp : Prop :=
  ∀ s : State,
    (∀ (c : Instr) (t : State) (cause rail : Nat),
      (c = .powerOnReset false ∧ cause = 0 ∧ rail = 0) ∨ (c = .powerOnReset true ∧ cause = 1 ∧ rail = 0) ∨
        (c = .railReset 0 ∧ cause = 1 ∧ rail = 0) ∨ (∃ r : Fin 12, c = .railReset r ∧ r ≠ 0 ∧ cause = 2 ∧ rail = r) →
      t = (({ State.reset with
          pending := s.pending, out := s.out, free := s.free, chips := s.chips.map Pelnos.downlinkLost, pwr := { perst := s.pwr.perst } } :
        State).zput Z.PWR_RSTCAUSE.CAUSE cause).zput Z.PWR_RSTCAUSE.RAIL rail →
      exec c s = .next t) ∧
    (∃ t, exec .warmReset s = .next t ∧ t.zget Z.PWR_RSTCAUSE.CAUSE = 3 ∧ t.zget Z.BOOT_STAT.STAGE = 0 ∧
      t.zget Z.BOOT_CFG.DRAM_TEST = s.zget Z.BOOT_CFG.DRAM_TEST % 2 ^ Z.BOOT_CFG.DRAM_TEST.wid ∧
      t.zget Z.BOOT_CFG.KEEP = s.zget Z.BOOT_CFG.KEEP % 2 ∧ t.zget Z.CLK_SRC.XTAL_QUAL = s.zget Z.CLK_SRC.XTAL_QUAL % 2 ∧
      t.run.active = false ∧ t.time = 0 ∧ t.cmds = [] ∧ t.xtr = {} ∧ t.engines = [] ∧ t.shm = [] ∧ t.mon = {} ∧ t.ring = {} ∧ t.lanes = [] ∧
      t.ev = {} ∧ t.snaps = [] ∧ t.mirror = [] ∧ t.chips = s.chips.map Pelnos.downlinkLost ∧ t.pending = s.pending ∧
      (s.zget Z.BOOT_CFG.KEEP ≠ 1 → t.buf = {} ∧ t.run = {} ∧ t.pwr.kept = 0) ∧
      (s.zget Z.BOOT_CFG.KEEP = 1 → s.stacksIn ≠ [] → s.buf.wbuf = [] → t.run.id = s.run.id ∧
        t.pwr.kept = BitVec.ofNat 8 (s.zget Z.BUF_STAT.IN_SERVICE) ∧ (∀ n ∈ s.stacksIn, ∀ c : Fin 4, t.chState n c = chRefresh) ∧
        (s.buf.pins = [] → s.zget Z.BUF_STAT.GATHER = 0 →
          t.buf.mem = s.buf.mem ∧ t.buf.billets = s.buf.billets ∧ t.buf.page = s.buf.page ∧ t.buf.golden = s.buf.golden))) ∧
    (∀ w : Word,
      (bitAt w.toNat 0 = true → w.toNat / 256 % 256 = 0x5A → s.safe = false → exec (.warmResetWrite w) s = exec .warmReset s) ∧
      (bitAt w.toNat 0 = false ∨ w.toNat / 256 % 256 ≠ 0x5A ∨ s.safe = true → exec (.warmResetWrite w) s = .next s)) ∧
    (s.stage = 0 → exec .resetRelease s = .next ((s.zput Z.BOOT_STAT.STAGE 1).zput Z.BOOT_STAT.WARM
      (if s.zget Z.PWR_RSTCAUSE.CAUSE = 3 then 1 else 0))) ∧
    (s.stage ≠ 0 → exec .resetRelease s = .next s) ∧
    (s.stage = 1 → s.zget Z.CLK_SRC.XTAL_QUAL = 1 → s.safe = false →
      ∃ t, exec .clocksStageDone s = .next t ∧ t.stage = 2 ∧ t.time = s.time ∧ t.buf = s.buf ∧
        (∀ n : Fin 4, t.zget (ZC.DVFS.LEVEL.gcl n) = s.zget (ZC.DVFS.LEVEL.gcl n) ∧
          ((s.gcl n).phase = .idle → (s.gcl n).failed = false → (s.gcl n).rail = s.zget (ZC.DVFS.LEVEL.gcl n) →
            s.zget (ZC.DVFS.LEVEL.gcl n) < s.effTarget n → (t.gcl n).phase = .rampUp ∧ (t.gcl n).goal = s.effTarget n))) ∧
    (s.stage ≠ 1 ∨ s.zget Z.CLK_SRC.XTAL_QUAL ≠ 1 ∨ s.safe = true → exec .clocksStageDone s = .next s) ∧
    (∀ (engs : BitVec 96) (shm : BitVec 4) (queues : Half) (core : Bool),
      (s.stage ≠ 2 ∨ s.safe = true → exec (.selftestComplete engs shm queues core) s = .next s) ∧
      (s.stage = 2 → s.safe = false →
        ∃ t, exec (.selftestComplete engs shm queues core) s = .next t ∧ t.stage = (if core then 5 else 3) ∧
          (core = true → t.zget Z.BOOT_FAIL.CORE = 1) ∧
          (∀ e : Fin 96, engs.getLsbD e = true ∨ shm.getLsbD (e.val / 24) = true →
            t.engState e = engOff ∧ t.zget (ZE.CTL.OFF.geng e) = 1) ∧
          (∀ e : Fin 96, engs.getLsbD e = true → bitAt (t.zget (Z.BOOT_ENGk.FAILED.at (4 * (e.val / 32)))) (e.val % 32) = true) ∧
          (∀ e : Fin 96, engs.getLsbD e = false → shm.getLsbD (e.val / 24) = false → t.engState e = s.engState e) ∧
          (∀ n : Fin 4, shm.getLsbD n = true → t.zget (ZC.CTL.EN.gcl n) = 0 ∧ bitAt (t.zget Z.BOOT_FAIL.SHM) n = true) ∧
          (∀ p : Fin 16, queues.getLsbD p = true → t.zget (ZP.LCTL.LANE_EN.port p) = 0 ∧ t.zget (ZP.CTL.MERGE_EN.port p) = 0 ∧
            bitAt (t.zget Z.CLK_GATE.PORT) p = false ∧ bitAt (t.zget Z.BOOT_FAIL.PORT) p = true) ∧
          (core = false → ∀ n : Fin 8, s.pwr.kept.getLsbD n = false → ∀ c : Fin 4, t.chState n c = chTraining))) ∧
    (∀ (n : Fin 8) (spareBad : Bool) (c0 c1 c2 c3 : DramRes) (ms : Half),
      (s.safe = true ∨ (bitAt (s.zget Z.BOOT_CTL.RETRYING) n = false ∧ (s.stage ≠ 3 ∨ (s.stack n).ready = true)) →
        exec (.dramStage n spareBad c0 c1 c2 c3 ms) s = .next s) ∧
      (s.safe = false → bitAt (s.zget Z.BOOT_CTL.RETRYING) n = false → s.stage = 3 → (s.stack n).ready = false → s.pwr.kept.getLsbD n = false →
        (s.stack n).freeze = [] → ∃ t, exec (.dramStage n spareBad c0 c1 c2 c3 ms) s = .next t ∧ t.time = s.time ∧
          (t.stack n).ready = true ∧
          (∀ x0 x1 x2 x3 : Bool × Byte × Byte, c0 = .ok x0.1 x0.2.1 x0.2.2 → c1 = .ok x1.1 x1.2.1 x1.2.2 → c2 = .ok x2.1 x2.2.1 x2.2.2 →
            c3 = .ok x3.1 x3.2.1 x3.2.2 → s.zget (ZS.DPT.POINT.stack n) < 2 → (s.stack n).due = [] →
            t.inService n = true ∧ bitAt (t.zget Z.BOOT_STAT.STACKS) n = true ∧
            (t.zget (ZS.ICTL.SPARE.stack n) = if spareBad then 3 else if s.zget (ZS.ICTL.SPARE.stack n) = 2 then 2 else 0) ∧
            ((∀ k : Fin 8, k ≠ n → (s.stack k).ready = true) → t.stage = 4 ∧ t.zget Z.BOOT_STAT.READY_MS = ms.toNat)) ∧
          (c0 = .noSet → (t.stage = 3 ∨ t.stage = 4 ∨ t.stage = 5) ∧ bitAt (t.zget Z.BOOT_STAT.STACKS) n = false ∧
            ((Tab.get none (t.stack n).freeze 0).map (·.cause) = some 4) ∧
            ((∀ k : Fin 8, k ≠ n → (s.stack k).ready = true) → (∀ k : Fin 8, s.inService k = false) → t.stage = 5)) ∧
          ((∃ k : Fin 8, k ≠ n ∧ (s.stack k).ready = false) → t.stage = 3)) ∧
      (∀ x0 x1 x2 x3 : Bool × Byte × Byte, s.safe = false → bitAt (s.zget Z.BOOT_CTL.RETRYING) n = true → s.stage = 5 →
        (s.stack n).freeze = [] → (s.stack n).due = [] → s.zget (ZS.DPT.POINT.stack n) < 2 →
        ∃ t, exec (.dramStage n spareBad (.ok x0.1 x0.2.1 x0.2.2) (.ok x1.1 x1.2.1 x1.2.2) (.ok x2.1 x2.2.1 x2.2.2) (.ok x3.1 x3.2.1 x3.2.2) ms) s =
          .next t ∧ t.stage = 4 ∧ t.inService n = true ∧ bitAt (t.zget Z.BOOT_CTL.RETRYING) n = false)) ∧
    (∀ w : Word, s.stage = 4 ∨ s.stage = 5 → s.safe = false →
      ∃ t, exec (.stackRetry w) s = .next t ∧ t.time = s.time ∧ t.run = s.run ∧ t.buf = { s.buf with stks := t.buf.stks } ∧
        ∀ n : Fin 8, bitAt w.toNat n = true →
          (s.run.active = false → s.inService n = false → bitAt (s.zget Z.BOOT_CTL.RETRYING) n = false →
            (∀ c : Fin 4, s.chState n c = chOff) →
            bitAt (t.zget Z.BOOT_CTL.RETRYING) n = true ∧ ∀ c : Fin 4, t.chState n c = chTraining) ∧
          (s.run.active = true ∨ s.inService n = true ∨ bitAt (s.zget Z.BOOT_CTL.RETRYING) n = true ∨ (∃ c : Fin 4, s.chState n c ≠ chOff) →
            bitAt (t.zget Z.BOOT_CTL.RETRY_FAIL) n = true)) ∧
    (∀ w : Word, s.safe = true → exec (.stackRetry w) s = .next s)

/-! ### Access before READY, the engines' start state, the monitor's settings -/

/-- R410.  Before READY, and in FAILED, every write of BAR0 that is one register's, every write of another mapped word through REGISTER_WRITE, and
every doorbell write is discarded and sets BAD_ACCESS; writes of Z_BOOT_CFG, Z_RST_CTL and the clock/power group
have their effect; reads return current values.  In FAILED, Z_BOOT_CTL and the freeze registers are writable too.
The MSI-X table, which no table of registers lists, follows R422. -/
def Obligations.WritesWaitForReady : Prop :=
  ∀ s : State, s.safe = false → s.stage ≠ 4 →
    (∀ (c : Instr) (off : Nat), bar0Word c = some off →
      (s.stage = 5 → (∀ w, c ≠ .stackRetry w) ∧ ∀ n, c ≠ .freezeRelease n) →
      ∃ t, exec c s = .next t ∧ t = s.zput Z.HOST_ERR.BAD_ACCESS 1 ∧ t.zget Z.HOST_ERR.BAD_ACCESS = 1) ∧
    (∀ (r : Fin 8) (v : Word), ∃ t, exec (.doorbellWrite r v) s = .next t ∧ t = s.zput Z.HOST_ERR.BAD_ACCESS 1 ∧
      t.zget Z.HOST_ERR.BAD_ACCESS = 1) ∧
    (∀ (off : Fin 1048576) (w : Word), inMsix off = false → zmapped off = true → off.val < 0x80000 → off.val ≠ 0x18 → off.val ≠ 0x1C → powerGroup off = false →
      s.stage = 5 → off.val ≠ 0x20 → (∀ n : Fin 8, ∀ k : Fin 3, off.val ≠ 0x20114 + 0x1000 * n.val + 4 * k.val) →
      exec (.registerWrite off w) s = .next (s.zput Z.HOST_ERR.BAD_ACCESS 1)) ∧
    (∀ (off : Fin 1048576) (w : Word), inMsix off = false → zmapped off = true → off.val < 0x80000 → off.val ≠ 0x18 → off.val ≠ 0x1C → powerGroup off = false →
      s.stage < 4 → exec (.registerWrite off w) s = .next (s.zput Z.HOST_ERR.BAD_ACCESS 1)) ∧
    (∀ w : Word, ∃ t, exec (.registerWrite ⟨0x18, by decide⟩ w) s = .next t ∧ onlyRegs [Z.BOOT_CFG.DRAM_TEST, Z.BOOT_CFG.KEEP] s t ∧
      t.zget Z.BOOT_CFG.DRAM_TEST = w.toNat % 4 ∧ t.zget Z.BOOT_CFG.KEEP = w.toNat / 4 % 2) ∧
    (∀ w : Word, bitAt w.toNat 0 = true → w.toNat / 256 % 256 = 0x5A → ∃ t, exec (.warmResetWrite w) s = .next t ∧ t.stage = 0 ∧
      t.zget Z.PWR_RSTCAUSE.CAUSE = 3) ∧
    (∀ (off : Fin 1048576) (w : Word), powerGroup off = true → zmapped off = true →
      ∃ t, exec (.registerWrite off w) s = .next t ∧ t = s.updZreg (fun _ => t.zreg) ∧
        ∀ f, soleField off f → ownCommand f = false → f.acc = .rw → t.zget f = f.merged off w.toNat (s.zget f)) ∧
    (s.stage = 5 → ∀ (n : Fin 8) (w : Word),
      (bitAt w.toNat n = true → s.inService n = true →
        ∃ t, exec (.stackRetry w) s = .next t ∧ bitAt (t.zget Z.BOOT_CTL.RETRY_FAIL) n = true) ∧
      ∀ o : Fin 1048576, o.val = 0x20114 + 0x1000 * n.val →
        ∃ t, exec (.registerWrite o w) s = .next t ∧ onlyRegs [ZS.FRZ.SEL.stack n, ZS.FRZ.IDX.stack n] s t ∧
          t.zget (ZS.FRZ.SEL.stack n) = w.toNat / 16 % 4 ∧ t.zget (ZS.FRZ.IDX.stack n) = w.toNat / 64 % 64) ∧
    (s.stage = 5 → ∀ n : Fin 8, ∀ c : Fin 4, s.zget (ZS.FRZ.SEL.stack n) = c.val → (Tab.get none (s.stack n).freeze c.val).isSome = true →
      ∃ t, exec (.freezeRelease n) s = .next t ∧ Tab.get none (t.stack n).freeze c.val = none ∧ t.chState n c = chOff ∧
        bitAt (t.zget (ZS.FRZ.FROZEN.stack n)) c = false) ∧
    (∀ off : Fin 524288,
      (inMsix off = false → zmapped off = true → Tab.get none s.host.latch off = none →
        ∃ t, exec (.pairLowRead off) s = .next t ∧ onlyRead s t (s.zword off)) ∧
      (inMsix off = true → exec (.pairLowRead off) s = .next (s.emit (.readData (leBytes (s.msixRead off) 4)))))

/-- R272.  At an entry to RUNNING the PC is 0, g1 holds the engine number, g2 the role, every other register 0, and data memory what it held.
A write of g0 is discarded: an instruction whose destination is g0 leaves every register.  g0 reads as zero at reset and, on both sides of
every step, in every state that meets the invariant of the model. -/
def Obligations.EngineStartState : Prop :=
  (∀ (s : State) (tag : Word) (arg : List Byte) (c : Cmd), s.ctrlOpen → arg.length = 24 → c.wellFormed = true → c.num 0 1 < 4 →
    c = s.newCmd 0x11 tag 0 arg none → (∀ e ∈ engMask (c.num 0 1) (c.num 4 4), s.engState e ≠ engEmpty ∧ s.engState e ≠ engOff) →
    ∃ t, exec (.engineStart tag 0 arg) s = .next t ∧ t.cmds = [{ c with result := some 0 }] ∧
      ∀ e : Eng, e.val ∈ engMask (c.num 0 1) (c.num 4 4) → t.engState e = engRunning ∧
        (s.engState e ≠ engRunning → (t.eng e).pc = 0 ∧ (t.eng e).reg 0 = 0 ∧ (t.eng e).reg 1 = BitVec.ofNat 32 e ∧
          (t.eng e).reg 2 = BitVec.ofNat 32 (s.engRole e) ∧ (∀ r : Reg, 2 < r.val → (t.eng e).reg r = 0) ∧
          (t.eng e).dmem = (s.eng e).dmem)) ∧
  (∀ (x : Engine) (v : Word), x.setReg 0 v = x) ∧
  (∀ (x : Engine) (r : Reg) (v : Word), x.reg 0 = 0 → (x.setReg r v).reg 0 = 0) ∧
  (∀ s t : State, s.ok → step s = .next t → ∀ e : Eng, (s.eng e).reg 0 = 0 ∧ (t.eng e).reg 0 = 0) ∧
  (∀ e : Eng, (State.reset.eng e).reg 0 = 0)

/-- The settings of the monitor (R361).  A write of Z_MON_FILT or Z_MON_CHCFGc changes the register alone, not the setting in use; the next output
boundary, outside a hold, takes the written words over, and one that differs for a channel of the index in dwell restarts the dwell.  A write of
an interlock register leaves the output's code as it is until the next update.
The model's choices that it rests on are named in log entries 1 and 20. -/
def Obligations.MonitorSettings : Prop :=
  ∀ s : State, s.bar0Open →
    (∀ w : Word, filtOk w.toNat = true → ∃ t, exec (.monFiltWrite w) s = .next t ∧ t.mon = s.mon ∧ t.chips = s.chips ∧
      t = s.updZreg (fun _ => t.zreg) ∧ t.zget Z.MON_FILT.RATE = bits w.toNat Z.MON_FILT.RATE.lsb Z.MON_FILT.RATE.wid ∧
      (∀ c : Fin 32, t.chcfgWord c = s.chcfgWord c)) ∧
    (∀ w : Word, filtOk w.toNat = false → exec (.monFiltWrite w) s = .next (s.zput Z.MON_CTL.REFUSED 1)) ∧
    (∀ (c : Fin 32) (w : Word), ∃ t, exec (.monChcfgWrite c w) s = .next t ∧ t.mon = s.mon ∧ t = s.updZreg (fun _ => t.zreg) ∧
      t.filtWord = s.filtWord ∧ (∀ d : Fin 32, d ≠ c → t.chcfgWord d = s.chcfgWord d)) ∧
    (s.ilForced = false → s.monHeld = false → (∀ c ∈ s.cmds, c.opcode ≠ 0x50) → ∀ a b : MonOut,
      ∃ t, exec (.monOutput a b) s = .next t ∧ t.mon.filt = s.filtWord ∧ (∀ c : Fin 32, t.chcfg c = s.chcfgWord c) ∧
        (s.scanRuns = true → s.mon.dwell = true → t.scanned (s.zget Z.MON_SCAN.INDEX) = true → s.filtWord = s.mon.filt → s.zget Z.MON_SCAN.INDEX < 16 →
          s.chcfgWord (2 * s.zget Z.MON_SCAN.INDEX) ≠ s.chcfg (2 * s.zget Z.MON_SCAN.INDEX) →
          t.mon.dwell = true ∧ t.mon.settle = 3 ∧ t.mon.g0.vals = [] ∧ t.mon.g1.vals = [] ∧
            t.zget Z.MON_SCAN.INDEX = s.zget Z.MON_SCAN.INDEX)) ∧
    (∀ (n : Fin 16) (k : Fin 3) (o : Fin 1048576) (w : Word), o.val = 0x6200 + 16 * n.val + 4 * k.val →
      ∃ t, exec (.registerWrite o w) s = .next t ∧ t = s.updZreg (fun _ => t.zreg) ∧
        t.zget (ZI.STAT.CODE.il n) = s.zget (ZI.STAT.CODE.il n))
end

