-- ==== Sys2Proof/Laws/Tab.lean ====
section
/-!
SUPPORT. Laws of sparse tables: a read after a write, and that every operation keeps the canonical form.
-/

namespace Sys2Proof.Machine

variable {α : Type}

@[simp] theorem Tab.get_nil (d : α) (k : Nat) : Tab.get d ([] : Tab α) k = d := rfl

@[simp] theorem Tab.get_insert_same (d : α) (t : Tab α) (k : Nat) (v : α) : Tab.get d (Tab.insert t k v) k = v := by
  induction t with
  | nil => simp [Tab.insert, Tab.get]
  | cons e t ih =>
    obtain ⟨a, w⟩ := e
    unfold Tab.insert
    split
    · simp [Tab.get]
    · split
      · simp [Tab.get]
      · rename_i h
        simp [Tab.get, ih, Ne.symm h]

theorem Tab.get_insert_other (d : α) (t : Tab α) {k j : Nat} (v : α) (h : j ≠ k) :
    Tab.get d (Tab.insert t k v) j = Tab.get d t j := by
  induction t with
  | nil => simp [Tab.insert, Tab.get, Ne.symm h]
  | cons e t ih =>
    obtain ⟨a, w⟩ := e
    unfold Tab.insert
    split
    · simp [Tab.get, Ne.symm h]
    · split
      · rename_i h2
        subst h2
        simp [Tab.get, Ne.symm h]
      · simp [Tab.get, ih]

@[simp] theorem Tab.get_erase_same (d : α) (t : Tab α) (k : Nat) : Tab.get d (Tab.erase t k) k = d := by
  induction t with
  | nil => rfl
  | cons e t ih =>
    obtain ⟨a, w⟩ := e
    unfold Tab.erase
    split
    · exact ih
    · rename_i h
      simp [Tab.get, h, ih]

theorem Tab.get_erase_other (d : α) (t : Tab α) {k j : Nat} (h : j ≠ k) : Tab.get d (Tab.erase t k) j = Tab.get d t j := by
  induction t with
  | nil => rfl
  | cons e t ih =>
    obtain ⟨a, w⟩ := e
    unfold Tab.erase
    split
    · rename_i h2
      subst h2
      simp [Tab.get, Ne.symm h, ih]
    · simp [Tab.get, ih]

@[simp] theorem Tab.erase_erase (t : Tab α) (k : Nat) : Tab.erase (Tab.erase t k) k = Tab.erase t k := by
  induction t with
  | nil => rfl
  | cons e t ih =>
    obtain ⟨a, w⟩ := e
    by_cases h : a = k
    · simp [Tab.erase, h, ih]
    · simp [Tab.erase, h, ih]

@[simp] theorem Tab.erase_insert (t : Tab α) (k : Nat) (v : α) : Tab.erase (Tab.insert t k v) k = Tab.erase t k := by
  induction t with
  | nil => simp [Tab.insert, Tab.erase]
  | cons e t ih =>
    obtain ⟨a, w⟩ := e
    unfold Tab.insert
    split
    · simp [Tab.erase]
    · split
      · rename_i h
        simp [Tab.erase, h]
      · rename_i h
        simp [Tab.erase, Ne.symm h, ih]

/-- The last write to a key is the one that counts. -/
@[simp] theorem Tab.set_set [DecidableEq α] (d : α) (t : Tab α) (k : Nat) (v w : α) :
    Tab.set d (Tab.set d t k v) k w = Tab.set d t k w := by
  unfold Tab.set
  split <;> split <;> simp

/-- A read of what was written. -/
@[simp] theorem Tab.get_set_same [DecidableEq α] (d : α) (t : Tab α) (k : Nat) (v : α) : Tab.get d (Tab.set d t k v) k = v := by
  unfold Tab.set
  split
  · rename_i h
    simp [h]
  · simp

/-- A write leaves every other key alone. -/
theorem Tab.get_set_other [DecidableEq α] (d : α) (t : Tab α) {k j : Nat} (v : α) (h : j ≠ k) :
    Tab.get d (Tab.set d t k v) j = Tab.get d t j := by
  unfold Tab.set
  split
  · exact Tab.get_erase_other d t h
  · rw [Tab.get_insert_other d _ v h, Tab.get_erase_other d t h]

theorem Tab.get_set [DecidableEq α] (d : α) (t : Tab α) (k j : Nat) (v : α) :
    Tab.get d (Tab.set d t k v) j = if j = k then v else Tab.get d t j := by
  split
  · rename_i h
    subst h
    simp
  · rename_i h
    exact Tab.get_set_other d t v h

@[simp] theorem Tab.get_upd_same [DecidableEq α] (d : α) (t : Tab α) (k : Nat) (f : α → α) :
    Tab.get d (Tab.upd d t k f) k = f (Tab.get d t k) := by simp [Tab.upd]

theorem Tab.get_upd_other [DecidableEq α] (d : α) (t : Tab α) {k j : Nat} (f : α → α) (h : j ≠ k) :
    Tab.get d (Tab.upd d t k f) j = Tab.get d t j := Tab.get_set_other d t _ h

theorem Tab.get_upd [DecidableEq α] (d : α) (t : Tab α) (k j : Nat) (f : α → α) :
    Tab.get d (Tab.upd d t k f) j = if j = k then f (Tab.get d t k) else Tab.get d t j := by
  simp [Tab.upd, Tab.get_set]

/-! ### The canonical form -/

theorem Tab.above_mono {k j : Nat} (h : k ≤ j) (t : Tab α) (ha : Tab.above j t = true) : Tab.above k t = true := by
  induction t with
  | nil => rfl
  | cons e t ih =>
    simp only [Tab.above, Bool.and_eq_true, decide_eq_true_eq] at ha ⊢
    exact ⟨by omega, ih ha.2⟩

theorem Tab.above_insert {a k : Nat} (t : Tab α) (v : α) (h : a < k) (ha : Tab.above a t = true) :
    Tab.above a (Tab.insert t k v) = true := by
  induction t with
  | nil => simp [Tab.insert, Tab.above, h]
  | cons e t ih =>
    obtain ⟨b, w⟩ := e
    simp only [Tab.above, Bool.and_eq_true, decide_eq_true_eq] at ha
    unfold Tab.insert
    split
    · simp [Tab.above, h, ha]
    · split
      · simp [Tab.above, h, ha]
      · simp [Tab.above, ha, ih ha.2]

theorem Tab.above_erase {a k : Nat} (t : Tab α) (ha : Tab.above a t = true) : Tab.above a (Tab.erase t k) = true := by
  induction t with
  | nil => rfl
  | cons e t ih =>
    obtain ⟨b, w⟩ := e
    simp only [Tab.above, Bool.and_eq_true, decide_eq_true_eq] at ha
    unfold Tab.erase
    split
    · exact ih ha.2
    · simp [Tab.above, ha, ih ha.2]

theorem Tab.wf_insert [DecidableEq α] {d : α} {t : Tab α} (k : Nat) {v : α} (hv : v ≠ d) (h : Tab.wf d t = true) :
    Tab.wf d (Tab.insert t k v) = true := by
  induction t with
  | nil => simp [Tab.insert, Tab.wf, Tab.above, hv]
  | cons e t ih =>
    obtain ⟨a, w⟩ := e
    have h0 := h
    simp only [Tab.wf, Bool.and_eq_true, decide_eq_true_eq] at h
    unfold Tab.insert
    split
    · rename_i hk
      have := Tab.above_mono (Nat.le_of_lt hk) t h.1.1
      simp only [Tab.wf, Tab.above, Bool.and_eq_true, decide_eq_true_eq]
      exact ⟨⟨⟨hk, this⟩, hv⟩, h⟩
    · split
      · rename_i hk
        subst hk
        simp only [Tab.wf, Bool.and_eq_true, decide_eq_true_eq]
        exact ⟨⟨h.1.1, hv⟩, h.2⟩
      · rename_i h1 h2
        simp only [Tab.wf, Bool.and_eq_true, decide_eq_true_eq]
        exact ⟨⟨Tab.above_insert t v (by omega) h.1.1, h.1.2⟩, ih h.2⟩

theorem Tab.wf_erase [DecidableEq α] {d : α} {t : Tab α} (k : Nat) (h : Tab.wf d t = true) : Tab.wf d (Tab.erase t k) = true := by
  induction t with
  | nil => rfl
  | cons e t ih =>
    obtain ⟨a, w⟩ := e
    simp only [Tab.wf, Bool.and_eq_true, decide_eq_true_eq] at h
    unfold Tab.erase
    split
    · exact ih h.2
    · simp only [Tab.wf, Bool.and_eq_true, decide_eq_true_eq]
      exact ⟨⟨Tab.above_erase t h.1.1, h.1.2⟩, ih h.2⟩

/-- A write keeps the canonical form. -/
theorem Tab.wf_set [DecidableEq α] {d : α} {t : Tab α} (k : Nat) (v : α) (h : Tab.wf d t = true) :
    Tab.wf d (Tab.set d t k v) = true := by
  unfold Tab.set
  split
  · exact Tab.wf_erase k h
  · rename_i hv
    exact Tab.wf_insert k hv (Tab.wf_erase k h)

theorem Tab.wf_upd [DecidableEq α] {d : α} {t : Tab α} (k : Nat) (f : α → α) (h : Tab.wf d t = true) :
    Tab.wf d (Tab.upd d t k f) = true := Tab.wf_set k _ h

theorem Tab.above_filter {a : Nat} (p : Nat × α → Bool) (t : Tab α) (ha : Tab.above a t = true) :
    Tab.above a (List.filter p t) = true := by
  induction t with
  | nil => rfl
  | cons e t ih =>
    simp only [Tab.above, Bool.and_eq_true, decide_eq_true_eq] at ha
    rw [List.filter_cons]
    split
    · simp [Tab.above, ha, ih ha.2]
    · exact ih ha.2

/-- Dropping entries keeps the canonical form. -/
theorem Tab.wf_filter [DecidableEq α] {d : α} (p : Nat × α → Bool) {t : Tab α} (h : Tab.wf d t = true) :
    Tab.wf d (List.filter p t) = true := by
  induction t with
  | nil => rfl
  | cons e t ih =>
    obtain ⟨a, w⟩ := e
    simp only [Tab.wf, Bool.and_eq_true, decide_eq_true_eq] at h
    rw [List.filter_cons]
    split
    · simp only [Tab.wf, Bool.and_eq_true, decide_eq_true_eq]
      exact ⟨⟨Tab.above_filter p t h.1.1, h.1.2⟩, ih h.2⟩
    · exact ih h.2

/-- Writing the entries of a list keeps the canonical form. -/
theorem Tab.wf_foldl_set [DecidableEq α] {β : Type} {d : α} (l : List β) (key : β → Nat) (val : β → α) {t : Tab α}
    (h : Tab.wf d t = true) : Tab.wf d (l.foldl (fun t x => Tab.set d t (key x) (val x)) t) = true := by
  induction l generalizing t with
  | nil => exact h
  | cons x l ih => exact ih (Tab.wf_set _ _ h)

/-- A canonical table holds no entry at a key below one it lies above. -/
theorem Tab.get_above (d : α) {k j : Nat} (t : Tab α) (ha : Tab.above k t = true) (h : j ≤ k) : Tab.get d t j = d := by
  induction t with
  | nil => rfl
  | cons e t ih =>
    obtain ⟨a, w⟩ := e
    simp only [Tab.above, Bool.and_eq_true, decide_eq_true_eq] at ha
    rw [Tab.get, if_neg (by omega)]
    exact ih ha.2

/-- Equal contents are equal data. -/
theorem Tab.ext_of_get [DecidableEq α] {d : α} {t u : Tab α} (ht : Tab.wf d t = true) (hu : Tab.wf d u = true)
    (h : ∀ k, Tab.get d t k = Tab.get d u k) : t = u := by
  induction t generalizing u with
  | nil =>
    cases u with
    | nil => rfl
    | cons e u =>
      obtain ⟨a, w⟩ := e
      simp only [Tab.wf, Bool.and_eq_true, decide_eq_true_eq] at hu
      have := h a
      simp [Tab.get] at this
      exact absurd this.symm hu.1.2
  | cons e t ih =>
    obtain ⟨a, v⟩ := e
    simp only [Tab.wf, Bool.and_eq_true, decide_eq_true_eq] at ht
    cases u with
    | nil =>
      have := h a
      simp [Tab.get] at this
      exact absurd this ht.1.2
    | cons e u =>
      obtain ⟨b, w⟩ := e
      simp only [Tab.wf, Bool.and_eq_true, decide_eq_true_eq] at hu
      have hab : a = b := by
        rcases Nat.lt_trichotomy a b with hlt | heq | hgt
        · have h1 := h a
          have h2 := Tab.get_above d (j := a) u (Tab.above_mono (Nat.le_of_lt hlt) u hu.1.1) (Nat.le_refl a)
          simp only [Tab.get, if_true] at h1
          rw [if_neg (by omega), h2] at h1
          exact absurd h1 ht.1.2
        · exact heq
        · have h1 := h b
          have h2 := Tab.get_above d (j := b) t (Tab.above_mono (Nat.le_of_lt hgt) t ht.1.1) (Nat.le_refl b)
          simp only [Tab.get, if_true] at h1
          rw [if_neg (by omega), h2] at h1
          exact absurd h1.symm hu.1.2
      subst hab
      have hv : v = w := by
        have := h a
        simpa [Tab.get] using this
      subst hv
      have : t = u := by
        apply ih ht.2 hu.2
        intro k
        by_cases hk : k = a
        · subst hk
          rw [Tab.get_above d t ht.1.1 (Nat.le_refl _), Tab.get_above d u hu.1.1 (Nat.le_refl _)]
        · have := h k
          simpa [Tab.get, Ne.symm hk] using this
      rw [this]

end Sys2Proof.Machine
end

