-- ==== Sys2Proof/Laws/Regs.lean ====
section
/-!
SUPPORT. Laws of register files: a field reads as it was written, within its width, and a write leaves every other field alone.
-/

namespace Sys2Proof.Machine

/-- A field reads what was written, within its width. -/
@[simp] theorem fget_fset_same (r : Tab Nat) (f : Field) (v : Nat) : fget (fset r f v) f = v % 2 ^ f.wid := by
  simp [fget, fset]

theorem fget_fset_ne (r : Tab Nat) {f g : Field} (v : Nat) (h : g.key ≠ f.key) : fget (fset r f v) g = fget r g := by
  simp [fget, fset, Tab.get_set_other _ _ _ h]

theorem fget_fset_reset (r : Tab Nat) (f g : Field) (v : Nat) (hk : g.key = f.key) (hr : g.reset = f.reset) :
    fget (fset r f v) g = v % 2 ^ f.wid := by
  simp [fget, fset, hk, hr]

/-- The raw entry of another key. -/
theorem get_fset_ne (r : Tab Nat) {f : Field} (v : Nat) {k : Nat} (h : k ≠ f.key) : Tab.get 0 (fset r f v) k = Tab.get 0 r k := by
  simp [fset, Tab.get_set_other _ _ _ h]

theorem get_fadd_ne (r : Tab Nat) {f : Field} (n : Nat) {k : Nat} (h : k ≠ f.key) : Tab.get 0 (fadd r f n) k = Tab.get 0 r k := by
  simp [fadd, get_fset_ne _ _ h]

theorem get_fwrap_ne (r : Tab Nat) {f : Field} (n : Nat) {k : Nat} (h : k ≠ f.key) : Tab.get 0 (fwrap r f n) k = Tab.get 0 r k := by
  simp [fwrap, get_fset_ne _ _ h]

/-- A saturating counter counts up to its highest value. -/
@[simp] theorem fget_fadd_same (r : Tab Nat) (f : Field) (n : Nat) : fget (fadd r f n) f = sat f.wid (fget r f + n) := by
  have : sat f.wid (fget r f + n) < 2 ^ f.wid := by
    have : 0 < 2 ^ f.wid := Nat.two_pow_pos _
    unfold sat; omega
  simp [fadd, Nat.mod_eq_of_lt this]

theorem fget_fadd_ne (r : Tab Nat) {f g : Field} (n : Nat) (h : g.key ≠ f.key) : fget (fadd r f n) g = fget r g :=
  fget_fset_ne r _ h

/-- A wrapping counter counts modulo its width. -/
@[simp] theorem fget_fwrap_same (r : Tab Nat) (f : Field) (n : Nat) : fget (fwrap r f n) f = (fget r f + n) % 2 ^ f.wid := by
  simp [fwrap]

theorem fget_fwrap_ne (r : Tab Nat) {f g : Field} (n : Nat) (h : g.key ≠ f.key) : fget (fwrap r f n) g = fget r g :=
  fget_fset_ne r _ h

/-- A register file right after reset reads every field at its reset value. -/
@[simp] theorem fget_nil (f : Field) : fget [] f = f.reset := by simp [fget]

theorem fset_wf {r : Tab Nat} (f : Field) (v : Nat) (h : Tab.wf 0 r = true) : Tab.wf 0 (fset r f v) = true := Tab.wf_set _ _ h

end Sys2Proof.Machine
end

