-- ==== Sys2Proof/Laws/State.lean ====
section
/-!
SUPPORT. What each updater of the state leaves and changes, field by field (true by `rfl`), and the same for the operations that change
one register field or one element: no later proof unfolds a record update.
-/

namespace Sys2Proof.Machine

/-- What changing `out` leaves and changes. -/
@[simp] theorem State.updOut_fields (s : State) (f) :
    (s.updOut f).pending = s.pending ∧ (s.updOut f).out = f s.out ∧ (s.updOut f).free = s.free ∧ (s.updOut f).zreg =
    s.zreg ∧ (s.updOut f).mirror = s.mirror ∧ (s.updOut f).time = s.time ∧ (s.updOut f).run = s.run ∧ (s.updOut f).ring
    = s.ring ∧ (s.updOut f).buf = s.buf ∧ (s.updOut f).ev = s.ev ∧ (s.updOut f).host = s.host ∧ (s.updOut f).lanes =
    s.lanes ∧ (s.updOut f).cmds = s.cmds ∧ (s.updOut f).cmdCount = s.cmdCount ∧ (s.updOut f).xtr = s.xtr ∧ (s.updOut
    f).engines = s.engines ∧ (s.updOut f).shm = s.shm ∧ (s.updOut f).gcls = s.gcls ∧ (s.updOut f).mon = s.mon ∧
    (s.updOut f).pwr = s.pwr ∧ (s.updOut f).snaps = s.snaps ∧ (s.updOut f).ports = s.ports ∧ (s.updOut f).chips =
    s.chips :=
  ⟨rfl, rfl, rfl, rfl, rfl, rfl, rfl, rfl, rfl, rfl, rfl, rfl, rfl, rfl, rfl, rfl, rfl, rfl, rfl, rfl, rfl, rfl, rfl⟩

/-- What changing `free` leaves and changes. -/
@[simp] theorem State.updFree_fields (s : State) (f) :
    (s.updFree f).pending = s.pending ∧ (s.updFree f).out = s.out ∧ (s.updFree f).free = f s.free ∧ (s.updFree f).zreg =
    s.zreg ∧ (s.updFree f).mirror = s.mirror ∧ (s.updFree f).time = s.time ∧ (s.updFree f).run = s.run ∧ (s.updFree
    f).ring = s.ring ∧ (s.updFree f).buf = s.buf ∧ (s.updFree f).ev = s.ev ∧ (s.updFree f).host = s.host ∧ (s.updFree
    f).lanes = s.lanes ∧ (s.updFree f).cmds = s.cmds ∧ (s.updFree f).cmdCount = s.cmdCount ∧ (s.updFree f).xtr = s.xtr ∧
    (s.updFree f).engines = s.engines ∧ (s.updFree f).shm = s.shm ∧ (s.updFree f).gcls = s.gcls ∧ (s.updFree f).mon =
    s.mon ∧ (s.updFree f).pwr = s.pwr ∧ (s.updFree f).snaps = s.snaps ∧ (s.updFree f).ports = s.ports ∧ (s.updFree
    f).chips = s.chips :=
  ⟨rfl, rfl, rfl, rfl, rfl, rfl, rfl, rfl, rfl, rfl, rfl, rfl, rfl, rfl, rfl, rfl, rfl, rfl, rfl, rfl, rfl, rfl, rfl⟩

/-- What changing `zreg` leaves and changes. -/
@[simp] theorem State.updZreg_fields (s : State) (f) :
    (s.updZreg f).pending = s.pending ∧ (s.updZreg f).out = s.out ∧ (s.updZreg f).free = s.free ∧ (s.updZreg f).zreg = f
    s.zreg ∧ (s.updZreg f).mirror = s.mirror ∧ (s.updZreg f).time = s.time ∧ (s.updZreg f).run = s.run ∧ (s.updZreg
    f).ring = s.ring ∧ (s.updZreg f).buf = s.buf ∧ (s.updZreg f).ev = s.ev ∧ (s.updZreg f).host = s.host ∧ (s.updZreg
    f).lanes = s.lanes ∧ (s.updZreg f).cmds = s.cmds ∧ (s.updZreg f).cmdCount = s.cmdCount ∧ (s.updZreg f).xtr = s.xtr ∧
    (s.updZreg f).engines = s.engines ∧ (s.updZreg f).shm = s.shm ∧ (s.updZreg f).gcls = s.gcls ∧ (s.updZreg f).mon =
    s.mon ∧ (s.updZreg f).pwr = s.pwr ∧ (s.updZreg f).snaps = s.snaps ∧ (s.updZreg f).ports = s.ports ∧ (s.updZreg
    f).chips = s.chips :=
  ⟨rfl, rfl, rfl, rfl, rfl, rfl, rfl, rfl, rfl, rfl, rfl, rfl, rfl, rfl, rfl, rfl, rfl, rfl, rfl, rfl, rfl, rfl, rfl⟩

/-- What changing `mirror` leaves and changes. -/
@[simp] theorem State.updMirror_fields (s : State) (f) :
    (s.updMirror f).pending = s.pending ∧ (s.updMirror f).out = s.out ∧ (s.updMirror f).free = s.free ∧ (s.updMirror
    f).zreg = s.zreg ∧ (s.updMirror f).mirror = f s.mirror ∧ (s.updMirror f).time = s.time ∧ (s.updMirror f).run = s.run
    ∧ (s.updMirror f).ring = s.ring ∧ (s.updMirror f).buf = s.buf ∧ (s.updMirror f).ev = s.ev ∧ (s.updMirror f).host =
    s.host ∧ (s.updMirror f).lanes = s.lanes ∧ (s.updMirror f).cmds = s.cmds ∧ (s.updMirror f).cmdCount = s.cmdCount ∧
    (s.updMirror f).xtr = s.xtr ∧ (s.updMirror f).engines = s.engines ∧ (s.updMirror f).shm = s.shm ∧ (s.updMirror
    f).gcls = s.gcls ∧ (s.updMirror f).mon = s.mon ∧ (s.updMirror f).pwr = s.pwr ∧ (s.updMirror f).snaps = s.snaps ∧
    (s.updMirror f).ports = s.ports ∧ (s.updMirror f).chips = s.chips :=
  ⟨rfl, rfl, rfl, rfl, rfl, rfl, rfl, rfl, rfl, rfl, rfl, rfl, rfl, rfl, rfl, rfl, rfl, rfl, rfl, rfl, rfl, rfl, rfl⟩

/-- What changing `time` leaves and changes. -/
@[simp] theorem State.updTime_fields (s : State) (f) :
    (s.updTime f).pending = s.pending ∧ (s.updTime f).out = s.out ∧ (s.updTime f).free = s.free ∧ (s.updTime f).zreg =
    s.zreg ∧ (s.updTime f).mirror = s.mirror ∧ (s.updTime f).time = f s.time ∧ (s.updTime f).run = s.run ∧ (s.updTime
    f).ring = s.ring ∧ (s.updTime f).buf = s.buf ∧ (s.updTime f).ev = s.ev ∧ (s.updTime f).host = s.host ∧ (s.updTime
    f).lanes = s.lanes ∧ (s.updTime f).cmds = s.cmds ∧ (s.updTime f).cmdCount = s.cmdCount ∧ (s.updTime f).xtr = s.xtr ∧
    (s.updTime f).engines = s.engines ∧ (s.updTime f).shm = s.shm ∧ (s.updTime f).gcls = s.gcls ∧ (s.updTime f).mon =
    s.mon ∧ (s.updTime f).pwr = s.pwr ∧ (s.updTime f).snaps = s.snaps ∧ (s.updTime f).ports = s.ports ∧ (s.updTime
    f).chips = s.chips :=
  ⟨rfl, rfl, rfl, rfl, rfl, rfl, rfl, rfl, rfl, rfl, rfl, rfl, rfl, rfl, rfl, rfl, rfl, rfl, rfl, rfl, rfl, rfl, rfl⟩

/-- What changing `run` leaves and changes. -/
@[simp] theorem State.updRun_fields (s : State) (f) :
    (s.updRun f).pending = s.pending ∧ (s.updRun f).out = s.out ∧ (s.updRun f).free = s.free ∧ (s.updRun f).zreg =
    s.zreg ∧ (s.updRun f).mirror = s.mirror ∧ (s.updRun f).time = s.time ∧ (s.updRun f).run = f s.run ∧ (s.updRun
    f).ring = s.ring ∧ (s.updRun f).buf = s.buf ∧ (s.updRun f).ev = s.ev ∧ (s.updRun f).host = s.host ∧ (s.updRun
    f).lanes = s.lanes ∧ (s.updRun f).cmds = s.cmds ∧ (s.updRun f).cmdCount = s.cmdCount ∧ (s.updRun f).xtr = s.xtr ∧
    (s.updRun f).engines = s.engines ∧ (s.updRun f).shm = s.shm ∧ (s.updRun f).gcls = s.gcls ∧ (s.updRun f).mon = s.mon
    ∧ (s.updRun f).pwr = s.pwr ∧ (s.updRun f).snaps = s.snaps ∧ (s.updRun f).ports = s.ports ∧ (s.updRun f).chips =
    s.chips :=
  ⟨rfl, rfl, rfl, rfl, rfl, rfl, rfl, rfl, rfl, rfl, rfl, rfl, rfl, rfl, rfl, rfl, rfl, rfl, rfl, rfl, rfl, rfl, rfl⟩

/-- What changing `ring` leaves and changes. -/
@[simp] theorem State.updRing_fields (s : State) (f) :
    (s.updRing f).pending = s.pending ∧ (s.updRing f).out = s.out ∧ (s.updRing f).free = s.free ∧ (s.updRing f).zreg =
    s.zreg ∧ (s.updRing f).mirror = s.mirror ∧ (s.updRing f).time = s.time ∧ (s.updRing f).run = s.run ∧ (s.updRing
    f).ring = f s.ring ∧ (s.updRing f).buf = s.buf ∧ (s.updRing f).ev = s.ev ∧ (s.updRing f).host = s.host ∧ (s.updRing
    f).lanes = s.lanes ∧ (s.updRing f).cmds = s.cmds ∧ (s.updRing f).cmdCount = s.cmdCount ∧ (s.updRing f).xtr = s.xtr ∧
    (s.updRing f).engines = s.engines ∧ (s.updRing f).shm = s.shm ∧ (s.updRing f).gcls = s.gcls ∧ (s.updRing f).mon =
    s.mon ∧ (s.updRing f).pwr = s.pwr ∧ (s.updRing f).snaps = s.snaps ∧ (s.updRing f).ports = s.ports ∧ (s.updRing
    f).chips = s.chips :=
  ⟨rfl, rfl, rfl, rfl, rfl, rfl, rfl, rfl, rfl, rfl, rfl, rfl, rfl, rfl, rfl, rfl, rfl, rfl, rfl, rfl, rfl, rfl, rfl⟩

/-- What changing `buf` leaves and changes. -/
@[simp] theorem State.updBuf_fields (s : State) (f) :
    (s.updBuf f).pending = s.pending ∧ (s.updBuf f).out = s.out ∧ (s.updBuf f).free = s.free ∧ (s.updBuf f).zreg =
    s.zreg ∧ (s.updBuf f).mirror = s.mirror ∧ (s.updBuf f).time = s.time ∧ (s.updBuf f).run = s.run ∧ (s.updBuf f).ring
    = s.ring ∧ (s.updBuf f).buf = f s.buf ∧ (s.updBuf f).ev = s.ev ∧ (s.updBuf f).host = s.host ∧ (s.updBuf f).lanes =
    s.lanes ∧ (s.updBuf f).cmds = s.cmds ∧ (s.updBuf f).cmdCount = s.cmdCount ∧ (s.updBuf f).xtr = s.xtr ∧ (s.updBuf
    f).engines = s.engines ∧ (s.updBuf f).shm = s.shm ∧ (s.updBuf f).gcls = s.gcls ∧ (s.updBuf f).mon = s.mon ∧
    (s.updBuf f).pwr = s.pwr ∧ (s.updBuf f).snaps = s.snaps ∧ (s.updBuf f).ports = s.ports ∧ (s.updBuf f).chips =
    s.chips :=
  ⟨rfl, rfl, rfl, rfl, rfl, rfl, rfl, rfl, rfl, rfl, rfl, rfl, rfl, rfl, rfl, rfl, rfl, rfl, rfl, rfl, rfl, rfl, rfl⟩

/-- What changing `ev` leaves and changes. -/
@[simp] theorem State.updEv_fields (s : State) (f) :
    (s.updEv f).pending = s.pending ∧ (s.updEv f).out = s.out ∧ (s.updEv f).free = s.free ∧ (s.updEv f).zreg = s.zreg ∧
    (s.updEv f).mirror = s.mirror ∧ (s.updEv f).time = s.time ∧ (s.updEv f).run = s.run ∧ (s.updEv f).ring = s.ring ∧
    (s.updEv f).buf = s.buf ∧ (s.updEv f).ev = f s.ev ∧ (s.updEv f).host = s.host ∧ (s.updEv f).lanes = s.lanes ∧
    (s.updEv f).cmds = s.cmds ∧ (s.updEv f).cmdCount = s.cmdCount ∧ (s.updEv f).xtr = s.xtr ∧ (s.updEv f).engines =
    s.engines ∧ (s.updEv f).shm = s.shm ∧ (s.updEv f).gcls = s.gcls ∧ (s.updEv f).mon = s.mon ∧ (s.updEv f).pwr = s.pwr
    ∧ (s.updEv f).snaps = s.snaps ∧ (s.updEv f).ports = s.ports ∧ (s.updEv f).chips = s.chips :=
  ⟨rfl, rfl, rfl, rfl, rfl, rfl, rfl, rfl, rfl, rfl, rfl, rfl, rfl, rfl, rfl, rfl, rfl, rfl, rfl, rfl, rfl, rfl, rfl⟩

/-- What changing `host` leaves and changes. -/
@[simp] theorem State.updHost_fields (s : State) (f) :
    (s.updHost f).pending = s.pending ∧ (s.updHost f).out = s.out ∧ (s.updHost f).free = s.free ∧ (s.updHost f).zreg =
    s.zreg ∧ (s.updHost f).mirror = s.mirror ∧ (s.updHost f).time = s.time ∧ (s.updHost f).run = s.run ∧ (s.updHost
    f).ring = s.ring ∧ (s.updHost f).buf = s.buf ∧ (s.updHost f).ev = s.ev ∧ (s.updHost f).host = f s.host ∧ (s.updHost
    f).lanes = s.lanes ∧ (s.updHost f).cmds = s.cmds ∧ (s.updHost f).cmdCount = s.cmdCount ∧ (s.updHost f).xtr = s.xtr ∧
    (s.updHost f).engines = s.engines ∧ (s.updHost f).shm = s.shm ∧ (s.updHost f).gcls = s.gcls ∧ (s.updHost f).mon =
    s.mon ∧ (s.updHost f).pwr = s.pwr ∧ (s.updHost f).snaps = s.snaps ∧ (s.updHost f).ports = s.ports ∧ (s.updHost
    f).chips = s.chips :=
  ⟨rfl, rfl, rfl, rfl, rfl, rfl, rfl, rfl, rfl, rfl, rfl, rfl, rfl, rfl, rfl, rfl, rfl, rfl, rfl, rfl, rfl, rfl, rfl⟩

/-- What changing `lanes` leaves and changes. -/
@[simp] theorem State.updLanes_fields (s : State) (f) :
    (s.updLanes f).pending = s.pending ∧ (s.updLanes f).out = s.out ∧ (s.updLanes f).free = s.free ∧ (s.updLanes f).zreg
    = s.zreg ∧ (s.updLanes f).mirror = s.mirror ∧ (s.updLanes f).time = s.time ∧ (s.updLanes f).run = s.run ∧
    (s.updLanes f).ring = s.ring ∧ (s.updLanes f).buf = s.buf ∧ (s.updLanes f).ev = s.ev ∧ (s.updLanes f).host = s.host
    ∧ (s.updLanes f).lanes = f s.lanes ∧ (s.updLanes f).cmds = s.cmds ∧ (s.updLanes f).cmdCount = s.cmdCount ∧
    (s.updLanes f).xtr = s.xtr ∧ (s.updLanes f).engines = s.engines ∧ (s.updLanes f).shm = s.shm ∧ (s.updLanes f).gcls =
    s.gcls ∧ (s.updLanes f).mon = s.mon ∧ (s.updLanes f).pwr = s.pwr ∧ (s.updLanes f).snaps = s.snaps ∧ (s.updLanes
    f).ports = s.ports ∧ (s.updLanes f).chips = s.chips :=
  ⟨rfl, rfl, rfl, rfl, rfl, rfl, rfl, rfl, rfl, rfl, rfl, rfl, rfl, rfl, rfl, rfl, rfl, rfl, rfl, rfl, rfl, rfl, rfl⟩

/-- What changing `cmds` leaves and changes. -/
@[simp] theorem State.updCmds_fields (s : State) (f) :
    (s.updCmds f).pending = s.pending ∧ (s.updCmds f).out = s.out ∧ (s.updCmds f).free = s.free ∧ (s.updCmds f).zreg =
    s.zreg ∧ (s.updCmds f).mirror = s.mirror ∧ (s.updCmds f).time = s.time ∧ (s.updCmds f).run = s.run ∧ (s.updCmds
    f).ring = s.ring ∧ (s.updCmds f).buf = s.buf ∧ (s.updCmds f).ev = s.ev ∧ (s.updCmds f).host = s.host ∧ (s.updCmds
    f).lanes = s.lanes ∧ (s.updCmds f).cmds = f s.cmds ∧ (s.updCmds f).cmdCount = s.cmdCount ∧ (s.updCmds f).xtr = s.xtr
    ∧ (s.updCmds f).engines = s.engines ∧ (s.updCmds f).shm = s.shm ∧ (s.updCmds f).gcls = s.gcls ∧ (s.updCmds f).mon =
    s.mon ∧ (s.updCmds f).pwr = s.pwr ∧ (s.updCmds f).snaps = s.snaps ∧ (s.updCmds f).ports = s.ports ∧ (s.updCmds
    f).chips = s.chips :=
  ⟨rfl, rfl, rfl, rfl, rfl, rfl, rfl, rfl, rfl, rfl, rfl, rfl, rfl, rfl, rfl, rfl, rfl, rfl, rfl, rfl, rfl, rfl, rfl⟩

/-- What changing `cmdCount` leaves and changes. -/
@[simp] theorem State.updCmdCount_fields (s : State) (f) :
    (s.updCmdCount f).pending = s.pending ∧ (s.updCmdCount f).out = s.out ∧ (s.updCmdCount f).free = s.free ∧
    (s.updCmdCount f).zreg = s.zreg ∧ (s.updCmdCount f).mirror = s.mirror ∧ (s.updCmdCount f).time = s.time ∧
    (s.updCmdCount f).run = s.run ∧ (s.updCmdCount f).ring = s.ring ∧ (s.updCmdCount f).buf = s.buf ∧ (s.updCmdCount
    f).ev = s.ev ∧ (s.updCmdCount f).host = s.host ∧ (s.updCmdCount f).lanes = s.lanes ∧ (s.updCmdCount f).cmds = s.cmds
    ∧ (s.updCmdCount f).cmdCount = f s.cmdCount ∧ (s.updCmdCount f).xtr = s.xtr ∧ (s.updCmdCount f).engines = s.engines
    ∧ (s.updCmdCount f).shm = s.shm ∧ (s.updCmdCount f).gcls = s.gcls ∧ (s.updCmdCount f).mon = s.mon ∧ (s.updCmdCount
    f).pwr = s.pwr ∧ (s.updCmdCount f).snaps = s.snaps ∧ (s.updCmdCount f).ports = s.ports ∧ (s.updCmdCount f).chips =
    s.chips :=
  ⟨rfl, rfl, rfl, rfl, rfl, rfl, rfl, rfl, rfl, rfl, rfl, rfl, rfl, rfl, rfl, rfl, rfl, rfl, rfl, rfl, rfl, rfl, rfl⟩

/-- What changing `xtr` leaves and changes. -/
@[simp] theorem State.updXtr_fields (s : State) (f) :
    (s.updXtr f).pending = s.pending ∧ (s.updXtr f).out = s.out ∧ (s.updXtr f).free = s.free ∧ (s.updXtr f).zreg =
    s.zreg ∧ (s.updXtr f).mirror = s.mirror ∧ (s.updXtr f).time = s.time ∧ (s.updXtr f).run = s.run ∧ (s.updXtr f).ring
    = s.ring ∧ (s.updXtr f).buf = s.buf ∧ (s.updXtr f).ev = s.ev ∧ (s.updXtr f).host = s.host ∧ (s.updXtr f).lanes =
    s.lanes ∧ (s.updXtr f).cmds = s.cmds ∧ (s.updXtr f).cmdCount = s.cmdCount ∧ (s.updXtr f).xtr = f s.xtr ∧ (s.updXtr
    f).engines = s.engines ∧ (s.updXtr f).shm = s.shm ∧ (s.updXtr f).gcls = s.gcls ∧ (s.updXtr f).mon = s.mon ∧
    (s.updXtr f).pwr = s.pwr ∧ (s.updXtr f).snaps = s.snaps ∧ (s.updXtr f).ports = s.ports ∧ (s.updXtr f).chips =
    s.chips :=
  ⟨rfl, rfl, rfl, rfl, rfl, rfl, rfl, rfl, rfl, rfl, rfl, rfl, rfl, rfl, rfl, rfl, rfl, rfl, rfl, rfl, rfl, rfl, rfl⟩

/-- What changing `engines` leaves and changes. -/
@[simp] theorem State.updEngines_fields (s : State) (f) :
    (s.updEngines f).pending = s.pending ∧ (s.updEngines f).out = s.out ∧ (s.updEngines f).free = s.free ∧ (s.updEngines
    f).zreg = s.zreg ∧ (s.updEngines f).mirror = s.mirror ∧ (s.updEngines f).time = s.time ∧ (s.updEngines f).run =
    s.run ∧ (s.updEngines f).ring = s.ring ∧ (s.updEngines f).buf = s.buf ∧ (s.updEngines f).ev = s.ev ∧ (s.updEngines
    f).host = s.host ∧ (s.updEngines f).lanes = s.lanes ∧ (s.updEngines f).cmds = s.cmds ∧ (s.updEngines f).cmdCount =
    s.cmdCount ∧ (s.updEngines f).xtr = s.xtr ∧ (s.updEngines f).engines = f s.engines ∧ (s.updEngines f).shm = s.shm ∧
    (s.updEngines f).gcls = s.gcls ∧ (s.updEngines f).mon = s.mon ∧ (s.updEngines f).pwr = s.pwr ∧ (s.updEngines
    f).snaps = s.snaps ∧ (s.updEngines f).ports = s.ports ∧ (s.updEngines f).chips = s.chips :=
  ⟨rfl, rfl, rfl, rfl, rfl, rfl, rfl, rfl, rfl, rfl, rfl, rfl, rfl, rfl, rfl, rfl, rfl, rfl, rfl, rfl, rfl, rfl, rfl⟩

/-- What changing `shm` leaves and changes. -/
@[simp] theorem State.updShm_fields (s : State) (f) :
    (s.updShm f).pending = s.pending ∧ (s.updShm f).out = s.out ∧ (s.updShm f).free = s.free ∧ (s.updShm f).zreg =
    s.zreg ∧ (s.updShm f).mirror = s.mirror ∧ (s.updShm f).time = s.time ∧ (s.updShm f).run = s.run ∧ (s.updShm f).ring
    = s.ring ∧ (s.updShm f).buf = s.buf ∧ (s.updShm f).ev = s.ev ∧ (s.updShm f).host = s.host ∧ (s.updShm f).lanes =
    s.lanes ∧ (s.updShm f).cmds = s.cmds ∧ (s.updShm f).cmdCount = s.cmdCount ∧ (s.updShm f).xtr = s.xtr ∧ (s.updShm
    f).engines = s.engines ∧ (s.updShm f).shm = f s.shm ∧ (s.updShm f).gcls = s.gcls ∧ (s.updShm f).mon = s.mon ∧
    (s.updShm f).pwr = s.pwr ∧ (s.updShm f).snaps = s.snaps ∧ (s.updShm f).ports = s.ports ∧ (s.updShm f).chips =
    s.chips :=
  ⟨rfl, rfl, rfl, rfl, rfl, rfl, rfl, rfl, rfl, rfl, rfl, rfl, rfl, rfl, rfl, rfl, rfl, rfl, rfl, rfl, rfl, rfl, rfl⟩

/-- What changing `gcls` leaves and changes. -/
@[simp] theorem State.updGcls_fields (s : State) (f) :
    (s.updGcls f).pending = s.pending ∧ (s.updGcls f).out = s.out ∧ (s.updGcls f).free = s.free ∧ (s.updGcls f).zreg =
    s.zreg ∧ (s.updGcls f).mirror = s.mirror ∧ (s.updGcls f).time = s.time ∧ (s.updGcls f).run = s.run ∧ (s.updGcls
    f).ring = s.ring ∧ (s.updGcls f).buf = s.buf ∧ (s.updGcls f).ev = s.ev ∧ (s.updGcls f).host = s.host ∧ (s.updGcls
    f).lanes = s.lanes ∧ (s.updGcls f).cmds = s.cmds ∧ (s.updGcls f).cmdCount = s.cmdCount ∧ (s.updGcls f).xtr = s.xtr ∧
    (s.updGcls f).engines = s.engines ∧ (s.updGcls f).shm = s.shm ∧ (s.updGcls f).gcls = f s.gcls ∧ (s.updGcls f).mon =
    s.mon ∧ (s.updGcls f).pwr = s.pwr ∧ (s.updGcls f).snaps = s.snaps ∧ (s.updGcls f).ports = s.ports ∧ (s.updGcls
    f).chips = s.chips :=
  ⟨rfl, rfl, rfl, rfl, rfl, rfl, rfl, rfl, rfl, rfl, rfl, rfl, rfl, rfl, rfl, rfl, rfl, rfl, rfl, rfl, rfl, rfl, rfl⟩

/-- What changing `mon` leaves and changes. -/
@[simp] theorem State.updMon_fields (s : State) (f) :
    (s.updMon f).pending = s.pending ∧ (s.updMon f).out = s.out ∧ (s.updMon f).free = s.free ∧ (s.updMon f).zreg =
    s.zreg ∧ (s.updMon f).mirror = s.mirror ∧ (s.updMon f).time = s.time ∧ (s.updMon f).run = s.run ∧ (s.updMon f).ring
    = s.ring ∧ (s.updMon f).buf = s.buf ∧ (s.updMon f).ev = s.ev ∧ (s.updMon f).host = s.host ∧ (s.updMon f).lanes =
    s.lanes ∧ (s.updMon f).cmds = s.cmds ∧ (s.updMon f).cmdCount = s.cmdCount ∧ (s.updMon f).xtr = s.xtr ∧ (s.updMon
    f).engines = s.engines ∧ (s.updMon f).shm = s.shm ∧ (s.updMon f).gcls = s.gcls ∧ (s.updMon f).mon = f s.mon ∧
    (s.updMon f).pwr = s.pwr ∧ (s.updMon f).snaps = s.snaps ∧ (s.updMon f).ports = s.ports ∧ (s.updMon f).chips =
    s.chips :=
  ⟨rfl, rfl, rfl, rfl, rfl, rfl, rfl, rfl, rfl, rfl, rfl, rfl, rfl, rfl, rfl, rfl, rfl, rfl, rfl, rfl, rfl, rfl, rfl⟩

/-- What changing `pwr` leaves and changes. -/
@[simp] theorem State.updPwr_fields (s : State) (f) :
    (s.updPwr f).pending = s.pending ∧ (s.updPwr f).out = s.out ∧ (s.updPwr f).free = s.free ∧ (s.updPwr f).zreg =
    s.zreg ∧ (s.updPwr f).mirror = s.mirror ∧ (s.updPwr f).time = s.time ∧ (s.updPwr f).run = s.run ∧ (s.updPwr f).ring
    = s.ring ∧ (s.updPwr f).buf = s.buf ∧ (s.updPwr f).ev = s.ev ∧ (s.updPwr f).host = s.host ∧ (s.updPwr f).lanes =
    s.lanes ∧ (s.updPwr f).cmds = s.cmds ∧ (s.updPwr f).cmdCount = s.cmdCount ∧ (s.updPwr f).xtr = s.xtr ∧ (s.updPwr
    f).engines = s.engines ∧ (s.updPwr f).shm = s.shm ∧ (s.updPwr f).gcls = s.gcls ∧ (s.updPwr f).mon = s.mon ∧
    (s.updPwr f).pwr = f s.pwr ∧ (s.updPwr f).snaps = s.snaps ∧ (s.updPwr f).ports = s.ports ∧ (s.updPwr f).chips =
    s.chips :=
  ⟨rfl, rfl, rfl, rfl, rfl, rfl, rfl, rfl, rfl, rfl, rfl, rfl, rfl, rfl, rfl, rfl, rfl, rfl, rfl, rfl, rfl, rfl, rfl⟩

/-- What changing `snaps` leaves and changes. -/
@[simp] theorem State.updSnaps_fields (s : State) (f) :
    (s.updSnaps f).pending = s.pending ∧ (s.updSnaps f).out = s.out ∧ (s.updSnaps f).free = s.free ∧ (s.updSnaps f).zreg
    = s.zreg ∧ (s.updSnaps f).mirror = s.mirror ∧ (s.updSnaps f).time = s.time ∧ (s.updSnaps f).run = s.run ∧
    (s.updSnaps f).ring = s.ring ∧ (s.updSnaps f).buf = s.buf ∧ (s.updSnaps f).ev = s.ev ∧ (s.updSnaps f).host = s.host
    ∧ (s.updSnaps f).lanes = s.lanes ∧ (s.updSnaps f).cmds = s.cmds ∧ (s.updSnaps f).cmdCount = s.cmdCount ∧ (s.updSnaps
    f).xtr = s.xtr ∧ (s.updSnaps f).engines = s.engines ∧ (s.updSnaps f).shm = s.shm ∧ (s.updSnaps f).gcls = s.gcls ∧
    (s.updSnaps f).mon = s.mon ∧ (s.updSnaps f).pwr = s.pwr ∧ (s.updSnaps f).snaps = f s.snaps ∧ (s.updSnaps f).ports =
    s.ports ∧ (s.updSnaps f).chips = s.chips :=
  ⟨rfl, rfl, rfl, rfl, rfl, rfl, rfl, rfl, rfl, rfl, rfl, rfl, rfl, rfl, rfl, rfl, rfl, rfl, rfl, rfl, rfl, rfl, rfl⟩

/-- What changing `ports` leaves and changes. -/
@[simp] theorem State.updPorts_fields (s : State) (f) :
    (s.updPorts f).pending = s.pending ∧ (s.updPorts f).out = s.out ∧ (s.updPorts f).free = s.free ∧ (s.updPorts f).zreg
    = s.zreg ∧ (s.updPorts f).mirror = s.mirror ∧ (s.updPorts f).time = s.time ∧ (s.updPorts f).run = s.run ∧
    (s.updPorts f).ring = s.ring ∧ (s.updPorts f).buf = s.buf ∧ (s.updPorts f).ev = s.ev ∧ (s.updPorts f).host = s.host
    ∧ (s.updPorts f).lanes = s.lanes ∧ (s.updPorts f).cmds = s.cmds ∧ (s.updPorts f).cmdCount = s.cmdCount ∧ (s.updPorts
    f).xtr = s.xtr ∧ (s.updPorts f).engines = s.engines ∧ (s.updPorts f).shm = s.shm ∧ (s.updPorts f).gcls = s.gcls ∧
    (s.updPorts f).mon = s.mon ∧ (s.updPorts f).pwr = s.pwr ∧ (s.updPorts f).snaps = s.snaps ∧ (s.updPorts f).ports = f
    s.ports ∧ (s.updPorts f).chips = s.chips :=
  ⟨rfl, rfl, rfl, rfl, rfl, rfl, rfl, rfl, rfl, rfl, rfl, rfl, rfl, rfl, rfl, rfl, rfl, rfl, rfl, rfl, rfl, rfl, rfl⟩

/-- What changing `chips` leaves and changes. -/
@[simp] theorem State.updChips_fields (s : State) (f) :
    (s.updChips f).pending = s.pending ∧ (s.updChips f).out = s.out ∧ (s.updChips f).free = s.free ∧ (s.updChips f).zreg
    = s.zreg ∧ (s.updChips f).mirror = s.mirror ∧ (s.updChips f).time = s.time ∧ (s.updChips f).run = s.run ∧
    (s.updChips f).ring = s.ring ∧ (s.updChips f).buf = s.buf ∧ (s.updChips f).ev = s.ev ∧ (s.updChips f).host = s.host
    ∧ (s.updChips f).lanes = s.lanes ∧ (s.updChips f).cmds = s.cmds ∧ (s.updChips f).cmdCount = s.cmdCount ∧ (s.updChips
    f).xtr = s.xtr ∧ (s.updChips f).engines = s.engines ∧ (s.updChips f).shm = s.shm ∧ (s.updChips f).gcls = s.gcls ∧
    (s.updChips f).mon = s.mon ∧ (s.updChips f).pwr = s.pwr ∧ (s.updChips f).snaps = s.snaps ∧ (s.updChips f).ports =
    s.ports ∧ (s.updChips f).chips = f s.chips :=
  ⟨rfl, rfl, rfl, rfl, rfl, rfl, rfl, rfl, rfl, rfl, rfl, rfl, rfl, rfl, rfl, rfl, rfl, rfl, rfl, rfl, rfl, rfl, rfl⟩

/-! ### Register fields -/

@[simp] theorem State.zget_updOut (s : State) (f) (g : Field) : (s.updOut f).zget g = s.zget g := Eq.trans rfl rfl
@[simp] theorem State.zget_updFree (s : State) (f) (g : Field) : (s.updFree f).zget g = s.zget g := Eq.trans rfl rfl
@[simp] theorem State.zget_updMirror (s : State) (f) (g : Field) : (s.updMirror f).zget g = s.zget g := Eq.trans rfl rfl
@[simp] theorem State.zget_updTime (s : State) (f) (g : Field) : (s.updTime f).zget g = s.zget g := Eq.trans rfl rfl
@[simp] theorem State.zget_updRun (s : State) (f) (g : Field) : (s.updRun f).zget g = s.zget g := Eq.trans rfl rfl
@[simp] theorem State.zget_updRing (s : State) (f) (g : Field) : (s.updRing f).zget g = s.zget g := Eq.trans rfl rfl
@[simp] theorem State.zget_updBuf (s : State) (f) (g : Field) : (s.updBuf f).zget g = s.zget g := Eq.trans rfl rfl
@[simp] theorem State.zget_updEv (s : State) (f) (g : Field) : (s.updEv f).zget g = s.zget g := Eq.trans rfl rfl
@[simp] theorem State.zget_updHost (s : State) (f) (g : Field) : (s.updHost f).zget g = s.zget g := Eq.trans rfl rfl
@[simp] theorem State.zget_updLanes (s : State) (f) (g : Field) : (s.updLanes f).zget g = s.zget g := Eq.trans rfl rfl
@[simp] theorem State.zget_updCmds (s : State) (f) (g : Field) : (s.updCmds f).zget g = s.zget g := Eq.trans rfl rfl
@[simp] theorem State.zget_updCmdCount (s : State) (f) (g : Field) : (s.updCmdCount f).zget g = s.zget g := Eq.trans rfl rfl
@[simp] theorem State.zget_updXtr (s : State) (f) (g : Field) : (s.updXtr f).zget g = s.zget g := Eq.trans rfl rfl
@[simp] theorem State.zget_updEngines (s : State) (f) (g : Field) : (s.updEngines f).zget g = s.zget g := Eq.trans rfl rfl
@[simp] theorem State.zget_updShm (s : State) (f) (g : Field) : (s.updShm f).zget g = s.zget g := Eq.trans rfl rfl
@[simp] theorem State.zget_updGcls (s : State) (f) (g : Field) : (s.updGcls f).zget g = s.zget g := Eq.trans rfl rfl
@[simp] theorem State.zget_updMon (s : State) (f) (g : Field) : (s.updMon f).zget g = s.zget g := Eq.trans rfl rfl
@[simp] theorem State.zget_updPwr (s : State) (f) (g : Field) : (s.updPwr f).zget g = s.zget g := Eq.trans rfl rfl
@[simp] theorem State.zget_updSnaps (s : State) (f) (g : Field) : (s.updSnaps f).zget g = s.zget g := Eq.trans rfl rfl
@[simp] theorem State.zget_updPorts (s : State) (f) (g : Field) : (s.updPorts f).zget g = s.zget g := Eq.trans rfl rfl
@[simp] theorem State.zget_updChips (s : State) (f) (g : Field) : (s.updChips f).zget g = s.zget g := Eq.trans rfl rfl

@[simp] theorem State.zput_fields (s : State) (f : Field) (v : Nat) :
    (s.zput f v).pending = s.pending ∧ (s.zput f v).out = s.out ∧ (s.zput f v).free = s.free ∧ (s.zput f v).mirror =
    s.mirror ∧ (s.zput f v).time = s.time ∧ (s.zput f v).run = s.run ∧ (s.zput f v).ring = s.ring ∧ (s.zput f v).buf =
    s.buf ∧ (s.zput f v).ev = s.ev ∧ (s.zput f v).host = s.host ∧ (s.zput f v).lanes = s.lanes ∧ (s.zput f v).cmds =
    s.cmds ∧ (s.zput f v).cmdCount = s.cmdCount ∧ (s.zput f v).xtr = s.xtr ∧ (s.zput f v).engines = s.engines ∧ (s.zput
    f v).shm = s.shm ∧ (s.zput f v).gcls = s.gcls ∧ (s.zput f v).mon = s.mon ∧ (s.zput f v).pwr = s.pwr ∧ (s.zput f
    v).snaps = s.snaps ∧ (s.zput f v).ports = s.ports ∧ (s.zput f v).chips = s.chips :=
  ⟨rfl, rfl, rfl, rfl, rfl, rfl, rfl, rfl, rfl, rfl, rfl, rfl, rfl, rfl, rfl, rfl, rfl, rfl, rfl, rfl, rfl, rfl⟩

@[simp] theorem State.zbump_fields (s : State) (f : Field) (n : Nat) :
    (s.zbump f n).pending = s.pending ∧ (s.zbump f n).out = s.out ∧ (s.zbump f n).free = s.free ∧ (s.zbump f n).mirror =
    s.mirror ∧ (s.zbump f n).time = s.time ∧ (s.zbump f n).run = s.run ∧ (s.zbump f n).ring = s.ring ∧ (s.zbump f n).buf
    = s.buf ∧ (s.zbump f n).ev = s.ev ∧ (s.zbump f n).host = s.host ∧ (s.zbump f n).lanes = s.lanes ∧ (s.zbump f n).cmds
    = s.cmds ∧ (s.zbump f n).cmdCount = s.cmdCount ∧ (s.zbump f n).xtr = s.xtr ∧ (s.zbump f n).engines = s.engines ∧
    (s.zbump f n).shm = s.shm ∧ (s.zbump f n).gcls = s.gcls ∧ (s.zbump f n).mon = s.mon ∧ (s.zbump f n).pwr = s.pwr ∧
    (s.zbump f n).snaps = s.snaps ∧ (s.zbump f n).ports = s.ports ∧ (s.zbump f n).chips = s.chips :=
  ⟨rfl, rfl, rfl, rfl, rfl, rfl, rfl, rfl, rfl, rfl, rfl, rfl, rfl, rfl, rfl, rfl, rfl, rfl, rfl, rfl, rfl, rfl⟩

@[simp] theorem State.zwrap_fields (s : State) (f : Field) (n : Nat) :
    (s.zwrap f n).pending = s.pending ∧ (s.zwrap f n).out = s.out ∧ (s.zwrap f n).free = s.free ∧ (s.zwrap f n).mirror =
    s.mirror ∧ (s.zwrap f n).time = s.time ∧ (s.zwrap f n).run = s.run ∧ (s.zwrap f n).ring = s.ring ∧ (s.zwrap f n).buf
    = s.buf ∧ (s.zwrap f n).ev = s.ev ∧ (s.zwrap f n).host = s.host ∧ (s.zwrap f n).lanes = s.lanes ∧ (s.zwrap f n).cmds
    = s.cmds ∧ (s.zwrap f n).cmdCount = s.cmdCount ∧ (s.zwrap f n).xtr = s.xtr ∧ (s.zwrap f n).engines = s.engines ∧
    (s.zwrap f n).shm = s.shm ∧ (s.zwrap f n).gcls = s.gcls ∧ (s.zwrap f n).mon = s.mon ∧ (s.zwrap f n).pwr = s.pwr ∧
    (s.zwrap f n).snaps = s.snaps ∧ (s.zwrap f n).ports = s.ports ∧ (s.zwrap f n).chips = s.chips :=
  ⟨rfl, rfl, rfl, rfl, rfl, rfl, rfl, rfl, rfl, rfl, rfl, rfl, rfl, rfl, rfl, rfl, rfl, rfl, rfl, rfl, rfl, rfl⟩

@[simp] theorem State.zput_zreg (s : State) (f : Field) (v : Nat) : (s.zput f v).zreg = fset s.zreg f v := rfl
@[simp] theorem State.zbump_zreg (s : State) (f : Field) (n : Nat) : (s.zbump f n).zreg = fadd s.zreg f n := rfl
@[simp] theorem State.zwrap_zreg (s : State) (f : Field) (n : Nat) : (s.zwrap f n).zreg = fwrap s.zreg f n := rfl

@[simp] theorem State.zget_zput (s : State) (f : Field) (v : Nat) : (s.zput f v).zget f = v % 2 ^ f.wid := fget_fset_same _ _ _
theorem State.zget_zput_ne (s : State) {f g : Field} (v : Nat) (h : g.key ≠ f.key) : (s.zput f v).zget g = s.zget g :=
  fget_fset_ne _ _ h
@[simp] theorem State.zget_zbump (s : State) (f : Field) (n : Nat) : (s.zbump f n).zget f = sat f.wid (s.zget f + n) :=
  fget_fadd_same _ _ _
theorem State.zget_zbump_ne (s : State) {f g : Field} (n : Nat) (h : g.key ≠ f.key) : (s.zbump f n).zget g = s.zget g :=
  fget_fadd_ne _ _ h
@[simp] theorem State.zget_zwrap (s : State) (f : Field) (n : Nat) : (s.zwrap f n).zget f = (s.zget f + n) % 2 ^ f.wid :=
  fget_fwrap_same _ _ _
theorem State.zget_zwrap_ne (s : State) {f g : Field} (n : Nat) (h : g.key ≠ f.key) : (s.zwrap f n).zget g = s.zget g :=
  fget_fwrap_ne _ _ h

/-! ### Elements of fixed-size collections -/

theorem vupd_get {α : Type} {n : Nat} (v : Vector α n) (i j : Fin n) (f : α → α) :
    (vupd v i f)[j.val] = if j = i then f v[i.val] else v[j.val] := by
  simp only [vupd, Vector.getElem_set]
  by_cases h : i.val = j.val
  · simp [Fin.ext h]
  · simp [h, Fin.ext_iff, Ne.symm h]

theorem State.chip_updChip (s : State) (p q : Port) (f : Pelnos → Pelnos) :
    (s.updChip p f).chip q = if q = p then f (s.chip p) else s.chip q := vupd_get _ _ _ _
@[simp] theorem State.chip_updChip_same (s : State) (p : Port) (f : Pelnos → Pelnos) : (s.updChip p f).chip p = f (s.chip p) := by
  simp [State.chip_updChip]
theorem State.port_updPort (s : State) (p q : Port) (f : PortIn → PortIn) :
    (s.updPort p f).port q = if q = p then f (s.port p) else s.port q := vupd_get _ _ _ _
@[simp] theorem State.port_updPort_same (s : State) (p : Port) (f : PortIn → PortIn) : (s.updPort p f).port p = f (s.port p) := by
  simp [State.port_updPort]

end Sys2Proof.Machine
end

