-- ==== Sys2Proof/Laws/Kept.lean ====
section
/-!
SUPPORT. What every operation keeps of the queue of commands and of the memories: `State.kept` collects them, and for each operation that
touches none of them one lemma says so.
-/

namespace Sys2Proof.Machine

set_option linter.unusedTactic false
set_option linter.unreachableTactic false

/-- The queue, the engines with their memories, and the other memories of the block. -/
structure Kept where
  pending : List Instr
  engines : Tab Engine
  shm : Tab Byte
  mem : Tab Byte
  sram : Tab Byte

def State.kept (s : State) : Kept := ⟨s.pending, s.engines, s.shm, s.buf.mem, s.mon.sram⟩

@[simp] theorem foldl_kept {α : Type} (l : List α) (g : State → α → State) (s : State) (h : ∀ s a, (g s a).kept = s.kept) :
    (l.foldl g s).kept = s.kept := by
  induction l generalizing s with
  | nil => rfl
  | cons a t ih => simp [ih, h]

theorem foldl_snd_kept {α β : Type} (l : List α) (g : β × State → α → β × State) (a : β × State)
    (h : ∀ a x, (g a x).2.kept = a.2.kept) : (l.foldl g a).2.kept = a.2.kept := by
  induction l generalizing a with
  | nil => rfl
  | cons x l ih => exact (ih _).trans (h _ _)

@[simp] theorem if_kept (c : Prop) [Decidable c] (s t : State) :
    (if c then s else t).kept = if c then s.kept else t.kept := by split <;> rfl

@[simp] theorem updBuf_kept (s : State) (f : Buffer → Buffer) (h : (f s.buf).mem = s.buf.mem) : (s.updBuf f).kept = s.kept := by
  simp [State.kept, h]

@[simp] theorem updMon_kept (s : State) (f : MonSt → MonSt) (h : (f s.mon).sram = s.mon.sram) : (s.updMon f).kept = s.kept := by
  simp [State.kept, h]


/-- The invariant of the block, of what is kept. -/
def Kept.ok (k : Kept) : Prop :=
  (∀ e, (Tab.get {} k.engines e).ok) ∧ Tab.wf 0 k.mem = true ∧ Tab.wf 0 k.sram = true ∧ Tab.wf 0 k.shm = true

theorem State.ok_iff (s : State) : s.ok ↔ s.kept.ok := by
  simp [State.ok, Kept.ok, Memory.wf, State.kept, State.eng, and_assoc]

@[simp] theorem ite_pending (c : Prop) [Decidable c] (k l : Kept) :
    (if c then k else l).pending = if c then k.pending else l.pending := by split <;> rfl

@[simp] theorem foldl_pend {α : Type} (l : List α) (g : State → α → State) (s : State)
    (h : ∀ s a, (g s a).kept.pending = s.kept.pending) : (l.foldl g s).kept.pending = s.kept.pending := by
  induction l generalizing s with
  | nil => rfl
  | cons a t ih => simp [ih, h]

theorem foldl_ok {α : Type} (l : List α) (g : State → α → State) (s : State) (h : s.kept.ok)
    (hg : ∀ s a, s.kept.ok → (g s a).kept.ok) : (l.foldl g s).kept.ok := by
  induction l generalizing s with
  | nil => exact h
  | cons a t ih => exact ih _ (hg _ _ h)

@[simp] theorem updEngines_pend (s : State) (f) : (s.updEngines f).kept.pending = s.kept.pending := rfl
@[simp] theorem updShm_pend (s : State) (f) : (s.updShm f).kept.pending = s.kept.pending := rfl
@[simp] theorem updEng_pend (s : State) (e : Nat) (f) : (s.updEng e f).kept.pending = s.kept.pending := rfl
@[simp] theorem updBuf_pend (s : State) (f) : (s.updBuf f).kept.pending = s.kept.pending := rfl
@[simp] theorem updMon_pend (s : State) (f) : (s.updMon f).kept.pending = s.kept.pending := rfl

theorem updEng_ok (s : State) (e : Nat) (f : Engine → Engine) (h : s.kept.ok) (hf : ∀ x : Engine, x.ok → (f x).ok) :
    (s.updEng e f).kept.ok := by
  refine ⟨fun i => ?_, h.2⟩
  change (Tab.get {} (Tab.upd {} s.engines e f) i).ok
  rw [Tab.get_upd]
  split
  · exact hf _ (h.1 e)
  · exact h.1 i

theorem updShm_ok (s : State) (f : Tab Byte → Tab Byte) (h : s.kept.ok) (hf : ∀ t, Tab.wf 0 t = true → Tab.wf 0 (f t) = true) :
    (s.updShm f).kept.ok := ⟨h.1, h.2.1, h.2.2.1, hf _ h.2.2.2⟩

theorem updBuf_ok (s : State) (f : Buffer → Buffer) (h : s.kept.ok)
    (hf : Tab.wf 0 s.buf.mem = true → Tab.wf 0 (f s.buf).mem = true) : (s.updBuf f).kept.ok := ⟨h.1, hf h.2.1, h.2.2⟩

theorem updMon_ok (s : State) (f : MonSt → MonSt) (h : s.kept.ok)
    (hf : Tab.wf 0 s.mon.sram = true → Tab.wf 0 (f s.mon).sram = true) : (s.updMon f).kept.ok := ⟨h.1, h.2.1, hf h.2.2.1, h.2.2.2⟩

@[simp] theorem updOut_kept (s : State) (a1 : List Out → List Out) : ((State.updOut s a1)).kept = s.kept := by
  rfl

@[simp] theorem updFree_kept (s : State) (a1 : ℕ → ℕ) : ((State.updFree s a1)).kept = s.kept := by
  rfl

@[simp] theorem updZreg_kept (s : State) (a1 : Tab ℕ → Tab ℕ) : ((State.updZreg s a1)).kept = s.kept := by
  rfl

@[simp] theorem updMirror_kept (s : State) (a1 : Tab ℕ → Tab ℕ) : ((State.updMirror s a1)).kept = s.kept := by
  rfl

@[simp] theorem updTime_kept (s : State) (a1 : ℕ → ℕ) : ((State.updTime s a1)).kept = s.kept := by
  rfl

@[simp] theorem updRun_kept (s : State) (a1 : RunSt → RunSt) : ((State.updRun s a1)).kept = s.kept := by
  rfl

@[simp] theorem updRing_kept (s : State) (a1 : RingSt → RingSt) : ((State.updRing s a1)).kept = s.kept := by
  rfl

@[simp] theorem updEv_kept (s : State) (a1 : EventUnit → EventUnit) : ((State.updEv s a1)).kept = s.kept := by
  rfl

@[simp] theorem updHost_kept (s : State) (a1 : HostIf → HostIf) : ((State.updHost s a1)).kept = s.kept := by
  rfl

@[simp] theorem updLanes_kept (s : State) (a1 : Tab Lane → Tab Lane) : ((State.updLanes s a1)).kept = s.kept := by
  rfl

@[simp] theorem updCmds_kept (s : State) (a1 : List Cmd → List Cmd) : ((State.updCmds s a1)).kept = s.kept := by
  rfl

@[simp] theorem updCmdCount_kept (s : State) (a1 : ℕ → ℕ) : ((State.updCmdCount s a1)).kept = s.kept := by
  rfl

@[simp] theorem updXtr_kept (s : State) (a1 : Extract → Extract) : ((State.updXtr s a1)).kept = s.kept := by
  rfl

@[simp] theorem updGcls_kept (s : State) (a1 : Tab GclSt → Tab GclSt) : ((State.updGcls s a1)).kept = s.kept := by
  rfl

@[simp] theorem updPwr_kept (s : State) (a1 : PwrSt → PwrSt) : ((State.updPwr s a1)).kept = s.kept := by
  rfl

@[simp] theorem updSnaps_kept (s : State) (a1 : List Snap → List Snap) : ((State.updSnaps s a1)).kept = s.kept := by
  rfl

@[simp] theorem updPorts_kept (s : State) (a1 : Vector PortIn 16 → Vector PortIn 16) :
    ((State.updPorts s a1)).kept = s.kept := by
  rfl

@[simp] theorem updChips_kept (s : State) (a1 : Vector Pelnos 16 → Vector Pelnos 16) :
    ((State.updChips s a1)).kept = s.kept := by
  rfl

@[simp] theorem updChip_kept (s : State) (a1 : Port) (a2 : Pelnos → Pelnos) : ((State.updChip s a1 a2)).kept = s.kept := by
  rfl

@[simp] theorem updPort_kept (s : State) (a1 : Port) (a2 : PortIn → PortIn) : ((State.updPort s a1 a2)).kept = s.kept := by
  rfl

@[simp] theorem emit_kept (s : State) (a1 : Out) : ((State.emit s a1)).kept = s.kept := by
  simp [State.emit]

@[simp] theorem draw_kept (s : State) : ((State.draw s).2).kept = s.kept := by
  simp [State.draw]

@[simp] theorem zput_kept (s : State) (a1 : Field) (a2 : ℕ) : ((State.zput s a1 a2)).kept = s.kept := by
  simp [State.zput]

@[simp] theorem zbump_kept (s : State) (a1 : Field) (a2 : ℕ) : ((State.zbump s a1 a2)).kept = s.kept := by
  simp [State.zbump]

@[simp] theorem zwrap_kept (s : State) (a1 : Field) (a2 : ℕ) : ((State.zwrap s a1 a2)).kept = s.kept := by
  simp [State.zwrap]

@[simp] theorem message_kept (s : State) (a1 : ℕ) : ((State.message s a1)).kept = s.kept := by
  simp [State.message]

@[simp] theorem messages_kept (s : State) (a1 : List ℕ) : ((State.messages s a1)).kept = s.kept := by
  simp [State.messages]

@[simp] theorem raiseSev_kept (s : State) (a1 : ℕ) (a2 : ℕ) (a3 : List Byte) :
    ((State.raiseSev s a1 a2 a3)).kept = s.kept := by
  simp [State.raiseSev]

@[simp] theorem raise_kept (s : State) (a1 : ℕ) (a2 : List Byte) : ((State.raise s a1 a2)).kept = s.kept := by
  simp [State.raise]

@[simp] theorem raisePort_kept (s : State) (a1 : Port) (a2 : ℕ) (a3 : List Byte) :
    ((State.raisePort s a1 a2 a3)).kept = s.kept := by
  simp [State.raisePort]

@[simp] theorem raiseStack_kept (s : State) (a1 : ℕ) (a2 : ℕ) (a3 : List Byte) :
    ((State.raiseStack s a1 a2 a3)).kept = s.kept := by
  simp [State.raiseStack]

@[simp] theorem shadow_kept (s : State) : ((State.shadow s)).kept = s.kept := by
  simp [State.shadow]

@[simp] theorem ringPut_kept (s : State) (a1 : ℕ) (a2 : List Byte) : ((State.ringPut s a1 a2)).kept = s.kept := by
  simp [State.ringPut]

@[simp] theorem clearSince_kept (s : State) (a1 : ℕ) : ((State.clearSince s a1)).kept = s.kept := by
  simp [State.clearSince]

@[simp] theorem cmplPut_kept (s : State) (a1 : List Byte) : ((State.cmplPut s a1)).kept = s.kept := by
  simp [State.cmplPut]

@[simp] theorem badAccess_kept (s : State) (a1 : ℕ) (a2 : ℕ) (a3 : Bool) (a4 : Bool) (a5 : ℕ) :
    ((State.badAccess s a1 a2 a3 a4 a5)).kept = s.kept := by
  simp [State.badAccess]

@[simp] theorem bar0_kept (s : State) (a2 : State → State) (h2 : ∀ s, (a2 s).kept = s.kept) :
    ((State.bar0 s a2)).kept = s.kept := by
  unfold State.bar0
  try dsimp only
  repeat' first | (simp [*]; done) | split | (with_reducible refine (foldl_kept _ _ _ ?_).trans ?_) | intro _ | simp

@[simp] theorem ringErr_kept (s : State) (a1 : ℕ) (a2 : ℕ) (a3 : ℕ) : ((State.ringErr s a1 a2 a3)).kept = s.kept := by
  simp [State.ringErr]

@[simp] theorem aer_kept (s : State) (a1 : ℕ) (a2 : ℕ) (a3 : ℕ) : ((State.aer s a1 a2 a3)).kept = s.kept := by
  simp [State.aer]

@[simp] theorem dlLeaveQuiet_kept (s : State) (a1 : Port) : ((State.dlLeaveQuiet s a1)).kept = s.kept := by
  simp [State.dlLeaveQuiet]

@[simp] theorem dlBlock_kept (s : State) (a1 : Port) (a2 : BlkKind) (a3 : List Byte) :
    ((State.dlBlock s a1 a2 a3)).kept = s.kept := by
  simp [State.dlBlock]

@[simp] theorem dlPump_kept (s : State) (a1 : Port) (a2 : ℕ) : ((State.dlPump s a1 a2)).kept = s.kept := by
  induction a2 generalizing s with
  | zero => rfl
  | succ n ih =>
    unfold State.dlPump
    repeat' first | (simp [ih]; done) | split

@[simp] theorem dlSend_kept (s : State) (a1 : Port) (a2 : List DlItem) : ((State.dlSend s a1 a2)).kept = s.kept := by
  simp [State.dlSend]

@[simp] theorem writeMask_kept (s : State) (a1 : Port) (a2 : ℕ) : ((State.writeMask s a1 a2)).kept = s.kept := by
  simp [State.writeMask]

@[simp] theorem updCmd_kept (s : State) (a1 : ℕ) (a2 : Cmd → Cmd) : ((State.updCmd s a1 a2)).kept = s.kept := by
  rfl

@[simp] theorem failTraffic_kept (s : State) (a1 : Port) : ((State.failTraffic s a1)).kept = s.kept := by
  simp [State.failTraffic]

@[simp] theorem updLane_kept (s : State) (a1 : Link) (a2 : Lane → Lane) : ((State.updLane s a1 a2)).kept = s.kept := by
  rfl

@[simp] theorem ringLink_kept (s : State) (a1 : Side) (a2 : ℕ) (a3 : ℕ) : ((State.ringLink s a1 a2 a3)).kept = s.kept := by
  simp [State.ringLink]

@[simp] theorem ringMoved_kept (s : State) (a1 : Side) (a2 : Bool) (a3 : Bool) :
    ((State.ringMoved s a1 a2 a3)).kept = s.kept := by
  simp [State.ringMoved]

@[simp] theorem setLst_kept (s : State) (a1 : Link) (a2 : ℕ) : ((State.setLst s a1 a2)).kept = s.kept := by
  unfold State.setLst
  (repeat' split) <;> simp

@[simp] theorem enterDetect_kept (s : State) (a1 : Link) : ((State.enterDetect s a1)).kept = s.kept := by
  simp [State.enterDetect]

@[simp] theorem enterTrain_kept (s : State) (a1 : Link) : ((State.enterTrain s a1)).kept = s.kept := by
  simp [State.enterTrain]

@[simp] theorem enterLock_kept (s : State) (a1 : Link) : ((State.enterLock s a1)).kept = s.kept := by
  simp [State.enterLock]

@[simp] theorem freshLane_kept (s : State) (a1 : Link) : ((State.freshLane s a1)).kept = s.kept := by
  simp [State.freshLane]

@[simp] theorem mergeDown_kept (s : State) (a1 : Port) : ((State.mergeDown s a1)).kept = s.kept := by
  simp [State.mergeDown]

@[simp] theorem mergeUp_kept (s : State) (a1 : Port) : ((State.mergeUp s a1)).kept = s.kept := by
  simp [State.mergeUp]

@[simp] theorem portLeave_kept (s : State) (a1 : Port) (a2 : ℕ) : ((State.portLeave s a1 a2)).kept = s.kept := by
  simp [State.portLeave]

@[simp] theorem restartPort_kept (s : State) (a1 : Port) : ((State.restartPort s a1)).kept = s.kept := by
  simp [State.restartPort]

@[simp] theorem pllUp_kept (s : State) (a1 : Port) : ((State.pllUp s a1)).kept = s.kept := by
  simp [State.pllUp]

@[simp] theorem laneIn_kept (s : State) (a1 : Port) (a2 : Fin 8) : ((State.laneIn s a1 a2)).kept = s.kept := by
  simp [State.laneIn]

@[simp] theorem laneOut_kept (s : State) (a1 : Port) (a2 : Fin 8) (a3 : ℕ) : ((State.laneOut s a1 a2 a3)).kept = s.kept := by
  simp [State.laneOut]

@[simp] theorem retire_kept (s : State) (a1 : Port) (a2 : Fin 8) : ((State.retire s a1 a2)).kept = s.kept := by
  simp [State.retire]

@[simp] theorem retrainLane_kept (s : State) (a1 : Port) (a2 : Fin 8) (a3 : RetrainCause) (a4 : ℕ) :
    ((State.retrainLane s a1 a2 a3 a4)).kept = s.kept := by
  simp [State.retrainLane]

@[simp] theorem headerMask_kept (s : State) (a1 : Port) (a2 : ℕ) : ((State.headerMask s a1 a2)).kept = s.kept := by
  simp [State.headerMask]

@[simp] theorem failAttempt_kept (s : State) (a1 : Port) (a2 : Fin 8) : ((State.failAttempt s a1 a2)).kept = s.kept := by
  simp [State.failAttempt]

@[simp] theorem countDiscard_kept (s : State) (a1 : Link) : ((State.countDiscard s a1)).kept = s.kept := by
  unfold State.countDiscard
  (repeat' split) <;> simp

@[simp] theorem retrainLink_kept (s : State) (a1 : Link) (a2 : RetrainCause) :
    ((State.retrainLink s a1 a2)).kept = s.kept := by
  unfold State.retrainLink
  (repeat' split) <;> simp

@[simp] theorem limitErrors_kept (s : State) (a1 : Link) : ((State.limitErrors s a1)).kept = s.kept := by
  simp [State.limitErrors]

@[simp] theorem discardBlock_kept (s : State) (a1 : Link) (a2 : RxBlock) : ((State.discardBlock s a1 a2)).kept = s.kept := by
  simp [State.discardBlock]

@[simp] theorem goodBlock_kept (s : State) (a1 : Link) : ((State.goodBlock s a1)).kept = s.kept := by
  simp [State.goodBlock]

@[simp] theorem showPrbs_kept (s : State) (a1 : Link) : ((State.showPrbs s a1)).kept = s.kept := by
  unfold State.showPrbs
  (repeat' split) <;> simp

@[simp] theorem prbsCheck_kept (s : State) (a1 : Link) (a2 : Block) : ((State.prbsCheck s a1 a2)).kept = s.kept := by
  simp [State.prbsCheck]

@[simp] theorem setPrbsLock_kept (s : State) (a1 : Link) (a2 : Bool) : ((State.setPrbsLock s a1 a2)).kept = s.kept := by
  unfold State.setPrbsLock
  (repeat' split) <;> simp

@[simp] theorem receive_kept (s : State) (a1 : Link) (a2 : RxBlock) : ((State.receive s a1 a2).1).kept = s.kept := by
  unfold State.receive
  (repeat' split) <;> simp

@[simp] theorem dlReceive_kept (s : State) (a1 : Port) (a2 : RxBlock) : ((State.dlReceive s a1 a2).1).kept = s.kept := by
  unfold State.dlReceive
  try dsimp only
  repeat' first | (simp [*]; done) | split | (with_reducible refine (bar0_kept _ _ ?_).trans ?_) | (with_reducible refine (foldl_kept _ _ _ ?_).trans ?_) | intro _ | simp

@[simp] theorem bgLag_kept (s : State) (a1 : ℕ) : ((State.bgLag s a1)).kept = s.kept := by
  simp [State.bgLag]

@[simp] theorem gateRefused_kept (s : State) (a1 : ℕ) (a2 : ℕ) : ((State.gateRefused s a1 a2)).kept = s.kept := by
  simp [State.gateRefused]

@[simp] theorem updStack_kept (s : State) (a1 : ℕ) (a2 : StackSt → StackSt) : ((State.updStack s a1 a2)).kept = s.kept := by
  rfl

@[simp] theorem setDamage_kept (s : State) (a1 : ℕ) (a2 : ℕ) (a3 : BitVec 9) :
    ((State.setDamage s a1 a2 a3)).kept = s.kept := by
  unfold State.setDamage
  try dsimp only
  repeat' first | (simp [*]; done) | split | (with_reducible refine (bar0_kept _ _ ?_).trans ?_) | (with_reducible refine (foldl_kept _ _ _ ?_).trans ?_) | intro _ | simp

@[simp] theorem upset_kept (s : State) (a1 : ℕ) (a2 : ℕ) (a3 : Upset) : ((State.upset s a1 a2 a3)).kept = s.kept := by
  simp [State.upset]

@[simp] theorem setPageBits_kept (s : State) (a1 : ℕ) (a2 : ℕ) (a3 : BitVec 2) :
    ((State.setPageBits s a1 a2 a3)).kept = s.kept := by
  simp [State.setPageBits]

@[simp] theorem setPoison_kept (s : State) (a1 : ℕ) (a2 : ℕ) : ((State.setPoison s a1 a2)).kept = s.kept := by
  simp [State.setPoison]

@[simp] theorem setRescrub_kept (s : State) (a1 : ℕ) (a2 : ℕ) : ((State.setRescrub s a1 a2)).kept = s.kept := by
  simp [State.setRescrub]

@[simp] theorem zbit_kept (s : State) (a1 : Field) (a2 : ℕ) (a3 : Bool) : ((State.zbit s a1 a2 a3)).kept = s.kept := by
  simp [State.zbit]

@[simp] theorem scrubPause_kept (s : State) : ((State.scrubPause s)).kept = s.kept := by
  simp [State.scrubPause]

@[simp] theorem setHard_kept (s : State) (a1 : ℕ) (a2 : ℕ) (a3 : ℕ) : ((State.setHard s a1 a2 a3)).kept = s.kept := by
  simp [State.setHard]

@[simp] theorem closeRun_kept (s : State) : ((State.closeRun s)).kept = s.kept := by
  simp [State.closeRun]

@[simp] theorem stackLoss_kept (s : State) (a1 : ℕ) (a2 : ℕ) (a3 : ℕ) : ((State.stackLoss s a1 a2 a3)).kept = s.kept := by
  simp [State.stackLoss]

@[simp] theorem retireRank_kept (s : State) (a1 : ℕ) (a2 : ℕ) (a3 : ℕ) : ((State.retireRank s a1 a2 a3)).kept = s.kept := by
  simp [State.retireRank]

@[simp] theorem freeze_kept (s : State) (a1 : ℕ) (a2 : ℕ) (a3 : ℕ) (a4 : ℕ) (a5 : List (ℕ × ℕ × BitVec 9)) :
    ((State.freeze s a1 a2 a3 a4 a5)).kept = s.kept := by
  simp [State.freeze]

@[simp] theorem uncorrectable_kept (s : State) (a1 : ℕ) (a2 : ℕ) (a3 : ℕ) (a4 : List (ℕ × ℕ × BitVec 9)) :
    ((State.uncorrectable s a1 a2 a3 a4)).kept = s.kept := by
  simp [State.uncorrectable]

@[simp] theorem countCorrection_kept (s : State) (a1 : ℕ) (a2 : ℕ) (a3 : ℕ) :
    ((State.countCorrection s a1 a2 a3)).kept = s.kept := by
  unfold State.countCorrection
  (repeat' split) <;> simp

@[simp] theorem makeHard_kept (s : State) (a1 : ℕ) (a2 : ℕ) (a3 : ℕ) : ((State.makeHard s a1 a2 a3)).kept = s.kept := by
  unfold State.makeHard
  try dsimp only
  repeat' first | (simp [*]; done) | split | (with_reducible refine (bar0_kept _ _ ?_).trans ?_) | (with_reducible refine (foldl_kept _ _ _ ?_).trans ?_) | intro _ | simp

@[simp] theorem readLine_kept (s : State) (a1 : ℕ) (a2 : ℕ) : ((State.readLine s a1 a2).2).kept = s.kept := by
  unfold State.readLine
  try dsimp only
  repeat' first | (simp [*]; done) | split | (with_reducible refine (bar0_kept _ _ ?_).trans ?_) | (with_reducible refine (foldl_kept _ _ _ ?_).trans ?_) | intro _ | simp

@[simp] theorem sealPage_kept (s : State) (a1 : ℕ) (a2 : ℕ) : ((State.sealPage s a1 a2)).kept = s.kept := by
  simp [State.sealPage]

@[simp] theorem updBillet_kept (s : State) (a1 : ℕ) (a2 : Billet → Billet) : ((State.updBillet s a1 a2)).kept = s.kept := by
  rfl

@[simp] theorem expireSlot_kept (s : State) (a1 : ℕ) (a2 : Bool) : ((State.expireSlot s a1 a2)).kept = s.kept := by
  simp [State.expireSlot]

@[simp] theorem expireBillet_kept (s : State) (a1 : ℕ) : ((State.expireBillet s a1)).kept = s.kept := by
  simp [State.expireBillet]

@[simp] theorem allocate_kept (s : State) : ((State.allocate s).1).kept = s.kept := by
  unfold State.allocate
  try dsimp only
  repeat' first | (simp [*]; done) | split | (with_reducible refine (bar0_kept _ _ ?_).trans ?_) | (with_reducible refine (foldl_kept _ _ _ ?_).trans ?_) | intro _ | simp

@[simp] theorem nextLine_kept (s : State) : ((State.nextLine s).1).kept = s.kept := by
  have h := allocate_kept s
  unfold State.nextLine
  repeat' first | rfl | (simp_all; done) | split

@[simp] theorem placeLines_kept (s : State) (a1 : List (List Byte)) : ((State.placeLines s a1)).kept = s.kept := by
  induction a1 generalizing s with
  | nil => rfl
  | cons x xs ih =>
    unfold State.placeLines
    have h := nextLine_kept s
    generalize s.nextLine = r at h ⊢
    rcases r with ⟨t, _ | ⟨b, l⟩⟩
    · exact h
    · simp [ih, h]

@[simp] theorem readEvent_kept (s : State) (a1 : ℕ) : ((State.readEvent s a1).2).kept = s.kept := by
  unfold State.readEvent
  (repeat' split) <;> simp

@[simp] theorem touchKept_kept (s : State) : ((State.touchKept s)).kept = s.kept := by
  simp [State.touchKept]

@[simp] theorem setGolden_kept (s : State) (a1 : ℕ) (a2 : ℕ) (a3 : Half) : ((State.setGolden s a1 a2 a3)).kept = s.kept := by
  simp [State.setGolden]

@[simp] theorem finish_kept (s : State) (a1 : ℕ) (a2 : ℕ) (a3 : List Byte) : ((State.finish s a1 a2 a3)).kept = s.kept := by
  simp [State.finish]

@[simp] theorem failCmd_kept (s : State) (a1 : ℕ) (a2 : Port) : ((State.failCmd s a1 a2)).kept = s.kept := by
  simp [State.failCmd]

@[simp] theorem scrubWord_kept (s : State) (a1 : Port) (a2 : ℕ) (a3 : ℕ) : ((State.scrubWord s a1 a2 a3)).kept = s.kept := by
  unfold State.scrubWord
  (repeat' split) <;> simp

@[simp] theorem replied_kept (s : State) (a1 : Port) (a2 : Outst) (a3 : ℕ) : ((State.replied s a1 a2 a3)).kept = s.kept := by
  unfold State.replied
  (repeat' split) <;> simp

@[simp] theorem readback_kept (s : State) (a1 : Port) (a2 : ℕ) : ((State.readback s a1 a2)).kept = s.kept := by
  unfold State.readback
  try dsimp only
  repeat' first | (simp [*]; done) | split | (with_reducible refine (bar0_kept _ _ ?_).trans ?_) | (with_reducible refine (foldl_kept _ _ _ ?_).trans ?_) | intro _ | simp

@[simp] theorem replyTimeout_kept (s : State) (a1 : Port) (a2 : ℕ) : ((State.replyTimeout s a1 a2)).kept = s.kept := by
  unfold State.replyTimeout
  (repeat' split) <;> simp

@[simp] theorem ringBlock_kept (s : State) (a1 : Side) (a2 : List Byte) : ((State.ringBlock s a1 a2)).kept = s.kept := by
  unfold State.ringBlock
  (repeat' split) <;> simp

@[simp] theorem ringEast_kept (s : State) (a1 : List Byte) : ((State.ringEast s a1)).kept = s.kept := by
  simp [State.ringEast]

@[simp] theorem primMessage_kept (s : State) (a1 : ℕ) (a2 : List ℕ) (a3 : ℕ) :
    ((State.primMessage s a1 a2 a3)).kept = s.kept := by
  simp [State.primMessage]

@[simp] theorem detect_kept (s : State) (a1 : Link) : ((State.detect s a1)).kept = s.kept := by
  simp [State.detect]

@[simp] theorem noRx_kept (s : State) (a1 : Link) : ((State.noRx s a1)).kept = s.kept := by
  unfold State.noRx
  (repeat' split) <;> simp

@[simp] theorem trainPresets_kept (s : State) (a1 : Link) (a2 : Block) : ((State.trainPresets s a1 a2)).kept = s.kept := by
  unfold State.trainPresets
  (repeat' split) <;> simp

@[simp] theorem laneDone_kept (s : State) (a1 : Link) (a2 : Bool) : ((State.laneDone s a1 a2)).kept = s.kept := by
  unfold State.laneDone
  (repeat' split) <;> simp

@[simp] theorem refusePort_kept (s : State) (a1 : Port) (a2 : Fin 8) (a3 : Block) :
    ((State.refusePort s a1 a2 a3)).kept = s.kept := by
  simp [State.refusePort]

@[simp] theorem judgeCap_kept (s : State) (a1 : Link) (a2 : Block) : ((State.judgeCap s a1 a2)).kept = s.kept := by
  unfold State.judgeCap
  (repeat' split) <;> simp

@[simp] theorem train_kept (s : State) (a1 : Link) (a2 : Block) : ((State.train s a1 a2)).kept = s.kept := by
  unfold State.train
  try dsimp only
  repeat' first | (simp [*]; done) | split | (with_reducible refine (bar0_kept _ _ ?_).trans ?_) | (with_reducible refine (foldl_kept _ _ _ ?_).trans ?_) | intro _ | simp

@[simp] theorem trainReceive_kept (s : State) (a1 : Link) (a2 : RxBlock) : ((State.trainReceive s a1 a2)).kept = s.kept := by
  unfold State.trainReceive
  try dsimp only
  repeat' first | (simp [*]; done) | split | (with_reducible refine (bar0_kept _ _ ?_).trans ?_) | (with_reducible refine (foldl_kept _ _ _ ?_).trans ?_) | intro _ | simp

@[simp] theorem trainTimeout_kept (s : State) (a1 : Link) : ((State.trainTimeout s a1)).kept = s.kept := by
  unfold State.trainTimeout
  (repeat' split) <;> simp

@[simp] theorem activate_kept (s : State) (a1 : Port) : ((State.activate s a1)).kept = s.kept := by
  simp [State.activate]

@[simp] theorem activationEnd_kept (s : State) (a1 : Port) : ((State.activationEnd s a1)).kept = s.kept := by
  simp [State.activationEnd]

@[simp] theorem markInside_kept (s : State) (a1 : Port) (a2 : ℕ) (a3 : Fin 8 × ℕ) :
    ((State.markInside s a1 a2 a3)).kept = s.kept := by
  simp [State.markInside]

@[simp] theorem markOutside_kept (s : State) (a1 : Port) (a2 : Fin 8) : ((State.markOutside s a1 a2)).kept = s.kept := by
  simp [State.markOutside]

@[simp] theorem markLost_kept (s : State) (a1 : Port) (a2 : Fin 8) : ((State.markLost s a1 a2)).kept = s.kept := by
  simp [State.markLost]

@[simp] theorem evalMarks_kept (s : State) (a1 : Port) : ((State.evalMarks s a1)).kept = s.kept := by
  simp [State.evalMarks]

@[simp] theorem takeMark_kept (s : State) (a1 : Port) (a2 : Fin 8) (a3 : ℕ) (a4 : Block) :
    ((State.takeMark s a1 a2 a3 a4)).kept = s.kept := by
  unfold State.takeMark
  (repeat' split) <;> simp

@[simp] theorem askWake_kept (s : State) (a1 : Port) : ((State.askWake s a1)).kept = s.kept := by
  simp [State.askWake]

@[simp] theorem orderRetrain_kept (s : State) (a1 : Port) (a2 : Fin 8) : ((State.orderRetrain s a1 a2)).kept = s.kept := by
  simp [State.orderRetrain]

@[simp] theorem nearLoopOn_kept (s : State) (a1 : Port) (a2 : Fin 8) : ((State.nearLoopOn s a1 a2)).kept = s.kept := by
  simp [State.nearLoopOn]

@[simp] theorem nearLoopOff_kept (s : State) (a1 : Port) (a2 : Fin 8) : ((State.nearLoopOff s a1 a2)).kept = s.kept := by
  simp [State.nearLoopOff]

@[simp] theorem nearLoop_kept (s : State) (a1 : Port) (a2 : Bool) (a3 : Fin 8) (a4 : Bool) (a5 : Fin 8) :
    ((State.nearLoop s a1 a2 a3 a4 a5)).kept = s.kept := by
  simp [State.nearLoop]

@[simp] theorem prbsCfgWritten_kept (s : State) (a1 : Port) (a2 : ℕ) : ((State.prbsCfgWritten s a1 a2)).kept = s.kept := by
  simp [State.prbsCfgWritten]

@[simp] theorem pWrite_kept (s : State) (a1 : Port) (a2 : ℕ) (a3 : ℕ) : ((State.pWrite s a1 a2 a3)).kept = s.kept := by
  simp [State.pWrite]

@[simp] theorem portLoop_kept (s : State) (a1 : Port) (a2 : ℕ) (a3 : Fin 8) :
    ((State.portLoop s a1 a2 a3)).kept = s.kept := by
  simp [State.portLoop]

@[simp] theorem loopAtPelnos_kept (s : State) (a1 : Port) (a2 : Block) (a3 : Half) :
    ((State.loopAtPelnos s a1 a2 a3)).kept = s.kept := by
  simp [State.loopAtPelnos]

@[simp] theorem loopAnswer_kept (s : State) (a1 : Port) (a2 : Fin 8) (a3 : Block) :
    ((State.loopAnswer s a1 a2 a3)).kept = s.kept := by
  simp [State.loopAnswer]

@[simp] theorem loopRing_kept (s : State) (a1 : Side) (a2 : Block) (a3 : Half) :
    ((State.loopRing s a1 a2 a3)).kept = s.kept := by
  simp [State.loopRing]

@[simp] theorem prbsGen_kept (s : State) (a1 : Link) : ((State.prbsGen s a1)).kept = s.kept := by
  unfold State.prbsGen
  (repeat' split) <;> simp

@[simp] theorem prbsLock_kept (s : State) (a1 : Link) : ((State.prbsLock s a1)).kept = s.kept := by
  simp [State.prbsLock]

@[simp] theorem putEye_kept (s : State) (a1 : Field → Field) (a2 : ℕ) (a3 : ℕ) (a4 : ℕ) (a5 : Option (Fin 65536)) :
    ((State.putEye s a1 a2 a3 a4 a5)).kept = s.kept := by
  unfold State.putEye
  (repeat' split) <;> simp

@[simp] theorem eyeDone_kept (s : State) (a1 : Link) (a2 : ℕ) (a3 : ℕ) (a4 : Option (Fin 65536)) :
    ((State.eyeDone s a1 a2 a3 a4)).kept = s.kept := by
  unfold State.eyeDone
  (repeat' split) <;> simp

@[simp] theorem retrainFail_kept (s : State) (a1 : Link) : ((State.retrainFail s a1)).kept = s.kept := by
  unfold State.retrainFail
  try dsimp only
  repeat' first | (simp [*]; done) | split | (with_reducible refine (bar0_kept _ _ ?_).trans ?_) | (with_reducible refine (foldl_kept _ _ _ ?_).trans ?_) | intro _ | simp

@[simp] theorem laneEnBit_kept (s : State) (a1 : Port) (a2 : Bool) (a3 : Fin 8) :
    ((State.laneEnBit s a1 a2 a3)).kept = s.kept := by
  simp [State.laneEnBit]

@[simp] theorem reply_kept (s : State) (a1 : Port) (a2 : List Byte) (a3 : Bool) (a4 : Bool) (a5 : ℕ) (a6 : ℕ) (a7 : Bool) :
    ((State.reply s a1 a2 a3 a4 a5 a6 a7)).kept = s.kept := by
  simp [State.reply]

@[simp] theorem doRegWr_kept (s : State) (a1 : Port) (a2 : List Byte) : ((State.doRegWr s a1 a2)).kept = s.kept := by
  simp [State.doRegWr]

@[simp] theorem doRegRd_kept (s : State) (a1 : Port) (a2 : List Byte) : ((State.doRegRd s a1 a2)).kept = s.kept := by
  simp [State.doRegRd]

@[simp] theorem doPixWr_kept (s : State) (a1 : Port) (a2 : List Byte) : ((State.doPixWr s a1 a2)).kept = s.kept := by
  simp [State.doPixWr]

@[simp] theorem doPixRd_kept (s : State) (a1 : Port) (a2 : List Byte) : ((State.doPixRd s a1 a2)).kept = s.kept := by
  simp [State.doPixRd]

@[simp] theorem doPixStream_kept (s : State) (a1 : Port) (a2 : List Byte) : ((State.doPixStream s a1 a2)).kept = s.kept := by
  simp [State.doPixStream]

@[simp] theorem doCommit_kept (s : State) (a1 : Port) (a2 : List Byte) : ((State.doCommit s a1 a2)).kept = s.kept := by
  simp [State.doCommit]

@[simp] theorem onCommand_kept (s : State) (a1 : Port) (a2 : RxBlock) (a3 : ℕ → Bool) (a4 : State → List Byte → State)
    (h4 : ∀ s x, (a4 s x).kept = s.kept) :
    ((State.onCommand s a1 a2 a3 a4)).kept = s.kept := by
  unfold State.onCommand
  try dsimp only
  repeat' first | (simp [*]; done) | split | (with_reducible refine (bar0_kept _ _ ?_).trans ?_) | (with_reducible refine (foldl_kept _ _ _ ?_).trans ?_) | intro _ | simp

@[simp] theorem dropLate_kept (s : State) (a1 : Port) (a2 : QRec) : ((State.dropLate s a1 a2)).kept = s.kept := by
  simp [State.dropLate]

@[simp] theorem lateFrame_kept (s : State) (a1 : Port) : ((State.lateFrame s a1)).kept = s.kept := by
  simp [State.lateFrame]

@[simp] theorem purgeLate_kept (s : State) (a1 : Port) : ((State.purgeLate s a1)).kept = s.kept := by
  simp [State.purgeLate]

@[simp] theorem pushRec_kept (s : State) (a1 : Port) (a2 : QRec) : ((State.pushRec s a1 a2)).kept = s.kept := by
  simp [State.pushRec]

@[simp] theorem placePend_kept (s : State) (a1 : Port) : ((State.placePend s a1)).kept = s.kept := by
  unfold State.placePend
  (repeat' split) <;> simp

@[simp] theorem keep_kept (s : State) (a1 : Port) (a2 : OpenFrame) (a3 : List ℕ) (a4 : ℕ) (a5 : ℕ) (a6 : Bool) :
    ((State.keep s a1 a2 a3 a4 a5 a6)).kept = s.kept := by
  simp [State.keep]

@[simp] theorem frameErr_kept (s : State) (a1 : Port) (a2 : ℕ) (a3 : ℕ) (a4 : ℕ) :
    ((State.frameErr s a1 a2 a3 a4)).kept = s.kept := by
  simp [State.frameErr]

@[simp] theorem endSegment_kept (s : State) (a1 : Port) (a2 : Option (List ℕ)) (a3 : Bool) :
    ((State.endSegment s a1 a2 a3)).kept = s.kept := by
  unfold State.endSegment
  (repeat' split) <;> simp

@[simp] theorem gap_kept (s : State) (a1 : Port) (a2 : ℕ) : ((State.gap s a1 a2)).kept = s.kept := by
  unfold State.gap
  try dsimp only
  repeat' first | (simp [*]; done) | split | (with_reducible refine (bar0_kept _ _ ?_).trans ?_) | (with_reducible refine (onCommand_kept _ _ _ _ _ ?_).trans ?_) | (with_reducible refine (foldl_kept _ _ _ ?_).trans ?_) | intro _ | simp

@[simp] theorem primForward_kept (s : State) (a1 : Port) (a2 : ℕ) (a3 : List ℕ) :
    ((State.primForward s a1 a2 a3)).kept = s.kept := by
  simp [State.primForward]

@[simp] theorem recordErr_kept (s : State) (a1 : Port) (a2 : OpenFrame) (a3 : ℕ) (a4 : ℕ) :
    ((State.recordErr s a1 a2 a3 a4)).kept = s.kept := by
  simp [State.recordErr]

@[simp] theorem keepLimited_kept (s : State) (a1 : Port) (a2 : OpenFrame) (a3 : List ℕ) (a4 : ℕ) (a5 : ℕ) (a6 : Bool) :
    ((State.keepLimited s a1 a2 a3 a4 a5 a6)).kept = s.kept := by
  simp [State.keepLimited]

@[simp] theorem trailer_kept (s : State) (a1 : Port) (a2 : OpenFrame) (a3 : List ℕ) :
    ((State.trailer s a1 a2 a3)).kept = s.kept := by
  simp [State.trailer]

@[simp] theorem parseRec_kept (s : State) (a1 : Port) (a2 : OpenFrame) (a3 : List ℕ) :
    ((State.parseRec s a1 a2 a3)).kept = s.kept := by
  simp [State.parseRec]

@[simp] theorem parse_kept (s : State) (a1 : Port) (a2 : List ℕ) (a3 : ℕ) : ((State.parse s a1 a2 a3)).kept = s.kept := by
  induction a3 generalizing s a2 with
  | zero => rfl
  | succ n ih =>
    unfold State.parse
    repeat' first | (simp [ih]; done) | split

@[simp] theorem feed_kept (s : State) (a1 : Port) (a2 : List ℕ) : ((State.feed s a1 a2)).kept = s.kept := by
  simp [State.feed]

@[simp] theorem join_kept (s : State) (a1 : Port) (a2 : ℕ) : ((State.join s a1 a2)).kept = s.kept := by
  simp [State.join]

@[simp] theorem openFrame_kept (s : State) (a1 : Port) (a2 : OpenFrame) : ((State.openFrame s a1 a2)).kept = s.kept := by
  simp [State.openFrame]

@[simp] theorem frameMode_kept (s : State) (a1 : Port) (a2 : ℕ) : ((State.frameMode s a1 a2).1).kept = s.kept := by
  unfold State.frameMode
  try dsimp only
  repeat' first | (simp [*]; done) | split | (with_reducible refine (bar0_kept _ _ ?_).trans ?_) | (with_reducible refine (onCommand_kept _ _ _ _ _ ?_).trans ?_) | (with_reducible refine (foldl_kept _ _ _ ?_).trans ?_) | intro _ | simp

@[simp] theorem frameBlock_kept (s : State) (a1 : Port) (a2 : List Byte) : ((State.frameBlock s a1 a2)).kept = s.kept := by
  unfold State.frameBlock
  try dsimp only
  repeat' first | (simp [*]; done) | split | (with_reducible refine (bar0_kept _ _ ?_).trans ?_) | (with_reducible refine (onCommand_kept _ _ _ _ _ ?_).trans ?_) | (with_reducible refine (foldl_kept _ _ _ ?_).trans ?_) | intro _ | simp

@[simp] theorem statusBlock_kept (s : State) (a1 : Port) (a2 : List Byte) : ((State.statusBlock s a1 a2)).kept = s.kept := by
  simp [State.statusBlock]

@[simp] theorem deliver_kept (s : State) (a1 : Port) (a2 : Block) : ((State.deliver s a1 a2)).kept = s.kept := by
  unfold State.deliver
  (repeat' split) <;> simp

@[simp] theorem drainHeld_kept (s : State) (a1 : Port) (a2 : ℕ) : ((State.drainHeld s a1 a2)).kept = s.kept := by
  induction a2 generalizing s with
  | zero => rfl
  | succ n ih =>
    unfold State.drainHeld
    repeat' first | (simp [ih]; done) | (dsimp only) | split

@[simp] theorem reassemble_kept (s : State) (a1 : Port) (a2 : Block) : ((State.reassemble s a1 a2)).kept = s.kept := by
  simp [State.reassemble]

@[simp] theorem missing_kept (s : State) (a1 : Port) : ((State.missing s a1)).kept = s.kept := by
  simp [State.missing]

@[simp] theorem queueReset_kept (s : State) (a1 : Port) : ((State.queueReset s a1)).kept = s.kept := by
  simp [State.queueReset]

@[simp] theorem sideReset_kept (s : State) (a1 : Port) : ((State.sideReset s a1)).kept = s.kept := by
  simp [State.sideReset]

@[simp] theorem mergeEn_kept (s : State) (a1 : Port) (a2 : Bool) : ((State.mergeEn s a1 a2)).kept = s.kept := by
  simp [State.mergeEn]

@[simp] theorem updCtx_kept (s : State) (a1 : ℕ) (a2 : Ctx → Ctx) : ((State.updCtx s a1 a2)).kept = s.kept := by
  rfl

@[simp] theorem consume_kept (s : State) (a1 : ℕ) : ((State.consume s a1)).kept = s.kept := by
  simp [State.consume]

@[simp] theorem settleCtx_kept (s : State) (a1 : ℕ) : ((State.settleCtx s a1)).kept = s.kept := by
  simp [State.settleCtx]

@[simp] theorem startCtx_kept (s : State) (a1 : Ctx) (a2 : Bool) : ((State.startCtx s a1 a2)).kept = s.kept := by
  simp [State.startCtx]

@[simp] theorem trigEntries_kept (s : State) (a1 : ℕ) (a2 : List (Fin 65536 × List Byte)) :
    ((State.trigEntries s a1 a2)).kept = s.kept := by
  induction a2 generalizing s with
  | nil => rfl
  | cons a t ih =>
    unfold State.trigEntries
    repeat' first | (simp [ih]; done) | split

@[simp] theorem trigFetch_kept (s : State) (a1 : Fin 4) (a2 : List (Fin 65536 × List Byte)) :
    ((State.trigFetch s a1 a2)).kept = s.kept := by
  simp [State.trigFetch]

@[simp] theorem ringTrig_kept (s : State) (a1 : Fin 65536) (a2 : List Byte) : ((State.ringTrig s a1 a2)).kept = s.kept := by
  simp [State.ringTrig]

@[simp] theorem toRead_kept (s : State) (a1 : ℕ) : ((State.toRead s a1)).kept = s.kept := by
  simp [State.toRead]

@[simp] theorem lookup_kept (s : State) (a1 : ℕ) : ((State.lookup s a1)).kept = s.kept := by
  unfold State.lookup
  (repeat' split) <;> simp

@[simp] theorem wakeWaiting_kept (s : State) : ((State.wakeWaiting s)).kept = s.kept := by
  simp [State.wakeWaiting]

@[simp] theorem readRun_kept (s : State) (a1 : ℕ × ℕ) (a2 : ℕ) : ((State.readRun s a1 a2).2).kept = s.kept := by
  induction a2 generalizing s a1 with
  | zero => rfl
  | succ n ih => simp [State.readRun, ih]

@[simp] theorem giveSection_kept (s : State) (a1 : ℕ) (a2 : Section) : ((State.giveSection s a1 a2)).kept = s.kept := by
  simp [State.giveSection]

@[simp] theorem readFrame_kept (s : State) (a1 : ℕ × ℕ) (a2 : ℕ) : ((State.readFrame s a1 a2).2).kept = s.kept := by
  unfold State.readFrame
  dsimp only
  rw [zwrap_kept, foldl_snd_kept]
  · simp
  · intro a x; simp

@[simp] theorem segmentRead_kept (s : State) : ((State.segmentRead s)).kept = s.kept := by
  unfold State.segmentRead
  try dsimp only
  repeat' first | (simp [*]; done) | split | (with_reducible refine (bar0_kept _ _ ?_).trans ?_) | (with_reducible refine (onCommand_kept _ _ _ _ _ ?_).trans ?_) | (with_reducible refine (foldl_kept _ _ _ ?_).trans ?_) | intro _ | simp

@[simp] theorem chunkPush_kept (s : State) (a1 : ℕ) : ((State.chunkPush s a1)).kept = s.kept := by
  unfold State.chunkPush
  (repeat' split) <;> simp

@[simp] theorem pour_kept (s : State) (a1 : ℕ) : ((State.pour s a1)).kept = s.kept := by
  unfold State.pour
  (repeat' split) <;> simp

@[simp] theorem chunkGrant_kept (s : State) : ((State.chunkGrant s)).kept = s.kept := by
  unfold State.chunkGrant
  try dsimp only
  repeat' first | (simp [*]; done) | split | (with_reducible refine (bar0_kept _ _ ?_).trans ?_) | (with_reducible refine (onCommand_kept _ _ _ _ _ ?_).trans ?_) | (with_reducible refine (foldl_kept _ _ _ ?_).trans ?_) | intro _ | simp

@[simp] theorem outqReset_kept (s : State) : ((State.outqReset s)).kept = s.kept := by
  simp [State.outqReset]

@[simp] theorem bufqTake_kept (s : State) (a1 : ℕ) (a2 : List Byte) : ((State.bufqTake s a1 a2)).kept = s.kept := by
  unfold State.bufqTake
  (repeat' split) <;> simp

@[simp] theorem bufEntryWrite_kept (s : State) (a1 : ℕ) : ((State.bufEntryWrite s a1)).kept = s.kept := by
  unfold State.bufEntryWrite
  (repeat' split) <;> simp

@[simp] theorem xtrComplete_kept (s : State) (a1 : ℕ) : ((State.xtrComplete s a1)).kept = s.kept := by
  unfold State.xtrComplete
  (repeat' split) <;> simp

@[simp] theorem updGcl_kept (s : State) (a1 : ℕ) (a2 : GclSt → GclSt) : ((State.updGcl s a1 a2)).kept = s.kept := by
  rfl

@[simp] theorem engEvent_kept (s : State) (a1 : ℕ) (a2 : ℕ) (a3 : ℕ) (a4 : List Byte) :
    ((State.engEvent s a1 a2 a3 a4)).kept = s.kept := by
  simp [State.engEvent]

@[simp] theorem updSection_kept (s : State) (a1 : ℕ) (a2 : ℕ) (a3 : Section → Section) :
    ((State.updSection s a1 a2 a3)).kept = s.kept := by
  rfl

@[simp] theorem passAgain_kept (s : State) (a1 : ℕ) (a2 : ℕ) : ((State.passAgain s a1 a2)).kept = s.kept := by
  unfold State.passAgain
  (repeat' split) <;> simp

@[simp] theorem passWaiting_kept (s : State) (a1 : ℕ) : ((State.passWaiting s a1)).kept = s.kept := by
  simp [State.passWaiting]

@[simp] theorem addPins_kept (s : State) (a1 : List ℕ) : ((State.addPins s a1)).kept = s.kept := by
  simp [State.addPins]

@[simp] theorem flagPinned_kept (s : State) (a1 : ℕ) : ((State.flagPinned s a1)).kept = s.kept := by
  simp [State.flagPinned]

@[simp] theorem copyEntry_kept (s : State) (a1 : ℕ) (a2 : DirEnt) : ((State.copyEntry s a1 a2)).kept = s.kept := by
  simp [State.copyEntry]

@[simp] theorem refreshCopies_kept (s : State) (a1 : DirEnt) : ((State.refreshCopies s a1)).kept = s.kept := by
  simp [State.refreshCopies]

@[simp] theorem updPin_kept (s : State) (a1 : ℕ) (a2 : PinRange → PinRange) : ((State.updPin s a1 a2)).kept = s.kept := by
  rfl

@[simp] theorem pinFrames_kept (s : State) (a1 : ℕ) (a2 : PinRange) (a3 : DirEnt) (a4 : ℕ) (a5 : ℕ) :
    ((State.pinFrames s a1 a2 a3 a4 a5)).kept = s.kept := by
  simp [State.pinFrames]

@[simp] theorem freeSlot_kept (s : State) (a1 : ℕ) : ((State.freeSlot s a1)).kept = s.kept := by
  unfold State.freeSlot
  (repeat' split) <;> simp

@[simp] theorem endPin_kept (s : State) (a1 : ℕ) (a2 : Bool) : ((State.endPin s a1 a2)).kept = s.kept := by
  unfold State.endPin
  (repeat' split) <;> simp

@[simp] theorem pinCommitted_kept (s : State) (a1 : ℕ) (a2 : DirEnt) : ((State.pinCommitted s a1 a2)).kept = s.kept := by
  unfold State.pinCommitted
  try dsimp only
  repeat' first | (simp [*]; done) | split | (with_reducible refine (bar0_kept _ _ ?_).trans ?_) | (with_reducible refine (onCommand_kept _ _ _ _ _ ?_).trans ?_) | (with_reducible refine (foldl_kept _ _ _ ?_).trans ?_) | intro _ | simp

@[simp] theorem clipPins_kept (s : State) (a1 : ℕ) : ((State.clipPins s a1)).kept = s.kept := by
  unfold State.clipPins
  try dsimp only
  repeat' first | (simp [*]; done) | split | (with_reducible refine (bar0_kept _ _ ?_).trans ?_) | (with_reducible refine (onCommand_kept _ _ _ _ _ ?_).trans ?_) | (with_reducible refine (foldl_kept _ _ _ ?_).trans ?_) | intro _ | simp

@[simp] theorem pinWritten_kept (s : State) (a1 : ℕ) (a2 : List (DirEnt × ℕ × ℕ)) :
    ((State.pinWritten s a1 a2)).kept = s.kept := by
  unfold State.pinWritten
  try dsimp only
  repeat' first | (simp [*]; done) | split | (with_reducible refine (bar0_kept _ _ ?_).trans ?_) | (with_reducible refine (onCommand_kept _ _ _ _ _ ?_).trans ?_) | (with_reducible refine (foldl_kept _ _ _ ?_).trans ?_) | intro _ | simp

@[simp] theorem pin_kept (s : State) (a1 : ℕ) (a2 : ℕ) (a3 : ℕ) (a4 : ℕ) : ((State.pin s a1 a2 a3 a4)).kept = s.kept := by
  unfold State.pin
  (repeat' split) <;> simp

@[simp] theorem unpin_kept (s : State) (a1 : ℕ) (a2 : ℕ) : ((State.unpin s a1 a2)).kept = s.kept := by
  simp [State.unpin]

@[simp] theorem showEpoch_kept (s : State) (a1 : ℕ) : ((State.showEpoch s a1)).kept = s.kept := by
  simp [State.showEpoch]

@[simp] theorem runStarted_kept (s : State) (a1 : ℕ) : ((State.runStarted s a1)).kept = s.kept := by
  simp [State.runStarted]

@[simp] theorem runStopped_kept (s : State) (a1 : ℕ) (a2 : ℕ) : ((State.runStopped s a1 a2)).kept = s.kept := by
  simp [State.runStopped]

@[simp] theorem syncPort_kept (s : State) (a1 : Port) : ((State.syncPort s a1)).kept = s.kept := by
  simp [State.syncPort]

@[simp] theorem clearPort_kept (s : State) (a1 : Port) : ((State.clearPort s a1)).kept = s.kept := by
  simp [State.clearPort]

@[simp] theorem setM_kept (s : State) (a1 : ℕ) : ((State.setM s a1)).kept = s.kept := by
  simp [State.setM]

@[simp] theorem beginRun_kept (s : State) (a1 : ℕ) (a2 : ℕ) : ((State.beginRun s a1 a2)).kept = s.kept := by
  simp [State.beginRun]

@[simp] theorem finishStops_kept (s : State) (a1 : ℕ) : ((State.finishStops s a1)).kept = s.kept := by
  simp [State.finishStops]

@[simp] theorem endRun_kept (s : State) (a1 : ℕ) (a2 : ℕ) : ((State.endRun s a1 a2)).kept = s.kept := by
  simp [State.endRun]

@[simp] theorem markEnd_kept (s : State) (a1 : ℕ) : ((State.markEnd s a1)).kept = s.kept := by
  simp [State.markEnd]

@[simp] theorem stopRun_kept (s : State) (a1 : ℕ) (a2 : Bool) (a3 : ℕ) : ((State.stopRun s a1 a2 a3)).kept = s.kept := by
  simp [State.stopRun]

@[simp] theorem setChState_kept (s : State) (a1 : ℕ) (a2 : ℕ) (a3 : ℕ) : ((State.setChState s a1 a2 a3)).kept = s.kept := by
  simp [State.setChState]

@[simp] theorem chans_kept (s : State) (a1 : State → ℕ → State) (h1 : ∀ s x, (a1 s x).kept = s.kept) :
    ((State.chans s a1)).kept = s.kept := by
  unfold State.chans
  try dsimp only
  repeat' first | (simp [*]; done) | split | (with_reducible refine (bar0_kept _ _ ?_).trans ?_) | (with_reducible refine (onCommand_kept _ _ _ _ _ ?_).trans ?_) | (with_reducible refine (foldl_kept _ _ _ ?_).trans ?_) | intro _ | simp

@[simp] theorem chMove_kept (s : State) (a1 : ℕ) (a2 : ℕ) (a3 : ℕ) : ((State.chMove s a1 a2 a3)).kept = s.kept := by
  simp [State.chMove]

@[simp] theorem skip_kept (s : State) (a1 : ℕ) (a2 : Bool) : ((State.skip s a1 a2)).kept = s.kept := by
  simp [State.skip]

@[simp] theorem startPoint_kept (s : State) (a1 : ℕ) (a2 : ℕ) : ((State.startPoint s a1 a2)).kept = s.kept := by
  simp [State.startPoint]

@[simp] theorem evalPoint_kept (s : State) (a1 : ℕ) : ((State.evalPoint s a1)).kept = s.kept := by
  simp [State.evalPoint]

@[simp] theorem slicesOver_kept (s : State) (a1 : ℕ) : ((State.slicesOver s a1)).kept = s.kept := by
  simp [State.slicesOver]

@[simp] theorem pointDone_kept (s : State) (a1 : ℕ) : ((State.pointDone s a1)).kept = s.kept := by
  simp [State.pointDone]

@[simp] theorem thermalEntry_kept (s : State) (a1 : ℕ) (a2 : ℕ) (a3 : ℕ) :
    ((State.thermalEntry s a1 a2 a3)).kept = s.kept := by
  simp [State.thermalEntry]

@[simp] theorem thermalExit_kept (s : State) (a1 : ℕ) (a2 : ℕ) : ((State.thermalExit s a1 a2)).kept = s.kept := by
  simp [State.thermalExit]

@[simp] theorem sliceStart_kept (s : State) (a1 : ℕ) (a2 : ℕ) : ((State.sliceStart s a1 a2)).kept = s.kept := by
  simp [State.sliceStart]

@[simp] theorem sliceEnd_kept (s : State) (a1 : ℕ) (a2 : ℕ) : ((State.sliceEnd s a1 a2)).kept = s.kept := by
  simp [State.sliceEnd]

@[simp] theorem retrained_kept (s : State) (a1 : ℕ) (a2 : ℕ) (a3 : ℕ) (a4 : ℕ) :
    ((State.retrained s a1 a2 a3 a4)).kept = s.kept := by
  simp [State.retrained]

@[simp] theorem skipEnd_kept (s : State) (a1 : ℕ) : ((State.skipEnd s a1)).kept = s.kept := by
  simp [State.skipEnd]

@[simp] theorem renameBillet_kept (s : State) (a1 : ℕ) (a2 : ℕ) : ((State.renameBillet s a1 a2)).kept = s.kept := by
  simp [State.renameBillet]

@[simp] theorem enterPasr_kept (s : State) : ((State.enterPasr s)).kept = s.kept := by
  simp [State.enterPasr]

@[simp] theorem runDue_kept (s : State) : ((State.runDue s)).kept = s.kept := by
  simp [State.runDue]

@[simp] theorem exitPasr_kept (s : State) : ((State.exitPasr s)).kept = s.kept := by
  simp [State.exitPasr]

@[simp] theorem writeBufMap_kept (s : State) (a1 : ℕ) : ((State.writeBufMap s a1)).kept = s.kept := by
  simp [State.writeBufMap]

@[simp] theorem lockEvent_kept (s : State) (a1 : Bool) (a2 : ℤ) : ((State.lockEvent s a1 a2)).kept = s.kept := by
  simp [State.lockEvent]

@[simp] theorem setInc_kept (s : State) (a1 : ℤ) : ((State.setInc s a1)).kept = s.kept := by
  simp [State.setInc]

@[simp] theorem recomputeInc_kept (s : State) : ((State.recomputeInc s)).kept = s.kept := by
  simp [State.recomputeInc]

@[simp] theorem estimateEvent_kept (s : State) (a1 : Bool) : ((State.estimateEvent s a1)).kept = s.kept := by
  simp [State.estimateEvent]

@[simp] theorem clearEstimate_kept (s : State) : ((State.clearEstimate s)).kept = s.kept := by
  simp [State.clearEstimate]

@[simp] theorem sample_kept (s : State) (a1 : ℕ) (a2 : ℕ) : ((State.sample s a1 a2)).kept = s.kept := by
  simp [State.sample]

@[simp] theorem updateEstimate_kept (s : State) (a1 : Bool) : ((State.updateEstimate s a1)).kept = s.kept := by
  unfold State.updateEstimate
  (repeat' split) <;> simp

@[simp] theorem restEnter_kept (s : State) (a1 : ℕ) : ((State.restEnter s a1)).kept = s.kept := by
  simp [State.restEnter]

@[simp] theorem enterRest_kept (s : State) (a1 : ℕ) : ((State.enterRest s a1)).kept = s.kept := by
  simp [State.enterRest]

@[simp] theorem leaveRest_kept (s : State) (a1 : ℕ) : ((State.leaveRest s a1)).kept = s.kept := by
  simp [State.leaveRest]

@[simp] theorem trimInc_kept (s : State) (a1 : ℤ) : ((State.trimInc s a1)).kept = s.kept := by
  simp [State.trimInc]

@[simp] theorem stepTime_kept (s : State) (a1 : ℤ) : ((State.stepTime s a1)).kept = s.kept := by
  simp [State.stepTime]

@[simp] theorem servo_kept (s : State) (a1 : ℤ) : ((State.servo s a1)).kept = s.kept := by
  simp [State.servo]

@[simp] theorem timeSet_kept (s : State) (a1 : ℕ) : ((State.timeSet s a1)).kept = s.kept := by
  simp [State.timeSet]

@[simp] theorem forwardBad_kept (s : State) (a1 : Side) (a2 : RxBlock) : ((State.forwardBad s a1 a2)).kept = s.kept := by
  unfold State.forwardBad
  (repeat' split) <;> simp

@[simp] theorem ringTake_kept (s : State) (a1 : Side) (a2 : RxBlock) : ((State.ringTake s a1 a2).1).kept = s.kept := by
  unfold State.ringTake
  try dsimp only
  repeat' first | (simp [*]; done) | split | (with_reducible refine (bar0_kept _ _ ?_).trans ?_) | (with_reducible refine (onCommand_kept _ _ _ _ _ ?_).trans ?_) | (with_reducible refine (chans_kept _ _ ?_).trans ?_) | (with_reducible refine (foldl_kept _ _ _ ?_).trans ?_) | intro _ | simp

@[simp] theorem ringArrive_kept (s : State) (a1 : Side) (a2 : List Byte) (a3 : State → State) (h3 : ∀ s, (a3 s).kept =
    s.kept) :
    ((State.ringArrive s a1 a2 a3)).kept = s.kept := by
  unfold State.ringArrive
  try dsimp only
  repeat' first | (simp [*]; done) | split | (with_reducible refine (bar0_kept _ _ ?_).trans ?_) | (with_reducible refine (onCommand_kept _ _ _ _ _ ?_).trans ?_) | (with_reducible refine (chans_kept _ _ ?_).trans ?_) | (with_reducible refine (foldl_kept _ _ _ ?_).trans ?_) | intro _ | simp

@[simp] theorem onMessage_kept (s : State) (a1 : Side) (a2 : RxBlock) (a3 : List Byte → Bool) (a4 : State → List Byte →
    State) (h4 : ∀ s x, (a4 s x).kept = s.kept) :
    ((State.onMessage s a1 a2 a3 a4)).kept = s.kept := by
  unfold State.onMessage
  have h := ringTake_kept s a1 a2
  generalize s.ringTake a1 a2 = r at h ⊢
  rcases r with ⟨t, _ | pl⟩
  · exact h
  · dsimp only
    split
    · exact ((ringArrive_kept _ _ _ _ (fun u => h4 u pl))).trans h
    · exact h

@[simp] theorem setGateBits_kept (s : State) (a1 : ℕ) (a2 : ℕ) : ((State.setGateBits s a1 a2)).kept = s.kept := by
  simp [State.setGateBits]

@[simp] theorem setGateTicks_kept (s : State) (a1 : ℕ) (a2 : List Byte) : ((State.setGateTicks s a1 a2)).kept = s.kept := by
  simp [State.setGateTicks]

@[simp] theorem sendMirror_kept (s : State) : ((State.sendMirror s)).kept = s.kept := by
  simp [State.sendMirror]

@[simp] theorem setHops_kept (s : State) (a1 : ℕ) (a2 : Option ℕ) : ((State.setHops s a1 a2)).kept = s.kept := by
  simp [State.setHops]

@[simp] theorem turnTo_kept (s : State) (a1 : ℕ) : ((State.turnTo s a1)).kept = s.kept := by
  simp [State.turnTo]

@[simp] theorem chooseDir_kept (s : State) (a1 : ℕ) (a2 : ℕ) : ((State.chooseDir s a1 a2)).kept = s.kept := by
  simp [State.chooseDir]

@[simp] theorem consumeSync_kept (s : State) (a1 : Side) (a2 : List Byte) (a3 : ℕ) (a4 : ℕ) :
    ((State.consumeSync s a1 a2 a3 a4)).kept = s.kept := by
  simp [State.consumeSync]

@[simp] theorem ringSync_kept (s : State) (a1 : Side) (a2 : List Byte) (a3 : Fin 2048) (a4 : ℕ) :
    ((State.ringSync s a1 a2 a3 a4)).kept = s.kept := by
  simp [State.ringSync]

@[simp] theorem syncLost_kept (s : State) : ((State.syncLost s)).kept = s.kept := by
  simp [State.syncLost]

@[simp] theorem setMaster_kept (s : State) (a1 : ℕ) (a2 : ℕ) : ((State.setMaster s a1 a2)).kept = s.kept := by
  simp [State.setMaster]

@[simp] theorem setMap_kept (s : State) (a1 : ℕ) : ((State.setMap s a1)).kept = s.kept := by
  simp [State.setMap]

@[simp] theorem demote_kept (s : State) (a1 : ℕ) : ((State.demote s a1)).kept = s.kept := by
  simp [State.demote]

@[simp] theorem takeMirror_kept (s : State) : ((State.takeMirror s)).kept = s.kept := by
  simp [State.takeMirror]

@[simp] theorem leaseReturned_kept (s : State) (a1 : ℕ) (a2 : ℕ) (a3 : ℕ) :
    ((State.leaseReturned s a1 a2 a3)).kept = s.kept := by
  simp [State.leaseReturned]

@[simp] theorem leaseSend_kept (s : State) : ((State.leaseSend s)).kept = s.kept := by
  simp [State.leaseSend]

@[simp] theorem consumeLease_kept (s : State) (a1 : List Byte) : ((State.consumeLease s a1)).kept = s.kept := by
  simp [State.consumeLease]

@[simp] theorem ringLease_kept (s : State) (a1 : Side) (a2 : List Byte) : ((State.ringLease s a1 a2)).kept = s.kept := by
  unfold State.ringLease
  try dsimp only
  repeat' first | (simp [*]; done) | split | (with_reducible refine (bar0_kept _ _ ?_).trans ?_) | (with_reducible refine (onCommand_kept _ _ _ _ _ ?_).trans ?_) | (with_reducible refine (chans_kept _ _ ?_).trans ?_) | (with_reducible refine (ringArrive_kept _ _ _ _ ?_).trans ?_) | (with_reducible refine (onMessage_kept _ _ _ _ _ ?_).trans ?_) | (with_reducible refine (foldl_kept _ _ _ ?_).trans ?_) | intro _ | simp

@[simp] theorem leaseTimeout_kept (s : State) : ((State.leaseTimeout s)).kept = s.kept := by
  simp [State.leaseTimeout]

@[simp] theorem takeover_kept (s : State) : ((State.takeover s)).kept = s.kept := by
  simp [State.takeover]

@[simp] theorem candidate_kept (s : State) : ((State.candidate s)).kept = s.kept := by
  simp [State.candidate]

@[simp] theorem announceStart_kept (s : State) : ((State.announceStart s)).kept = s.kept := by
  simp [State.announceStart]

@[simp] theorem announceStop_kept (s : State) (a1 : ℕ) : ((State.announceStop s a1)).kept = s.kept := by
  simp [State.announceStop]

@[simp] theorem ringRunStart_kept (s : State) (a1 : List Byte) : ((State.ringRunStart s a1)).kept = s.kept := by
  simp [State.ringRunStart]

@[simp] theorem ringRunStop_kept (s : State) (a1 : List Byte) : ((State.ringRunStop s a1)).kept = s.kept := by
  simp [State.ringRunStop]

@[simp] theorem ringGate_kept (s : State) (a1 : List Byte) : ((State.ringGate s a1)).kept = s.kept := by
  simp [State.ringGate]

@[simp] theorem ringMap_kept (s : State) (a1 : List Byte) : ((State.ringMap s a1)).kept = s.kept := by
  simp [State.ringMap]

@[simp] theorem ringMirror_kept (s : State) (a1 : List Byte) : ((State.ringMirror s a1)).kept = s.kept := by
  simp [State.ringMirror]

@[simp] theorem mirrorLate_kept (s : State) : ((State.mirrorLate s)).kept = s.kept := by
  simp [State.mirrorLate]

@[simp] theorem gateWrite_kept (s : State) (a1 : Fin 8) (a2 : Fin 4) (a3 : ℕ) :
    ((State.gateWrite s a1 a2 a3)).kept = s.kept := by
  simp [State.gateWrite]

@[simp] theorem ringCfgFields_kept (s : State) (a1 : ℕ) : ((State.ringCfgFields s a1)).kept = s.kept := by
  unfold State.ringCfgFields
  try dsimp only
  repeat' first | (simp [*]; done) | split | (with_reducible refine (bar0_kept _ _ ?_).trans ?_) | (with_reducible refine (onCommand_kept _ _ _ _ _ ?_).trans ?_) | (with_reducible refine (chans_kept _ _ ?_).trans ?_) | (with_reducible refine (ringArrive_kept _ _ _ _ ?_).trans ?_) | (with_reducible refine (onMessage_kept _ _ _ _ _ ?_).trans ?_) | (with_reducible refine (foldl_kept _ _ _ ?_).trans ?_) | intro _ | simp

@[simp] theorem ringEnable_kept (s : State) (a1 : ℕ) : ((State.ringEnable s a1)).kept = s.kept := by
  simp [State.ringEnable]

@[simp] theorem ringDisable_kept (s : State) (a1 : ℕ) : ((State.ringDisable s a1)).kept = s.kept := by
  simp [State.ringDisable]

@[simp] theorem updGrp_kept (s : State) (a1 : Fin 2) (a2 : MonGroup → MonGroup) :
    ((State.updGrp s a1 a2)).kept = s.kept := by
  unfold State.updGrp
  (repeat' split) <;> simp

@[simp] theorem ilEvent_kept (s : State) (a1 : ℕ) (a2 : ℕ) (a3 : Bool) (a4 : ℕ) :
    ((State.ilEvent s a1 a2 a3 a4)).kept = s.kept := by
  simp [State.ilEvent]

@[simp] theorem ilFault_kept (s : State) (a1 : ℕ) (a2 : ℕ) : ((State.ilFault s a1 a2)).kept = s.kept := by
  simp [State.ilFault]

@[simp] theorem ilUpdate_kept (s : State) (a1 : ℕ) : ((State.ilUpdate s a1)).kept = s.kept := by
  unfold State.ilUpdate
  try dsimp only
  repeat' first | (simp [*]; done) | split | (with_reducible refine (bar0_kept _ _ ?_).trans ?_) | (with_reducible refine (onCommand_kept _ _ _ _ _ ?_).trans ?_) | (with_reducible refine (chans_kept _ _ ?_).trans ?_) | (with_reducible refine (ringArrive_kept _ _ _ _ ?_).trans ?_) | (with_reducible refine (onMessage_kept _ _ _ _ _ ?_).trans ?_) | (with_reducible refine (foldl_kept _ _ _ ?_).trans ?_) | intro _ | simp

@[simp] theorem ilUpdateAll_kept (s : State) : ((State.ilUpdateAll s)).kept = s.kept := by
  simp [State.ilUpdateAll]

@[simp] theorem putResult_kept (s : State) (a1 : ℕ) (a2 : ℕ) (a3 : Bool) (a4 : Bool) (a5 : Bool) (a6 : Bool) (a7 : Bool) :
    ((State.putResult s a1 a2 a3 a4 a5 a6 a7)).kept = s.kept := by
  simp [State.putResult]

@[simp] theorem keepRange_kept (s : State) (a1 : Fin 2) : ((State.keepRange s a1)).kept = s.kept := by
  unfold State.keepRange
  (repeat' split) <;> simp

@[simp] theorem endGroup_kept (s : State) (a1 : Fin 2) : ((State.endGroup s a1)).kept = s.kept := by
  simp [State.endGroup]

@[simp] theorem comparePair_kept (s : State) (a1 : ℕ) : ((State.comparePair s a1)).kept = s.kept := by
  simp [State.comparePair]

@[simp] theorem startDwell_kept (s : State) : ((State.startDwell s)).kept = s.kept := by
  simp [State.startDwell]

@[simp] theorem endDwell_kept (s : State) : ((State.endDwell s)).kept = s.kept := by
  simp [State.endDwell]

@[simp] theorem zwrite_kept (s : State) (a1 : ℕ) (a2 : ℕ) : ((State.zwrite s a1 a2)).kept = s.kept := by
  simp [State.zwrite]

@[simp] theorem ilWrite_kept (s : State) (a1 : ℕ) (a2 : ℕ) (a3 : ℕ) : ((State.ilWrite s a1 a2 a3)).kept = s.kept := by
  simp [State.ilWrite]

@[simp] theorem injRequest_kept (s : State) : ((State.injRequest s)).kept = s.kept := by
  simp [State.injRequest]

@[simp] theorem monEntry_kept (s : State) (a1 : ℕ × ℕ × ℕ) : ((State.monEntry s a1)).kept = s.kept := by
  simp [State.monEntry]

@[simp] theorem applyMonCfg_kept (s : State) : ((State.applyMonCfg s)).kept = s.kept := by
  unfold State.applyMonCfg
  try dsimp only
  repeat' first | (simp [*]; done) | split | (with_reducible refine (bar0_kept _ _ ?_).trans ?_) | (with_reducible refine (onCommand_kept _ _ _ _ _ ?_).trans ?_) | (with_reducible refine (chans_kept _ _ ?_).trans ?_) | (with_reducible refine (ringArrive_kept _ _ _ _ ?_).trans ?_) | (with_reducible refine (onMessage_kept _ _ _ _ _ ?_).trans ?_) | (with_reducible refine (foldl_kept _ _ _ ?_).trans ?_) | intro _ | simp

@[simp] theorem restartDwell_kept (s : State) : ((State.restartDwell s)).kept = s.kept := by
  simp [State.restartDwell]

@[simp] theorem monBoundary_kept (s : State) : ((State.monBoundary s)).kept = s.kept := by
  simp [State.monBoundary]

@[simp] theorem groupOutput_kept (s : State) (a1 : Fin 2) (a2 : MonOut) : ((State.groupOutput s a1 a2)).kept = s.kept := by
  unfold State.groupOutput
  try dsimp only
  repeat' first | (simp [*]; done) | split | (with_reducible refine (bar0_kept _ _ ?_).trans ?_) | (with_reducible refine (onCommand_kept _ _ _ _ _ ?_).trans ?_) | (with_reducible refine (chans_kept _ _ ?_).trans ?_) | (with_reducible refine (ringArrive_kept _ _ _ _ ?_).trans ?_) | (with_reducible refine (onMessage_kept _ _ _ _ _ ?_).trans ?_) | (with_reducible refine (foldl_kept _ _ _ ?_).trans ?_) | intro _ | simp

@[simp] theorem rememberRange_kept (s : State) : ((State.rememberRange s)).kept = s.kept := by
  simp [State.rememberRange]

@[simp] theorem beginScan_kept (s : State) : ((State.beginScan s)).kept = s.kept := by
  unfold State.beginScan
  (repeat' split) <;> simp

@[simp] theorem passEnd_kept (s : State) : ((State.passEnd s)).kept = s.kept := by
  simp [State.passEnd]

@[simp] theorem calStart_kept (s : State) : ((State.calStart s)).kept = s.kept := by
  simp [State.calStart]

@[simp] theorem cmdSend_kept (s : State) (a1 : Cmd) (a2 : List DlItem) : ((State.cmdSend s a1 a2)).kept = s.kept := by
  simp [State.cmdSend]

@[simp] theorem dlUrgent_kept (s : State) (a1 : Port) (a2 : List DlItem) : ((State.dlUrgent s a1 a2)).kept = s.kept := by
  simp [State.dlUrgent]

@[simp] theorem feWrite_kept (s : State) (a1 : Cmd) : ((State.feWrite s a1)).kept = s.kept := by
  simp [State.feWrite]

@[simp] theorem feRead_kept (s : State) (a1 : Cmd) : ((State.feRead s a1)).kept = s.kept := by
  simp [State.feRead]

@[simp] theorem bulkGo_kept (s : State) (a1 : Cmd) (a2 : List Byte) : ((State.bulkGo s a1 a2)).kept = s.kept := by
  simp [State.bulkGo]

@[simp] theorem feBulk_kept (s : State) (a1 : Cmd) : ((State.feBulk s a1)).kept = s.kept := by
  unfold State.feBulk
  (repeat' split) <;> simp

@[simp] theorem commitAtCmd_kept (s : State) (a1 : Cmd) : ((State.commitAtCmd s a1)).kept = s.kept := by
  simp [State.commitAtCmd]

@[simp] theorem sendCommit_kept (s : State) (a1 : Cmd) (a2 : ℕ) : ((State.sendCommit s a1 a2)).kept = s.kept := by
  simp [State.sendCommit]

@[simp] theorem holdCommit_kept (s : State) (a1 : Cmd) : ((State.holdCommit s a1)).kept = s.kept := by
  simp [State.holdCommit]

@[simp] theorem holdCommits_kept (s : State) : ((State.holdCommits s)).kept = s.kept := by
  simp [State.holdCommits]

@[simp] theorem beginSnap_kept (s : State) (a1 : ℕ) (a2 : Option ℕ) (a3 : ℕ) (a4 : ℕ) :
    ((State.beginSnap s a1 a2 a3 a4)).kept = s.kept := by
  simp [State.beginSnap]

@[simp] theorem trueCmd_kept (s : State) (a1 : Cmd) : ((State.trueCmd s a1)).kept = s.kept := by
  simp [State.trueCmd]

@[simp] theorem runStop_kept (s : State) (a1 : Cmd) : ((State.runStop s a1)).kept = s.kept := by
  simp [State.runStop]

@[simp] theorem mark_kept (s : State) (a1 : Cmd) : ((State.mark s a1)).kept = s.kept := by
  simp [State.mark]

@[simp] theorem monCfg_kept (s : State) (a1 : Cmd) : ((State.monCfg s a1)).kept = s.kept := by
  unfold State.monCfg
  (repeat' split) <;> simp

@[simp] theorem releaseFence_kept (s : State) : ((State.releaseFence s)).kept = s.kept := by
  unfold State.releaseFence
  (repeat' split) <;> simp

@[simp] theorem wakeForRun_kept (s : State) (a1 : Cmd) : ((State.wakeForRun s a1)).kept = s.kept := by
  simp [State.wakeForRun]

@[simp] theorem decodeError_kept (s : State) (a1 : Cmd) (a2 : ℕ) (a3 : ℕ) :
    ((State.decodeError s a1 a2 a3)).kept = s.kept := by
  simp [State.decodeError]

@[simp] theorem armSnap_kept (s : State) (a1 : Snap) : ((State.armSnap s a1)).kept = s.kept := by
  simp [State.armSnap]

@[simp] theorem armSend_kept (s : State) : ((State.armSend s)).kept = s.kept := by
  simp [State.armSend]

@[simp] theorem reissue_kept (s : State) : ((State.reissue s)).kept = s.kept := by
  simp [State.reissue]

@[simp] theorem setQual_kept (s : State) (a1 : ℕ) (a2 : Bool) : ((State.setQual s a1 a2)).kept = s.kept := by
  unfold State.setQual
  (repeat' split) <;> simp

@[simp] theorem takeSource_kept (s : State) (a1 : ℕ) (a2 : Bool) : ((State.takeSource s a1 a2)).kept = s.kept := by
  simp [State.takeSource]

@[simp] theorem discardContexts_kept (s : State) : ((State.discardContexts s)).kept = s.kept := by
  simp [State.discardContexts]

@[simp] theorem dropWaiting_kept (s : State) (a1 : List ℕ) : ((State.dropWaiting s a1)).kept = s.kept := by
  simp [State.dropWaiting]

@[simp] theorem abortCmds_kept (s : State) : ((State.abortCmds s)).kept = s.kept := by
  simp [State.abortCmds]

@[simp] theorem portDark_kept (s : State) (a1 : Port) : ((State.portDark s a1)).kept = s.kept := by
  simp [State.portDark]

@[simp] theorem goDark_kept (s : State) : ((State.goDark s)).kept = s.kept := by
  simp [State.goDark]

@[simp] theorem refreshAll_kept (s : State) : ((State.refreshAll s)).kept = s.kept := by
  simp [State.refreshAll]

@[simp] theorem enterSafe_kept (s : State) (a1 : ℕ) : ((State.enterSafe s a1)).kept = s.kept := by
  simp [State.enterSafe]

@[simp] theorem exitTime_kept (s : State) (a1 : ℕ) : ((State.exitTime s a1)).kept = s.kept := by
  simp [State.exitTime]

@[simp] theorem wakeChannels_kept (s : State) : ((State.wakeChannels s)).kept = s.kept := by
  simp [State.wakeChannels]

@[simp] theorem cutRun_kept (s : State) (a1 : ℕ) : ((State.cutRun s a1)).kept = s.kept := by
  simp [State.cutRun]

@[simp] theorem ringLight_kept (s : State) : ((State.ringLight s)).kept = s.kept := by
  simp [State.ringLight]

@[simp] theorem restartStage_kept (s : State) : ((State.restartStage s)).kept = s.kept := by
  simp [State.restartStage]

@[simp] theorem exitSafe_kept (s : State) (a1 : ℕ) : ((State.exitSafe s a1)).kept = s.kept := by
  unfold State.exitSafe
  (repeat' split) <;> simp

@[simp] theorem pcieLink_kept (s : State) (a1 : ℕ) (a2 : ℕ) (a3 : Bool) : ((State.pcieLink s a1 a2 a3)).kept = s.kept := by
  simp [State.pcieLink]

@[simp] theorem ringClockLost_kept (s : State) (a1 : ℕ) (a2 : ℕ) : ((State.ringClockLost s a1 a2)).kept = s.kept := by
  simp [State.ringClockLost]

@[simp] theorem xtalLost_kept (s : State) : ((State.xtalLost s)).kept = s.kept := by
  simp [State.xtalLost]

@[simp] theorem clockTrip_kept (s : State) (a1 : ℕ) (a2 : Bool) : ((State.clockTrip s a1 a2)).kept = s.kept := by
  simp [State.clockTrip]

@[simp] theorem gateBit_kept (s : State) (a1 : ℕ) (a2 : Field) (a3 : ℕ) (a4 : Bool) (a5 : Bool) :
    ((State.gateBit s a1 a2 a3 a4 a5)).kept = s.kept := by
  simp [State.gateBit]

@[simp] theorem gatesWrite_kept (s : State) (a1 : ℕ) : ((State.gatesWrite s a1)).kept = s.kept := by
  simp [State.gatesWrite]

@[simp] theorem clusterEn_kept (s : State) (a1 : ℕ) (a2 : Bool) : ((State.clusterEn s a1 a2)).kept = s.kept := by
  simp [State.clusterEn]

@[simp] theorem dvfsPhase_kept (s : State) (a1 : ℕ) (a2 : DvfsPhase) (a3 : ℕ) :
    ((State.dvfsPhase s a1 a2 a3)).kept = s.kept := by
  simp [State.dvfsPhase]

@[simp] theorem dvfsNext_kept (s : State) (a1 : ℕ) : ((State.dvfsNext s a1)).kept = s.kept := by
  simp [State.dvfsNext]

@[simp] theorem dvfsEval_kept (s : State) (a1 : ℕ) : ((State.dvfsEval s a1)).kept = s.kept := by
  simp [State.dvfsEval]

@[simp] theorem dvfsCap_kept (s : State) (a1 : ℕ) : ((State.dvfsCap s a1)).kept = s.kept := by
  simp [State.dvfsCap]

@[simp] theorem dvfsTarget_kept (s : State) (a1 : ℕ) (a2 : ℕ) : ((State.dvfsTarget s a1 a2)).kept = s.kept := by
  simp [State.dvfsTarget]

@[simp] theorem powerGood_kept (s : State) (a1 : ℕ) : ((State.powerGood s a1)).kept = s.kept := by
  simp [State.powerGood]

@[simp] theorem pllRelock_kept (s : State) (a1 : ℕ) : ((State.pllRelock s a1)).kept = s.kept := by
  simp [State.pllRelock]

@[simp] theorem pgTimeout_kept (s : State) (a1 : ℕ) : ((State.pgTimeout s a1)).kept = s.kept := by
  simp [State.pgTimeout]

@[simp] theorem feedEvent_kept (s : State) (a1 : Bool) (a2 : ℕ) (a3 : ℕ) (a4 : ℕ) :
    ((State.feedEvent s a1 a2 a3 a4)).kept = s.kept := by
  simp [State.feedEvent]

@[simp] theorem feedLoss_kept (s : State) (a1 : Bool) (a2 : ℕ) : ((State.feedLoss s a1 a2)).kept = s.kept := by
  simp [State.feedLoss]

@[simp] theorem feedGapEnd_kept (s : State) (a1 : ℕ) (a2 : ℕ) : ((State.feedGapEnd s a1 a2)).kept = s.kept := by
  simp [State.feedGapEnd]

@[simp] theorem outputHoldEnd_kept (s : State) : ((State.outputHoldEnd s)).kept = s.kept := by
  unfold State.outputHoldEnd
  (repeat' split) <;> simp

@[simp] theorem clusters_kept (s : State) (a1 : State → ℕ → State) (h1 : ∀ s x, (a1 s x).kept = s.kept) :
    ((State.clusters s a1)).kept = s.kept := by
  unfold State.clusters
  try dsimp only
  repeat' first | (simp [*]; done) | split | (with_reducible refine (bar0_kept _ _ ?_).trans ?_) | (with_reducible refine (onCommand_kept _ _ _ _ _ ?_).trans ?_) | (with_reducible refine (chans_kept _ _ ?_).trans ?_) | (with_reducible refine (ringArrive_kept _ _ _ _ ?_).trans ?_) | (with_reducible refine (onMessage_kept _ _ _ _ _ ?_).trans ?_) | (with_reducible refine (foldl_kept _ _ _ ?_).trans ?_) | intro _ | simp

@[simp] theorem warnEntry_kept (s : State) (a1 : ℕ) (a2 : ℕ) : ((State.warnEntry s a1 a2)).kept = s.kept := by
  simp [State.warnEntry]

@[simp] theorem warnClear_kept (s : State) (a1 : ℕ) (a2 : ℕ) : ((State.warnClear s a1 a2)).kept = s.kept := by
  simp [State.warnClear]

@[simp] theorem capLift_kept (s : State) : ((State.capLift s)).kept = s.kept := by
  simp [State.capLift]

@[simp] theorem tickClusters_kept (s : State) : ((State.tickClusters s)).kept = s.kept := by
  simp [State.tickClusters]

@[simp] theorem idle_kept (s : State) : ((State.idle s)).kept = s.kept := by
  simp [State.idle]

@[simp] theorem upsets_kept (s : State) (a1 : ℕ) (a2 : ℕ) (a3 : List Upset) : ((State.upsets s a1 a2 a3)).kept = s.kept := by
  simp [State.upsets]

@[simp] theorem loseDir_kept (s : State) (a1 : ℕ) : ((State.loseDir s a1)).kept = s.kept := by
  simp [State.loseDir]

@[simp] theorem losePage_kept (s : State) (a1 : ℕ) : ((State.losePage s a1)).kept = s.kept := by
  simp [State.losePage]

@[simp] theorem loseLine_kept (s : State) (a1 : ℕ) : ((State.loseLine s a1)).kept = s.kept := by
  simp [State.loseLine]

@[simp] theorem metaEvent_kept (s : State) (a1 : ℕ) (a2 : ℕ) (a3 : ℕ) : ((State.metaEvent s a1 a2 a3)).kept = s.kept := by
  simp [State.metaEvent]

@[simp] theorem metaLineLost_kept (s : State) (a1 : ℕ) (a2 : ℕ) (a3 : ℕ) :
    ((State.metaLineLost s a1 a2 a3)).kept = s.kept := by
  simp [State.metaLineLost]

@[simp] theorem cleanPage_kept (s : State) (a1 : ℕ) (a2 : ℕ) : ((State.cleanPage s a1 a2)).kept = s.kept := by
  simp [State.cleanPage]

@[simp] theorem metaRepair_kept (s : State) (a1 : ℕ) (a2 : ℕ) : ((State.metaRepair s a1 a2)).kept = s.kept := by
  unfold State.metaRepair
  (repeat' split) <;> simp

@[simp] theorem lineRead_kept (s : State) (a1 : ℕ) (a2 : ℕ) (a3 : List Upset) :
    ((State.lineRead s a1 a2 a3)).kept = s.kept := by
  simp [State.lineRead]

@[simp] theorem correct_kept (s : State) (a1 : ℕ) (a2 : ℕ) (a3 : List (ℕ × ℕ × ℕ)) :
    ((State.correct s a1 a2 a3)).kept = s.kept := by
  simp [State.correct]

@[simp] theorem countAll_kept (s : State) (a1 : ℕ) (a2 : ℕ) (a3 : List (ℕ × ℕ × ℕ)) :
    ((State.countAll s a1 a2 a3)).kept = s.kept := by
  simp [State.countAll]

@[simp] theorem verify_kept (s : State) (a1 : ℕ) (a2 : ℕ) (a3 : List (ℕ × ℕ × ℕ)) (a4 : List Upset) :
    ((State.verify s a1 a2 a3 a4)).kept = s.kept := by
  unfold State.verify
  try dsimp only
  repeat' first | (simp [*]; done) | split | (with_reducible refine (bar0_kept _ _ ?_).trans ?_) | (with_reducible refine (onCommand_kept _ _ _ _ _ ?_).trans ?_) | (with_reducible refine (chans_kept _ _ ?_).trans ?_) | (with_reducible refine (ringArrive_kept _ _ _ _ ?_).trans ?_) | (with_reducible refine (onMessage_kept _ _ _ _ _ ?_).trans ?_) | (with_reducible refine (clusters_kept _ _ ?_).trans ?_) | (with_reducible refine (foldl_kept _ _ _ ?_).trans ?_) | intro _ | simp

@[simp] theorem scrubPage_kept (s : State) (a1 : ℕ) (a2 : ℕ) (a3 : List Upset) :
    ((State.scrubPage s a1 a2 a3)).kept = s.kept := by
  unfold State.scrubPage
  try dsimp only
  repeat' first | (simp [*]; done) | split | (with_reducible refine (bar0_kept _ _ ?_).trans ?_) | (with_reducible refine (onCommand_kept _ _ _ _ _ ?_).trans ?_) | (with_reducible refine (chans_kept _ _ ?_).trans ?_) | (with_reducible refine (ringArrive_kept _ _ _ _ ?_).trans ?_) | (with_reducible refine (onMessage_kept _ _ _ _ _ ?_).trans ?_) | (with_reducible refine (clusters_kept _ _ ?_).trans ?_) | (with_reducible refine (foldl_kept _ _ _ ?_).trans ?_) | intro _ | simp

@[simp] theorem lapEnd_kept (s : State) (a1 : ℕ) (a2 : Bool) : ((State.lapEnd s a1 a2)).kept = s.kept := by
  simp [State.lapEnd]

@[simp] theorem copyBlock_kept (s : State) (a1 : ℕ) (a2 : ℕ) (a3 : List (ℕ × ℕ × ℕ)) :
    ((State.copyBlock s a1 a2 a3)).kept = s.kept := by
  simp [State.copyBlock]

@[simp] theorem migrateOne_kept (s : State) (a1 : ℕ) (a2 : List Upset) : ((State.migrateOne s a1 a2)).kept = s.kept := by
  unfold State.migrateOne
  try dsimp only
  repeat' first | (simp [*]; done) | split | (with_reducible refine (bar0_kept _ _ ?_).trans ?_) | (with_reducible refine (onCommand_kept _ _ _ _ _ ?_).trans ?_) | (with_reducible refine (chans_kept _ _ ?_).trans ?_) | (with_reducible refine (ringArrive_kept _ _ _ _ ?_).trans ?_) | (with_reducible refine (onMessage_kept _ _ _ _ _ ?_).trans ?_) | (with_reducible refine (clusters_kept _ _ ?_).trans ?_) | (with_reducible refine (foldl_kept _ _ _ ?_).trans ?_) | intro _ | simp

@[simp] theorem migrated_kept (s : State) (a1 : ℕ) : ((State.migrated s a1)).kept = s.kept := by
  simp [State.migrated]

@[simp] theorem carry_kept (s : State) (a1 : State) (a2 : List Field) : ((State.carry s a1 a2)).kept = s.kept := by
  simp [State.carry]

@[simp] theorem settlePins_kept (s : State) : ((State.settlePins s)).kept = s.kept := by
  unfold State.settlePins
  try dsimp only
  repeat' first | (simp [*]; done) | split | (with_reducible refine (bar0_kept _ _ ?_).trans ?_) | (with_reducible refine (onCommand_kept _ _ _ _ _ ?_).trans ?_) | (with_reducible refine (chans_kept _ _ ?_).trans ?_) | (with_reducible refine (ringArrive_kept _ _ _ _ ?_).trans ?_) | (with_reducible refine (onMessage_kept _ _ _ _ _ ?_).trans ?_) | (with_reducible refine (clusters_kept _ _ ?_).trans ?_) | (with_reducible refine (foldl_kept _ _ _ ?_).trans ?_) | intro _ | simp

@[simp] theorem expireWhere_kept (s : State) (a1 : ℕ → Bool) : ((State.expireWhere s a1)).kept = s.kept := by
  simp [State.expireWhere]

@[simp] theorem keepStack_kept (s : State) (a1 : State) (a2 : ℕ) : ((State.keepStack s a1 a2)).kept = s.kept := by
  simp [State.keepStack]

@[simp] theorem release_kept (s : State) : ((State.release s)).kept = s.kept := by
  simp [State.release]

@[simp] theorem clocksDone_kept (s : State) : ((State.clocksDone s)).kept = s.kept := by
  simp [State.clocksDone]

@[simp] theorem engineOff_kept (s : State) (a1 : ℕ) : ((State.engineOff s a1)).kept = s.kept := by
  simp [State.engineOff]

@[simp] theorem startStack_kept (s : State) (a1 : ℕ) : ((State.startStack s a1)).kept = s.kept := by
  simp [State.startStack]

@[simp] theorem selftest_kept (s : State) (a1 : ℕ) (a2 : ℕ) (a3 : ℕ) (a4 : Bool) :
    ((State.selftest s a1 a2 a3 a4)).kept = s.kept := by
  simp [State.selftest]

@[simp] theorem chanStage_kept (s : State) (a1 : ℕ) (a2 : ℕ) (a3 : Bool) (a4 : DramRes) :
    ((State.chanStage s a1 a2 a3 a4)).kept = s.kept := by
  unfold State.chanStage
  (repeat' split) <;> simp

@[simp] theorem ready_kept (s : State) : ((State.ready s)).kept = s.kept := by
  simp [State.ready]

@[simp] theorem dramDone_kept (s : State) (a1 : ℕ) : ((State.dramDone s a1)).kept = s.kept := by
  simp [State.dramDone]

@[simp] theorem retryDone_kept (s : State) (a1 : ℕ) : ((State.retryDone s a1)).kept = s.kept := by
  simp [State.retryDone]

@[simp] theorem retryWrite_kept (s : State) (a1 : ℕ) : ((State.retryWrite s a1)).kept = s.kept := by
  simp [State.retryWrite]

@[simp] theorem freeDirSlot_kept (s : State) (a1 : ℕ) : ((State.freeDirSlot s a1)).kept = s.kept := by
  simp [State.freeDirSlot]

@[simp] theorem enterFrame_kept (s : State) (a1 : ℕ) (a2 : ℕ × ℕ) (a3 : List Seg) (a4 : ℕ) :
    ((State.enterFrame s a1 a2 a3 a4).1).kept = s.kept := by
  simp [State.enterFrame]

@[simp] theorem stallPort_kept (s : State) (a1 : ℕ) (a2 : Bool) (a3 : Port) :
    ((State.stallPort s a1 a2 a3)).kept = s.kept := by
  simp [State.stallPort]

@[simp] theorem countPresent_kept (s : State) (a1 : ℕ) (a2 : Seg) : ((State.countPresent s a1 a2)).kept = s.kept := by
  simp [State.countPresent]

@[simp] theorem placeSelfStop_kept (s : State) : ((State.placeSelfStop s)).kept = s.kept := by
  simp [State.placeSelfStop]

@[simp] theorem endIfLast_kept (s : State) (a1 : ℕ) : ((State.endIfLast s a1)).kept = s.kept := by
  simp [State.endIfLast]

@[simp] theorem zgrant_kept (s : State) (a1 : ℕ) : ((State.zgrant s a1)).kept = s.kept := by
  unfold State.zgrant
  try dsimp only
  repeat' first | (simp [*]; done) | split | (with_reducible refine (bar0_kept _ _ ?_).trans ?_) | (with_reducible refine (onCommand_kept _ _ _ _ _ ?_).trans ?_) | (with_reducible refine (chans_kept _ _ ?_).trans ?_) | (with_reducible refine (ringArrive_kept _ _ _ _ ?_).trans ?_) | (with_reducible refine (onMessage_kept _ _ _ _ _ ?_).trans ?_) | (with_reducible refine (clusters_kept _ _ ?_).trans ?_) | (with_reducible refine (foldl_kept _ _ _ ?_).trans ?_) | intro _ | simp

@[simp] theorem zflushNow_kept (s : State) (a1 : ℕ) : ((State.zflushNow s a1)).kept = s.kept := by
  simp [State.zflushNow]

@[simp] theorem zblock_kept (s : State) (a1 : Ctx) (a2 : ℕ) (a3 : ℕ) (a4 : Bool) (a5 : List Bool) :
    ((State.zblock s a1 a2 a3 a4 a5)).kept = s.kept := by
  simp [State.zblock]

@[simp] theorem compressBlock_kept (s : State) (a1 : ℕ) (a2 : List Bool) :
    ((State.compressBlock s a1 a2)).kept = s.kept := by
  unfold State.compressBlock
  (repeat' split) <;> simp

@[simp] theorem idleFlush_kept (s : State) (a1 : ℕ) (a2 : List Bool) : ((State.idleFlush s a1 a2)).kept = s.kept := by
  unfold State.idleFlush
  (repeat' split) <;> simp

@[simp] theorem updEcho_kept (s : State) (a1 : Side) (a2 : RingEcho → RingEcho) :
    ((State.updEcho s a1 a2)).kept = s.kept := by
  rfl

@[simp] theorem ringEchoBlock_kept (s : State) (a1 : Side) (a2 : List Byte) :
    ((State.ringEchoBlock s a1 a2)).kept = s.kept := by
  simp [State.ringEchoBlock]

@[simp] theorem ringEchoTake_kept (s : State) (a1 : Side) (a2 : RxBlock) (a3 : ℕ) :
    ((State.ringEchoTake s a1 a2 a3).1).kept = s.kept := by
  unfold State.ringEchoTake
  (repeat' split) <;> simp

@[simp] theorem ringEchoReq_kept (s : State) (a1 : Side) : ((State.ringEchoReq s a1)).kept = s.kept := by
  simp [State.ringEchoReq]

@[simp] theorem ringEchoAnswer_kept (s : State) (a1 : Side) (a2 : List Byte) (a3 : Fin 2048) (a4 : ℕ) :
    ((State.ringEchoAnswer s a1 a2 a3 a4)).kept = s.kept := by
  simp [State.ringEchoAnswer]

@[simp] theorem ringEchoResp_kept (s : State) (a1 : Side) (a2 : List Byte) (a3 : Fin 2048) :
    ((State.ringEchoResp s a1 a2 a3)).kept = s.kept := by
  unfold State.ringEchoResp
  try dsimp only
  repeat' first | (simp [*]; done) | split | (with_reducible refine (bar0_kept _ _ ?_).trans ?_) | (with_reducible refine (onCommand_kept _ _ _ _ _ ?_).trans ?_) | (with_reducible refine (chans_kept _ _ ?_).trans ?_) | (with_reducible refine (ringArrive_kept _ _ _ _ ?_).trans ?_) | (with_reducible refine (onMessage_kept _ _ _ _ _ ?_).trans ?_) | (with_reducible refine (clusters_kept _ _ ?_).trans ?_) | (with_reducible refine (foldl_kept _ _ _ ?_).trans ?_) | intro _ | simp

@[simp] theorem ringEchoLate_kept (s : State) (a1 : Side) (a2 : ℕ) : ((State.ringEchoLate s a1 a2)).kept = s.kept := by
  simp [State.ringEchoLate]

@[simp] theorem loadSync_kept (s : State) (a1 : Port) : ((State.loadSync s a1)).kept = s.kept := by
  simp [State.loadSync]

@[simp] theorem checkSync_kept (s : State) (a1 : Port) : ((State.checkSync s a1)).kept = s.kept := by
  simp [State.checkSync]

@[simp] theorem epochSync_kept (s : State) (a1 : Port) : ((State.epochSync s a1)).kept = s.kept := by
  simp [State.epochSync]

@[simp] theorem echoReq_kept (s : State) (a1 : Port) : ((State.echoReq s a1)).kept = s.kept := by
  simp [State.echoReq]

@[simp] theorem endBurst_kept (s : State) (a1 : Port) : ((State.endBurst s a1)).kept = s.kept := by
  simp [State.endBurst]

@[simp] theorem echoEvent_kept (s : State) (a1 : Port) (a2 : ℕ) : ((State.echoEvent s a1 a2)).kept = s.kept := by
  simp [State.echoEvent]

@[simp] theorem average_kept (s : State) (a1 : Port) : ((State.average s a1)).kept = s.kept := by
  simp [State.average]

@[simp] theorem echoResp_kept (s : State) (a1 : Port) (a2 : List Byte) (a3 : ℕ) :
    ((State.echoResp s a1 a2 a3)).kept = s.kept := by
  unfold State.echoResp
  try dsimp only
  repeat' first | (simp [*]; done) | split | (with_reducible refine (bar0_kept _ _ ?_).trans ?_) | (with_reducible refine (onCommand_kept _ _ _ _ _ ?_).trans ?_) | (with_reducible refine (chans_kept _ _ ?_).trans ?_) | (with_reducible refine (ringArrive_kept _ _ _ _ ?_).trans ?_) | (with_reducible refine (onMessage_kept _ _ _ _ _ ?_).trans ?_) | (with_reducible refine (clusters_kept _ _ ?_).trans ?_) | (with_reducible refine (foldl_kept _ _ _ ?_).trans ?_) | intro _ | simp

@[simp] theorem echoLate_kept (s : State) (a1 : Port) (a2 : ℕ) : ((State.echoLate s a1 a2)).kept = s.kept := by
  unfold State.echoLate
  (repeat' split) <;> simp

@[simp] theorem sendOut_kept (s : State) (a1 : ℕ) : ((State.sendOut s a1)).kept = s.kept := by
  simp [State.sendOut]

@[simp] theorem eventWrite_kept (s : State) : ((State.eventWrite s)).kept = s.kept := by
  unfold State.eventWrite
  (repeat' split) <;> simp

@[simp] theorem updSnap_kept (s : State) (a1 : ℕ) (a2 : Snap → Snap) : ((State.updSnap s a1 a2)).kept = s.kept := by
  rfl

@[simp] theorem snapLatch_kept (s : State) : ((State.snapLatch s)).kept = s.kept := by
  unfold State.snapLatch
  (repeat' split) <;> simp

@[simp] theorem snapBuild_kept (s : State) : ((State.snapBuild s)).kept = s.kept := by
  unfold State.snapBuild
  (repeat' split) <;> simp

@[simp] theorem snapWrite_kept (s : State) : ((State.snapWrite s)).kept = s.kept := by
  unfold State.snapWrite
  (repeat' split) <;> simp

@[simp] theorem periodic_kept (s : State) : ((State.periodic s)).kept = s.kept := by
  simp [State.periodic]

@[simp] theorem configScrub_kept (s : State) (a1 : Port) : ((State.configScrub s a1)).kept = s.kept := by
  simp [State.configScrub]

@[simp] theorem bellIn_kept (s : State) (a1 : ℕ) (a2 : ℕ) : ((State.bellIn s a1 a2)).kept = s.kept := by
  simp [State.bellIn]

@[simp] theorem bellOut_kept (s : State) (a1 : ℕ) (a2 : ℕ) : ((State.bellOut s a1 a2)).kept = s.kept := by
  simp [State.bellOut]

@[simp] theorem doorbell_kept (s : State) (a1 : ℕ) (a2 : ℕ) : ((State.doorbell s a1 a2)).kept = s.kept := by
  simp [State.doorbell]

@[simp] theorem ringCfg_kept (s : State) (a1 : ℕ) (a2 : ℕ) : ((State.ringCfg s a1 a2)).kept = s.kept := by
  simp [State.ringCfg]

@[simp] theorem freshCount_kept (s : State) (a1 : ℕ) : ((State.freshCount s a1)).kept = s.kept := by
  simp [State.freshCount]

@[simp] theorem hostRingEnable_kept (s : State) (a1 : ℕ) (a2 : ℕ) : ((State.hostRingEnable s a1 a2)).kept = s.kept := by
  unfold State.hostRingEnable
  try dsimp only
  repeat' first | (simp [*]; done) | split | (with_reducible refine (bar0_kept _ _ ?_).trans ?_) | (with_reducible refine (onCommand_kept _ _ _ _ _ ?_).trans ?_) | (with_reducible refine (chans_kept _ _ ?_).trans ?_) | (with_reducible refine (ringArrive_kept _ _ _ _ ?_).trans ?_) | (with_reducible refine (onMessage_kept _ _ _ _ _ ?_).trans ?_) | (with_reducible refine (clusters_kept _ _ ?_).trans ?_) | (with_reducible refine (foldl_kept _ _ _ ?_).trans ?_) | intro _ | simp

@[simp] theorem hostRingDisable_kept (s : State) (a1 : ℕ) (a2 : ℕ) : ((State.hostRingDisable s a1 a2)).kept = s.kept := by
  simp [State.hostRingDisable]

@[simp] theorem msixLate_kept (s : State) (a1 : ℕ) : ((State.msixLate s a1)).kept = s.kept := by
  simp [State.msixLate]

@[simp] theorem msixMask_kept (s : State) (a1 : ℕ) (a2 : ℕ) : ((State.msixMask s a1 a2)).kept = s.kept := by
  simp [State.msixMask]

@[simp] theorem msixWrite_kept (s : State) (a1 : ℕ) (a2 : ℕ) : ((State.msixWrite s a1 a2)).kept = s.kept := by
  unfold State.msixWrite
  (repeat' split) <;> simp

@[simp] theorem dmaFail_kept (s : State) (a1 : ℕ) : ((State.dmaFail s a1)).kept = s.kept := by
  simp [State.dmaFail]

@[simp] theorem stopRing_kept (s : State) (a1 : ℕ) (a2 : ℕ) (a3 : ℕ) : ((State.stopRing s a1 a2 a3)).kept = s.kept := by
  simp [State.stopRing]

@[simp] theorem starve_kept (s : State) : ((State.starve s)).kept = s.kept := by
  simp [State.starve]

@[simp] theorem tlpError_kept (s : State) (a1 : TlpError) : ((State.tlpError s a1)).kept = s.kept := by
  simp [State.tlpError]

@[simp] theorem linkChange_kept (s : State) (a1 : ℕ) (a2 : ℕ) (a3 : Bool) :
    ((State.linkChange s a1 a2 a3)).kept = s.kept := by
  simp [State.linkChange]

@[simp] theorem hostReset_kept (s : State) : ((State.hostReset s)).kept = s.kept := by
  simp [State.hostReset]

@[simp] theorem perst_kept (s : State) : ((State.perst s)).kept = s.kept := by
  simp [State.perst]

@[simp] theorem latchWord_kept (s : State) (a1 : ℕ) : ((State.latchWord s a1)).kept = s.kept := by
  simp [State.latchWord]

@[simp] theorem readWord_kept (s : State) (a1 : ℕ) : ((State.readWord s a1)).kept = s.kept := by
  simp [State.readWord]

@[simp] theorem bar0Read_kept (s : State) (a1 : ℕ) : ((State.bar0Read s a1)).kept = s.kept := by
  simp [State.bar0Read]

@[simp] theorem mirrorRead_kept (s : State) (a1 : ℕ) : ((State.mirrorRead s a1)).kept = s.kept := by
  simp [State.mirrorRead]

@[simp] theorem badRead_kept (s : State) (a1 : ℕ) (a2 : ℕ) (a3 : Bool) (a4 : ℕ) :
    ((State.badRead s a1 a2 a3 a4)).kept = s.kept := by
  simp [State.badRead]

@[simp] theorem plainWrite_kept (s : State) (a1 : ℕ) (a2 : ℕ) (a3 : Field → Bool) :
    ((State.plainWrite s a1 a2 a3)).kept = s.kept := by
  simp [State.plainWrite]

@[simp] theorem shadowWrite_kept (s : State) (a1 : ℕ) (a2 : ℕ) : ((State.shadowWrite s a1 a2)).kept = s.kept := by
  simp [State.shadowWrite]

@[simp] theorem baseWrite_kept (s : State) (a1 : ℕ) (a2 : ℕ) (a3 : ℕ) : ((State.baseWrite s a1 a2 a3)).kept = s.kept := by
  simp [State.baseWrite]

@[simp] theorem telWrite_kept (s : State) (a1 : ℕ) (a2 : ℕ) : ((State.telWrite s a1 a2)).kept = s.kept := by
  simp [State.telWrite]

@[simp] theorem cscrubWrite_kept (s : State) (a1 : ℕ) (a2 : ℕ) : ((State.cscrubWrite s a1 a2)).kept = s.kept := by
  simp [State.cscrubWrite]

@[simp] theorem checkerOff_kept (s : State) (a1 : Link) : ((State.checkerOff s a1)).kept = s.kept := by
  simp [State.checkerOff]

@[simp] theorem prbsWrite_kept (s : State) (a1 : Port) (a2 : ℕ) (a3 : ℕ) : ((State.prbsWrite s a1 a2 a3)).kept = s.kept := by
  simp [State.prbsWrite]

@[simp] theorem sendLoop_kept (s : State) (a1 : Side) (a2 : ℕ) : ((State.sendLoop s a1 a2)).kept = s.kept := by
  simp [State.sendLoop]

@[simp] theorem ringLoop_kept (s : State) (a1 : Side) (a2 : ℕ) (a3 : ℕ) : ((State.ringLoop s a1 a2 a3)).kept = s.kept := by
  simp [State.ringLoop]

@[simp] theorem ringLctl_kept (s : State) (a1 : Side) (a2 : ℕ) : ((State.ringLctl s a1 a2)).kept = s.kept := by
  simp [State.ringLctl]

@[simp] theorem ringLaneWrite_kept (s : State) (a1 : Side) (a2 : ℕ) (a3 : ℕ) :
    ((State.ringLaneWrite s a1 a2 a3)).kept = s.kept := by
  simp [State.ringLaneWrite]

@[simp] theorem typedWrite_kept (s : State) (a1 : ℕ) (a2 : ℕ) : ((State.typedWrite s a1 a2)).kept = s.kept := by
  simp [State.typedWrite]

@[simp] theorem regWrite_kept (s : State) (a1 : ℕ) (a2 : ℕ) : ((State.regWrite s a1 a2)).kept = s.kept := by
  simp [State.regWrite]

@[simp] theorem runStart_kept (s : State) (a1 : Cmd) : ((State.runStart s a1)).kept = s.kept := by
  simp only [State.runStart, if_kept, finish_kept, announceStart_kept, beginRun_kept, zwrap_kept, ite_self]

/-! ### Operations that write a memory or an engine -/

theorem ite_ok (c : Prop) [Decidable c] (a b : State) (ha : a.kept.ok) (hb : b.kept.ok) : (if c then a else b).kept.ok := by
  split <;> assumption

theorem Engine.ok_empty : Engine.ok {} := ⟨rfl, rfl, by decide, rfl, rfl⟩

theorem tabOf_above {α : Type} [DecidableEq α] (d : α) (l : List α) {a k : Nat} (h : a < k) : Tab.above a (tabOf d k l) = true := by
  induction l generalizing k with
  | nil => rfl
  | cons v t ih =>
    unfold tabOf
    split
    · exact ih (by omega)
    · simp [Tab.above, h, ih (Nat.lt_succ_of_lt h)]

theorem tabOf_wf {α : Type} [DecidableEq α] (d : α) (l : List α) (k : Nat) : Tab.wf d (tabOf d k l) = true := by
  induction l generalizing k with
  | nil => rfl
  | cons v t ih =>
    unfold tabOf
    split
    · exact ih _
    · rename_i hv
      simp [Tab.wf, hv, ih, tabOf_above d t (Nat.lt_succ_self k)]

theorem Engine.setReg_ok {x : Engine} (h : x.ok) (r : Reg) (v : Word) : (x.setReg r v).ok := by
  unfold Engine.setReg
  split
  · exact h
  · rename_i hr
    refine ⟨?_, h.2⟩
    have h0 : (0 : Nat) ≠ r.val := fun e => hr (Fin.ext e.symm)
    exact (Tab.get_set_other _ _ _ h0).trans h.1

theorem engStep_ok (s : State) (e pc : Nat) (h : s.kept.ok) (hp : pc % 4 = 0) : (s.engStep e pc).kept.ok := by
  unfold State.engStep
  rw [zwrap_kept]
  exact updEng_ok _ _ _ h fun x hx => ⟨hx.1, by simp only; omega, Nat.mod_lt _ (by decide), hx.2.2.2⟩

theorem pc_of_ok {s : State} (h : s.kept.ok) (e : Nat) : (s.eng e).pc % 4 = 0 := (h.1 e).2.1

theorem engNext_ok (s : State) (e : Nat) (h : s.kept.ok) : (s.engNext e).kept.ok :=
  engStep_ok _ _ _ h (by have := pc_of_ok h e; omega)

theorem result_ok (s : State) (e : Nat) (rd : Reg) (v : Word) (h : s.kept.ok) : (s.result e rd v).kept.ok :=
  engNext_ok _ _ (updEng_ok _ _ _ h fun _ hx => Engine.setReg_ok hx _ _)

theorem setEbyte_ok (s : State) (e : Nat) (a : Word) (b : Byte) (h : s.kept.ok) : (s.setEbyte e a b).kept.ok := by
  unfold State.setEbyte
  split
  · exact updShm_ok _ _ h fun t ht => Tab.wf_set _ _ ht
  · exact updEng_ok _ _ _ h fun x hx => ⟨hx.1, hx.2.1, hx.2.2.1, hx.2.2.2.1, Tab.wf_set _ _ hx.2.2.2.2⟩

theorem storeLine_ok (s : State) (ch l : Nat) (bytes : List Byte) (h : s.kept.ok) : (s.storeLine ch l bytes).kept.ok := by
  unfold State.storeLine
  dsimp only
  rw [zwrap_kept, updBuf_kept]
  · exact updBuf_ok _ _ h fun hm => Tab.wf_foldl_set _ _ _ hm
  · split <;> rfl

theorem storeByte_ok (s : State) (ch l : Nat) (b : Byte) (h : s.kept.ok) : (s.storeByte ch l b).kept.ok := by
  unfold State.storeByte
  rw [setDamage_kept]
  exact updBuf_ok _ _ h fun hm => Tab.wf_set _ _ hm

theorem loseRanks_ok (s : State) (h : s.kept.ok) : s.loseRanks.kept.ok := updBuf_ok _ _ h fun hm => Tab.wf_filter _ hm

theorem wipeStack_ok (s : State) (n : Nat) (h : s.kept.ok) : (s.wipeStack n).kept.ok := updBuf_ok _ _ h fun hm => Tab.wf_filter _ hm

theorem engStart_ok (s : State) (e : Nat) (h : s.kept.ok) : (s.engStart e).kept.ok := by
  unfold State.engStart
  split
  · exact h
  · rw [zput_kept]
    refine updEng_ok _ _ _ h fun x hx => ⟨?_, rfl, Nat.zero_lt_succ _, hx.2.2.2⟩
    change Tab.get 0 (Tab.set 0 (Tab.set 0 [] 1 _) 2 _) 0 = 0
    rw [Tab.get_set_other _ _ _ (by decide), Tab.get_set_other _ _ _ (by decide)]
    rfl

theorem engLoad_ok (s : State) (e prog : Nat) (m : EngImage) (h : s.kept.ok) : (s.engLoad e prog m).kept.ok := by
  unfold State.engLoad
  dsimp only
  simp only [zput_kept]
  exact updEng_ok _ _ _ h fun x hx => ⟨hx.1, hx.2.1, hx.2.2.1, tabOf_wf _ _ _, tabOf_wf _ _ _⟩

theorem engLoadAll_ok (s : State) (c prog : Nat) (es : List Nat) (m : EngImage) (h : s.kept.ok) :
    (s.engLoadAll c prog es m).kept.ok :=
  foldl_ok _ _ _ (foldl_ok _ _ _ h fun _ _ hs => engLoad_ok _ _ _ _ hs) fun _ _ hs => updShm_ok _ _ hs fun _ ht => Tab.wf_set _ _ ht

theorem engOffWrite_ok (s : State) (e : Nat) (off : Bool) (h : s.kept.ok) : (s.engOffWrite e off).kept.ok := by
  unfold State.engOffWrite
  dsimp only
  repeat' first
    | assumption
    | split
    | (simp only [zput_kept]; exact updEng_ok _ _ _ h fun _ _ => Engine.ok_empty)
    | (simpa using h)

theorem engineWrite_ok (s : State) (e x : Nat) (bytes : List Byte) (h : s.kept.ok) : (s.engineWrite e x bytes).kept.ok := by
  unfold State.engineWrite
  split
  · exact updEng_ok _ _ _ h fun y hy => ⟨hy.1, hy.2.1, hy.2.2.1, Tab.wf_foldl_set _ _ _ hy.2.2.2.1, hy.2.2.2.2⟩
  · exact updEng_ok _ _ _ h fun y hy => ⟨hy.1, hy.2.1, hy.2.2.1, hy.2.2.2.1, Tab.wf_foldl_set _ _ _ hy.2.2.2.2⟩

theorem chipReset_ok (s : State) (cause rail : Nat) : (s.chipReset cause rail).kept.ok :=
  ⟨fun _ => Engine.ok_empty, rfl, rfl, rfl⟩

theorem keepBuffer_ok (r s : State) (hr : r.kept.ok) (hs : s.kept.ok) : (r.keepBuffer s).kept.ok := by
  unfold State.keepBuffer
  dsimp only
  rw [foldl_kept _ _ _ fun _ _ => keepStack_kept _ _ _, updRun_kept]
  exact updBuf_ok _ _ hr fun _ => hs.2.1

end Sys2Proof.Machine
end

