-- ==== Sys2Proof/Laws/Inv.lean ====
section
/-!
SUPPORT. The operations that touch an engine or a memory: each leaves the queue alone (`_pend`) and keeps the invariant of the block
(`_ok`).
-/

namespace Sys2Proof.Machine

set_option linter.unusedTactic false
set_option linter.unreachableTactic false

@[simp] theorem bar0_pend (s : State) (a2 : State → State) (h2 : ∀ s, (a2 s).kept.pending = s.kept.pending) :
    (State.bar0 s a2).kept.pending = s.kept.pending := by
  simp [State.bar0, *]

theorem bar0_ok (s : State) (a2 : State → State) (h : s.kept.ok) (h2 : ∀ s, s.kept.ok → (a2 s).kept.ok) :
    (State.bar0 s a2).kept.ok := by
  unfold State.bar0
  try dsimp only
  repeat' first | with_reducible assumption | (simp [*]; done) | (exact fun x hx => hx) | split | intro _ | simp

@[simp] theorem storeLine_pend (s : State) (a1 : ℕ) (a2 : ℕ) (a3 : List Byte) :
    (State.storeLine s a1 a2 a3).kept.pending = s.kept.pending := by
  simp [State.storeLine, *]

@[simp] theorem writeEventLine_pend (s : State) (a1 : ℕ) (a2 : ℕ) (a3 : List Byte) :
    (State.writeEventLine s a1 a2 a3).kept.pending = s.kept.pending := by
  simp [State.writeEventLine, *]

theorem writeEventLine_ok (s : State) (a1 : ℕ) (a2 : ℕ) (a3 : List Byte) (h : s.kept.ok) :
    (State.writeEventLine s a1 a2 a3).kept.ok := by
  unfold State.writeEventLine
  dsimp only
  have h2 : ∀ u : State, u.kept.ok → ((u.storeLine a1 a2 a3).updBuf fun b => { b with opens := b.opens.map fun (o : OpenPage) =>
      if o.ch = a1 ∧ o.page = a2 / 2048 then { o with lines := a2 % 2048 / 64 + 1 } else o }).kept.ok := by
    intro u hu
    rw [updBuf_kept _ _ (by rfl)]
    exact storeLine_ok _ _ _ _ hu
  split <;> split <;> first | (rw [sealPage_kept]; apply h2; simpa using h) | (apply h2; simpa using h)

@[simp] theorem onCommand_pend (s : State) (a1 : Port) (a2 : RxBlock) (a3 : ℕ → Bool) (a4 : State → List Byte → State) (h4 :
    ∀ s x, (a4 s x).kept.pending = s.kept.pending) :
    (State.onCommand s a1 a2 a3 a4).kept.pending = s.kept.pending := by
  unfold State.onCommand
  try dsimp only
  repeat' first | (simp [*]; done) | split | intro _ | simp

theorem onCommand_ok (s : State) (a1 : Port) (a2 : RxBlock) (a3 : ℕ → Bool) (a4 : State → List Byte → State) (h : s.kept.ok)
    (h4 : ∀ s x, s.kept.ok → (a4 s x).kept.ok) :
    (State.onCommand s a1 a2 a3 a4).kept.ok := by
  unfold State.onCommand
  try dsimp only
  repeat' first | with_reducible assumption | (simp [*]; done) | (exact fun x hx => hx) | split | intro _ | simp

@[simp] theorem setEbyte_pend (s : State) (a1 : ℕ) (a2 : Word) (a3 : Byte) :
    (State.setEbyte s a1 a2 a3).kept.pending = s.kept.pending := by
  simp [State.setEbyte, *]

@[simp] theorem estore_pend (s : State) (a1 : ℕ) (a2 : Word) (a3 : ℕ) (a4 : ℕ) :
    (State.estore s a1 a2 a3 a4).kept.pending = s.kept.pending := by
  simp [State.estore, *]

theorem estore_ok (s : State) (a1 : ℕ) (a2 : Word) (a3 : ℕ) (a4 : ℕ) (h : s.kept.ok) :
    (State.estore s a1 a2 a3 a4).kept.ok := by
  unfold State.estore
  repeat' first
    | with_reducible assumption
    | split
    | with_reducible refine setEbyte_ok _ _ _ _ ?_
    | with_reducible refine foldl_ok _ _ _ ?_ ?_
    | intro _

@[simp] theorem dropWork_pend (s : State) (a1 : ℕ) :
    (State.dropWork s a1).kept.pending = s.kept.pending := by
  unfold State.dropWork
  try dsimp only
  repeat' first | (simp [*]; done) | split | intro _ | simp

theorem dropWork_ok (s : State) (a1 : ℕ) (h : s.kept.ok) :
    (State.dropWork s a1).kept.ok := by
  unfold State.dropWork
  try dsimp only
  repeat' first
    | with_reducible assumption
    | (simp [*]; done)
    | (exact fun x hx => hx)
    | split
    | with_reducible refine updEng_ok _ _ _ ?_ ?_
    | intro _
    | simp

@[simp] theorem engFault_pend (s : State) (a1 : ℕ) (a2 : ℕ) (a3 : ℕ) :
    (State.engFault s a1 a2 a3).kept.pending = s.kept.pending := by
  simp [State.engFault, *]

theorem engFault_ok (s : State) (a1 : ℕ) (a2 : ℕ) (a3 : ℕ) (h : s.kept.ok) :
    (State.engFault s a1 a2 a3).kept.ok := by
  unfold State.engFault
  try dsimp only
  repeat' first
    | with_reducible assumption
    | (simp [*]; done)
    | (exact fun x hx => hx)
    | split
    | with_reducible refine dropWork_ok _ _ ?_
    | intro _
    | simp

@[simp] theorem engHalt_pend (s : State) (a1 : ℕ) :
    (State.engHalt s a1).kept.pending = s.kept.pending := by
  simp [State.engHalt, *]

theorem engHalt_ok (s : State) (a1 : ℕ) (h : s.kept.ok) :
    (State.engHalt s a1).kept.ok := by
  unfold State.engHalt
  repeat' first
    | with_reducible assumption
    | split
    | with_reducible refine dropWork_ok _ _ ?_
    | (exact fun x hx => hx)
    | (simpa using h)
    | intro _

@[simp] theorem engStart_pend (s : State) (a1 : ℕ) :
    (State.engStart s a1).kept.pending = s.kept.pending := by
  simp [State.engStart, *]

@[simp] theorem engDeliver_pend (s : State) (a1 : ℕ) (a2 : EngMsg) :
    (State.engDeliver s a1 a2).kept.pending = s.kept.pending := by
  simp [State.engDeliver, *]

theorem engDeliver_ok (s : State) (a1 : ℕ) (a2 : EngMsg) (h : s.kept.ok) :
    (State.engDeliver s a1 a2).kept.ok := by
  unfold State.engDeliver
  try dsimp only
  repeat' first
    | with_reducible assumption
    | (simp [*]; done)
    | (exact fun x hx => hx)
    | split
    | with_reducible refine updEng_ok _ _ _ ?_ ?_
    | intro _
    | simp

@[simp] theorem engRelease_pend (s : State) (a1 : ℕ) :
    (State.engRelease s a1).kept.pending = s.kept.pending := by
  unfold State.engRelease
  try dsimp only
  repeat' first | (simp [*]; done) | split | intro _ | simp

theorem engRelease_ok (s : State) (a1 : ℕ) (h : s.kept.ok) :
    (State.engRelease s a1).kept.ok := by
  unfold State.engRelease
  try dsimp only
  repeat' first
    | with_reducible assumption
    | (simp [*]; done)
    | (exact fun x hx => hx)
    | split
    | with_reducible refine updEng_ok _ _ _ ?_ ?_
    | intro _
    | simp

@[simp] theorem carveDispatch_pend (s : State) (a1 : ℕ) (a2 : ℕ) :
    (State.carveDispatch s a1 a2).kept.pending = s.kept.pending := by
  unfold State.carveDispatch
  try dsimp only
  repeat' first | (simp [*]; done) | split | intro _ | simp

theorem carveDispatch_ok (s : State) (a1 : ℕ) (a2 : ℕ) (h : s.kept.ok) :
    (State.carveDispatch s a1 a2).kept.ok := by
  unfold State.carveDispatch
  try dsimp only
  repeat' first
    | with_reducible assumption
    | (simp [*]; done)
    | (exact fun x hx => hx)
    | split
    | with_reducible refine engDeliver_ok _ _ _ ?_
    | intro _
    | simp

@[simp] theorem carveDone_pend (s : State) (a1 : ℕ) :
    (State.carveDone s a1).kept.pending = s.kept.pending := by
  unfold State.carveDone
  try dsimp only
  repeat' first | (simp [*]; done) | split | intro _ | simp

theorem carveDone_ok (s : State) (a1 : ℕ) (h : s.kept.ok) :
    (State.carveDone s a1).kept.ok := by
  unfold State.carveDone
  try dsimp only
  repeat' first
    | with_reducible assumption
    | (simp [*]; done)
    | (exact fun x hx => hx)
    | split
    | with_reducible refine updEng_ok _ _ _ ?_ ?_
    | intro _
    | simp

@[simp] theorem feedEngine_pend (s : State) (a1 : FrameView) (a2 : ℕ) :
    (State.feedEngine s a1 a2).kept.pending = s.kept.pending := by
  simp [State.feedEngine, *]

theorem feedEngine_ok (s : State) (a1 : FrameView) (a2 : ℕ) (h : s.kept.ok) :
    (State.feedEngine s a1 a2).kept.ok := by
  unfold State.feedEngine
  try dsimp only
  repeat' first
    | with_reducible assumption
    | (simp [*]; done)
    | (exact fun x hx => hx)
    | split
    | with_reducible refine engDeliver_ok _ _ _ ?_
    | with_reducible refine foldl_ok _ _ _ ?_ ?_
    | intro _
    | simp

@[simp] theorem feedEngines_pend (s : State) (a1 : FrameView) :
    (State.feedEngines s a1).kept.pending = s.kept.pending := by
  simp [State.feedEngines, *]

theorem feedEngines_ok (s : State) (a1 : FrameView) (h : s.kept.ok) :
    (State.feedEngines s a1).kept.ok := by
  unfold State.feedEngines
  repeat' first
    | with_reducible assumption
    | split
    | with_reducible refine feedEngine_ok _ _ _ ?_
    | with_reducible refine foldl_ok _ _ _ ?_ ?_
    | intro _

@[simp] theorem feedReset_pend (s : State) (a1 : ℕ) :
    (State.feedReset s a1).kept.pending = s.kept.pending := by
  simp [State.feedReset, *]

theorem feedReset_ok (s : State) (a1 : ℕ) (h : s.kept.ok) :
    (State.feedReset s a1).kept.ok := by
  unfold State.feedReset
  try dsimp only
  repeat' first
    | with_reducible assumption
    | (simp [*]; done)
    | (exact fun x hx => hx)
    | split
    | with_reducible refine updEng_ok _ _ _ ?_ ?_
    | intro _
    | simp

@[simp] theorem engLoad_pend (s : State) (a1 : ℕ) (a2 : ℕ) (a3 : EngImage) :
    (State.engLoad s a1 a2 a3).kept.pending = s.kept.pending := by
  simp [State.engLoad, *]

@[simp] theorem engLoadAll_pend (s : State) (a1 : ℕ) (a2 : ℕ) (a3 : List ℕ) (a4 : EngImage) :
    (State.engLoadAll s a1 a2 a3 a4).kept.pending = s.kept.pending := by
  unfold State.engLoadAll
  try dsimp only
  repeat' first | (simp [*]; done) | split | (with_reducible refine (foldl_pend _ _ _ ?_).trans ?_) | intro _ | simp

@[simp] theorem engOffWrite_pend (s : State) (a1 : ℕ) (a2 : Bool) :
    (State.engOffWrite s a1 a2).kept.pending = s.kept.pending := by
  simp [State.engOffWrite, *]

@[simp] theorem chans_pend (s : State) (a1 : State → ℕ → State) (h1 : ∀ s x, (a1 s x).kept.pending = s.kept.pending) :
    (State.chans s a1).kept.pending = s.kept.pending := by
  simp [State.chans, *]

theorem chans_ok (s : State) (a1 : State → ℕ → State) (h : s.kept.ok) (h1 : ∀ s x, s.kept.ok → (a1 s x).kept.ok) :
    (State.chans s a1).kept.ok := by
  unfold State.chans
  repeat' first | with_reducible assumption | split | with_reducible refine foldl_ok _ _ _ ?_ ?_ | intro _

@[simp] theorem copyBillet_pend (s : State) (a1 : ℕ) (a2 : ℕ) :
    (State.copyBillet s a1 a2).kept.pending = s.kept.pending := by
  simp [State.copyBillet, *]

theorem copyBillet_ok (s : State) (a1 : ℕ) (a2 : ℕ) (h : s.kept.ok) :
    (State.copyBillet s a1 a2).kept.ok := by
  refine foldl_ok _ _ _ h fun t i ht => ?_
  dsimp only
  have h2 := writeEventLine_ok (t.readEvent (a1 * 65536 + 64 * i)).2 ((t.readEvent (a1 * 65536 + 64 * i)).2.place (a2 * 65536
      + 64 * i)).1
    ((t.readEvent (a1 * 65536 + 64 * i)).2.place (a2 * 65536 + 64 * i)).2 (t.readEvent (a1 * 65536 + 64 * i)).1.1 (by simpa
        using ht)
  split
  · simpa using h2
  · exact h2

@[simp] theorem gatherAll_pend (s : State) (a1 : ℕ) (a2 : List ℕ) :
    (State.gatherAll s a1 a2).1.kept.pending = s.kept.pending := by
  induction a2 generalizing s a1 with
  | nil => rfl
  | cons x t ih =>
    unfold State.gatherAll
    split
    · dsimp only
      rw [ih]
      simp
    · rfl

theorem gatherAll_ok (s : State) (a1 : ℕ) (a2 : List ℕ) (h : s.kept.ok) :
    (State.gatherAll s a1 a2).1.kept.ok := by
  induction a2 generalizing s a1 with
  | nil => exact h
  | cons x t ih =>
    unfold State.gatherAll
    split
    · refine ih _ _ ?_
      rw [renameBillet_kept]
      exact copyBillet_ok _ _ _ h
    · exact h

@[simp] theorem loseRanks_pend (s : State) :
    (State.loseRanks s).kept.pending = s.kept.pending := by
  simp [State.loseRanks, *]

@[simp] theorem gatherDone_pend (s : State) :
    (State.gatherDone s).kept.pending = s.kept.pending := by
  simp [State.gatherDone, *]

theorem gatherDone_ok (s : State) (h : s.kept.ok) :
    (State.gatherDone s).kept.ok := by
  unfold State.gatherDone
  try dsimp only
  repeat' first
    | with_reducible assumption
    | (simp [*]; done)
    | (exact fun x hx => hx)
    | split
    | with_reducible refine loseRanks_ok _ ?_
    | with_reducible refine gatherAll_ok _ _ _ ?_
    | with_reducible refine foldl_ok _ _ _ ?_ ?_
    | intro _
    | simp

@[simp] theorem writeLines_pend (s : State) (a1 : ℕ) :
    (State.writeLines s a1).kept.pending = s.kept.pending := by
  induction a1 generalizing s with
  | zero => rfl
  | succ n ih =>
    unfold State.writeLines
    repeat' first | (simp [ih]; done) | split

theorem writeLines_ok (s : State) (a1 : ℕ) (h : s.kept.ok) :
    (State.writeLines s a1).kept.ok := by
  induction a1 generalizing s with
  | zero => exact h
  | succ n ih =>
    unfold State.writeLines
    split
    · split
      · refine ih _ ?_
        rw [updBuf_kept _ _ (by rfl)]
        exact writeEventLine_ok _ _ _ _ h
      · exact h
    · exact h

@[simp] theorem ringArrive_pend (s : State) (a1 : Side) (a2 : List Byte) (a3 : State → State) (h3 : ∀ s, (a3 s).kept.pending
    = s.kept.pending) :
    (State.ringArrive s a1 a2 a3).kept.pending = s.kept.pending := by
  simp [State.ringArrive, *]

theorem ringArrive_ok (s : State) (a1 : Side) (a2 : List Byte) (a3 : State → State) (h : s.kept.ok) (h3 : ∀ s, s.kept.ok →
    (a3 s).kept.ok) :
    (State.ringArrive s a1 a2 a3).kept.ok := by
  unfold State.ringArrive
  try dsimp only
  repeat' first | with_reducible assumption | (simp [*]; done) | (exact fun x hx => hx) | split | intro _ | simp

@[simp] theorem onMessage_pend (s : State) (a1 : Side) (a2 : RxBlock) (a3 : List Byte → Bool) (a4 : State → List Byte →
    State) (h4 : ∀ s x, (a4 s x).kept.pending = s.kept.pending) :
    (State.onMessage s a1 a2 a3 a4).kept.pending = s.kept.pending := by
  unfold State.onMessage
  have h := ringTake_kept s a1 a2
  generalize s.ringTake a1 a2 = r at h ⊢
  rcases r with ⟨t, _ | pl⟩
  · exact congrArg Kept.pending h
  · dsimp only
    split
    · exact ((ringArrive_pend _ _ _ _ (fun u => h4 u pl))).trans (congrArg Kept.pending h)
    · exact congrArg Kept.pending h

theorem onMessage_ok (s : State) (a1 : Side) (a2 : RxBlock) (a3 : List Byte → Bool) (a4 : State → List Byte → State) (h :
    s.kept.ok) (h4 : ∀ s x, s.kept.ok → (a4 s x).kept.ok) :
    (State.onMessage s a1 a2 a3 a4).kept.ok := by
  unfold State.onMessage
  have hk := ringTake_kept s a1 a2
  generalize s.ringTake a1 a2 = r at hk ⊢
  rcases r with ⟨t, _ | pl⟩
  · exact hk ▸ h
  · dsimp only at hk ⊢
    split
    · exact ringArrive_ok _ _ _ _ (hk ▸ h) (fun u => h4 u pl)
    · exact hk ▸ h

@[simp] theorem engineLoadGo_pend (s : State) (a1 : Cmd) (a2 : List Byte) :
    (State.engineLoadGo s a1 a2).kept.pending = s.kept.pending := by
  unfold State.engineLoadGo
  try dsimp only
  repeat' first | (simp [*]; done) | split | intro _ | simp

theorem engineLoadGo_ok (s : State) (a1 : Cmd) (a2 : List Byte) (h : s.kept.ok) :
    (State.engineLoadGo s a1 a2).kept.ok := by
  unfold State.engineLoadGo
  try dsimp only
  repeat' first
    | with_reducible assumption
    | (simp [*]; done)
    | (exact fun x hx => hx)
    | split
    | with_reducible refine engLoadAll_ok _ _ _ _ _ ?_
    | intro _
    | simp

@[simp] theorem engineLoad_pend (s : State) (a1 : Cmd) :
    (State.engineLoad s a1).kept.pending = s.kept.pending := by
  unfold State.engineLoad
  try dsimp only
  repeat' first | (simp [*]; done) | split | intro _ | simp

theorem engineLoad_ok (s : State) (a1 : Cmd) (h : s.kept.ok) :
    (State.engineLoad s a1).kept.ok := by
  unfold State.engineLoad
  repeat' first
    | with_reducible assumption
    | split
    | with_reducible refine engineLoadGo_ok _ _ _ ?_
    | (exact fun x hx => hx)
    | (simpa using h)
    | intro _

@[simp] theorem engineStart_pend (s : State) (a1 : Cmd) :
    (State.engineStart s a1).kept.pending = s.kept.pending := by
  simp [State.engineStart, *]

theorem engineStart_ok (s : State) (a1 : Cmd) (h : s.kept.ok) :
    (State.engineStart s a1).kept.ok := by
  unfold State.engineStart
  try dsimp only
  repeat' first
    | with_reducible assumption
    | (simp [*]; done)
    | (exact fun x hx => hx)
    | split
    | with_reducible refine engStart_ok _ _ ?_
    | with_reducible refine foldl_ok _ _ _ ?_ ?_
    | (exact fun x hx => hx)
    | (simpa using h)
    | intro _
    | simp

@[simp] theorem engineStop_pend (s : State) (a1 : Cmd) :
    (State.engineStop s a1).kept.pending = s.kept.pending := by
  simp [State.engineStop, *]

theorem engineStop_ok (s : State) (a1 : Cmd) (h : s.kept.ok) :
    (State.engineStop s a1).kept.ok := by
  unfold State.engineStop
  try dsimp only
  repeat' first
    | with_reducible assumption
    | (simp [*]; done)
    | (exact fun x hx => hx)
    | split
    | with_reducible refine engHalt_ok _ _ ?_
    | with_reducible refine foldl_ok _ _ _ ?_ ?_
    | (exact fun x hx => hx)
    | (simpa using h)
    | intro _
    | simp

@[simp] theorem runCmd_pend (s : State) (a1 : Cmd) :
    (State.runCmd s a1).kept.pending = s.kept.pending := by
  simp [State.runCmd, *]

theorem runCmd_ok (s : State) (a1 : Cmd) (h : s.kept.ok) :
    (State.runCmd s a1).kept.ok := by
  unfold State.runCmd
  try dsimp only
  repeat' first
    | with_reducible assumption
    | (simp [*]; done)
    | (exact fun x hx => hx)
    | split
    | with_reducible refine engineLoad_ok _ _ ?_
    | with_reducible refine engineStart_ok _ _ ?_
    | with_reducible refine engineStop_ok _ _ ?_
    | intro _
    | simp

@[simp] theorem startCmd_pend (s : State) (a1 : Cmd) :
    (State.startCmd s a1).kept.pending = s.kept.pending := by
  simp [State.startCmd, *]

theorem startCmd_ok (s : State) (a1 : Cmd) (h : s.kept.ok) :
    (State.startCmd s a1).kept.ok := by
  exact runCmd_ok _ _ (by simpa using h)

@[simp] theorem startCmds_pend (s : State) (a1 : ℕ) :
    (State.startCmds s a1).kept.pending = s.kept.pending := by
  induction a1 generalizing s with
  | zero => rfl
  | succ n ih =>
    unfold State.startCmds
    dsimp only
    repeat' first | (simp [ih]; done) | split

theorem startCmds_ok (s : State) (a1 : ℕ) (h : s.kept.ok) :
    (State.startCmds s a1).kept.ok := by
  induction a1 generalizing s with
  | zero => exact h
  | succ n ih =>
    unfold State.startCmds
    dsimp only
    split
    · simpa using h
    · split
      · simpa using h
      · exact ih _ (startCmd_ok _ _ (by simpa using h))

@[simp] theorem ctrlAdvance_pend (s : State) :
    (State.ctrlAdvance s).kept.pending = s.kept.pending := by
  simp [State.ctrlAdvance, *]

theorem ctrlAdvance_ok (s : State) (h : s.kept.ok) :
    (State.ctrlAdvance s).kept.ok := by
  unfold State.ctrlAdvance
  try dsimp only
  repeat' first
    | with_reducible assumption
    | (simp [*]; done)
    | (exact fun x hx => hx)
    | split
    | with_reducible refine startCmds_ok _ _ ?_
    | intro _
    | simp

@[simp] theorem ctrlFetch_pend (s : State) (a1 : List Byte) (a2 : Option (List Byte)) :
    (State.ctrlFetch s a1 a2).kept.pending = s.kept.pending := by
  simp [State.ctrlFetch, *]

theorem ctrlFetch_ok (s : State) (a1 : List Byte) (a2 : Option (List Byte)) (h : s.kept.ok) :
    (State.ctrlFetch s a1 a2).kept.ok := by
  unfold State.ctrlFetch
  try dsimp only
  repeat' first
    | with_reducible assumption
    | (simp [*]; done)
    | (exact fun x hx => hx)
    | split
    | with_reducible refine ctrlAdvance_ok _ ?_
    | intro _
    | simp

@[simp] theorem ctrlEntry_pend (s : State) (a1 : ℕ) (a2 : Word) (a3 : Half) (a4 : List Byte) (a5 : Option (List Byte)) :
    (State.ctrlEntry s a1 a2 a3 a4 a5).kept.pending = s.kept.pending := by
  simp [State.ctrlEntry, *]

theorem ctrlEntry_ok (s : State) (a1 : ℕ) (a2 : Word) (a3 : Half) (a4 : List Byte) (a5 : Option (List Byte)) (h : s.kept.ok) :
    (State.ctrlEntry s a1 a2 a3 a4 a5).kept.ok := by
  unfold State.ctrlEntry
  repeat' first | with_reducible assumption | split | with_reducible refine ctrlFetch_ok _ _ _ ?_ | intro _

@[simp] theorem ctrlComplete_pend (s : State) :
    (State.ctrlComplete s).kept.pending = s.kept.pending := by
  unfold State.ctrlComplete
  try dsimp only
  repeat' first | (simp [*]; done) | split | intro _ | simp

theorem ctrlComplete_ok (s : State) (h : s.kept.ok) :
    (State.ctrlComplete s).kept.ok := by
  unfold State.ctrlComplete
  try dsimp only
  repeat' first
    | with_reducible assumption
    | (simp [*]; done)
    | (exact fun x hx => hx)
    | split
    | with_reducible refine ctrlAdvance_ok _ ?_
    | intro _
    | simp

@[simp] theorem decompress_pend (s : State) :
    (State.decompress s).kept.pending = s.kept.pending := by
  unfold State.decompress
  try dsimp only
  repeat' first | (simp [*]; done) | split | intro _ | simp

theorem decompress_ok (s : State) (h : s.kept.ok) :
    (State.decompress s).kept.ok := by
  unfold State.decompress
  try dsimp only
  repeat' first
    | with_reducible assumption
    | (simp [*]; done)
    | (exact fun x hx => hx)
    | split
    | with_reducible refine engineLoadGo_ok _ _ _ ?_
    | intro _
    | simp

@[simp] theorem clusters_pend (s : State) (a1 : State → ℕ → State) (h1 : ∀ s x, (a1 s x).kept.pending = s.kept.pending) :
    (State.clusters s a1).kept.pending = s.kept.pending := by
  simp [State.clusters, *]

theorem clusters_ok (s : State) (a1 : State → ℕ → State) (h : s.kept.ok) (h1 : ∀ s x, s.kept.ok → (a1 s x).kept.ok) :
    (State.clusters s a1).kept.ok := by
  unfold State.clusters
  repeat' first | with_reducible assumption | split | with_reducible refine foldl_ok _ _ _ ?_ ?_ | intro _

@[simp] theorem storeByte_pend (s : State) (a1 : ℕ) (a2 : ℕ) (a3 : Byte) :
    (State.storeByte s a1 a2 a3).kept.pending = s.kept.pending := by
  simp [State.storeByte, *]

@[simp] theorem deltaByte_pend (s : State) (a1 : ℕ) (a2 : ℕ) (a3 : ℕ) (a4 : ℕ × Byte) :
    (State.deltaByte s a1 a2 a3 a4).kept.pending = s.kept.pending := by
  simp [State.deltaByte, *]

theorem deltaByte_ok (s : State) (a1 : ℕ) (a2 : ℕ) (a3 : ℕ) (a4 : ℕ × Byte) (h : s.kept.ok) :
    (State.deltaByte s a1 a2 a3 a4).kept.ok := by
  unfold State.deltaByte
  try dsimp only
  repeat' first
    | with_reducible assumption
    | (simp [*]; done)
    | (exact fun x hx => hx)
    | split
    | with_reducible refine storeByte_ok _ _ _ _ ?_
    | intro _
    | simp

@[simp] theorem rawByte_pend (s : State) (a1 : ℕ) (a2 : ℕ) (a3 : ℕ) (a4 : ℕ × Byte) :
    (State.rawByte s a1 a2 a3 a4).kept.pending = s.kept.pending := by
  simp [State.rawByte, *]

theorem rawByte_ok (s : State) (a1 : ℕ) (a2 : ℕ) (a3 : ℕ) (a4 : ℕ × Byte) (h : s.kept.ok) :
    (State.rawByte s a1 a2 a3 a4).kept.ok := by
  unfold State.rawByte
  try dsimp only
  repeat' first
    | with_reducible assumption
    | (simp [*]; done)
    | (exact fun x hx => hx)
    | split
    | with_reducible refine storeByte_ok _ _ _ _ ?_
    | intro _
    | simp

@[simp] theorem partialWrite_pend (s : State) (a1 : ℕ) (a2 : ℕ) (a3 : List Byte) :
    (State.partialWrite s a1 a2 a3).kept.pending = s.kept.pending := by
  unfold State.partialWrite
  try dsimp only
  repeat' first | (simp [*]; done) | split | (with_reducible refine (foldl_pend _ _ _ ?_).trans ?_) | intro _ | simp

theorem partialWrite_ok (s : State) (a1 : ℕ) (a2 : ℕ) (a3 : List Byte) (h : s.kept.ok) :
    (State.partialWrite s a1 a2 a3).kept.ok := by
  unfold State.partialWrite
  dsimp only
  split
  · simp only [zwrap_kept]
    exact foldl_ok _ _ _ h fun _ _ ht => deltaByte_ok _ _ _ _ _ ht
  · split
    · simp only [zwrap_kept]
      rw [foldl_kept]
      · refine foldl_ok _ _ _ ?_ fun _ _ ht => storeByte_ok _ _ _ _ ht
        simpa using h
      · simp
    · rw [uncorrectable_kept]
      simp only [zwrap_kept]
      exact foldl_ok _ _ _ h fun _ _ ht => rawByte_ok _ _ _ _ _ ht

@[simp] theorem chipReset_pend (s : State) (a1 : ℕ) (a2 : ℕ) :
    (State.chipReset s a1 a2).kept.pending = s.kept.pending := by
  rfl

@[simp] theorem dropGather_pend (s : State) :
    (State.dropGather s).kept.pending = s.kept.pending := by
  simp [State.dropGather, *]

theorem dropGather_ok (s : State) (h : s.kept.ok) :
    (State.dropGather s).kept.ok := by
  unfold State.dropGather
  try dsimp only
  repeat' first
    | with_reducible assumption
    | (simp [*]; done)
    | (exact fun x hx => hx)
    | split
    | with_reducible refine loseRanks_ok _ ?_
    | intro _
    | simp

@[simp] theorem stopForReset_pend (s : State) :
    (State.stopForReset s).kept.pending = s.kept.pending := by
  simp [State.stopForReset, *]

theorem stopForReset_ok (s : State) (h : s.kept.ok) :
    (State.stopForReset s).kept.ok := by
  unfold State.stopForReset
  dsimp only
  refine dropGather_ok _ ?_
  simp only [settlePins_kept, closeRun_kept]
  have h1 : ((s.writeLines s.buf.wbuf.length).updBuf fun b => { b with wbuf := [] }).kept.ok := by
    rw [updBuf_kept _ _ (by rfl)]
    exact writeLines_ok _ _ h
  split
  · simpa using h1
  · exact h1

@[simp] theorem keepBuffer_pend (s : State) (a1 : State) :
    (State.keepBuffer s a1).kept.pending = s.kept.pending := by
  simp [State.keepBuffer, *]

@[simp] theorem warmReset_pend (s : State) :
    (State.warmReset s).kept.pending = s.kept.pending := by
  unfold State.warmReset
  dsimp only
  split <;> simp

theorem warmReset_ok (s : State) (h : s.kept.ok) :
    (State.warmReset s).kept.ok := by
  unfold State.warmReset
  dsimp only
  split
  · simp only [updPwr_kept]
    refine keepBuffer_ok _ _ ?_ (stopForReset_ok _ h)
    simpa using chipReset_ok _ _ _
  · simpa using chipReset_ok _ _ _

@[simp] theorem wipeStack_pend (s : State) (a1 : ℕ) :
    (State.wipeStack s a1).kept.pending = s.kept.pending := by
  simp [State.wipeStack, *]

@[simp] theorem stackStage_pend (s : State) (a1 : ℕ) (a2 : Bool) (a3 : Bool) (a4 : List DramRes) :
    (State.stackStage s a1 a2 a3 a4).kept.pending = s.kept.pending := by
  simp [State.stackStage, *]

theorem stackStage_ok (s : State) (a1 : ℕ) (a2 : Bool) (a3 : Bool) (a4 : List DramRes) (h : s.kept.ok) :
    (State.stackStage s a1 a2 a3 a4).kept.ok := by
  unfold State.stackStage
  try dsimp only
  repeat' first
    | with_reducible assumption
    | (simp [*]; done)
    | (exact fun x hx => hx)
    | split
    | with_reducible refine wipeStack_ok _ _ ?_
    | with_reducible refine foldl_ok _ _ _ ?_ ?_
    | intro _
    | simp

@[simp] theorem dramStage_pend (s : State) (a1 : ℕ) (a2 : Bool) (a3 : List DramRes) (a4 : ℕ) :
    (State.dramStage s a1 a2 a3 a4).kept.pending = s.kept.pending := by
  simp [State.dramStage, *]

theorem dramStage_ok (s : State) (a1 : ℕ) (a2 : Bool) (a3 : List DramRes) (a4 : ℕ) (h : s.kept.ok) :
    (State.dramStage s a1 a2 a3 a4).kept.ok := by
  unfold State.dramStage
  try dsimp only
  repeat' first
    | with_reducible assumption
    | (simp [*]; done)
    | (exact fun x hx => hx)
    | split
    | with_reducible refine stackStage_ok _ _ _ _ _ ?_
    | intro _
    | simp

@[simp] theorem commitAt_pend (s : State) (a1 : Bool) (a2 : ℕ × ℕ) :
    (State.commitAt s a1 a2).kept.pending = s.kept.pending := by
  simp [State.commitAt, *]

theorem commitAt_ok (s : State) (a1 : Bool) (a2 : ℕ × ℕ) (h : s.kept.ok) :
    (State.commitAt s a1 a2).kept.ok := by
  unfold State.commitAt
  dsimp only
  simp only [endIfLast_kept, wakeWaiting_kept]
  refine feedEngines_ok _ _ ?_
  simpa using h

@[simp] theorem commitFrame_pend (s : State) (a1 : Bool) :
    (State.commitFrame s a1).kept.pending = s.kept.pending := by
  unfold State.commitFrame
  have h := nextLine_kept s
  generalize s.nextLine = r at h ⊢
  rcases r with ⟨t, _ | x⟩
  · split <;> rfl
  · split
    · rfl
    · dsimp only at h ⊢
      rw [commitAt_pend, h]

theorem commitFrame_ok (s : State) (a1 : Bool) (h : s.kept.ok) :
    (State.commitFrame s a1).kept.ok := by
  unfold State.commitFrame
  have hk := nextLine_kept s
  generalize s.nextLine = r at hk ⊢
  rcases r with ⟨t, _ | x⟩
  · split <;> exact h
  · split
    · exact h
    · exact commitAt_ok _ _ _ (by dsimp only at hk; rw [hk]; exact h)

@[simp] theorem commitDue_pend (s : State) :
    (State.commitDue s).kept.pending = s.kept.pending := by
  simp [State.commitDue, *]

theorem commitDue_ok (s : State) (h : s.kept.ok) :
    (State.commitDue s).kept.ok := by
  unfold State.commitDue
  repeat' first | with_reducible assumption | split | with_reducible refine commitFrame_ok _ _ ?_ | intro _

@[simp] theorem issue_pend (s : State) (a1 : Issue) (a2 : ℕ) (a3 : State → State) (h3 : ∀ s, (a3 s).kept.pending =
    s.kept.pending) :
    (State.issue s a1 a2 a3).kept.pending = s.kept.pending := by
  unfold State.issue
  try dsimp only
  repeat' first | (simp [*]; done) | split | intro _ | simp

theorem issue_ok (s : State) (a1 : Issue) (a2 : ℕ) (a3 : State → State) (h : s.kept.ok) (h3 : ∀ s, s.kept.ok → (a3 s).kept.ok) :
    (State.issue s a1 a2 a3).kept.ok := by
  unfold State.issue
  try dsimp only
  repeat' first
    | with_reducible assumption
    | (simp [*]; done)
    | (exact fun x hx => hx)
    | split
    | with_reducible refine engFault_ok _ _ _ _ ?_
    | intro _
    | simp

@[simp] theorem engStep_pend (s : State) (a1 : ℕ) (a2 : ℕ) :
    (State.engStep s a1 a2).kept.pending = s.kept.pending := by
  simp [State.engStep, *]

@[simp] theorem engNext_pend (s : State) (a1 : ℕ) :
    (State.engNext s a1).kept.pending = s.kept.pending := by
  simp [State.engNext, *]

@[simp] theorem result_pend (s : State) (a1 : ℕ) (a2 : Reg) (a3 : Word) :
    (State.result s a1 a2 a3).kept.pending = s.kept.pending := by
  simp [State.result, *]

@[simp] theorem opR_pend (s : State) (a1 : Issue) (a2 : ℕ) (a3 : Reg) (a4 : Reg) (a5 : Reg) (a6 : Word → Word → Word) :
    (State.opR s a1 a2 a3 a4 a5 a6).kept.pending = s.kept.pending := by
  simp [State.opR, *]

theorem opR_ok (s : State) (a1 : Issue) (a2 : ℕ) (a3 : Reg) (a4 : Reg) (a5 : Reg) (a6 : Word → Word → Word) (h : s.kept.ok) :
    (State.opR s a1 a2 a3 a4 a5 a6).kept.ok := by
  unfold State.opR
  repeat' first
    | with_reducible assumption
    | split
    | with_reducible refine result_ok _ _ _ _ ?_
    | with_reducible refine issue_ok _ _ _ _ ?_ ?_
    | intro _

@[simp] theorem opI_pend (s : State) (a1 : Issue) (a2 : ℕ) (a3 : Reg) (a4 : Reg) (a5 : ℕ) (a6 : Word → Word) :
    (State.opI s a1 a2 a3 a4 a5 a6).kept.pending = s.kept.pending := by
  simp [State.opI, *]

theorem opI_ok (s : State) (a1 : Issue) (a2 : ℕ) (a3 : Reg) (a4 : Reg) (a5 : ℕ) (a6 : Word → Word) (h : s.kept.ok) :
    (State.opI s a1 a2 a3 a4 a5 a6).kept.ok := by
  unfold State.opI
  repeat' first
    | with_reducible assumption
    | split
    | with_reducible refine result_ok _ _ _ _ ?_
    | with_reducible refine issue_ok _ _ _ _ ?_ ?_
    | intro _

@[simp] theorem opB_pend (s : State) (a1 : Issue) (a2 : ℕ) (a3 : Reg) (a4 : Reg) (a5 : Half) (a6 : Word → Word → Bool) :
    (State.opB s a1 a2 a3 a4 a5 a6).kept.pending = s.kept.pending := by
  simp [State.opB, *]

theorem opB_ok (s : State) (a1 : Issue) (a2 : ℕ) (a3 : Reg) (a4 : Reg) (a5 : Half) (a6 : Word → Word → Bool) (h : s.kept.ok) :
    (State.opB s a1 a2 a3 a4 a5 a6).kept.ok := by
  unfold State.opB
  refine issue_ok _ _ _ _ h fun t ht => ?_
  have := pc_of_ok ht a1.eng
  dsimp only
  split
  · exact engStep_ok _ _ _ ht (by omega)
  · exact engNext_ok _ _ ht

@[simp] theorem eccData_pend (s : State) (a1 : ℕ) (a2 : Word) (a3 : Ecc) :
    (State.eccData s a1 a2 a3).kept.pending = s.kept.pending := by
  unfold State.eccData
  try dsimp only
  repeat' first | (simp [*]; done) | split | intro _ | simp

theorem eccData_ok (s : State) (a1 : ℕ) (a2 : Word) (a3 : Ecc) (h : s.kept.ok) :
    (State.eccData s a1 a2 a3).kept.ok := by
  unfold State.eccData
  try dsimp only
  repeat' first
    | with_reducible assumption
    | (simp [*]; done)
    | (exact fun x hx => hx)
    | split
    | with_reducible refine updEng_ok _ _ _ ?_ ?_
    | intro _
    | simp

@[simp] theorem opLoad_pend (s : State) (a1 : Issue) (a2 : ℕ) (a3 : Reg) (a4 : Reg) (a5 : Half) (a6 : Ecc) (a7 : ℕ) (a8 : ℕ →
    Word) :
    (State.opLoad s a1 a2 a3 a4 a5 a6 a7 a8).kept.pending = s.kept.pending := by
  simp [State.opLoad, *]

theorem opLoad_ok (s : State) (a1 : Issue) (a2 : ℕ) (a3 : Reg) (a4 : Reg) (a5 : Half) (a6 : Ecc) (a7 : ℕ) (a8 : ℕ → Word) (h
    : s.kept.ok) :
    (State.opLoad s a1 a2 a3 a4 a5 a6 a7 a8).kept.ok := by
  unfold State.opLoad
  try dsimp only
  repeat' first
    | with_reducible assumption
    | (simp [*]; done)
    | (exact fun x hx => hx)
    | split
    | with_reducible refine result_ok _ _ _ _ ?_
    | with_reducible refine engFault_ok _ _ _ _ ?_
    | with_reducible refine issue_ok _ _ _ _ ?_ ?_
    | with_reducible refine eccData_ok _ _ _ _ ?_
    | intro _
    | simp

@[simp] theorem opStore_pend (s : State) (a1 : Issue) (a2 : ℕ) (a3 : Reg) (a4 : Reg) (a5 : Half) (a6 : ℕ) :
    (State.opStore s a1 a2 a3 a4 a5 a6).kept.pending = s.kept.pending := by
  simp [State.opStore, *]

theorem opStore_ok (s : State) (a1 : Issue) (a2 : ℕ) (a3 : Reg) (a4 : Reg) (a5 : Half) (a6 : ℕ) (h : s.kept.ok) :
    (State.opStore s a1 a2 a3 a4 a5 a6).kept.ok := by
  unfold State.opStore
  try dsimp only
  repeat' first
    | with_reducible assumption
    | (simp [*]; done)
    | (exact fun x hx => hx)
    | split
    | with_reducible refine engNext_ok _ _ ?_
    | with_reducible refine estore_ok _ _ _ _ _ ?_
    | with_reducible refine engFault_ok _ _ _ _ ?_
    | with_reducible refine issue_ok _ _ _ _ ?_ ?_
    | intro _
    | simp

@[simp] theorem overrun_pend (s : State) (a1 : ℕ) (a2 : ℕ) :
    (State.overrun s a1 a2).kept.pending = s.kept.pending := by
  simp [State.overrun, *]

theorem overrun_ok (s : State) (a1 : ℕ) (a2 : ℕ) (h : s.kept.ok) :
    (State.overrun s a1 a2).kept.ok := by
  unfold State.overrun
  repeat' first | with_reducible assumption | split | with_reducible refine engFault_ok _ _ _ _ ?_ | intro _

@[simp] theorem endOut_pend (s : State) (a1 : ℕ) :
    (State.endOut s a1).kept.pending = s.kept.pending := by
  simp [State.endOut, *]

theorem endOut_ok (s : State) (a1 : ℕ) (h : s.kept.ok) :
    (State.endOut s a1).kept.ok := by
  unfold State.endOut
  try dsimp only
  repeat' first
    | with_reducible assumption
    | (simp [*]; done)
    | (exact fun x hx => hx)
    | split
    | with_reducible refine updEng_ok _ _ _ ?_ ?_
    | with_reducible refine engNext_ok _ _ ?_
    | with_reducible refine overrun_ok _ _ _ ?_
    | intro _
    | simp

@[simp] theorem pushOut_pend (s : State) (a1 : ℕ) (a2 : Word) :
    (State.pushOut s a1 a2).kept.pending = s.kept.pending := by
  simp [State.pushOut, *]

theorem pushOut_ok (s : State) (a1 : ℕ) (a2 : Word) (h : s.kept.ok) :
    (State.pushOut s a1 a2).kept.ok := by
  unfold State.pushOut
  repeat' first
    | with_reducible assumption
    | split
    | with_reducible refine updEng_ok _ _ _ ?_ ?_
    | (exact fun x hx => hx)
    | (simpa using h)
    | intro _

@[simp] theorem popIn_pend (s : State) (a1 : ℕ) :
    (State.popIn s a1).kept.pending = s.kept.pending := by
  simp [State.popIn, *]

theorem popIn_ok (s : State) (a1 : ℕ) (h : s.kept.ok) :
    (State.popIn s a1).kept.ok := by
  unfold State.popIn
  repeat' first
    | with_reducible assumption
    | split
    | with_reducible refine updEng_ok _ _ _ ?_ ?_
    | (exact fun x hx => hx)
    | (simpa using h)
    | intro _

@[simp] theorem snapFinish_pend (s : State) :
    (State.snapFinish s).kept.pending = s.kept.pending := by
  simp [State.snapFinish, *]

theorem snapFinish_ok (s : State) (h : s.kept.ok) :
    (State.snapFinish s).kept.ok := by
  unfold State.snapFinish
  try dsimp only
  repeat' first
    | with_reducible assumption
    | (simp [*]; done)
    | (exact fun x hx => hx)
    | split
    | with_reducible refine ctrlAdvance_ok _ ?_
    | intro _
    | simp

@[simp] theorem readFail_pend (s : State) (a1 : ReadTarget) (a2 : ℕ) :
    (State.readFail s a1 a2).kept.pending = s.kept.pending := by
  unfold State.readFail
  try dsimp only
  repeat' first | (simp [*]; done) | split | intro _ | simp

theorem readFail_ok (s : State) (a1 : ReadTarget) (a2 : ℕ) (h : s.kept.ok) :
    (State.readFail s a1 a2).kept.ok := by
  unfold State.readFail
  repeat' first
    | with_reducible assumption
    | (refine ctrlAdvance_ok _ ?_; simpa using h)
    | (simpa using h)
    | split

@[simp] theorem cmdWriteFail_pend (s : State) (a1 : ℕ) :
    (State.cmdWriteFail s a1).kept.pending = s.kept.pending := by
  unfold State.cmdWriteFail
  try dsimp only
  repeat' first | (simp [*]; done) | split | intro _ | simp

theorem cmdWriteFail_ok (s : State) (a1 : ℕ) (h : s.kept.ok) :
    (State.cmdWriteFail s a1).kept.ok := by
  unfold State.cmdWriteFail
  dsimp only
  repeat' first
    | with_reducible assumption
    | (refine ctrlAdvance_ok _ ?_; simpa using h)
    | (simpa using h)
    | split

@[simp] theorem writeFail_pend (s : State) (a1 : WriteTarget) :
    (State.writeFail s a1).kept.pending = s.kept.pending := by
  unfold State.writeFail
  try dsimp only
  repeat' first | (simp [*]; done) | split | intro _ | simp

theorem writeFail_ok (s : State) (a1 : WriteTarget) (h : s.kept.ok) :
    (State.writeFail s a1).kept.ok := by
  unfold State.writeFail
  try dsimp only
  repeat' first
    | with_reducible assumption
    | (simp [*]; done)
    | (exact fun x hx => hx)
    | split
    | with_reducible refine cmdWriteFail_ok _ _ ?_
    | intro _
    | simp

@[simp] theorem engineWrite_pend (s : State) (a1 : ℕ) (a2 : ℕ) (a3 : List Byte) :
    (State.engineWrite s a1 a2 a3).kept.pending = s.kept.pending := by
  simp [State.engineWrite, *]

@[simp] theorem bar4_pend (s : State) (a1 : ℕ) (a2 : List Byte) :
    (State.bar4 s a1 a2).kept.pending = s.kept.pending := by
  simp [State.bar4, *]

theorem bar4_ok (s : State) (a1 : ℕ) (a2 : List Byte) (h : s.kept.ok) :
    (State.bar4 s a1 a2).kept.ok := by
  unfold State.bar4
  dsimp only
  repeat' first
    | with_reducible assumption
    | exact engineWrite_ok _ _ _ _ h
    | exact updShm_ok _ _ h fun t ht => Tab.wf_foldl_set _ _ _ ht
    | (simpa using h)
    | split

end Sys2Proof.Machine
end

