-- ==== Sys2Proof/Tests/Slice0.lean ====
section
/-!
SUPPORT. Tests of the model: ill-formed commands that the check refuses, states that meet the hypotheses of the statements (one theorem
per statement, its clauses in order), and worked examples of the spec.
-/

namespace Sys2Proof.Tests

-- One thread for the evaluations below: each needs a deep stack.
set_option Elab.async false

open Sys2Proof.Machine

/-! ### States for the tests -/

/-- The block at READY. -/
def up : State := State.reset.zput Z.BOOT_STAT.STAGE 4

/-- A Pelnos whose clock runs, counter loaded, front end on, fine measurement on, double-column 0 locked, and three pixels unmasked. -/
def hot : Pelnos :=
  { ((((Pelnos.reset.put P.PLL_STAT.LOCK 1).put P.SYNC_STAT.LOADED 1).put P.FE_CFG.FE_EN 1).put P.TDC_CFG.FINE_EN 1).put
      (P.DCn_DLL.LOCK.at 0) 1 with pix := [(0, 0x0010#16), (5, 0x0010#16), (262143, 0x0010#16)] }

/-- A start at tick 7. -/
def meas7 : Meas := { tick := 7, fine := 100, lowres := false, dll := true }

/-- A hit of pixel (0, 0). -/
def hit0 : Hit :=
  { col := 0, row := 0, tick := 7, fine := 100, tot := 40, short := false, long := false, orphan := false, lowres := false, era := 0 }


/-! ### Witnesses: the machine -/

/-- One command waits. -/
def queued : State := { up with pending := [.periodicSnapshot, .refReady] }

theorem witness_StepTakesFrontCommand : queued.pending = .periodicSnapshot :: [.refReady] := rfl

theorem witness_IdleStepPassesTime :
    up.pending = [] ∧ (up.chip 3).get P.PLL_STAT.LOCK = 0 ∧ (((up.updChip 3 fun _ => hot).chip 3).get P.PLL_STAT.LOCK = 1) ∧
      hot.frame < 2 ^ 32 ∧ hot.coarse < 4096 := by decide +kernel

theorem witness_QueueIsServedInOrder : ∃ t, step queued = .next t := by
  refine ⟨_, rfl⟩

theorem witness_InvariantIsKeptByEveryStep : up.ok ∧ ∃ t, step up = .next t :=
  ⟨⟨fun _ => ⟨rfl, rfl, (by decide : 0 < 32768), rfl, rfl⟩, by decide +kernel⟩, ⟨_, rfl⟩⟩

theorem witness_InvariantHoldsAtReset : up.engines = [] ∧ up.shm = [] ∧ up.buf.mem = [] ∧ up.mon.sram = [] := by decide +kernel
/-! ### Witnesses: Pelnos -/

theorem witness_LeadingEdges :
    (hot.csu = none ∧ hot.enabled 0 = true ∧ (hot.pixel 0).high = false ∧ (hot.pixel 0).occupied = false ∧ hot.dllLocked 0 = true ∧
      hot.get P.TDC_CFG.FINE_EN = 1 ∧ (hot.quad (quadOf 0)).interp = .free) ∧
    (((hot.setQuad (quadOf 0) { interp := .pixel }).quad (quadOf 0)).interp = .pixel) ∧
    ((hot.put P.TDC_CFG.FINE_EN 0).dllLocked (511 / 2) = false ∧ (hot.put P.TDC_CFG.FINE_EN 0).enabled (511 * 512 + 511) = true) ∧
    ((hot.setPixel 0 { tail := true }).enabled 0 = true ∧ ((hot.setPixel 0 { tail := true }).pixel 0).occupied = true) ∧
    (Pelnos.reset.enabled 0 = false) := by decide +kernel

theorem witness_TrailingEdges :
    (((hot.setPixel 0 { high := true, meas := some meas7 }).pixel 0).meas = some meas7) ∧
    (((hot.setPixel 0 { high := true, tail := true }).pixel 0).tail = true) ∧
    (hot.enabled 7 = false ∧ (hot.pixel 7).high = false) ∧
    ((hot.setPixel 0 { high := true }).enabled 0 = true ∧ ((hot.setPixel 0 { high := true }).pixel 0).occupied = false) ∧
    (((hot.setPixel 0 { hold := true, done := some hit0 }).pixel 0).done = some hit0 ∧
      ((hot.setPixel 0 { hold := true, done := some hit0 }).pixel 0).reg = none) ∧
    (((hot.setPixel 0 { hold := true, reg := some hit0 }).pixel 0).reg = some hit0) := by decide +kernel

/-- Auto-masking on, pixel 5 high, the report queue full; a settling window that has passed. -/
def hot5 : Pelnos :=
  { (hot.put P.FE_CFG.AMASK_EN 1).setPixel 5 { high := true } with
    amQueue := List.replicate 16 (0, 0), frame := 1, settle := [(3, 4095)], settleBlank := true }

theorem witness_PixelConfiguration :
    (0x0170#16 &&& 0x009F#16 = hot.pixWord hot.window &&& 0x009F#16) ∧
    (hot5.get P.FE_CFG.AMASK_EN = 1 ∧ (hot5.pixel 5).high = true ∧ hot5.enabled 5 = true ∧ hot5.amQueue.length = 16) ∧
    (({ hot5 with amQueue := [] }).amQueue.length < 16) ∧
    (hot.get (P.DCn_CFG.DC_OFF.at (4 * 255)) = 0) ∧ (Tab.wf {} hot5.pixels = true) ∧ (∀ w ∈ hot5.settle, w.2 < hot5.frame * 4096) := by decide +kernel

/-- An injection sequence with two pulses left. -/
def seq2 : InjSeq := { started := true, stop := false, left := some 2, pulsed := false }

theorem witness_Injection :
    (hot.inj = none ∧ hot.csu = none) ∧ (({ hot with inj := some seq2 }).inj ≠ none) ∧
    (({ hot with inj := some seq2 }).locked = true ∧ seq2.started = true ∧ seq2.pulsed = false ∧ seq2.left ≠ some 0) ∧
    (({ seq2 with left := some 0 }).left = some 0) := by decide +kernel

/-- A statistics run before its first frame start; one whose pulses are all issued. -/
def run0 : CsuRun := { started := false, stop := false, issued := 0, total := 16, pulse := none, pulsed := false, ended := false }
def run16 : CsuRun := { run0 with started := true, issued := 16 }

/-- Slot 0 of the statistics unit in use. -/
def slot0 : CsuSlot := { col := 3, row := 4, valid := true, n := 2, sum := 20, sumsq := 208, lo := 8, hi := 12 }

theorem witness_DelayLinesAndCalibration :
    (hot.get P.PLL_STAT.LOCK = 1 ∧ hot.get (P.DCn_CFG.DC_OFF.at (4 * 255)) = 0) ∧ (hot.get (P.DCn_DLL.LOCK.at (4 * 0)) = 1) ∧
    (hot.quads = []) ∧
    ((hot.put P.TDC_CFG.CAL_EN 1).get P.TDC_CFG.CAL_EN = 1 ∧ (hot.quad 65535).last < ({ hot with calPeriod := 1 }).calPeriod ∧
      hot.quadQuiet 65535 = true ∧ hot.csu = none) ∧
    ((({ hot with calPeriod := 2 }).setQuad 3 { odd := some 63, last := 1 }).quad 3).odd = some 63 ∧
    Tab.wf {} (hot.setQuad 65535 { gain := 31 }).quads = true := by decide +kernel

theorem witness_CalibrationStatistics :
    (Tab.any (fun _ x => x.valid) ({ hot with slots := [(0, slot0)] }).slots = true) ∧ (({ hot with inj := some seq2 }).inj ≠ none) ∧
    (({ hot with csu := some run0 }).csu = some run0 ∧ run0.started = false ∧ run0.stop = false) ∧
    (({ run16 with issued := 15 }).issued < run16.total ∧ hot.locked = true) ∧ (run16.issued = run16.total) ∧
    (∀ j : Fin 64, j ≠ 0 → (({ hot with slots := [(0, slot0)] }).slot j).valid = false) ∧
    ((hot.put P.CSU_SLOT.SLOT 63).get P.CSU_SLOT.SLOT = 63) := by decide +kernel

/-- A pixel of double-column 255 with a hit to be drained; the column's queue full, or its marker pending. -/
def orph : Hit := { hit0 with orphan := true }
def px (h : Hit) : Pixel := { reg := some h }
def full : DCol := { queue := List.replicate 64 (.hit hit0) }

theorem witness_ColumnDrain :
    (({ hot with pixels := [(262143, px orph)] }).pixels = [(262143, px orph)] ∧ 262143 / 1024 = 255 ∧ orph.orphan = true) ∧
    (full.queue.length = 64 ∧ full.pend = none) ∧ (({ full with pend := some (7, 65534, 0) }).pend = some (7, 65534, 0)) ∧
    (hit0.era = hot.era ∧ hit0.tick / 4096 = hot.nextClose ∧ (Tab.get {} hot.frames hot.nextClose).prims = []) := by decide +kernel

/-- Queue 15 of group 0 holds hits; builder 0 holds one cluster. -/
def fed (q : List QItem) (b : Builder) : Pelnos := ({ hot with coarse := 4095 }.setDcol 15 { queue := q }).setBuilder 0 b
def clus : Cluster := { anchor := hit0, others := [], opened := 7, hold := 128 }
def rec0 : PRec := { hws := [1, 2, 3, 4], frame := 0, hits := 1, src := 0, coarse := 7, shaving := false, era := 0 }

theorem witness_ClusterBuilders :
    ((fed [.hit hit0] {}).nextQueue 0 = some 15 ∧ (fed [.hit hit0] {}).dcol 15 = { queue := [.hit hit0] } ∧
      (fed [.hit hit0] {}).samp.bypass = false) ∧
    (({ hit0 with row := 1 }).row = clus.anchor.row + 1 ∧ ({ hit0 with row := 1 }).fine = clus.anchor.fine) ∧
    ((fed [.hit orph] {}).isClosed (orph.tick / 4096) orph.era = false ∧ (fed [.hit orph] {}).storeBytes + 8 ≤ 262144 - 4096) ∧
    (((fed [.mark 7 65535 0] {}).dcol 15).queue = [.mark 7 65535 0]) ∧ ((fed [] { stalled := [rec0] }).builder 0).stalled ≠ [] ∧
    (clus.hold ≤ ticksSince (fed [] { clusters := [clus] }).now clus.opened) ∧
    ((fed [] { stalled := [rec0] }).isClosed rec0.frame rec0.era = false) := by decide +kernel

/-- A Pelnos that is active and has begun frame 5, or has frame 15 to send. -/
def act : Pelnos := { hot with active := true, frame := 5 }
def blkD : Block := { kind := .data, seq := 9, payload := List.replicate 16 1 }

/-- A link is in state `v` at both its ends. -/
def upl (s : State) (p : Port) (v : Nat) : State := (List.range 8).foldl (fun s l => s.zput ((ZP.LSTATm.STATE.at (4 * l)).port p) v) s

theorem witness_FramesAndDistributor :
    (act.get P.SYNC_STAT.LOADED = 1 ∧ act.frame = act.nextClose + 1 + act.samp.close ∧ act.unsent act.nextClose = false ∧ act.active = true) ∧
    ((act.put P.LINK_STAT.UL_ASLEEP 1).get P.LINK_STAT.UL_ASLEEP = 1) ∧ (({ act with frame := 4 }).frame = act.nextClose + act.samp.close) ∧
    (({ act with closed := [(14, [1, 2, 3, 4])] }).statusDue 14 = false) ∧ (blkD.kind ≠ .frame ∧ act.laneMask = 0xFF ∧ act.lane = 7) ∧
    (({ act with laneMask := 0xF0, sending := [{ blkD with kind := .frame }] }).echo = []) ∧
    (({ act with echo := [[1]] }).sending = []) ∧
    (∀ l : Fin 8, (upl up 3 5).zget ((ZP.LSTATm.STATE.at (4 * l)).port 3) = 5 ∧ (Tab.get {} (upl up 3 5).lanes (8 * 3 + l)).gen = false) := by decide +kernel

/-! ### Witnesses: lanes and ports -/

/-- An intact block as received. -/
def rx (kind : BlkKind) (seq : Nat) (pl : List Byte) : RxBlock :=
  { blk := { kind := kind, seq := seq, payload := pl }, crc := blockCrc { kind := kind, seq := seq, payload := pl }, damaged := false,
    kindErr := false }

/-- A TRAIN block with RX_READY and a capability of this interface. -/
def train : RxBlock := rx .train 0 [0, 4, 0, 0, 1, 0, 0, 0, 0, 0, 0, 0, 0, 0, 0, 0]

def l30 : Link := .up 3 0

/-- The ring unit enabled, and link `k` in state `v`, with what its receiver keeps. -/
def lk (s : State) (k : Link) (v : Nat) (x : Lane) : State := ((s.zput Z.RING_CFG.EN 1).setLst k v).updLane k fun _ => x

theorem witness_LaneBringUp :
    ((lk up (.ring .east) 1 {}).lst (.ring .east) = 1 ∧ (lk up (.ring .east) 1 {}).laneEnabled (.ring .east) = true) ∧
    ((lk up (.down 3) 1 {}).lst (.down 3) = 1 ∧ ((lk up (.down 3) 1 {}).lane (.down 3)).noRx = false) ∧
    (intact l30 train = true ∧ train.blk.kind = .train ∧ ((lk up l30 2 { good := 14 }).trainPresets l30 train.blk).lst l30 = 2 ∧
      (((lk up l30 2 { good := 14 }).trainPresets l30 train.blk).lane l30).good = 14) ∧
    ((((lk up l30 2 { good := 15 }).trainPresets l30 train.blk).lane l30).good = 15) ∧
    ((((lk up l30 3 { ready := 7 }).trainPresets l30 train.blk).lane l30).ready = 7 ∧ pbyte train.blk 4 % 2 = 1) ∧
    (((lk up l30 4 { cap := 2 }).trainPresets l30 train.blk).lst l30 = 4 ∧ pbyte train.blk 1 = 4) ∧
    ((lk up l30 4 { cap := 3 }).laneEnabled l30 = true) ∧ ((lk up l30 3 { fails := 2 }).lst l30 = 3) ∧
    ((lk up (.ring .west) 2 { fails := 2 }).lst (.ring .west) = 2) ∧ (((lk up l30 3 { fails := 1 }).lane l30).fails = 1) ∧
    (((lk up l30 5 { badKind := 4 }).lane l30).badKind = 4 ∧ (lk up l30 5 { badKind := 4 }).lst l30 = 5) := by decide +kernel

/-- A LANE_MARK that counts 7 marks. -/
def mark7 : RxBlock := rx .laneMark 0 [0, 0, 0, 0, 0, 7, 0xFF, 0, 0, 0, 0, 0, 0, 0, 0, 0]

/-- Port 3 with its downlink and lane 0 in ACTIVE. -/
def one : State := lk (lk up (.down 3) 5 {}) l30 5 {}

theorem witness_PortActivationAndMarks :
    (one.activeLanes 3 = [0] ∧ one.linkUp 3 = false ∧ one.lst (.down 3) = 5) ∧
    (((one.setPort 3 { waitMask := true }).port 3).waitMask = true) ∧
    (intact l30 mark7 = true ∧ (upl up 3 5).activeLanes 3 = fins8 ∧ ((upl up 3 5).port 3).markCnt = none ∧
      ((upl up 3 5).lane (.up 3 7)).mark = none) ∧
    (((one.setPort 3 { mask := 1 }).port 3).mask = 2 ^ (0 : Fin 8).val) ∧ ((one.port 3).markCnt = none) ∧
    (((one.setPort 3 { markCnt := some 7 }).port 3).markCnt = some 7 ∧ (one.lane l30).mark = none ∧ (one.lane l30).lost < 2) := by decide +kernel

/-- A FRAME block. -/
def frameBlk : RxBlock := rx .frame 5 (List.replicate 16 0)

theorem witness_Retraining :
    (one.lst l30 = 5 ∧ intact l30 frameBlk = true ∧ one.zget (laneF ZP.LSTATm.LOOPED 3 0) = 0) ∧
    (intact l30 { frameBlk with damaged := true } = false ∧ one.zget (ZP.LCTL.ERR_LIMIT.port 3) = 0 ∨
      (one.zput (ZP.LCTL.ERR_LIMIT.port 3) 0).zget (ZP.LCTL.ERR_LIMIT.port 3) = 0) ∧
    (bitAt 255 7 = true ∧ (255 : Nat) ≠ 2 ^ 7) ∧ ((lk up l30 3 { cause := some .eye }).lane l30).cause = some .eye ∧
    ((lk up l30 3 { cause := some .other, attempts := 2 }).lane l30).attempts = 2 ∧
    ((one.zget Z.CLK_SRC.SAFE = 0 ∧ one.zget Z.BOOT_STAT.STAGE = 4) ∧ (lk up l30 6 {}).lst l30 = 6 ∧ (lk up l30 7 {}).lst l30 = 7) ∧
    ((0xFF : Byte).toNat = one.zget (ZP.LCTL.LANE_EN.port 3)) ∧
    (bitAt (one.zget (ZP.LCTL.LANE_EN.port 3)) 7 = true ∧ (one.port 3).mask = 0) ∧
    ((lk up (.ring .east) 7 {}).lst (.ring .east) ≠ 0) := by decide +kernel

/-- A Pelnos that may sleep; one that sleeps and may wake by itself. -/
def calm : Pelnos := (hot.put P.LINK_CTL.SLEEP_EN 1).put P.FE_CFG.FE_EN 0
def sleeper : Pelnos := (hot.put P.LINK_STAT.UL_ASLEEP 1).put P.LINK_CTL.AUTO_WAKE 1

theorem witness_SleepAndQuiet :
    (calm.inReset = false ∧ calm.get P.LINK_STAT.UL_ASLEEP = 0 ∧ calm.get P.LINK_CTL.SLEEP_EN = 1 ∧ calm.get P.FE_CFG.FE_EN = 0 ∧
      calm.inj = none ∧ calm.csu = none ∧ (∀ l : Fin 8, (upl up 3 5).lst (.up 3 l) = 5) ∧ calm.closed = [] ∧ calm.sending = []) ∧
    (hot.get P.FE_CFG.FE_EN = 1) ∧ (sleeper.get P.LINK_STAT.UL_ASLEEP = 1 ∧ sleeper.inReset = false) ∧
    (sleeper.get P.LINK_CTL.AUTO_WAKE = 1 ∧ sleeper.get P.FE_CFG.FE_EN = 1) ∧ ((hot.put P.LINK_CTL.AUTO_WAKE 0).get P.LINK_CTL.AUTO_WAKE = 0) ∧
    ((lk up l30 6 {}).lst l30 = 6 ∧ ((lk up l30 6 {}).lane l30).cause = none) ∧
    ((up.zput (ZP.LCTL.DL_QUIET.port 3) 1).zget (ZP.LCTL.DL_QUIET.port 3) = 1 ∧ up.zget (ZP.DLSTAT.QUIET.port 3) = 0 ∧
      (up.port 3).dlWait = []) ∧ ((up.zput (ZP.DLSTAT.QUIET.port 3) 1).zget (ZP.DLSTAT.QUIET.port 3) = 1) := by decide +kernel

/-- A LOOP block of lane 0, and a Pelnos with its downlink in ACTIVE. -/
def loop0 : RxBlock := rx .loop 0 [0, 1, 0, 0, 0, 0, 0, 0, 0, 0, 0, 0, 0, 0, 0, 0]
def linked : Pelnos := hot.put P.LINK_STAT.DL_STATE 5

theorem witness_LoopsAndPatterns :
    (hot.get P.LINK_CTL.LOOP = 0 ∧ hot.get P.LINK_CTL.SLEEP_EN ≤ 1 ∧ hot.get P.LINK_CTL.AUTO_WAKE ≤ 1 ∧ bitAt (up.port 3).mask 0 = false) ∧
    (up.zget (ZP.LCTL.LOOP.port 3) = 0 ∧ up.run.active = false ∧ (up.port 3).asleep = false) ∧
    (intact (.down 3) loop0 = true ∧ pbyte loop0.blk 0 = 0 ∧ pbyte loop0.blk 1 = 1 ∧ linked.inReset = false ∧ one.lst (.down 3) = 5 ∧
      linked.get P.LINK_STAT.DL_STATE = 5) ∧
    (intact l30 loop0 = true ∧ (up.lane l30).badKind = 0) ∧ (intact (.ring .east) loop0 = true ∧
      up.zget (ZP.LSTATm.LOOPED.ringLane .east) = 0 ∧ up.zget (ZP.LCTL.LOOP.ringLane .east) ≠ 3) ∧
    (bitAt ({ hot with laneMask := 0xFE }).laneMask 0 = false ∧ hot.get P.LINK_STAT.UL_ASLEEP = 0) ∧
    (((up.zput (ZP.PRBS.CHK_EN.port 3) 1).prbsCfg l30).1 = true ∧ ((up.zput (ZP.PRBS.CHK_EN.port 3) 1).prbsCfg l30).2.2 = false) ∧
    (((up.zput (ZP.PRBS.LOCKED.port 3) 1).prbsCfg l30).2.2 = true) ∧ (up.lst l30 ≠ 5) := by decide +kernel

/-! ### Witnesses: ingress and merge -/

/-- A SHAVING record of double-column 5 with 3 hits, and a block that holds it alone. -/
def shav : List Nat := halves (shavingRec 5 7 3 false 0) 4
def blkS (seq : Nat) : Block := { kind := .data, seq := seq, payload := halvesBytes (shav ++ [0, 0, 0, 0]) }
def frame0 : OpenFrame := { frame := 0 }

/-- A receive path with a frame open and block `seq` waiting. -/
def qs (seq : Nat) : PortIn := { arrived := [blkS seq], expect := 0, discard := false, cur := some frame0, gapEvent := true }

theorem witness_Reassembly :
    (({ qs 0 with resync := true }).arrived = [blkS 0] ∧ (blkS 0).kind ≠ .frame) ∧
    ((qs 0).arrived = [blkS 0] ∧ (qs 0).resync = false ∧ (blkS 0).seq = (qs 0).expect ∧ (qs 0).cur = some frame0 ∧ up.mNext ≤ frame0.frame ∧
      bytesHalves (blkS 0).payload = shav ++ [0, 0, 0, 0] ∧ shav.length = 4 ∧ shav.headD 0 / 4096 = 2 ∧
      seal64 (recVal shav) = recVal shav ∧ bits (recVal shav) 24 16 ≠ 0xFFFF) ∧
    (((blkS 1).seq + 256 - (qs 1).expect) % 256 ∈ Finset.Icc 1 63 ∧ ((blkS 63).seq + 256 - (qs 63).expect) % 256 ∈ Finset.Icc 1 63) ∧
    (((blkS 64).seq + 256 - 0) % 256 ∈ Finset.Icc 64 127 ∧ ((blkS 127).seq + 256 - 0) % 256 ∈ Finset.Icc 64 127) ∧
    (((blkS 128).seq + 256 - 0) % 256 ∈ Finset.Icc 128 255 ∧ ((blkS 255).seq + 256 - 0) % 256 ∈ Finset.Icc 128 255) ∧
    (({ (qs 0) with held := [blkS 1], cur := none }).held = [blkS 1] ∧ (blkS 1).seq = (0 + 1) % 256) := by decide +kernel

/-- A record of frame `f`, and a side entry of frame `f`. -/
def qrec (f : Nat) : QRec := { frame := f, hws := shav, hits := 3, coarse := 7, shaving := true }
def side (f : Nat) : SideEntry := { frame := f, trailer := some [0x3000, 0, 0, 0], damaged := false, whole := true, time := 0 }

theorem witness_QueuesAndMembership :
    (({ queue := [qrec 3, qrec 3, qrec 4] } : PortIn).side = []) ∧ (({ side := [side 3] } : PortIn).side = [side 3]) ∧
    (up.zget Z.CLK_SRC.SAFE = 0 ∧ up.zget Z.BOOT_STAT.STAGE = 4 ∧ up.zget (ZP.CTL.MERGE_EN.port 15) = 0 ∧
      bitAt (up.zget Z.CLK_GATE.PORT) 15 = true ∧ bitAt ((up.zput Z.CLK_GATE.PORT 0).zget Z.CLK_GATE.PORT) 15 = false) ∧
    ((up.zput (ZP.CTL.MERGE_EN.port 3) 1).zget (ZP.CTL.MERGE_EN.port 3) = 1) ∧
    (({ gapEvent := true } : PortIn).cur = none) ∧ ((up.zput (ZP.STAT.LINK.port 3) 1).zget (ZP.STAT.LINK.port 3) = 1) := by decide +kernel

/-- A run in progress whose next frame is `m`, a billet at line `l`, port 3 merging with `q`. -/
def merging (m l : Nat) (q : PortIn) : State :=
  ((((up.updRun fun _ => { active := true, epoch := some 0, id := 0 }).zput Z.MERGE_NEXT.NEXT m).updBuf fun _ =>
    { pos := some (9, l) }).zput (ZP.STAT.STATE.port 3) 3).setPort 3 q

def done0 : PortIn := { queue := [qrec 0, qrec 1], side := [side 0, side 1] }

theorem witness_Merge :
    ((merging 0 0 done0).mNext = 0 ∧ (merging 0 0 done0).cmds = [] ∧ (merging 0 0 done0).xtr.ctxs = [] ∧ (merging 0 0 done0).buf.pins = [] ∧
      (∀ e : Eng, (merging 0 0 done0).engRole e = 0) ∧ (merging 0 0 done0).run.active = true ∧ (merging 0 0 done0).run.last = none ∧
      (merging 0 0 done0).completePorts = [3] ∧ (merging 0 0 done0).waitedPorts = [] ∧ 0 + totalLines [done0.segment 3 0] ≤ 1024) ∧
    (((merging 0 899 done0).zput (ZP.STAT.STATE.port 4) 3).completePorts = [3] ∧
      ((merging 0 899 done0).zput (ZP.STAT.STATE.port 4) 3).waitedPorts = [4] ∧
      ((merging 0 899 done0).zput (ZP.STAT.STATE.port 4) 3).overMark = false ∧
      (((merging 0 899 done0).zput (ZP.STAT.STATE.port 4) 3).updTime fun _ => usUnits 50).waitPassed = true) ∧
    ((((merging 0 899 done0).zput (ZP.STAT.STATE.port 4) 3).zput Z.MERGE_HWM.SIDE 1).overMark = true) ∧
    ((merging (2 ^ 40 - 2) 1022 {}).completePorts = [] ∧ ((merging 5 1022 {}).zput (ZP.STAT.STATE.port 3) 4).waitedPorts = [] ∧
      (merging 5 1022 {}).frameEnd 5 + usUnits 40 + (merging 5 1022 {}).waitUnits ≤ usUnits 200) ∧
    ((merging (2 ^ 40 - 1) 1022 {}).mNext = 2 ^ 40 - 1 ∧
      (merging (2 ^ 40 - 1) 0 {}).frameEnd (2 ^ 40 - 1) + usUnits 40 + (merging 5 1022 {}).waitUnits ≤ 2 ^ 84) := by decide +kernel

/-! ### Witnesses: event buffer -/

/-- Stack `n` in service with its four channels in state `v`. -/
def srv (s : State) (n v : Nat) : State := (List.range 4).foldl (fun s c => s.setChState n c v) (s.zput (ZS.CTL.SERVICE.stack n) 1)

def line5 : List Byte := (List.range 64).map fun i => BitVec.ofNat 8 (i + 1)
def wl : WLine := { addr := 1966079 * 65536 + 65536 - 64, bytes := line5 }

theorem witness_BufferWriter :
    (((srv up 0 2).updBuf fun _ => { alloc := some 1966079 }).inRotation 0 = true ∧ ((1966079 : Nat) + 1) % billetCount = 0) ∧
    ((up.updBuf fun _ => { pos := some (1, 1023) }).buf.pos = some (1, 1023)) ∧
    ((up.place wl.addr).1 < 32 ∧ wl.bytes.length = 64 ∧ (srv up 7 2).takesWrite wl.addr = ((up.place wl.addr).1 / 4 == 7)) ∧
    (up.takesWrite wl.addr = false) ∧
    (bitAt (((srv up 7 2).zput Z.BUF_STAT.SKIPPED 255).zget Z.BUF_STAT.SKIPPED) 7 = true ∧ (∀ c : Fin 4, (srv up 7 2).chState 7 c = 2)) ∧
    (bitAt (up.zget Z.BUF_STAT.SKIPPED) 0 = false) := by decide +kernel

/-- Stack `n` switching to point 1 with every set found. -/
def switching (n : Nat) : State :=
  (List.range 4).foldl (fun s c => s.zput (setF n c 1) 1)
    ((((srv up n 3).zput (ZS.DPT.SWITCHING.stack n) 1).zput (ZS.DPT.TARGET.stack n) 1).updStack n fun x => { x with goal := 1 })

theorem witness_DramTraining :
    ((srv up 7 2).zget (ZS.CTL.RETRAIN_EN.stack 7) = 1 ∧ (srv up 7 2).slicing 7 = false ∧ (srv up 7 2).zget Z.BUF_STAT.PASR = 0) ∧
    (((srv up 7 2).zput (chanF ZS.CHSTATc.SLICE 7 3) 1).slicing 7 = true ∧ ((srv up 7 2).stack 7).waiting = false) ∧
    (Tab.get 0 (((srv up 7 2).updStack 7 fun x => { x with slices := [(3, 16)] }).stack 7).slices 3 ≠ 0) ∧
    (up.zget (ZS.DPT.EMERG.stack 7) = 0 ∧ up.zget (ZS.DPT.SWITCHING.stack 7) = 0 ∧ up.zget (ZS.DPT.POINT.stack 7) = 0 ∧
      (up.stack 7).training = false) ∧
    ((switching 7).wantedPoint 7 = 1 ∧ ((switching 7).stack 7).goal = 1 ∧
      (∀ c : Fin 4, (switching 7).chState 7 c = 3 ∧ (switching 7).zget (setF 7 c 1) = 1)) ∧
    (0 < up.zget (ZS.DPT.T_EMERG.stack 7) ∧ up.zget (ZS.DPT.T_EMERG.stack 7) ≤ 255) ∧
    (((up.updStack 7 fun x => { x with training := true }).stack 7).training = true) ∧
    (((switching 7).zput (ZS.DPT.EMERG.stack 7) 1).zget (ZS.DPT.EMERG.stack 7) = 1 ∧ 0 ≤ up.zget (ZS.DPT.T_CLEAR.stack 7)) ∧
    ((up.stack 7).hot = 0) := by decide +kernel

/-- Every stack is changing its point. -/
def changing (s : State) : State := (List.range 8).foldl (fun s n => s.zput (ZS.DPT.SWITCHING.stack n) 1) s

theorem witness_GatherAndSelfRefresh :
    (((srv up 2 2).zput Z.BUF_STAT.GATHER 1).zget Z.BUF_STAT.GATHER = 1 ∧ up.buf.billets = [] ∧ up.buf.dir = []) ∧
    ((up.zput Z.BUF_PASR.ACTIVE 1).zget Z.BUF_PASR.ACTIVE = 1 ∧ up.zget Z.BUF_PASR.ACTIVE = 0) ∧
    ((changing (up.zput Z.BUF_STAT.PASR 1)).zget Z.BUF_STAT.PASR = 1 ∧ (∀ n : Fin 8, (changing up).inService n = false) ∧
      (∀ n : Fin 8, (changing up).zget (ZS.DPT.SWITCHING.stack n) = 1)) ∧
    ((0x15 : Word).toNat % 32 ≠ up.zget Z.BUF_MAP.GRAIN + 16 * up.zget Z.BUF_MAP.HASH ∧ bitAt (0x15 : Word).toNat 8 = false) ∧
    ((up.updRun fun r => { r with active := true }).run.active = true ∧ up.anyPin = false) := by decide +kernel

def ups : Upset := { pos := 31, col := 63, mask := 0x001 }

/-- Stack 7 in service, its billets written once, so that its pages are scrubbed. -/
def used : State := (srv up 7 2).updBuf fun b => { b with billets := (List.range 200).map fun i => (i, { gen := 1 }) }

theorem witness_DramLinesAndScrub :
    (up.buf.dmg = [] ∧ up.zget (ZS.ICTL.SPARE.stack 7) = 0 ∧ up.poisoned 31 (64 * 67108863 / 2048) = false ∧ up.zget Z.BUF_PASR.ACTIVE = 0) ∧
    (ups.pos.val < 32 ∧ oddMask ups.mask = true ∧ up.openPage 31 1966079 = false ∧ 32 * 0 + 31 < 67108864) ∧
    (line5.length ≤ 64 - (0xFFFFFFC0 : Word).toNat % 64) ∧
    ((srv up 7 2).scrubs 31 0x1FFDFF = true) ∧ ((used.upset 28 0 ups).scrubs 28 0 = true) ∧
    (up.buf.prioStart = 0 ∧ up.zget Z.SCRUB_CFG.MBPS ≠ 0 ∧ up.zget Z.SCRUB_POS.PAUSED = 0) := by decide +kernel

/-- Rank `r` of stack 7 migrates, `n` pages done. -/
def migrating (r n : Nat) : State :=
  (((((srv up 7 2).zput (ZS.MIG.ACTIVE.stack 7) 1).zput (ZS.MIG.RANK.stack 7) r).zput (ZS.MIG.PAGES.stack 7) n).zput
    (ZS.ICTL.SPARE.stack 7) 1).zput (ZS.ICTL.SPARE_RANK.stack 7) r

def frz : Freeze := { cause := 4, addr := 0, syn := [], flags := 0, cmds := [] }

theorem witness_RetirementAndLoss :
    ((srv up 7 2).inService 7 = true ∧ (srv up 7 2).zget (ZS.MIG.ACTIVE.stack 7) = 0 ∧ (srv up 7 2).pasr = false ∧
      (srv up 7 2).zget (ZS.ICTL.SPARE.stack 7) = 0 ∧ ((srv up 7 2).zput (ZS.ICTL.RANK_SEL.stack 7) 7).zget (ZS.ICTL.RANK_SEL.stack 7) < 8) ∧
    ((migrating 7 1048575).zget (ZS.MIG.ACTIVE.stack 7) = 1 ∧ (migrating 7 1048575).zget (ZS.MIG.PAGES.stack 7) = 1048575 ∧
      (migrating 7 1048575).inService 7 = true ∧ (migrating 7 0).buf.dmg = []) ∧
    ((migrating 7 1048576).zget (ZS.MIG.PAGES.stack 7) = 1048576 ∧ (migrating 7 1048576).zget (ZS.MIG.RANK.stack 7) < 8) ∧
    ((((srv up 7 2).zput (ZS.CTL.SERVICE.stack 7) 0).updStack 7 fun x => { x with ready := true }).inService 7 = false) ∧
    (Tab.get none ((up.updStack 7 fun x => { x with freeze := [(3, some frz)] }).stack 7).freeze 3 = some frz ∧
      (up.zput (ZS.FRZ.SEL.stack 7) 3).zget (ZS.FRZ.SEL.stack 7) = 3) := by decide +kernel

/-! ### Witnesses: extraction -/

/-- The link up, every ring enabled, one entry posted on every ring that the host writes. -/
def hosted : State :=
  (List.range 8).foldl (fun s r => (s.zput (ZR.CFG.EN.hring r) 1).zput (ZR.PIDX.INDEX.hring r) (if r < 6 then 1 else 0))
    (up.zput Z.HOST_LINK.SPEED 1)

/-- `hosted` with every ring but `r` empty. -/
def only (r : Nat) : State := (List.range 6).foldl (fun s k => if k = r then s else s.zput (ZR.PIDX.INDEX.hring k) 0) hosted

/-- A TRIG entry: frames 0 and 1, ports 3, run 5; an entry of length 0. -/
def trig5 : List Byte := leBytes 0 8 ++ leBytes 8192 4 ++ leBytes 8 2 ++ [0, 0] ++ leBytes 7 4 ++ leBytes 5 2 ++ List.replicate 10 0
def trig0 : List Byte := leBytes 0 8 ++ List.replicate 24 0

/-- A context that reads frames 0 and 1. -/
def cx : Ctx :=
  { num := 9, order := 1, cls := 1, ring := false, tag := 7, wstart := 0, len := 8192, ports := 8, carve := 0, comp := false, level := 0,
    aux := false, nowait := false, runId := 0, phase := .read }

/-- Run 5 in progress, with epoch 0. -/
def running (s : State) : State := s.updRun fun _ => { active := true, epoch := some 0, id := 5 }

/-- The east link of the ring in service, and a ring TRIG from node 5. -/
def onRing (s : State) : State := lk s (.ring .west) 5 {}
def trigMsg : List Byte := [2, 5] ++ beBytes 4096 6 ++ beBytes 8191 3 ++ beBytes 8 2 ++ beBytes 7 3

theorem witness_ExtractionRequests :
    ((only 1).ringUp 1 = true ∧ (only 1).unfetched 1 ≠ 0 ∧ (only 4).unfetched 4 ≠ 0 ∧ (∀ k : Fin 3, (only 4).unfetched (k + 1) = 0) ∧
      (only 4).ctx? 65535 = none ∧ (only 4).mayTake 3 = true ∧ (running (only 1)).runKnown 5 = true ∧ (only 1).runKnown 5 = false) ∧
    (leNat (slice trig0 8 4) = 0 ∧ leNat (slice trig5 20 2) = 5 ∧ leNat (slice trig5 8 4) = 8192 ∧ byteAt trig5 15 = 0) ∧
    ((((only 1).zput Z.XTR_RESV.CLASS1 65535).zput Z.XTR_RESV2.CLASS2 65535).mayTake 0 = false) ∧
    ((onRing up).ringHears .west (rx .data 0 trigMsg) trigMsg ∧ byteAt trigMsg 0 = 2 ∧ (onRing up).zget Z.XTR_CFG.RING_EN = 0 ∧
      ((onRing up).zput Z.XTR_CFG.RING_EN 1).zget Z.XTR_CFG.RING_EN ≠ 0) ∧
    ((onRing hosted).zget (ZR.CFG.EN.hring 6) ≠ 0 ∧ (onRing hosted).mayTake 0 = true ∧ (onRing up).zget (ZR.CFG.EN.hring 6) = 0 ∧
      (∀ k : Fin 8, up.zget (Z.RING_GATEk_1.EN.at (16 * k)) = 0)) ∧
    ((running up).runIsOn 5 = true ∧ (running up).mNext ≤ (running up).needed { cx with runId := 5, phase := .lookup } ∧
      ((running up).epochTime : Int) + (((8191 : Nat) : Int) - 12800000) * tickUnits ≤ (running up).time) ∧
    (up.runIsOn 5 = false) := by
  unfold State.ringHears
  decide +kernel

/-- A merged frame of port 3 in the buffer: its header at line 0 of billet 9, its segment at line 2, in the directory as frame 0 of run 0. -/
def stored : State :=
  let s := (merging 0 0 done0).commitFrame false
  ((srv s 1 2).writeLines 3).updRun fun r => { r with last := some 0 }

/-- One context `c` in state `s`. -/
def ctx (s : State) (c : Ctx) : State := s.updXtr fun x => { x with ctxs := [c] }

/-- A section of frame 1 that waits for an engine, and an engine that runs program 5 in the CARVE role. -/
def sec1 (st : SecStage) : Section := { frame := 1, flags := 0, present := 8, subs := [{ port := 3, poison := false, hws := shav }], stage := st }
def carving (s : State) : State := (s.zput (ZE.STAT.STATE.geng 95) engRunning).zput (ZE.STAT.PROG.geng 95) 5
def cv (st : SecStage) : Ctx := { cx with carve := 5, secs := [sec1 st] }
def msg1 (ended : Bool) : State :=
  (ctx (carving up) (cv (.engine 95))).updEng 95 fun x =>
    { x with cur := some { items := [], size := 4, frame := 1, job := some ⟨9, 1⟩ }, out := [3, 0, 4, 0, 1, 2, 3, 4], ended := ended }

theorem witness_ExtractionReads :
    (cx.phase = .read ∧ cx.first ≤ cx.next ∧ cx.next ≤ cx.last ∧ { cx with phase := .wait }.phase ≠ .read) ∧
    (stored.framePlace 0 0 = .at_ (9, 0) false ∧ stored.buf.dmg = [] ∧ stored.framePlace 0 1 = .beyond ∧ up.framePlace 0 0 = .expired) ∧
    ((sec1 .carve).frame = 1 ∧ cx.next < 1 ∧ cx.next < cx.last) ∧ (up.carvers 5 = [] ∧ (carving up).carvers 5 = [95]) ∧
    ((carving up).idleCarvers 5 = [95] ∧ ((carving up).eng 95).cur = none) ∧ ((msg1 false).idleCarvers 5 = []) ∧
    (((msg1 true).eng 95).ended = true ∧ ((msg1 true).eng 95).out = [3, 0, 4, 0] ++ [1, 2, 3, 4] ∧
      (∀ w ∈ ([1, 2, 3, 4] : List Nat), bitAt w 17 = false)) := by decide +kernel

/-- A context whose stream `bs` is compressed on stream 7. -/
def zc (bs : List Byte) (complete : Bool) (level : Nat) : Ctx :=
  { cx with comp := true, level := level, zs := some 7, ready := bs, complete := complete, next := 2, phase := .compress, zcheck := true }

/-- The byte 0x61 as a final block of the fixed code: 1, 01, 10010001, 0000000. -/
def codedA : List Bool :=
  [true, true, false] ++ [true, false, false, true, false, false, false, true] ++ List.replicate 7 false

theorem witness_Compression :
    ({ cx with comp := true, ready := [1] }.wantsStream = true ∧ cx.wantsStream = false) ∧
    ((zc [] true 1).zs = some (7 : Fin 8).val ∧ (zc [] true 1).zdone = false ∧ (zc [] true 1).zsect = false) ∧
    (0 < (zc [0x61] true 0).ready.length) ∧
    (codedA.length < (storedBits 0 true [0x61]).length ∧ blockDecodes codedA [] [0x61] true 1 = true ∧
      blockDecodes codedA [] [0x62] true 1 = false) ∧ ((zc [0x61] false 1).complete = false) ∧
    ({ zc [] false 1 with zidle := 5, zbits := [true] }.starved = false) := by decide +kernel

/-- A context whose stream is complete in host memory. -/
def finishedCx : Ctx := { cx with next := 2, complete := true, pushed := true, granted := true, phase := .held, nsect := 2, bytes := 100 }
def bufq (size : Nat) : List Byte := leBytes 0x10000 8 ++ leBytes size 4 ++ leBytes 77 4 ++ List.replicate 16 0

theorem witness_OutputAndCompletions :
    ({ cx with ready := List.replicate 4097 1 }.ready.length = 4097 ∧ up.xtr.queue.length < 2048) ∧
    ({ cx with ready := [1], complete := true, next := 2 }.complete = true) ∧
    (hosted.dmaOk = true ∧ up.dmaOk = false ∧ 0 + 4095 < (4096 : Nat)) ∧ ({ cx with num := 8, cls := 0 }.cls < cx.cls ∧ cx.cls ≠ 3) ∧
    ({ cx with dma := [1] }.starved = true ∧ hosted.ringUp 5 = true ∧ hosted.unfetched 5 ≠ 0 ∧ bufqOk (bufq 4096) = true ∧
      bufqOk (bufq 4095) = false) ∧
    (hosted.ringRoom 6 = true ∧ up.ringRoom 6 = false) ∧
    (finishedCx.finished = true ∧ finishedCx.nexp + finishedCx.nbey < finishedCx.nsect ∧ cx.finished = false ∧
      { cx with status := some 2 }.finished = true) := by decide +kernel


/-! ### Witnesses: Gouge engines -/

/-- Registers of a test engine: signs, corners and a pattern. -/
def gregs : Tab Word := [(1, 0x80000000#32), (2, 0x7FFFFFFF#32), (3, 0xFFFFFFFF#32), (5, 0x00000105#32), (7, 0x00100001#32), (31, 0x12345678#32)]

/-- Engine 95 in role `role`, RUNNING with `x`, and with the word `w` at its PC. -/
def runs (role w : Nat) (x : Engine) : State :=
  (((up.zput (ZE.STAT.STATE.geng 95) engRunning).zput (ZE.STAT.ROLE.geng 95) role).zput (ZC.CTL.EN.gcl 3) 1).updEng 95 fun _ =>
    { x with imem := Tab.set 0 x.imem (x.pc / 4) (BitVec.ofNat 32 w) }

def gi : Issue := ⟨95, .ok⟩
/-- At the last word of its memory. -/
def gx : Engine := { pc := 32764, regs := gregs, frame := 2 ^ 40 - 1 }

theorem witness_EngineArithmetic :
    (∀ fn ∈ List.range 16, (runs 1 (encR fn 31 1 0) gx).runsWord gi (encR fn 31 1 0)) ∧
    (∀ op ∈ ([1, 2, 3, 4, 8] : List Nat), (runs 1 (encI op 31 0 0xFFFF) gx).runsWord gi (encI op 31 0 0xFFFF)) ∧
    (∀ op ∈ ([5, 6, 7] : List Nat), (runs 1 (encI op 31 2 31) gx).runsWord gi (encI op 31 2 31)) ∧
    (∀ op ∈ ([9, 10] : List Nat), (runs 1 (encI op 31 2 (31 + 32 * 31)) gx).runsWord gi (encI op 31 2 (31 + 32 * 31))) := by
  unfold State.runsWord
  decide +kernel

theorem witness_EngineMemory :
    (ecell 95 0x000FFFFF = ecell 95 0x0009FFFF ∧ ecell 95 0x00100000 = ecell 72 0x00100000 ∧ ecell 95 0 ≠ ecell 94 0) ∧
    (∀ op ∈ ([0x10, 0x11, 0x12, 0x13, 0x14, 0x15, 0x16, 0x17, 0x18] : List Nat),
      (runs 1 (encI op 31 7 0xFFFF) gx).runsWord gi (encI op 31 7 0xFFFF)) ∧
    (((runs 1 0 gx).ereg 95 7 + (0xFFFF#16).signExtend 32).toNat % 4 = 0 ∧ (gregs.get 0 0).toNat % 4 = 0 ∧
      isShared (0x000FFFFC) = false ∧ ((runs 1 0 gx).eng 95).cur = none) := by
  unfold State.runsWord
  decide +kernel

theorem witness_EngineBranches :
    (∀ op ∈ ([0x20, 0x21, 0x22, 0x23, 0x24, 0x25] : List Nat), (runs 1 (encI op 1 2 0x8000) gx).runsWord gi (encI op 1 2 0x8000)) ∧
    ((((32764 + 4 * (0x8000#16).toInt) % 32768).toNat : Int) = (32764 + 4 * (0x8000#16).toInt) % 32768) ∧
    (runs 1 (encJ 31 0x1FFFFF) gx).runsWord gi (encJ 31 0x1FFFFF) ∧
    ((runs 1 (encI 0x29 31 0 4) gx).runsWord gi (encI 0x29 31 0 4) ∧ ((0 : Word) + (4#16).signExtend 32).toNat % 4 = 0) := by
  unfold State.runsWord
  decide +kernel

/-- An input message of two items, and one of a job of a context. -/
def emsg : EngMsg := { items := [0x15A5A, 7], size := 2, frame := 3 }
def ej : EngMsg := { emsg with job := some ⟨9, 1⟩, ports := [3], size := 4 }

theorem witness_EngineStreams :
    ((runs 1 (encI 0x30 31 0 0) { gx with cur := some emsg }).runsWord gi (encI 0x30 31 0 0) ∧ emsg.items = 0x15A5A :: [7]) ∧
    (runs 1 (encI 0x30 31 0 1) gx).runsWord gi (encI 0x30 31 0 1) ∧ (runs 1 (encI 0x31 31 0 7) gx).runsWord gi (encI 0x31 31 0 7) ∧
    ((runs 2 (encI 0x32 31 0 0) gx).runsWord gi (encI 0x32 31 0 0) ∧ (runs 2 0 gx).engRole 95 = 2 ∧ gx.out.length < 5) ∧
    ((runs 0 (encI 0x32 5 0 0) { gx with cur := some ej, regs := [(5, 0x20003#32)] }).runsWord gi (encI 0x32 5 0 0) ∧
      bitAt 0x20003 17 = true ∧ 0x20003 % 256 ∈ ej.ports ∧ 0 < ej.size ∧ (runs 0 0 gx).engRole 95 = 0) ∧
    ((runs 2 (encI 0x33 31 0 0) gx).runsWord gi (encI 0x33 31 0 0) ∧ (runs 1 0 gx).zget (ZE.CTL.DEST.geng 95) = 0) ∧
    (runs 1 (encI 0x33 31 0 1) gx).runsWord gi (encI 0x33 31 0 1) ∧
    ((runs 1 (encI 0x34 31 0 0) gx).runsWord gi (encI 0x34 31 0 0) ∧ (runs 1 (encI 0x34 31 0 1) gx).runsWord gi (encI 0x34 31 0 1)) ∧
    (runs 1 (encI 0x35 31 0 0) gx).runsWord gi (encI 0x35 31 0 0) ∧
    ((runs 1 (encI 0x36 0 0 0) { gx with cur := some emsg, inq := [emsg] }).runsWord gi (encI 0x36 0 0 0) ∧ emsg.job = none) ∧
    (runs 1 (encI 0x37 0 0 0) gx).runsWord gi (encI 0x37 0 0 0) := by
  unfold State.runsWord
  decide +kernel

theorem witness_EngineFaults :
    ((runs 1 0 gx).engRole 95 ≠ 0 ∧ ((runs 1 0 gx).eng 95).pc < 32768) ∧
    ((runs 1 0xFFFFFFFF gx).engReady 95 = true ∧ legalWord ((runs 1 0xFFFFFFFF gx).eng 95).fetch.toNat = false) ∧
    (((runs 1 (encR 0 31 1 2) gx).eng 95).fetch.toNat = encR 0 31 1 2 ∧ up.engReady 95 = false) ∧
    (((runs 1 (encI 0x14 31 5 2) gx).ereg 95 5 + (2#16).signExtend 32).toNat % 4 ≠ 0 ∧
      ((runs 1 (encI 0x12 31 5 2) gx).ereg 95 5 + (2#16).signExtend 32).toNat % 2 ≠ 0 ∧
      (∀ op ∈ ([0x12, 0x13, 0x14, 0x16, 0x17, 0x18, 0x29] : List Nat),
        ((runs 1 (encI op 31 5 2) gx).eng 95).fetch.toNat = encI op 31 5 2 ∧ (runs 1 (encI op 31 5 2) gx).engReady 95 = true)) ∧
    (((runs 1 (encI 0x32 31 0 0) { gx with out := [1, 2, 3, 4, 5] }).eng 95).out.length = 5 ∧
      ((runs 1 (encI 0x36 0 0 0) { gx with opened := true }).eng 95).opened = true ∧
      ((runs 0 (encI 0x32 31 0 0) { gx with ended := true }).eng 95).ended = true ∧ (runs 0 0 gx).engRole 95 = 0) ∧
    ((((runs 1 0 gx).zput (ZE.WD.LOG2.geng 95) 12).engState 95 = 3) ∧ ((runs 1 0 gx).eng 95).yielded = false ∧
      ((runs 1 0 gx).zput (ZE.WD.LOG2.geng 95) 12).zget (ZE.WD.LOG2.geng 95) ≠ 0 ∧
      ((runs 1 0 gx).zput (ZE.WD.LOG2.geng 95) 0).zget (ZE.WD.LOG2.geng 95) = 0) ∧
    ((up.zput (ZE.CTL.OFF.geng 95) 0).zget (ZE.CTL.OFF.geng 95) = 0 ∧ up.zget Z.CLK_SRC.SAFE = 0 ∧ up.zget Z.BOOT_STAT.STAGE = 4 ∧
      (up.zput (ZE.CTL.OFF.geng 95) 1).zget (ZE.CTL.OFF.geng 95) = 1 ∧ (runs 1 0 gx).zget (ZC.CTL.EN.gcl 3) = 1) := by
  decide +kernel

/-! ### Witnesses: CTRL commands -/

def arg24 (l : List Byte) : List Byte := l ++ List.replicate (24 - l.length) 0

/-- One entry on the CTRL ring, the link of port 3 in ACTIVE. -/
def ctl : State := (only 0).zput (ZP.STAT.LINK.port 3) 1
def port3 : Half := 8
/-- Two words of a bulk write to pixels from 262,142. -/
def bulk : List Byte := arg24 ([0, 0, 0, 0] ++ leBytes 262142 4 ++ leBytes 2 4 ++ leBytes 0 8 ++ leBytes 4 4)
def bulkZ : List Byte := arg24 ([1, 0, 0, 0] ++ leBytes 262142 4 ++ leBytes 2 4 ++ leBytes 0 8 ++ leBytes 40 4)
/-- A stored block of the four bytes 1, 2, 3, 4. -/
def z4 : List Byte := [1, 4, 0, 0xFB, 0xFF, 1, 2, 3, 4]
def wc (c : Cmd) : Bool := c.wellFormed

/-- A commit on port 3, due at tick `t`. -/
def commitCmd (t : Nat) (held : Bool) : Cmd :=
  { id := 1, opcode := 4, tag := 7, ports := 8, arg := arg24 (leBytes t 8), started := true, tick := t, held := held }
def committing (c : Cmd) (time : Nat) : State :=
  ((((up.updCmds fun _ => [c]).zput (ZP.STAT.LINK.port 3) 1).updRun fun r => { r with epoch := some 0 })).updTime fun _ => time

theorem witness_CtrlFrontEnd :
    (ctl.linkUp 3 = true ∧ (ctl.port 3).dlWait = [] ∧ (ctl.port 3).outst = [] ∧ ctl.zget (ZP.DLSTAT.QUIET.port 3) = 0) ∧
    (ctl.ringUp 0 = true ∧ ctl.unfetched 0 ≠ 0 ∧ ctl.cmds = [] ∧ ctl.linkUp 4 = false ∧ (arg24 []).length = 24 ∧ port3.toNat = 2 ^ 3) ∧
    (wc (ctl.newCmd 1 5 port3 (arg24 []) none) = true ∧
      wc (ctl.newCmd 1 5 port3 (arg24 [1, 0, 0, 0, 0xFF, 1, 0xFF, 1, 0x34, 0x12]) none) = true ∧
      wc (ctl.newCmd 1 5 port3 (arg24 [1, 0, 0, 0, 0, 2]) none) = true ∧ wc (ctl.newCmd 1 5 port3 (arg24 [8]) none) = false) ∧
    (wc (ctl.newCmd 2 5 port3 (arg24 []) none) = true ∧ wc (ctl.newCmd 2 5 port3 (arg24 [0, 0, 0, 0, 0, 0, 0, 0, 4]) none) = true) ∧
    (wc (ctl.newCmd 3 5 port3 bulk (some [1, 2, 3, 4])) = true ∧ wc (ctl.newCmd 3 5 port3 (arg24 []) none) = true) ∧
    (wc (ctl.newCmd 4 5 port3 (arg24 (leBytes (2 ^ 52 - 1) 8)) none) = true ∧ wc (ctl.newCmd 4 5 port3 (arg24 []) none) = true) ∧
    (wc (ctl.newCmd 5 5 0 (arg24 (leBytes 20480 8)) none) = true ∧ wc (ctl.newCmd 5 5 0 (arg24 (leBytes 20476 8)) none) = true ∧
      wc (ctl.newCmd 5 5 0 (arg24 (leBytes 0 8 ++ leBytes 2048 8)) none) = true ∧ ctl.snapUnbuilt = false ∧ ctl.snaps.length < 256) ∧
    ((committing (commitCmd 8192 false) 0).cmds = [commitCmd 8192 false] ∧ (committing (commitCmd 8192 false) 0).linkUp 3 = true ∧
      (committing (commitCmd 8192 false) 0).warned = false ∧ (committing (commitCmd 8192 false) 0).tickTime 8192 ≤ 8192 * tickUnits ∧
      8192 * tickUnits < (committing (commitCmd 8193 false) 0).tickTime 8193) ∧
    ((ctl.zput Z.PWR_RAIL.WARN 1).warned = true) ∧
    ((match inflate (sourceBytes [] 40) 4 with | .error _ => true | _ => false) = true ∧
      (match inflate (sourceBytes z4 40) 4 with | .ok bs => bs == [1, 2, 3, 4] | _ => false) = true) := by
  decide +kernel

/-- An image of two words for the role of a CARVE engine, with four bytes of data and of shared memory at the end of it. -/
def gimg (role : Nat) : List Byte :=
  let h (sum : Nat) := [0x47, 0x4F, 0x55, 0x47, 1, b8 role, 0, 0] ++ leBytes 8 4 ++ leBytes 4 4 ++ leBytes 0xFFFFC 4 ++ leBytes 4 4 ++
    [20, 0, 0, 0] ++ leBytes sum 4 ++ leBytes 0xDC000000 4 ++ leBytes 0xD8000000 4 ++ [1, 2, 3, 4] ++ [5, 6, 7, 8]
  h (((leWords ((h 0).take 28 ++ (h 0).drop 32)).foldl (· + ·) 0) % 2 ^ 32)

/-- ARG of ENGINE_LOAD for program 5 in role `role`, engine 95. -/
def loadArg (role len : Nat) : List Byte := arg24 ([3, 5, b8 role, 0] ++ leBytes (2 ^ 23) 4 ++ leBytes 0 8 ++ leBytes len 4)
def engArg : List Byte := arg24 ([3, 0, 0, 0] ++ leBytes (2 ^ 23) 4)
def ctlE (st : Nat) : State := (ctl.zput (ZE.STAT.STATE.geng 95) st).zput (ZC.CTL.EN.gcl 3) 1
/-- A CTRL entry while run 0 is in progress. -/
def ctlR : State := ((ctl.updRun fun _ => { active := true, epoch := some 0, id := 0 }).zput Z.MERGE_NEXT.NEXT 5).zput Z.TIME_STAT.RUN_ACTIVE 1

theorem witness_CtrlRunsAndEngines :
    (ctl.ringUp 0 = true ∧ ctl.unfetched 0 ≠ 0 ∧ ctl.cmds = []) ∧
    (wc (ctl.newCmd 0x10 5 0 (loadArg 0 48) (some (gimg 0))) = true ∧ (gimg 0).length = 48 ∧ (parseImage 0 (gimg 0)).isSome = true ∧
      parseImage 0 (gimg 1) = none ∧ (∀ f : Eng, ctl.engProg f ≠ 5) ∧ (ctlE 3).engState 95 = 3 ∧ (ctlE 1).engState 95 = 1) ∧
    (wc (ctl.newCmd 0x11 5 0 engArg none) = true ∧ (ctlE 2).engState 95 = 2) ∧
    (wc (ctl.newCmd 0x12 5 0 engArg none) = true ∧ ((ctlE 3).zput (ZE.STAT.ROLE.geng 95) 1).engRole 95 ≠ 0 ∧ ((ctlE 3).eng 95).pc < 32768) ∧
    (wc (ctl.newCmd 0x20 5 0 (arg24 (leBytes 20480 8 ++ leBytes 24575 8)) none) = true ∧ ctlR.mNext ≤ 24575 / 4096 ∧
      wc (ctl.newCmd 0x20 5 0 (arg24 (leBytes 1 8)) none) = true ∧ ctlR.run.active = true ∧
      wc (ctl.newCmd 0x20 5 0 (arg24 (leBytes 0 16 ++ [0xFF, 0xFF])) none) = true ∧ ctl.run.epoch = none) ∧
    (wc (ctl.newCmd 0x21 5 0 (arg24 [63]) none) = true ∧ wc (ctl.newCmd 0x21 5 0 (arg24 [64]) none) = true ∧
      Tab.get none (ctl.updBuf fun b => { b with pins := [(63, some { first := 0, last := 0, runId := 0, cmd := none })] }).buf.pins 63 =
        some { first := 0, last := 0, runId := 0, cmd := none }) ∧
    (wc (ctl.newCmd 0x30 5 0 (arg24 []) none) = true ∧ wc (ctl.newCmd 0x30 5 0 (arg24 [1]) none) = true ∧ ctlR.run.last = none) ∧
    (wc (ctl.newCmd 0x40 5 0 (arg24 []) none) = true ∧ wc (ctl.newCmd 0x40 5 0 (arg24 [1]) none) = true ∧
      (ctx ctl { cx with fetched := some 0 }).oneCtx { cx with fetched := some 0 } ∧ ctl.xtr.fetched = 0) ∧
    (wc (ctl.newCmd 0x50 5 0 (arg24 (leBytes 0 8 ++ leBytes 8 4)) none) = true) ∧
    (wc (ctl.newCmd 0x60 5 0 (arg24 []) none) = true ∧ (srv ctl 0 2).canRun = true ∧ ctl.ringEn = false ∧ ctl.pasr = false ∧
      wc (ctl.newCmd 0x60 5 0 (arg24 (leBytes 0 6 ++ leBytes 1000000000 4)) none) = true ∧
      wc (ctl.newCmd 0x60 5 0 (arg24 (leBytes 1 6)) none) = true) ∧
    (wc (ctl.newCmd 0x61 5 0 (arg24 (leBytes 0 8 ++ leBytes 20480 8)) none) = true ∧ ctlR.mNext ≤ 20480 / 4096 ∧ ctlR.xtr.ctxs = []) := by
  unfold State.oneCtx
  decide +kernel

/-! ### Witnesses: host rings, Pelnos downlink, supply -/

/-- A register write of 0x5A as THR, a write of a pixel, and others, as they arrive (OP, TAG, payload). -/
def dl (op : Nat) (l : List Byte) : List Byte := pad16 ([b8 op, 9] ++ l)
/-- A SYNC payload, and an ECHO request. -/
def sy (f c : Nat) : List Byte := pad16 (beBytes f 4 ++ beBytes c 2)
def echo7 : List Byte := pad16 [1, 7]
/-- Port 3 with its downlink in ACTIVE at both ends. -/
def heard (c : Pelnos) : State := (one.setChip 3 (c.put P.LINK_STAT.DL_STATE 5)).setLst (.down 3) 5
/-- A command of `opcode` that has finished with result `r`. -/
def doneCmd (opcode r : Nat) : Cmd := { id := 1, opcode := opcode, tag := 7, ports := 8, arg := arg24 [], started := true, result := some r }
/-- FE_WRITE with one reply to come on port 3. -/
def waitCmd : Cmd := { id := 1, opcode := 1, tag := 7, ports := 8, arg := arg24 [], started := true, left := [(3, 1)] }
def waiting : State := ((up.updCmds fun _ => [waitCmd]).setPort 3 { outst := [⟨5, .cmd 1, 1, 1, 0⟩] })

/-- The block with its clocks in the safe state. -/
def sf : State := up.zput Z.CLK_SRC.SAFE 1

theorem witness_HostRings :
    (sf.safe = true ∧ up.zget Z.CLK_SRC.SAFE = 0 ∧ up.zget Z.BOOT_STAT.STAGE = 4) ∧
    (up.zget (ZR.CFG.EN.hring 5) = 0 ∧ up.zget (ZR.CFG.EN.hring 7) = 0 ∧ hosted.zget (ZR.CFG.EN.hring 5) = 1 ∧
      hosted.ringSize 5 < idxDiff 65 0 ∧ idxDiff 0 0 ≤ hosted.ringSize 5 ∧ idxDiff 0 0 < idxDiff (hosted.zget (ZR.PIDX.INDEX.hring 5)) 0 ∧
      hosted.zget (ZR.CFG.EN.hring 6) = 1) ∧
    ((up.zput (ZR.CFG.LOG2SIZE.hring 5) 20).zget (ZR.CFG.LOG2SIZE.hring 5) = 20 ∧ (0x14 : Word).toNat % 32 = 20 ∧
      bitAt (0x14 : Word).toNat 10 = false ∧ (up.zput (ZR.CFG.LOG2SIZE.hring 5) 5).zget (ZR.CFG.LOG2SIZE.hring 5) < 6) ∧
    (hosted.ringUp 0 = true ∧ hosted.unfetched 0 ≠ 0 ∧ hosted.cmds = [] ∧ 0 ∉ ctrlOps ∧ up.ringUp 0 = false) ∧
    ((doneCmd 1 0).result = some 0 ∧ hosted.ringRoom 6 = true ∧ up.ringRoom 6 = false) ∧
    (hosted.zget (ZR.CFG.EN.hring 7) = 1 ∧ Tab.get 0 (hosted.updHost fun h => { h with since := [(7, 1)] }).host.since 7 ≠ 0 ∧
      idxDiff ((hosted.zput (ZR.PIDX.INDEX.hring 7) 1).zget (ZR.PIDX.INDEX.hring 7)) (hosted.zget (ZR.CIDX.INDEX.hring 7)) ≠ 0) ∧
    ((up.updHost fun h => { h with pba := 0x8000000000000000 }).host.pba.getLsbD 63 = true ∧ up.host.pba.getLsbD 63 = false) ∧
    (waiting.cmds = [waitCmd] ∧ (waiting.port 3).outst = [⟨5, .cmd 1, 1, 1, 0⟩] ∧ (waiting.port 3).dlWait = [] ∧
      waiting.time < 0 + waiting.zget Z.HOST_TMO.FE_US * 1000 * nsUnits) ∧
    ((only 5).ringUp 5 = true ∧ (only 5).unfetched 5 ≠ 0 ∧ hosted.ringUp 7 = true) ∧
    ((hosted.zput Z.HOST_SHADOW.EN 1).zget Z.HOST_SHADOW.EN = 1) ∧
    ({ cx with dma := [1] }.starved = true ∧ (only 0).unfetched 5 = 0 ∧ (only 0).host.starved = false) := by decide +kernel

theorem witness_PelnosDownlink :
    (∀ x ∈ ([dl 1 ([1, 0] ++ beBytes 0x11 2 ++ beBytes 5 2), dl 1 ([1, 0] ++ beBytes 0x0F 2 ++ beBytes 5 2), dl 1 [0, 0], dl 1 [4, 0],
        dl 2 ([1, 0] ++ beBytes 0x11 2), dl 2 ([1, 0] ++ beBytes 0xFFF 2), dl 3 ([0, 0] ++ beBytes 511 2 ++ beBytes 511 2 ++ beBytes 0x30 2),
        dl 3 ([0, 0] ++ beBytes 512 2), dl 4 ([1, 0] ++ beBytes 511 2 ++ beBytes 511 2), dl 4 [17, 0],
        dl 5 ([2, 0] ++ beBytes 0x30 2 ++ beBytes 0x20 2), dl 6 ([0, 0] ++ beBytes 5 4 ++ beBytes 0x8000 2), dl 6 ([0, 0] ++ beBytes 0 6),
        dl 6 ([0, 0] ++ beBytes (2 ^ 31 - 1) 4 ++ beBytes 4095 2), dl 0 [], dl 7 []] : List (List Byte)),
      (heard hot).pelnosHears 3 (rx .data 0 x) .data x) ∧
    (pDecodes 0x11 = true ∧ pDecodes 0xFFF = false ∧ half (dl 1 ([1, 0] ++ beBytes 0x11 2 ++ beBytes 5 2)) 4 = 0x11 ∧
      byteAt (dl 1 [4, 0]) 2 = 4 ∧ ticksSince 0 hot.now = 0 ∧ ticksSince ((2 ^ 31 - 1) * 4096 + 4095) hot.now < 2 ^ 43) ∧
    ((heard hot).pelnosHears 3 (rx .sync 0 (sy 5 0xC064)) .sync (sy 5 0xC064) ∧
      (heard hot).pelnosHears 3 (rx .sync 0 (sy 0 64)) .sync (sy 0 64) ∧
      hot.now % 2 ^ 44 = (beNat (slice (sy 0 64) 0 4) * 4096 + half (sy 0 64) 4 % 4096 + 2 ^ 44 - 64) % 2 ^ 44 ∧ hot.coarse < 4096) ∧
    ((heard hot).pelnosHears 3 (rx .echo 0 echo7) .echo echo7 ∧ hot.frame < 2 ^ 31 ∧
      { hot with frame := 2 ^ 32 - 1 }.frame % 2 ^ 32 ≥ 2 ^ 31) ∧
    ({ hot with commit := some (0, 2), staged := [(P.THR.THR.key, some 1023)] }.commit = some (0, 2) ∧ 1023 ≠ hot.get P.THR.THR ∧
      ticksSince (hot.now + 3) (0 * 4096 + 2) < 2 ^ 43 ∧ 2 ^ 43 ≤ ticksSince (hot.now + 3) (0 * 4096 + 4)) ∧
    ((hot.put P.SNAP_CTL.ARM 1).get P.SNAP_CTL.ARM = 1 ∧ hot.frame % 65536 = hot.get P.SNAP_FRAME.FRAME ∧
      hot.coarse / 4 = hot.get P.SNAP_COARSE.COARSE / 4 ∧ hot.get P.SNAP_CTL.ARM = 0) := by
  unfold State.pelnosHears
  decide +kernel

theorem witness_PelnosSupplyAndMonitor :
    (up.linkUp 3 = false ∧ hot.inReset = false ∧ { hot with inReset := true }.inReset = true) ∧
    ((hot.put P.PWR_STAT.WARN 1).get P.PWR_STAT.WARN = 1 ∧ hot.get P.PWR_STAT.WARN = 0 ∧ hot.get P.PLL_STAT.LOCK = 1) ∧
    (hot.get P.MON_CTL.EN = 0 ∧ (hot.put P.MON_CTL.EN 1).get P.MON_CTL.EN = 1 ∧ (hot.put P.MON_CTL.EN 1).get P.MON_EN0.CH < 65536) ∧
    ({ hot with monScan := [(23 : Fin 24).val] }.monScan = (23 : Fin 24).val :: [] ∧ hot.get P.MON_CTL.RECORD = 0 ∧ hot.monDue = false ∧
      { hot with monFresh := 0x800000#24 }.monFresh.getLsbD 23 = true) := by decide +kernel

/-! ### Witnesses: register access and resets of the endpoint -/

theorem witness_RegisterReads :
    (∀ o ∈ ([0x10C, 0x114, 0x4000, 0x9000, 0x7000] : List Nat), inMsix o = false ∧ zmapped o = true) ∧
    (powerGroup 0x9000 = true ∧ powerGroup 0x114 = false ∧ pairLow 0x10C = true ∧ up.safe = false ∧ sf.safe = true) ∧
    (soleField 0x114 ((zfields 0x114).headD Z.BOOT_STAT.STAGE) ∧ ((zfields 0x114).headD Z.BOOT_STAT.STAGE).acc = .rc) ∧
    (up.host.latch = [] ∧ inMsix 0x7800 = true ∧ zmapped 0xFFFC = false ∧ inMsix 0xFFFC = false) := by
  unfold soleField
  decide +kernel

theorem witness_RegisterWrites :
    (up.zget Z.CLK_SRC.SAFE = 0 ∧ up.zget Z.BOOT_STAT.STAGE = 4 ∧ zmapped 0x230 = true ∧ plainWord 0x230 = true ∧ inMsix 0x230 = false) ∧
    (∀ f ∈ zfields 0x230, f.acc = .w1c → soleField 0x230 f ∧ ownCommand f = false) ∧
    ((hosted.zget (ZR.CFG.EN.hring 7) ≠ 0) ∧ (up.zput Z.HOST_SHADOW.EN 1).zget Z.HOST_SHADOW.EN = 1) ∧
    (sf.safe = true ∧ powerGroup 0x230 = false ∧ State.reset.zget Z.BOOT_STAT.STAGE < 4 ∧ State.reset.safe = false ∧
      zmapped 0xFFFC = false) ∧
    ((0xF40000 : BitVec 24).toNat = 0xF40000 + 0 ∧ (0x008000 : BitVec 24).toNat = (0 : Fin 96).val * 0x28000 + 0x8000 + 0 ∧
      (ctlE 2).engState 95 ≠ engOff ∧ (ctlE 2).engState 95 ≠ engRunning ∧ (ctlE 0).engState 95 = engOff ∧
      (ctlE 2).zget (ZC.CTL.EN.gcl 3) ≠ 0 ∧ (up.zput Z.HOST_SHWIN.CLUSTER 3).zget Z.HOST_SHWIN.CLUSTER = 3 ∧
      (up.zput (ZC.CTL.EN.gcl 0) 0).zget (ZC.CTL.EN.gcl 0) = 0) := by
  unfold soleField
  decide +kernel

/-- The link of the endpoint trains. -/
def train0 : State := up.updPwr fun p => { p with training := true }

theorem witness_EndpointLinkAndResets :
    (train0.pwr.training = true ∧ 1 ≤ train0.zget Z.HOST_LINK.MAX_SPEED ∧ train0.zget Z.HOST_LINK.SPEED ≠ 1 ∧ up.pwr.training = false) ∧
    (hosted.zget Z.HOST_LINK.SPEED ≠ 0) := by decide +kernel

/-! ### Witnesses: the timing ring -/

/-- The west link in service, node 5 the known headstock. -/
def headed (s : State) : State := ((onRing s).zput Z.RING_STAT.HS_VALID 1).zput Z.RING_STAT.HS_ID 5
/-- A message from node 5. -/
def ms (l : List Nat) : List Byte := pad16 ((l.take 1 ++ [5] ++ l.drop 1).map b8)
/-- RUN_START with number 7 and flags `f`, epoch 1 s. -/
def rstart (f : Nat) : List Byte := [3, 5, 1, b8 f] ++ beBytes 7 2 ++ beBytes 1 6 ++ beBytes 0 4
def rstop (t : Nat) : List Byte := [3, 5, 2, 0] ++ beBytes 0 2 ++ beBytes t 8 ++ [0, 0]
def syncMsg (hops : Nat) (t : Nat) : List Byte := [1, 5, b8 hops, 0] ++ beTime t
/-- This node in the time state `v`, consuming rotation `dir`. -/
def timed (s : State) (v dir : Nat) : State := (s.zput Z.TIME_STAT.STATE v).zput Z.TIME_STAT.CLK_DIR dir

theorem witness_RingMessages :
    (∀ x ∈ [ms [0], ms [7], ms [3, 0], ms [3, 5], ms [6], ms [3, 1], ms [3, 2], ms [3, 3], ms [3, 4], ms [4, 0, 15], rstart 0, rstop 4096],
      (headed up).ringHears .west (rx .data 0 x) x ∧ (onRing up).ringHears .west (rx .data 0 x) x) ∧
    ((onRing up).fromHeadstock (ms [3, 1]) = false ∧ (headed up).fromHeadstock (ms [3, 1]) = true) ∧
    ((rstart 1).length = 16 ∧ bitAt (byteAt (rstart 1) 3) 0 = true ∧ beNat (slice (rstart 1) 4 2) ≠ (headed up).zget Z.RING_RUN.RUN_NUM ∧
      (headed (srv up 0 2)).canRun = true ∧ 1000000000 * nsUnits + 0 * (4096 * tickUnits) ≥ (headed up).time) ∧
    ((headed (running up)).run.active = true ∧ beNat (slice (rstop 4096) 4 2) = (headed (running up)).zget Z.RING_RUN.RUN_NUM ∧
      (headed (running up)).mNext ≤ beNat (slice (rstop 4096) 6 8) / 4096 ∧
      beNat (slice (rstop 0) 6 8) / 4096 < (headed ((running up).zput Z.MERGE_NEXT.NEXT 3)).mNext) ∧
    (byteAt (ms [4, 0, 15]) 2 % 64 = (headed up).node ∧ ((headed up).zput Z.RING_STAT.ROLE_NOW roTailstock).role = roTailstock ∧
      (headed up).role ≠ roTailstock) ∧
    ((lk (onRing up) (.ring .east) 5 {}).ringServes .east = true ∧ (onRing up).ringServes .west = true ∧ srcOf (ms [0]) ≠ (onRing up).node ∧
      ((onRing up).updRing fun r => { r with mapSeen := true }).strips (ms [0]) = true ∧
      intact (.ring .west) { rx .data 0 (ms [0]) with damaged := true } = false) ∧
    ((up.zput Z.RING_STAT.ROLE_NOW roHeadstock).role = roHeadstock ∧ (up.zput Z.RING_RUN.ACTIVE 1).zget Z.RING_RUN.ACTIVE = 1 ∧
      up.role ≠ roHeadstock) := by
  unfold State.ringHears
  decide +kernel

theorem witness_TimeOverTheRing :
    (((onRing up).zput Z.RING_STAT.ROLE_NOW roHeadstock).role = roHeadstock ∧ (onRing up).ringEn = true ∧ up.role ≠ roHeadstock) ∧
    (intact (.ring .west) (rx .data 0 (syncMsg 61 0)) = true ∧ byteAt (syncMsg 61 0) 0 = 1 ∧ byteAt (syncMsg 62 0) 2 = 62 ∧
      (headed up).ringServes .west = true ∧ (headed up).ringServes .east = false ∧ srcOf (syncMsg 62 0) ≠ (headed up).node ∧
      (headed up).strips (syncMsg 62 0) = false ∧ ((headed up).lane (.ring .west)).badKind = 0 ∧ ((headed up).prbsCfg (.ring .west)).1 = false) ∧
    ((timed (headed up) tsLocked 0).following = true ∧ (timed (onRing up) tsLocked 0).fromHeadstock (syncMsg 62 0) = false ∧
      (timed (headed up) tsAcquire 0).zget Z.TIME_STAT.CLK_DIR = 0 ∧ (headed up).hopsOf 1 = none ∧ (headed up).run.active = false ∧
      (timed (headed up) tsRest 0).timeState = tsRest ∧ (headed up).fromHeadstock (syncMsg 62 0) = true) ∧
    ((up.updTime fun _ => 2 ^ 70).ring.lastSync + max 1 (up.zget Z.RING_SYNC.LOSS) * up.syncPeriod * 1000 * nsUnits ≤ 2 ^ 70) ∧
    ((timed up tsFree 0).timeState = tsFree ∧ up.ring.eps0 = none ∧ up.slewNs = 0 ∧
      ((up.updRing fun r => { r with samples := [(6400, 256000 * nsUnits), (3200, 128000 * nsUnits), (0, 0)] }).fit).isSome = true) ∧
    (up.zget Z.CLK_SRC.SAFE = 0 ∧ up.zget Z.BOOT_STAT.STAGE = 4 ∧ up.ring.set1 < 1000000000 ∧
      1000000000 ≤ (up.updRing fun r => { r with set1 := 1000000000 }).ring.set1) := by decide +kernel

/-! ### Witnesses: roles and echo -/

def inRole (s : State) (r : Nat) : State := s.zput Z.RING_STAT.ROLE_NOW r
/-- A LEASE of node `src` with sequence number `n`, TS valid and naming node 0. -/
def lease (src n mask : Nat) : List Byte := [5, b8 src, 0x80, 10] ++ beBytes n 4 ++ beBytes mask 8
def later (s : State) : State := s.updTime fun _ => 10 ^ 12 * nsUnits

theorem witness_RingRoles :
    ((inRole up roHeadstock).role = roHeadstock ∧ (inRole (onRing up) roCandidate).role = roCandidate ∧ (onRing up).ringEn = true ∧
      up.role ≠ roHeadstock ∧ up.role ≠ roCandidate ∧ (onRing up).ringServes .west = true ∧ (onRing up).ringServes .east = false ∧
      ((up.zput Z.RING_CFG.EN 1).ringServes .west = false) ∧ up.zget Z.RING_LEASE.NEXT_TAIL_EN ≠ 1 ∧
      (up.zput Z.RING_LEASE.NEXT_TAIL_EN 1).zget Z.RING_LEASE.NEXT_TAIL_EN = 1) ∧
    ((later up).ring.acted + msUnits (max 1 ((later up).zget Z.RING_LEASE.L_MS)) / 2 < (later up).time ∧
      up.time ≤ up.ring.acted + msUnits (max 1 (up.zget Z.RING_LEASE.L_MS)) / 2) ∧
    ((inRole up roTailstock).role = roTailstock ∧ ((later up).zput Z.RING_CFG.ROLE 1).cfgRole ≠ 0 ∧
      (later up).ring.renewed + msUnits (later up).ring.lms ≤ (later up).time ∧
      (later up).ring.mirrorAt + msUnits (later up).ring.lms ≤ (later up).time) ∧
    (((later (onRing up)).zput Z.RING_CFG.ROLE 1).cfgRole = 1 ∧ (later (onRing up)).role = roPlain ∧
      (later up).ring.renewed ≤ (later up).ring.enabled ∧
      (later up).ring.enabled + msUnits 100 ≤ (later up).time ∧ (later up).zget Z.RING_LEASE.L_MS ≤ 100) ∧
    (intact (.ring .west) (rx .data 0 (lease 5 9 1)) = true ∧ byteAt (lease 5 9 1) 0 = 5 ∧ srcOf (lease 5 9 1) ≠ up.node ∧
      srcOf (lease 0 9 1) = up.node ∧ (onRing up).ringHears .west (rx .data 0 (lease 5 9 1)) (lease 5 9 1) ∧ up.node < srcOf (lease 5 9 1) ∧
      srcOf (lease 5 9 1) < (up.zput Z.RING_CFG.NODE_ID 9).node ∧
      (up.updRing fun r => { r with leases := [(9, 4)] }).ring.leases.find? (fun x => x.1 == 9) = some (9, 4) ∧
      4 + msUnits (max 1 (up.zget Z.RING_LEASE.L_MS)) / 2 < (later up).time) ∧
    (up.ringEn = false ∧ up.zget Z.CLK_GATE.RING ≠ 0 ∧ (up.zput Z.CLK_GATE.RING 0).zget Z.CLK_GATE.RING = 0) := by
  unfold State.ringHears
  decide +kernel

def echoReq : List Byte := pad16 [1, 7]
/-- A response of a ring link and of Pelnos (frame 1, quarter ticks 8, turn 2), with SLIP as given. -/
def echoRing : List Byte := pad16 ([2, 7] ++ beBytes 100 6 ++ beBytes 200 6)
def echoPort (slip : Nat) : List Byte := pad16 ([2, 7] ++ beBytes 1 4 ++ beBytes 8 3 ++ beBytes 2 3 ++ [b8 slip])
def pe (acq : Bool) (n : Nat) : PortIn := { echo := { open_ := [(7, 0)], acq := acq, loadSent := true, n := n } }
/-- Port 3 with both directions in ACTIVE, an echo open. -/
def echoed (n : Nat) (t : Nat) : State := ((one.setPort 3 (pe false n)).zput (ZP.STAT.LINK.port 3) 1).updTime fun _ => t

theorem witness_EchoAndSync :
    ((onRing up).ringServes .west = true ∧ intact (.ring .west) (rx .echo 0 echoReq) = true ∧ byteAt echoReq 0 = 1 ∧
      intact (.ring .west) (rx .echo 0 echoRing) = true ∧ byteAt echoRing 0 = 2 ∧ (up.ringEcho .west).open_ = [] ∧
      ((up.updEcho .west fun e => { e with open_ := [(7, 5)] }).ringEcho .west).open_.find? (fun x => x.1 == byteAt echoRing 1) =
        some (byteAt echoRing 1, 5)) ∧
    ((echoed 0 0).linkUp 3 = true ∧ ((echoed 0 0).port 3).echo.acq = false ∧
      ((echoed 0 0).zput (ZP.ECHO_CTL.EN.port 3) 1).zget (ZP.ECHO_CTL.EN.port 3) ≠ 0 ∧ (pe true 0).echo.sent < 16 ∧ up.linkUp 3 = false) ∧
    ((echoed 0 0).lst l30 = 5 ∧ intact l30 (rx .echo 0 (echoPort 0)) = true ∧ byteAt (echoPort 0) 0 = 2 ∧ ((echoed 0 0).lane l30).badKind = 0 ∧
      ((echoed 0 0).prbsCfg l30).1 = false ∧ ((echoed 0 0).port 3).echo.open_.find? (fun x => x.1 == byteAt (echoPort 0) 1) =
        some (byteAt (echoPort 0) 1, 0) ∧ bitAt (byteAt (echoPort 0) 12) 0 = false ∧ bitAt (byteAt (echoPort 1) 12) 0 = true ∧
      (0 : Int) ≤ (2 ^ 40 : Nat) + (0 : Nat) * 6553600 - (0 : Nat) - beNat (slice (echoPort 0) 9 3) * 13107200 ∧
      (pe false 0).echo.n + 1 ≤ 2 ^ min 10 (up.zget (ZP.ECHO_CTL.AVG_LOG2.port 3))) ∧
    (0 + 1000000 * nsUnits ≤ (later up).time ∧ (pe false 0).echo.timeouts + 1 < 16 ∧
      16 ≤ { (pe false 0).echo with timeouts := 15 }.timeouts + 1) ∧
    ((running (echoed 0 0)).run.active = true ∧ (echoed 0 0).time <
        ((running (echoed 0 0)).updRun fun r => { r with epoch := some 1 }).epochTime ∧ (pe false 0).echo.loadSent = true) := by decide +kernel

/-! ### Witnesses: clocks, levels, feeds -/

/-- Every reference qualified, the crystal selected. -/
def quals : State := ((up.zput Z.CLK_SRC.XTAL_QUAL 1).zput Z.CLK_SRC.RW_QUAL 1).zput Z.CLK_SRC.RE_QUAL 1
/-- Gouge cluster 3 in phase `ph`, level `lv`, goal and target `gl`, rail `rail`. -/
def gcl3 (ph : DvfsPhase) (lv gl rail : Nat) (failed : Bool) : State :=
  (((up.zput (ZC.DVFS.LEVEL.gcl 3) lv).zput (ZC.DVFS.TARGET.gcl 3) gl).zput (ZC.DVFS.CAPPED.gcl 3) 0).updGcl 3 fun g => { g with
    phase := ph, goal := gl, rail := rail, failed := failed }
/-- Every engine of cluster 3 off. -/
def allOff : State := (List.range 24).foldl (fun s j => s.zput (ZE.CTL.OFF.geng (72 + j)) 1) up

theorem witness_ClocksAndSafeState :
    (quals.zget Z.CLK_SRC.XTAL_QUAL = 1 ∧ up.zget Z.CLK_SRC.XTAL_QUAL ≠ 1 ∧ (onRing up).lst (.ring .west) = 5 ∧ up.lst (.ring .west) ≠ 5 ∧
      quals.zget Z.CLK_SRC.RW_QUAL = 1 ∧ quals.zget Z.CLK_SRC.SEL ≠ 1 ∧ (quals.zput Z.CLK_SRC.SEL 1).zget Z.CLK_SRC.SEL = 1) ∧
    ((timed quals tsLocked 1).following = true ∧ (timed quals tsLocked 1).qualified (2 : Fin 3) = true ∧
      (timed quals tsLocked 1).zget Z.TIME_STAT.CLK_DIR + 1 = 2 ∧ (timed quals tsLocked 1).zget Z.CLK_SRC.SEL = 0) ∧
    (up.clockMasked 3 true = true ∧ up.clockMasked 3 false = false ∧ quals.clockMasked 0 true = false ∧ (srv up 7 2).inService 7 = true) ∧
    (up.exitSel = none ∧ (quals.zput Z.CLK_SRC.SAFE 1).exitSel.isSome = true ∧ (quals.zput Z.CLK_SRC.SAFE 1).safe = true) ∧
    (bitAt (0 : Word).toNat 3 = false ∧ bitAt (up.zget Z.CLK_GATE.PORT) 3 = true ∧ (up.zput (ZP.CTL.MERGE_EN.port 3) 1).portBusy 3 = true) ∧
    ((up.updPwr fun p => { p with monTrip := true }).pwr.monTrip = true) := by decide +kernel

theorem witness_LevelsFeedsAndWarnings :
    (up.zget Z.CLK_SRC.SAFE = 0 ∧ up.zget Z.BOOT_STAT.STAGE = 4 ∧ (∀ j : Fin 24, allOff.zget (ZE.CTL.OFF.geng (24 * 3 + j.val)) ≠ 0) ∧
      (up.zput (ZE.CTL.OFF.geng 95) 0).zget (ZE.CTL.OFF.geng (24 * 3 + 23)) = 0 ∧ up.zget (ZC.CTL.EN.gcl 3) = 1) ∧
    (((gcl3 .idle 1 3 1 false).gcl 3).phase = .idle ∧ ((gcl3 .idle 1 3 1 false).gcl 3).rail = (gcl3 .idle 1 3 1 false).zget (ZC.DVFS.LEVEL.gcl 3)) ∧
    (((gcl3 .rampUp 1 3 1 false).gcl 3).goal = (gcl3 .rampUp 1 3 1 false).effTarget 3 ∧
      (gcl3 .rampUp 1 3 1 false).zget (ZC.DVFS.LEVEL.gcl 3) < ((gcl3 .rampUp 1 3 1 false).gcl 3).goal ∧
      (gcl3 .rampDown 1 1 3 false).zget (ZC.DVFS.LEVEL.gcl 3) = ((gcl3 .rampDown 1 1 3 false).gcl 3).goal ∧
      ((gcl3 .rampDown 1 1 3 false).gcl 3).goal = (gcl3 .rampDown 1 1 3 false).effTarget 3 ∧ ((gcl3 .rampDown 1 1 3 true).gcl 3).failed = true) ∧
    ((gcl3 .relockUp 1 3 3 false).effTarget 3 = ((gcl3 .relockUp 1 3 3 false).gcl 3).goal ∧
      ((gcl3 .relockDown 3 1 3 false).gcl 3).goal < ((gcl3 .relockDown 3 1 3 false).gcl 3).rail) ∧
    ((up.zput Z.PWR_FEED.A_OK 1).zget Z.PWR_FEED.A_OK = 1 ∧ up.zget Z.PWR_FEED.B_OK ≠ 1) ∧
    ((up.updPwr fun p => { p with hold := true }).pwr.hold = true ∧ up.pwr.gapEnd = none ∧
      (up.updPwr fun p => { p with gapEnd := some 0 }).pwr.gapEnd = some 0 ∧ 0 + 2000 * nsUnits ≤ (later up).time ∧
      up.zget Z.MON_CTL.CAL_WAIT = 0) ∧
    (bitAt ((up.zput Z.PWR_RAIL.WARN 0x800).zget Z.PWR_RAIL.WARN) 11 = true ∧ bitAt (up.zget Z.PWR_RAIL.WARN) 11 = false ∧
      (up.zput Z.PWR_RAIL.WARN 0x800).zget Z.PWR_RAIL.WARN = 2 ^ 11 ∧ (up.zput Z.PWR_RAIL.WARN 0x800).warned = true) ∧
    ((later up).warned = false ∧ (later up).pwr.clearAt + 1000000 * nsUnits ≤ (later up).time) := by decide +kernel

/-! ### Witnesses: environment monitor -/

/-- The reference ready, channels 0, 1 and 31 measured (MODE 1, AUTO), as written and as in force; a dwell of index `i` in progress or not. -/
def scan (i : Nat) (dwell : Bool) : State :=
  let s := ((up.zput Z.MON_CTL.SCAN_EN 1).zput Z.MON_CTL.REF_READY 1).zput Z.MON_SCAN.INDEX i
  let s := [0, 1, 31].foldl (fun s c => ((s.zput (Z.MON_CHCFGc.MODE.at (4 * c)) 1).zput (Z.MON_CHCFGc.AUTO.at (4 * c)) 1)) s
  s.updMon fun m => { m with dwell := dwell, filt := s.filtWord, chcfg := [(0, s.chcfgWord 0), (1, s.chcfgWord 1), (31, s.chcfgWord 31)] }
/-- Both groups hold the outputs of a whole dwell. -/
def dwelt (i : Nat) : State :=
  (scan i true).updMon fun m => { m with g0 := { m.g0 with vals := [10, 20, 30, 41] }, g1 := { m.g1 with vals := [1, 2, 3, 4] } }
def heldM (s : State) : State := s.updPwr fun p => { p with hold := true }
/-- Module 3 enabled on its pair, with a result that has gone stale. -/
def stale3 : State :=
  ((((later (scan 0 false)).zput (ZI.PAIR.EN.il 3) 1).zput (ZI.LOW.LOW.il 3) 5).zput (Z.MON_CHCFGc.MODE.at 24) 1).updMon fun m => { m with
    good := [(3, 1)], chcfg := (6, 1) :: m.chcfg }
def trippedM : State := up.updPwr fun p => { p with monTrip := true }

theorem witness_MonitorScan :
    ((5 : Nat) ≠ 9 ∧ (5 : Nat) < 9 ∧ (5 : Nat) ≤ 7 ∧ (7 : Nat) ≤ 9) ∧
    (trippedM.ilForced = true ∧ up.ilForced = false ∧ up.scanRuns = false ∧ (scan 0 false).scanRuns = true ∧
      up.zget Z.MON_CTL.DMA_EN = 0 ∧ ((scan 0 false).zput Z.MON_CTL.DMA_EN 1).zget Z.MON_CTL.DMA_EN ≠ 0) ∧
    ((scan 0 false).cmds = [] ∧ (scan 0 false).mon.dwell = false ∧ (scan 0 false).monHeld = false ∧ (heldM up).monHeld = true ∧
      (scan 0 false).filtWord = (scan 0 false).mon.filt ∧ (∀ c : Fin 32, (scan 0 true).chcfgWord c = (scan 0 true).chcfg c) ∧
      (scan 0 true).nextIndex 0 = some 0 ∧ (scan 0 true).mon.dwell = true ∧ (scan 0 true).scanned 0 = true ∧
      (scan 0 true).chMode (2 * 0) ≠ 0 ∧ (scan 0 true).chAuto (2 * 0) = true ∧ (scan 0 true).mon.g0.pend = none ∧
      (scan 0 true).mon.g0.broken = false) ∧
    ((dwelt 15).groupDone 0 = true ∧ (dwelt 15).groupDone 1 = true ∧ (scan 0 true).groupDone 0 = false ∧ (dwelt 15).nextIndex 16 = some 0 ∧
      (dwelt 0).mon.g0.vals ≠ [] ∧ (dwelt 0).groupDone 0 = true ∧ (dwelt 0).groupDone 1 = true) ∧
    (stale3.ilStale 3 = true ∧ up.ilStale 3 = false ∧ stale3.monHeld = false ∧ stale3.zget (ZI.PAIR.EN.il 3) ≠ 0 ∧
      stale3.zget (ZI.LOW.LOW.il 3) ≠ stale3.zget (ZI.HIGH.HIGH.il 3) ∧ stale3.chBad (2 * 3) = false ∧
      stale3.zget Z.MON_CTL.SCAN_EN ≠ 0 ∧ stale3.zget Z.MON_CTL.REF_READY ≠ 0 ∧ stale3.ilForced = false) ∧
    ((heldM (later up)).holdStart + 100000000 * nsUnits ≤ (heldM (later up)).time ∧ up.mon.long ≠ some up.holdStart) ∧
    ((scan 15 true).chMode (2 * 15 + 1) ≠ 0 ∧ ((scan 15 true).grp 1).broken = false ∧ (2 * 15 + 1 : Nat) < 32) ∧
    (up.zget Z.CLK_GATE.MON ≠ 0 ∧ (up.zput Z.CLK_GATE.MON 0).zget Z.CLK_GATE.MON = 0 ∧ filtOk up.filtWord = true ∧
      filtOk (7 * 2 ^ 14 + 3 * 2 ^ 17) = false) := by decide +kernel

theorem witness_MonitorService :
    (up.zget Z.MON_CTL.REFBUF_EN ≠ 1 ∧ (up.zput Z.MON_CTL.REFBUF_EN 1).zget Z.MON_CTL.REFBUF_EN = 1 ∧ up.zget Z.MON_CTL.CAL_BUSY ≠ 1 ∧
      up.mon.injPend = 0 ∧ up.zget Z.MON_CTL.REF_READY = 0 ∧ (scan 0 false).zget Z.MON_CTL.REF_READY ≠ 0 ∧ (scan 0 false).monHeld = false ∧
      (scan 0 false).ilForced = false) ∧
    (up.zget Z.MON_CTL.DMA_EN ≠ 1 ∧ 0 % (4000 * nsUnits) = 0 ∧ up.time ≤ 0 ∧ 0 < up.time + 4000 * nsUnits) ∧
    ((up.zput Z.MON_INJ.PERIOD_MS 0).zget Z.MON_INJ.PERIOD_MS = 0 ∧ ((later up).zput Z.MON_INJ.PERIOD_MS 1023).zget Z.MON_INJ.PERIOD_MS = 1023 ∧
      (later up).mon.injAt + 1023 * 1000000 * nsUnits ≤ (later up).time) ∧
    ((scan 0 false).monClocked = true ∧ ((scan 0 false).updMon fun m => { m with injPend := 0x80 }).mon.injPend.getLsbD 7 = true ∧
      up.monClocked = false) ∧
    ((later up).mon.refAt + 5000000 * nsUnits ≤ (later up).time ∧ ((scan 0 false).zput Z.MON_CTL.CAL_BUSY 1).zget Z.MON_CTL.CAL_BUSY ≠ 0 ∧
      ((scan 0 false).zput Z.MON_CTL.CAL_WAIT 1).zget Z.MON_CTL.CAL_WAIT = 1) ∧
    ((31130 : Nat) ≤ (0x8000#16).toNat ∧ (0x8000#16).toNat ≤ 34406 ∧ (-64 : Int) ≤ (0xFC0#12).toInt ∧ (0x7FFF#16).toNat < 34406 ∧
      34406 < (0xFFFF#16).toNat) := by decide +kernel

/-! ### Witnesses: events, snapshots, resets -/

/-- A periodic snapshot due at spindle time 5. -/
def snap1 : Snap := { seq := 1, tick := 0, instant := 5, cmd := none, tag := 0, dest := 0, runId := 0 }
def snapped (x : Snap) : State := (hosted.updSnaps fun _ => [x]).updTime fun _ => 10
def evr : EvRec := ⟨527, 2, 7, List.replicate 12 1⟩

theorem witness_EventsAndSnapshots :
    ((543 : Nat) < 544 ∧ (evBits 543).2.2 < 32) ∧
    (bitAt (up.zget (evBits 527).2.1) (evBits 527).2.2 = true ∧
      bitAt ((up.zput (evBits 527).2.1 0).zget (evBits 527).2.1) (evBits 527).2.2 = false ∧ up.zget Z.EVT_CFG.MIN_SEV ≤ 3 ∧
      up.ev.queue.length < 256 ∧ 256 ≤ (up.updEv fun e => { e with queue := List.replicate 256 evr }).ev.queue.length) ∧
    (up.ringRoom 7 = false ∧ hosted.ringRoom 7 = true ∧ (hosted.updEv fun e => { e with queue := [evr] }).ev.queue = evr :: []) ∧
    ((snapped snap1).snaps = [snap1] ∧ snap1.latched = false ∧ snap1.instant ≤ (snapped snap1).time ∧ up.snaps = []) ∧
    ((∀ p : Port, (snapped { snap1 with latched := true }).snapTraffic 1 p = false) ∧ (snapped snap1).dmaOk = true ∧
      (snapped snap1).zget Z.BUF_PASR.ACTIVE = 0 ∧ (snapped snap1).cmds = []) ∧
    (up.zget Z.TEL_CFG.EN = 0 ∧ (up.zput Z.TEL_CFG.EN 1).zget Z.TEL_CFG.EN ≠ 0 ∧
      ((later up).updEv fun e => { e with telAt := 0 }).ev.telAt + max 1 (up.zget Z.TEL_CFG.PERIOD_MS) * 1000000 * nsUnits ≤ (later up).time ∧
      up.ev.telAt ≤ up.time ∧ up.time < up.ev.telAt + max 1 (up.zget Z.TEL_CFG.PERIOD_MS) * 1000000 * nsUnits ∧ up.buf.stageLost = false) ∧
    (bitAt ((ctl.zput Z.CSCRUB_CFG.PORTS 8).zget Z.CSCRUB_CFG.PORTS) 3 = true ∧ ctl.linkUp 3 = true ∧ ctl.pasr = false ∧
      262144 ≤ { ctl.port 3 with scrubPos := 262128 }.scrubPos + 16 ∧ (ctl.port 3).scrubPos + 16 < 262144) := by decide +kernel

/-- In boot stage `n`, with the crystal qualified. -/
def boot (n : Nat) : State := (State.reset.zput Z.CLK_SRC.XTAL_QUAL 1).zput Z.BOOT_STAT.STAGE n
/-- Every stack but `n` has ended the DRAM stage. -/
def others (s : State) (n : Nat) : State := (List.range 8).foldl (fun s k => if k = n then s else s.updStack k fun x => { x with ready := true }) s
def keep1 : State := (srv up 7 2).zput Z.BOOT_CFG.KEEP 1 |>.zput Z.BUF_STAT.IN_SERVICE 0x80

theorem witness_ResetsAndBringUp :
    ((0 : Fin 12) = 0 ∧ (11 : Fin 12) ≠ 0) ∧
    (keep1.zget Z.BOOT_CFG.KEEP = 1 ∧ keep1.stacksIn ≠ [] ∧ keep1.buf.wbuf = [] ∧ keep1.buf.pins = [] ∧ keep1.zget Z.BUF_STAT.GATHER = 0 ∧
      up.zget Z.BOOT_CFG.KEEP ≠ 1) ∧
    (bitAt (0x5A01 : Word).toNat 0 = true ∧ (0x5A01 : Word).toNat / 256 % 256 = 0x5A ∧ up.safe = false ∧ (0x5B01 : Word).toNat / 256 % 256 ≠ 0x5A) ∧
    ((boot 0).stage = 0 ∧ (boot 1).stage = 1 ∧ (boot 1).zget Z.CLK_SRC.XTAL_QUAL = 1 ∧ (boot 1).safe = false ∧ (boot 2).stage = 2 ∧
      ((boot 1).gcl 3).phase = .idle ∧ ((boot 1).gcl 3).rail = (boot 1).zget (ZC.DVFS.LEVEL.gcl 3)) ∧
    ((boot 3).stage = 3 ∧ ((boot 3).stack 7).ready = false ∧ (boot 3).pwr.kept.getLsbD 7 = false ∧ ((boot 3).stack 7).freeze = [] ∧
      bitAt ((boot 3).zget Z.BOOT_CTL.RETRYING) 7 = false ∧ (boot 3).zget (ZS.DPT.POINT.stack 7) < 2 ∧ ((boot 3).stack 7).due = [] ∧
      (∀ k : Fin 8, k ≠ 7 → ((others (boot 3) 7).stack k).ready = true) ∧ (∀ k : Fin 8, (boot 3).inService k = false) ∧
      bitAt ((boot 5).zput Z.BOOT_CTL.RETRYING 0x80 |>.zget Z.BOOT_CTL.RETRYING) 7 = true ∧ (boot 5).stage = 5) ∧
    (up.stage = 4 ∧ up.run.active = false ∧ up.inService 7 = false ∧ (∀ c : Fin 4, up.chState 7 c = chOff) ∧ sf.safe = true) := by decide +kernel

theorem witness_WritesWaitForReady :
    ((boot 3).safe = false ∧ (boot 3).stage ≠ 4 ∧ (boot 5).stage = 5 ∧ (boot 3).stage < 4) ∧
    (bar0Word (.monFiltWrite 0) = some Z.MON_FILT.RATE.off ∧ inMsix 0x114 = false ∧ powerGroup 0x114 = false ∧ (0x114 : Nat) ≠ 0x20) ∧
    (inMsix 0x9000 = false ∧ powerGroup 0x9000 = true ∧ zmapped 0x9000 = true ∧ (boot 3).host.latch = []) ∧
    (((boot 5).zput (ZS.CTL.SERVICE.stack 7) 1).inService 7 = true ∧ bitAt (0x80 : Word).toNat 7 = true ∧
      ((boot 5).zput (ZS.FRZ.SEL.stack 7) 3).zget (ZS.FRZ.SEL.stack 7) = 3 ∧
      (Tab.get none (((boot 5).updStack 7 fun x => { x with freeze := [(3, some frz)] }).stack 7).freeze 3).isSome = true) := by decide +kernel

theorem witness_EngineStartState :
    ctl.ringUp 0 = true ∧ ctl.unfetched 0 ≠ 0 ∧ ctl.cmds = [] ∧ engArg.length = 24 ∧ wc (ctl.newCmd 0x11 5 0 engArg none) = true ∧
      (ctl.newCmd 0x11 5 0 engArg none).num 0 1 < 4 ∧
      (∀ e ∈ engMask ((ctl.newCmd 0x11 5 0 engArg none).num 0 1) ((ctl.newCmd 0x11 5 0 engArg none).num 4 4),
        (ctlE 4).engState e ≠ engEmpty ∧ (ctlE 4).engState e ≠ engOff) ∧
      (95 : Eng).val ∈ engMask 3 (2 ^ 23) ∧ (ctlE 4).engState 95 ≠ engRunning ∧ gx.reg 0 = 0 := by decide +kernel

theorem witness_MonitorSettings :
    (up.zget Z.CLK_SRC.SAFE = 0 ∧ up.zget Z.BOOT_STAT.STAGE = 4 ∧ filtOk up.filtWord = true ∧ filtOk (7 * 2 ^ 14 + 3 * 2 ^ 17) = false) ∧
    ((scan 0 true).ilForced = false ∧ (scan 0 true).monHeld = false ∧ (scan 0 true).cmds = [] ∧ (scan 0 true).scanRuns = true ∧
      (scan 0 true).mon.dwell = true ∧ ((scan 0 true).zput Z.MON_CHCFGc.RANGE 1).filtWord = (scan 0 true).mon.filt ∧
      ((scan 0 true).zput Z.MON_CHCFGc.MODE 2).chcfgWord 0 ≠ (scan 0 true).chcfg 0 ∧ (scan 0 true).zget Z.MON_SCAN.INDEX < 16) := by
  decide +kernel

/-! ### Ill-formed commands are refused, one for each check -/

/-- A block of kind `k` with bytes `pl`, and one whose payload is a byte short. -/
def blk (k : BlkKind) (pl : List Byte) : RxBlock := ⟨⟨k, 0, pad16 pl⟩, 0, false, false⟩
def shortBlk (k : BlkKind) (pl : List Byte) : RxBlock := ⟨⟨k, 0, (pad16 pl).tail⟩, 0, false, false⟩

theorem test_wf_refuses_block_shapes :
    (Instr.trainBlockReceive (.down 0) (blk .data [])).wf = false ∧ (Instr.trainBlockReceive (.down 0) (shortBlk .train [])).wf = false ∧
    (Instr.uplinkBlockReceive 0 0 (blk .train [])).wf = false ∧ (Instr.laneMarkReceive 0 0 0 (blk .data [])).wf = false ∧
    (Instr.loopBlockReceive (.down 0) (blk .data [])).wf = false ∧ (Instr.downlinkSyncReceive 0 (blk .data [])).wf = false ∧
    (Instr.regWr 0 (blk .data [2])).wf = false ∧ (Instr.unknownDownlinkOp 0 (blk .data [1])).wf = false ∧
    (Instr.ringTrigReceive .east (blk .data [1]) 0).wf = false ∧ (Instr.ringCtrlGate .east (blk .data [3, 0, 4])).wf = false ∧
    (Instr.ringMessageForward .east (blk .data [6])).wf = false ∧ (Instr.pelnosEchoAnswer 0 (blk .echo [2]) 0 0).wf = false ∧
    (Instr.echoResponseReceive 0 0 (blk .echo [1]) 0).wf = false := by decide

theorem test_wf_refuses_lengths_and_bits :
    (Instr.sealedPageWrite 0 0 [] []).wf = false ∧ (Instr.sealedPageWrite 0 63 [1, 2] []).wf = false ∧
    (Instr.trigFetch 0 [(0, [1])]).wf = false ∧ (Instr.bufqTake 0 [1]).wf = false ∧ (Instr.ctrlFetch [1] none).wf = false ∧
    (Instr.feWrite 0 0 [1]).wf = false ∧ (Instr.ringEnable 0 0).wf = false ∧ (Instr.ringDisable 0 0x100).wf = false ∧
    (Instr.ringCfgEnable 0).wf = false ∧ (Instr.ringCfgDisable 0x400).wf = false ∧ (Instr.monInjGo 0).wf = false ∧
    (Instr.bar4Write 0 []).wf = false ∧ (Instr.barAccessInvalid 0 0 true 0).wf = false := by decide

theorem test_wf_admits_well_formed :
    (Instr.trainBlockReceive (.down 0) (blk .train [])).wf = true ∧ (Instr.regWr 0 (blk .data [1])).wf = true ∧
    (Instr.ringMessageForward .east (blk .data [7])).wf = true ∧ (Instr.ringCtrlGate .east (blk .data [3, 0, 3])).wf = true ∧
    (Instr.ringEnable 0 0x100).wf = true ∧ (Instr.sealedPageWrite 0 63 [1] []).wf = true := by decide

/-! ### Worked examples of the spec -/

/-- spec/07: buffer address 0x0F03_29C0 with GRAIN 4 and HASH 1 lies in channel 2 of stack 0 at 0x78_09C0. -/
theorem test_address_map : State.reset.place 0x0F0329C0 = (2, 0x7809C0) := by decide +kernel

/-- spec/04, "one frame, byte by byte": the CLUSTER head and the CRC-16 of both blocks. -/
theorem test_cluster_head :
    headRec { col := 181, row := 304, tick := 123456 * 4096 + 0x7A3, fine := 0xB6, tot := 0x0A6, short := false, long := false,
              orphan := false, lowres := false, era := 0 } 2 = 0x15ACC1E8ED94C057 := by decide +kernel

theorem test_block_crc :
    blockCrc ⟨.frame, 0x7E, [0x00, 0x01, 0xE2, 0x40, 0x00, 0x03, 0xFF, 0x00, 0x15, 0xAC, 0xC1, 0xE8, 0xED, 0x94, 0xC0, 0x57]⟩ = 0x8BA5 ∧
    blockCrc ⟨.data, 0x7F, [0x21, 0x52, 0x07, 0x0F, 0x3E, 0x24, 0, 0, 1, 0, 0, 0x1C, 0, 0, 0, 0]⟩ = 0x6492 := by decide +kernel

/-- spec/03: the start at tick 1,955, FINE 0xB6 and the fall at tick 1,976, sub-bin 3, give TOT 166. -/
theorem test_tot : totOf { tick := 1955, fine := 0xB6, lowres := false, dll := true } 1976 3 = 166 := by decide +kernel

/-- spec/15: LOW 0x4_0F00, HIGH 0x4_8366, v = 280,883 give CODE 2,048; and the two clamps. -/
theorem test_interlock_code :
    ilCode 280883 0x40F00 0x48366 = 2048 ∧ ilCode 0 0x40F00 0x48366 = 41 ∧ ilCode (2 ^ 20) 0x40F00 0x48366 = 3932 := by decide +kernel

/-- spec/18: Z_PORT9_LSTAT5, Z_STACK5_FRZ, Z_GENG42_STAT and P_DC200_DROP. -/
theorem test_register_addresses :
    ((ZP.LSTATm.CRC_ERR.at 20).port 9).off = 0x12518 ∧ (ZS.FRZ.SEL.stack 5).off = 0x25114 ∧ (ZE.STAT.STATE.geng 42).off = 0x34A84 ∧
    (P.DCn_DROP.COUNT.at (4 * 200)).off = 0x723 := by decide +kernel

/-- spec/13: the ECHO of a port: T1 at 512 ms after the epoch, ASYM +400 ps, F = 160,000, T2 = 0x0_9EC8, 15,800 bins. -/
def echoS : State :=
  (((up.zput (ZP.ECHO_ASYM.ASYM.port 0) 6400).zput (ZP.ECHO_CTL.AVG_LOG2.port 0) 0).updPort 0 fun q =>
    { q with echo := { q.echo with open_ := [(7, 512000000 * nsUnits)] } })
def echoR : State :=
  echoS.echoResp 0 ([2, 7] ++ beBytes 160000 4 ++ beBytes 0x09EC8 3 ++ beBytes 15800 3 ++ [0, 0, 0, 0])
    (512000000 * nsUnits + (2504 * nsUnits / 10 + 1) + 15800 * 13107200)

/-- RTT is 250,400 ps; OFFSET is 1,352.15 ps within one unit of 2⁻¹⁶ ns. -/
theorem test_echo :
    echoR.zget (ZP.ECHO_STAT.RTT.port 0) = 250400 ∧ 88614 ≤ echoR.zget (ZP.OFFSET.OFFSET.port 0) ∧
      echoR.zget (ZP.OFFSET.OFFSET.port 0) ≤ 88616 := by decide +kernel

end Sys2Proof.Tests
end

section
/-!
PROOFS. Folds over the fields of a register word: what clearing (R9, RC) and writing by access type leave of each field; and lists written
element by element into a sparse table.
-/

namespace Sys2Proof.Machine

/-! ### A fold over the fields of a word -/

/-- A step that touches the entry of its own field alone. -/
def FieldLocal (g : Tab Nat → Field → Tab Nat) : Prop :=
  ∀ (r : Tab Nat) (f : Field) (k : Nat), k ≠ f.key → Tab.get 0 (g r f) k = Tab.get 0 r k

theorem fget_congr {r q : Tab Nat} {f : Field} (h : Tab.get 0 r f.key = Tab.get 0 q f.key) : fget r f = fget q f := by
  simp only [fget, h]

theorem foldl_fields_get_of_key_ne {g : Tab Nat → Field → Tab Nat} (hg : FieldLocal g) (fs : List Field) (r : Tab Nat) {k : Nat}
    (h : ∀ f ∈ fs, f.key ≠ k) : Tab.get 0 (fs.foldl g r) k = Tab.get 0 r k := by
  induction fs generalizing r with
  | nil => rfl
  | cons f fs ih =>
    rw [List.foldl_cons, ih _ fun x hx => h x (List.mem_cons_of_mem _ hx)]
    exact hg r f k (h f List.mem_cons_self).symm

/-- Among fields with keys of their own, the fold does to `f` what one step does. -/
theorem foldl_fields_get_of_sole {g : Tab Nat → Field → Tab Nat} (hg : FieldLocal g) (fs : List Field) (r : Tab Nat) {f : Field}
    (h : fs.filter (fun x => x.key == f.key) = [f]) :
    ∃ q, fget q f = fget r f ∧ fget (fs.foldl g r) f = fget (g q f) f := by
  induction fs generalizing r with
  | nil => simp at h
  | cons x fs ih =>
    by_cases hx : x.key = f.key
    · rw [List.filter_cons_of_pos (by simpa using hx), List.cons.injEq] at h
      obtain ⟨rfl, hrest⟩ := h
      refine ⟨r, rfl, fget_congr (foldl_fields_get_of_key_ne hg fs _ fun y hy hkey => ?_)⟩
      exact List.filter_eq_nil_iff.mp hrest y hy (by simpa using hkey)
    · rw [List.filter_cons_of_neg (by simpa using hx)] at h
      obtain ⟨q, hq, hfold⟩ := ih (g r x) h
      exact ⟨q, hq.trans (fget_congr (hg r x _ (Ne.symm hx))), hfold⟩

/-! ### Clearing the RC fields of a word -/

/-- The step of `fclear`. -/
def fclearStep (r : Tab Nat) (f : Field) : Tab Nat := if f.acc = .rc then fset r f 0 else r

theorem fclear_eq_foldl (r : Tab Nat) (fs : List Field) : fclear r fs = fs.foldl fclearStep r := rfl

theorem fclearStep_local : FieldLocal fclearStep := by
  intro r f k hk
  unfold fclearStep
  split
  · exact get_fset_ne r 0 hk
  · rfl

theorem fclear_eq_filter (r : Tab Nat) (fs : List Field) :
    fclear r fs = (fs.filter fun f => f.acc = .rc).foldl fclearStep r := by
  rw [fclear_eq_foldl, List.foldl_filter]
  congr 1
  funext r f
  by_cases h : f.acc = .rc <;> simp [fclearStep, h]

theorem fclear_get_of_not_rc (r : Tab Nat) (fs : List Field) {k : Nat} (h : ∀ f ∈ fs, f.acc = .rc → f.key ≠ k) :
    Tab.get 0 (fclear r fs) k = Tab.get 0 r k := by
  rw [fclear_eq_filter]
  refine foldl_fields_get_of_key_ne fclearStep_local _ r fun f hf => ?_
  obtain ⟨hmem, hacc⟩ := List.mem_filter.mp hf
  exact h f hmem (by simpa using hacc)

theorem fclear_eq_self (r : Tab Nat) {fs : List Field} (h : ∀ f ∈ fs, f.acc ≠ .rc) : fclear r fs = r := by
  have hnone : (fs.filter fun f => f.acc = .rc) = [] := List.filter_eq_nil_iff.mpr fun f hf => by simpa using h f hf
  rw [fclear_eq_filter, hnone, List.foldl_nil]

/-- R9: an RC field that a read delivers reads zero after. -/
theorem fget_fclear_of_rc (r : Tab Nat) {fs : List Field} {f : Field} (h : fs.filter (fun x => x.key == f.key) = [f])
    (hrc : f.acc = .rc) : fget (fclear r fs) f = 0 := by
  obtain ⟨q, -, hfold⟩ := foldl_fields_get_of_sole fclearStep_local fs r h
  rw [fclear_eq_foldl, hfold]
  simp [fclearStep, hrc]

/-! ### Writing a field by its access type -/

theorem Field.merged_lt (f : Field) (o w old : Nat) : f.merged o w old < 2 ^ f.wid := Nat.mod_lt _ (Nat.two_pow_pos _)

theorem fwrite_local (o w : Nat) : FieldLocal fun r f => fwrite r f o w := by
  intro r f k hk
  simp only [fwrite]
  split
  · exact get_fset_ne r _ hk
  · exact get_fset_ne r _ hk
  · exact get_fset_ne r _ hk
  all_goals rfl

theorem fwrite_of_rw (r : Tab Nat) {f : Field} (o w : Nat) (h : f.acc = .rw ∨ f.acc = .st) :
    fwrite r f o w = fset r f (f.merged o w (fget r f)) := by
  rcases h with h | h <;> simp only [fwrite, h]

/-- R9: RW and ST fields take the value. -/
theorem fget_fwrite_of_rw (r : Tab Nat) {f : Field} (o w : Nat) (h : f.acc = .rw ∨ f.acc = .st) :
    fget (fwrite r f o w) f = f.merged o w (fget r f) := by
  rw [fwrite_of_rw r o w h, fget_fset_same, Nat.mod_eq_of_lt (f.merged_lt o w _)]

/-- R9: ones clear the bits of a W1C field. -/
theorem fget_fwrite_of_w1c (r : Tab Nat) {f : Field} (o w : Nat) (h : f.acc = .w1c) (hlt : fget r f < 2 ^ f.wid) :
    fget (fwrite r f o w) f = fget r f &&& (2 ^ f.wid - 1 - f.merged o w 0) := by
  have hset : fwrite r f o w = fset r f (fget r f &&& (2 ^ f.wid - 1 - f.merged o w 0)) := by simp only [fwrite, h]
  rw [hset, fget_fset_same, Nat.mod_eq_of_lt (Nat.lt_of_le_of_lt Nat.and_le_left hlt)]

/-- R9: RO, RC, WO and SH fields are left alone. -/
theorem fwrite_eq_self (r : Tab Nat) {f : Field} (o w : Nat) (h : ¬ (f.acc = .rw ∨ f.acc = .st ∨ f.acc = .w1c)) :
    fwrite r f o w = r := by
  cases hacc : f.acc <;> simp_all [fwrite]

/-- The word after a write leaves every entry that no writable field among `fs` holds. -/
theorem foldl_fwrite_get_of_unwritten (o w : Nat) (fs : List Field) (r : Tab Nat) {k : Nat}
    (h : ∀ f ∈ fs, f.acc = .rw ∨ f.acc = .st ∨ f.acc = .w1c → f.key ≠ k) :
    Tab.get 0 (fs.foldl (fun r f => fwrite r f o w) r) k = Tab.get 0 r k := by
  induction fs generalizing r with
  | nil => rfl
  | cons f fs ih =>
    rw [List.foldl_cons, ih _ fun x hx => h x (List.mem_cons_of_mem _ hx)]
    by_cases hw : f.acc = .rw ∨ f.acc = .st ∨ f.acc = .w1c
    · exact fwrite_local o w r f k (h f List.mem_cons_self hw).symm
    · rw [fwrite_eq_self r o w hw]

/-! ### A list written into a table, element by element -/

variable {α β : Type} [DecidableEq α]

/-- Write `l` at `base` and on, each element as `val` gives it. -/
def Tab.writeList (d : α) (val : β → α) (base : Nat) (t : Tab α) (l : List β) : Tab α :=
  l.zipIdx.foldl (fun t b => Tab.set d t (base + b.2) (val b.1)) t

theorem Tab.writeList_cons (d : α) (val : β → α) (base : Nat) (t : Tab α) (b : β) (l : List β) :
    Tab.writeList d val base t (b :: l) = Tab.writeList d val (base + 1) (Tab.set d t base (val b)) l := by
  simp only [Tab.writeList, List.zipIdx_cons', List.foldl_cons, List.foldl_map, Nat.add_zero, Prod.map, id, Nat.add_right_comm, Nat.add_assoc]

theorem Tab.get_writeList_outside (d : α) (val : β → α) (base : Nat) (t : Tab α) (l : List β) {a : Nat}
    (h : a < base ∨ base + l.length ≤ a) : Tab.get d (Tab.writeList d val base t l) a = Tab.get d t a := by
  induction l generalizing base t with
  | nil => rfl
  | cons b l ih =>
    rw [List.length_cons] at h
    rw [Tab.writeList_cons, ih _ _ (by omega), Tab.get_set_other d t _ (by omega)]

theorem Tab.get_writeList_inside (d : α) (val : β → α) (base : Nat) (t : Tab α) (l : List β) {k : Nat} (hk : k < l.length) :
    Tab.get d (Tab.writeList d val base t l) (base + k) = val l[k] := by
  induction l generalizing base t k with
  | nil => simp at hk
  | cons b l ih =>
    rw [Tab.writeList_cons]
    cases k with
    | zero => rw [Tab.get_writeList_outside d val _ _ l (by omega)]; simp
    | succ k =>
      rw [show base + (k + 1) = base + 1 + k by omega, ih _ _ (by simpa using hk), List.getElem_cons_succ]

end Sys2Proof.Machine
end

section
/-!
PROOFS. Reads of BAR0 and of the snapshot mirror (R7, R9, R326, R336, R390, R420 to R422).
-/

namespace Sys2Proof.Machine

/-! ### What a read of a register word changes -/

/-- The state with latches `l`. -/
def State.withLatch (s : State) (l : Tab (Option Nat)) : State := s.updHost fun h => { h with latch := l }

/-- No register shows the latches. -/
theorem State.zword_withLatch (s : State) (l : Tab (Option Nat)) (o : Nat) : (s.withLatch l).zword o = s.zword o := rfl

theorem State.latchWord_withLatch (s : State) (l : Tab (Option Nat)) (o : Nat) :
    (s.withLatch l).latchWord o = s.withLatch (Tab.set none l o (some (s.zword o))) := rfl

/-- The latches after the word at `o` was read: its own is used up, the low word of a pair latches the high word, TIME_NOW0 both partners. -/
def State.latchesAfterRead (s : State) (o : Nat) : Tab (Option Nat) :=
  let l := Tab.set none s.host.latch o none
  let l := if pairLow o then Tab.set none l (o + 4) (some (s.zword (o + 4))) else l
  if o = 0x4000 then Tab.set none (Tab.set none l 0x4004 (some (s.zword 0x4004))) 0x4008 (some (s.zword 0x4008)) else l

/-- The unread marks of the monitor after the word at `o` was read. -/
def MonSt.afterRead (m : MonSt) (o : Nat) : MonSt :=
  if 0x6180 ≤ o ∧ o < 0x6200 then { m with unread := m.unread &&& ~~~ BitVec.ofNat 32 (2 ^ ((o - 0x6180) / 4)) }
  else if 0x6044 ≤ o ∧ o < 0x6064 then { m with injUnread := m.injUnread &&& ~~~ BitVec.ofNat 8 (2 ^ ((o - 0x6044) / 4)) }
  else m

theorem MonSt.afterRead_eq (m : MonSt) (o : Nat) :
    m.afterRead o = { m with unread := (m.afterRead o).unread, injUnread := (m.afterRead o).injUnread } := by
  unfold MonSt.afterRead
  split_ifs <;> rfl

/-- The latching steps of `State.readWord` together. -/
theorem State.latchSteps_eq (s : State) (o : Nat) :
    (let s₁ := s.withLatch (Tab.set none s.host.latch o none)
    let s₂ := if pairLow o then s₁.latchWord (o + 4) else s₁
    if o = 0x4000 then (s₂.latchWord 0x4004).latchWord 0x4008 else s₂) = s.withLatch (s.latchesAfterRead o) := by
  unfold State.latchesAfterRead
  by_cases hp : pairLow o = true <;> by_cases ht : o = 0x4000 <;> simp only [hp, ht, if_true, if_false, State.latchWord_withLatch] <;> rfl

/-- A read of a register word in one equation: latches, RC fields, unread marks, the data. -/
theorem State.readWord_eq (s : State) (o : Nat) :
    s.readWord o = (((s.withLatch (s.latchesAfterRead o)).updZreg fun r => fclear r (zfields o)).updMon fun m => m.afterRead o).emit
      (.readData (leBytes ((Tab.get none s.host.latch o).getD (s.zword o)) 4)) := by
  rw [← s.latchSteps_eq]
  unfold State.readWord MonSt.afterRead
  by_cases h1 : 0x6180 ≤ o ∧ o < 0x6200
  · simp only [if_pos h1]; rfl
  · by_cases h2 : 0x6044 ≤ o ∧ o < 0x6064
    · simp only [if_neg h1, if_pos h2]; rfl
    · simp only [if_neg h1, if_neg h2]; rfl

theorem State.readWord_latch (s : State) (o : Nat) : (s.readWord o).host.latch = s.latchesAfterRead o := by
  rw [State.readWord_eq]; rfl

theorem State.readWord_zreg (s : State) (o : Nat) : (s.readWord o).zreg = fclear s.zreg (zfields o) := by
  rw [State.readWord_eq]; rfl

theorem State.readWord_onlyRead (s : State) (o : Nat) : onlyRead s (s.readWord o) ((Tab.get none s.host.latch o).getD (s.zword o)) := by
  have hmon : s.mon.afterRead o =
      { s.mon with unread := (s.mon.afterRead o).unread, injUnread := (s.mon.afterRead o).injUnread } := s.mon.afterRead_eq o
  rw [State.readWord_eq]
  exact congrArg (fun m => (((s.withLatch (s.latchesAfterRead o)).updZreg fun r => fclear r (zfields o)).updMon fun _ => m).emit
    (.readData (leBytes ((Tab.get none s.host.latch o).getD (s.zword o)) 4))) hmon

theorem State.latchesAfterRead_self (s : State) (o : Nat) : Tab.get none (s.latchesAfterRead o) o = none := by
  unfold State.latchesAfterRead
  split_ifs with hp ht ht
  all_goals simp (disch := omega) only [Tab.get_set_other, Tab.get_set_same]

theorem State.latchesAfterRead_pair (s : State) {o : Nat} (hp : pairLow o = true) :
    Tab.get none (s.latchesAfterRead o) (o + 4) = some (s.zword (o + 4)) := by
  simp only [State.latchesAfterRead, if_pos hp]
  split_ifs with ht
  · subst ht
    simp [Tab.get_set]
  · simp

theorem State.latchesAfterRead_other (s : State) {o a : Nat} (ht : o ≠ 0x4000) (ha : a ≠ o) (hp : pairLow o = false ∨ a ≠ o + 4) :
    Tab.get none (s.latchesAfterRead o) a = Tab.get none s.host.latch a := by
  simp only [State.latchesAfterRead, if_neg ht]
  split_ifs with hlow
  · have hne : a ≠ o + 4 := hp.resolve_left (by simp [hlow])
    rw [Tab.get_set_other none _ _ hne, Tab.get_set_other none _ _ ha]
  · exact Tab.get_set_other none _ _ ha

theorem State.latchesAfterRead_timeNow (s : State) :
    Tab.get none (s.latchesAfterRead 0x4000) 0x4004 = some (s.zword 0x4004) ∧
      Tab.get none (s.latchesAfterRead 0x4000) 0x4008 = some (s.zword 0x4008) := by
  simp [State.latchesAfterRead, Tab.get_set]

/-! ### The cases of a read -/

theorem State.bar0Read_mapped (s : State) {o : Nat} (hm : inMsix o = false) (hz : zmapped o = true)
    (hs : s.safe = false ∨ powerGroup o = true) : s.bar0Read o = s.readWord o := by
  rcases hs with hs | hs <;> simp [State.bar0Read, hm, hz, hs]

theorem State.bar0Read_safe (s : State) {o : Nat} (hm : inMsix o = false) (hs : s.safe = true) (hp : powerGroup o = false) :
    s.bar0Read o = s.emit (.readData [0, 0, 0, 0]) := by
  simp [State.bar0Read, hm, hs, hp, leBytes]

theorem State.bar0Read_msix (s : State) {o : Nat} (hm : inMsix o = true) :
    s.bar0Read o = s.emit (.readData (leBytes (s.msixRead o) 4)) := by
  simp [State.bar0Read, hm]

theorem State.bar0Read_unmapped (s : State) {o : Nat} (hs : s.safe = false) (hm : inMsix o = false) (hz : zmapped o = false) :
    s.bar0Read o = (s.badAccess 0 4 false false o).emit (.readData [0, 0, 0, 0]) := by
  simp [State.bar0Read, hm, hs, hz, leBytes]

theorem State.mirrorRead_closed (s : State) {o : Nat} (h : s.safe = true ∨ inMsix o = true) :
    s.mirrorRead o = s.emit (.readData [0, 0, 0, 0]) := by
  simp [State.mirrorRead, h, leBytes]

theorem State.mirrorRead_mapped (s : State) {o : Nat} (hs : s.safe = false) (hm : inMsix o = false) (hz : zmapped o = true) :
    s.mirrorRead o = s.emit (.readData (leBytes (Tab.get 0 s.mirror o) 4)) := by
  simp [State.mirrorRead, hs, hm, hz]

theorem State.mirrorRead_unmapped (s : State) {o : Nat} (hs : s.safe = false) (hm : inMsix o = false) (hz : zmapped o = false) :
    s.mirrorRead o = (s.badAccess 0 4 false true o).emit (.readData [0, 0, 0, 0]) := by
  simp [State.mirrorRead, hs, hm, hz, leBytes]

theorem exec_pairLowRead (off : Fin 524288) (s : State) : exec (.pairLowRead off) s = .next (s.bar0Read off) := rfl
theorem exec_timeNowRead (s : State) : exec .timeNowRead s = .next (s.bar0Read 0x4000) := rfl
theorem exec_mirrorRead (off : Fin 524288) (s : State) : exec (.mirrorRead off) s = .next (s.mirrorRead off) := rfl

/-! ### TIME_NOW0 -/

theorem timeNow0_mapped : inMsix 0x4000 = false ∧ zmapped 0x4000 = true ∧ powerGroup 0x4000 = false := by decide

theorem timeNow0_no_rc : ∀ f ∈ zfields 0x4000, f.acc ≠ .rc := by decide

/-- R326: a read of TIME_NOW0 outside the safe state, with nothing latched for it. -/
theorem State.bar0Read_timeNow (s : State) (hs : s.safe = false) (hl : Tab.get none s.host.latch 0x4000 = none) :
    onlyRead s (s.bar0Read 0x4000) (s.zword 0x4000) ∧ (s.bar0Read 0x4000).zreg = s.zreg ∧
      (s.bar0Read 0x4000).host.latch = s.latchesAfterRead 0x4000 := by
  obtain ⟨hm, hz, -⟩ := timeNow0_mapped
  have honly := s.readWord_onlyRead 0x4000
  rw [hl, Option.getD_none] at honly
  rw [s.bar0Read_mapped hm hz (.inl hs)]
  refine ⟨honly, ?_, s.readWord_latch _⟩
  · rw [s.readWord_zreg, fclear_eq_self _ timeNow0_no_rc]

/-! ### The obligation -/

/-- A mapped word: its data, its RC fields, the other fields, and the latches. -/
theorem pairLowRead_mapped (s : State) (off : Fin 524288) (v : Nat) (hm : inMsix off = false) (hz : zmapped off = true)
    (hs : s.safe = false ∨ powerGroup off = true) (hv : v = (Tab.get none s.host.latch off).getD (s.zword off)) :
    ∃ t, exec (.pairLowRead off) s = .next t ∧ onlyRead s t v ∧ (∀ f, soleField off f → f.acc = .rc → t.zget f = 0) ∧
      (∀ k, (∀ f ∈ zfields off, f.acc = .rc → f.key ≠ k) → Tab.get 0 t.zreg k = Tab.get 0 s.zreg k) ∧
      Tab.get none t.host.latch off = none ∧
      (pairLow off = true → Tab.get none t.host.latch (off.val + 4) = some (s.zword (off.val + 4))) ∧
      (off.val ≠ 0x4000 → ∀ o : Nat, o ≠ off → pairLow off = false ∨ o ≠ off.val + 4 →
        Tab.get none t.host.latch o = Tab.get none s.host.latch o) := by
  refine ⟨s.readWord off, ?_, hv ▸ s.readWord_onlyRead off, fun f hf hrc => ?_, fun k hk => ?_, ?_, fun hp => ?_, fun ht o ho hp => ?_⟩
  · rw [exec_pairLowRead, s.bar0Read_mapped hm hz hs]
  · exact (congrArg (fget · f) (s.readWord_zreg off)).trans (fget_fclear_of_rc _ hf hrc)
  · rw [s.readWord_zreg, fclear_get_of_not_rc _ _ hk]
  · rw [s.readWord_latch, s.latchesAfterRead_self]
  · rw [s.readWord_latch, s.latchesAfterRead_pair hp]
  · rw [s.readWord_latch, s.latchesAfterRead_other ht ho hp]

/-- Settles O45: what `State.bar0Read` and `State.mirrorRead` do case by case; after the read of a mapped word the registers are `fclear` of
the word's fields and the latches `State.latchesAfterRead`. -/
theorem registerReads : Obligations.RegisterReads := by
  unfold Obligations.RegisterReads
  intro s
  refine ⟨pairLowRead_mapped s, fun hs hl => ⟨s.bar0Read 0x4000, exec_timeNowRead s, ?_⟩, fun hs => ?_, fun off hm => ?_,
    fun off => ⟨fun hs hm hp => ?_, fun hs hm hz => ?_⟩, fun off => ⟨fun h => ?_, fun hs hm hz => ?_, fun hs hm hz => ?_⟩⟩
  · obtain ⟨honly, hreg, hlatch⟩ := s.bar0Read_timeNow hs hl
    rw [hlatch]
    exact ⟨honly, hreg, s.latchesAfterRead_timeNow⟩
  · obtain ⟨hm, -, hp⟩ := timeNow0_mapped
    rw [exec_timeNowRead, s.bar0Read_safe hm hs hp]
  · rw [exec_pairLowRead, s.bar0Read_msix hm]
  · rw [exec_pairLowRead, s.bar0Read_safe hm hs hp]
  · rw [exec_pairLowRead, s.bar0Read_unmapped hs hm hz]
  · rw [exec_mirrorRead, s.mirrorRead_closed h]
  · rw [exec_mirrorRead, s.mirrorRead_mapped hs hm hz]
  · rw [exec_mirrorRead, s.mirrorRead_unmapped hs hm hz]

end Sys2Proof.Machine
end

section
/-!
PROOFS. Writes of BAR0, BAR2 and BAR4 (R7, R9, R230, R249, R288, R336, R390, R410, R420, R461).
-/

namespace Sys2Proof.Machine

theorem exec_registerWrite (off : Fin 1048576) (w : Word) (s : State) : exec (.registerWrite off w) s = .next (s.regWrite off w.toNat) := rfl
theorem exec_barAccessInvalid (bar : Fin 3) (size : Byte) (write : Bool) (off : BitVec 24) (s : State) :
    exec (.barAccessInvalid bar size write off) s = .next (s.badRead (2 * bar) size.toNat write off.toNat) := rfl
theorem exec_bar4Write (off : BitVec 24) (bytes : List Byte) (s : State) : exec (.bar4Write off bytes) s = .next (s.bar4 off.toNat bytes) := rfl

/-! ### Where a write of BAR0 goes -/

theorem State.safe_of_bar0Open {s : State} (h : s.bar0Open) : s.safe = false := by
  obtain ⟨hsafe, -⟩ := h
  simp [State.safe, hsafe]

theorem State.isReady_of_bar0Open {s : State} (h : s.bar0Open) : s.isReady = true := by
  obtain ⟨-, hstage⟩ := h
  simp [State.isReady, hstage]

theorem State.regWrite_open {s : State} (h : s.bar0Open) {o : Nat} (w : Nat) (hm : inMsix o = false) (ho : o < 0x80000)
    (hz : zmapped o = true) : s.regWrite o w = s.typedWrite o w := by
  simp [State.regWrite, hm, State.safe_of_bar0Open h, State.isReady_of_bar0Open h, hz, Nat.not_le.mpr ho]

theorem State.regWrite_msixTable (s : State) {o : Nat} (w : Nat) (hlo : 0x7800 ≤ o) (hhi : o < 0x7C00) :
    s.regWrite o w = s.msixWrite ((o - 0x7800) / 4) w := by
  have hm : inMsix o = true := decide_eq_true ⟨hlo, by omega⟩
  simp [State.regWrite, hm, hhi]

theorem State.regWrite_safe (s : State) {o : Nat} (w : Nat) (hm : inMsix o = false) (hs : s.safe = true) (hp : powerGroup o = false) :
    s.regWrite o w = s := by
  simp [State.regWrite, hm, hs, hp]

theorem State.regWrite_mirror (s : State) {o : Nat} (w : Nat) (hs : s.safe = false) (ho : 0x80000 ≤ o) :
    s.regWrite o w = s.badAccess 0 4 true true (o - 0x80000) := by
  have hm : inMsix o = false := decide_eq_false (by omega)
  simp [State.regWrite, hm, hs, ho]

theorem State.regWrite_unmapped (s : State) {o : Nat} (w : Nat) (hs : s.safe = false) (ho : o < 0x80000) (hm : inMsix o = false)
    (hz : zmapped o = false) : s.regWrite o w = s.badAccess 0 4 true false o := by
  simp [State.regWrite, hm, hs, hz, Nat.not_le.mpr ho]

/-- R410: before READY only Z_BOOT_CFG, Z_RST_CTL and the clock/power group take writes. -/
theorem State.regWrite_early (s : State) {o : Nat} (w : Nat) (hs : s.safe = false) (ho : o < 0x80000) (hm : inMsix o = false)
    (hz : zmapped o = true) (hstage : s.zget Z.BOOT_STAT.STAGE < 4) (h18 : o ≠ 0x18) (h1C : o ≠ 0x1C) (hp : powerGroup o = false) :
    s.regWrite o w = s.zput Z.HOST_ERR.BAD_ACCESS 1 := by
  have hready : s.isReady = false := by simp [State.isReady, Nat.ne_of_lt hstage]
  have hfailed : (s.zget Z.BOOT_STAT.STAGE == 5) = false := by simp; omega
  have hearly : earlyWord false o = false := by simp [earlyWord, h18, h1C, hp]
  simp [State.regWrite, hm, hs, hz, hready, hfailed, hearly, Nat.not_le.mpr ho]

/-! ### A write by access type -/

/-- `plainWord` names the words for which a write by access type is all. -/
theorem State.typedWrite_plainWord (s : State) {o : Nat} (w : Nat) (h : plainWord o = true) :
    s.typedWrite o w = s.plainWrite o w fun _ => false := by
  simp only [plainWord, List.contains_cons, List.contains_nil, Bool.or_false, Bool.and_eq_true, Bool.not_eq_true', Bool.or_eq_false_iff,
    beq_eq_false_iff_ne, decide_eq_false_iff_not, Bool.and_eq_false_iff] at h
  obtain ⟨⟨⟨hwords, hring⟩, hbase⟩, hprbs⟩ := h
  simp (disch := omega) only [State.typedWrite, if_neg]

/-- The field `f` that alone holds its key takes the write as one `fwrite` does. -/
theorem State.plainWrite_zget {s : State} {o : Nat} (w : Nat) {f : Field} (hf : soleField o f) (hown : ownCommand f = false) :
    ∃ q, fget q f = s.zget f ∧ (s.plainWrite o w fun _ => false).zget f = fget (fwrite q f o w) f := by
  refine foldl_fields_get_of_sole (fwrite_local o w) _ s.zreg ?_
  rw [List.filter_comm, hf]
  simp [hown]

theorem State.plainWrite_zget_of_rw {s : State} {o : Nat} (w : Nat) {f : Field} (hf : soleField o f) (hown : ownCommand f = false)
    (hacc : f.acc = .rw ∨ f.acc = .st) : (s.plainWrite o w fun _ => false).zget f = f.merged o w (s.zget f) := by
  obtain ⟨q, hq, hput⟩ := State.plainWrite_zget (s := s) w hf hown
  rw [hput, fget_fwrite_of_rw q o w hacc, hq]

theorem State.plainWrite_zget_of_w1c {s : State} {o : Nat} (w : Nat) {f : Field} (hf : soleField o f) (hown : ownCommand f = false)
    (hacc : f.acc = .w1c) (hlt : s.zget f < 2 ^ f.wid) :
    (s.plainWrite o w fun _ => false).zget f = s.zget f &&& (2 ^ f.wid - 1 - f.merged o w 0) := by
  obtain ⟨q, hq, hput⟩ := State.plainWrite_zget (s := s) w hf hown
  rw [hput, fget_fwrite_of_w1c q o w hacc (hq ▸ hlt), hq]

theorem State.plainWrite_get_other {s : State} {o : Nat} (w : Nat) {k : Nat}
    (h : ∀ f ∈ zfields o, ownCommand f = false → f.acc = .rw ∨ f.acc = .st ∨ f.acc = .w1c → f.key ≠ k) :
    Tab.get 0 (s.plainWrite o w fun _ => false).zreg k = Tab.get 0 s.zreg k := by
  refine foldl_fwrite_get_of_unwritten o w _ s.zreg fun f hf => ?_
  obtain ⟨hmem, hkeep⟩ := List.mem_filter.mp hf
  exact h f hmem (by simpa using hkeep)

/-! ### Words with a rule of their own -/

theorem ringBase_mapped : ∀ (r : Fin 8) (hi : Bool),
    inMsix (0x7000 + 32 * r.val + 4 * hi.toNat) = false ∧ zmapped (0x7000 + 32 * r.val + 4 * hi.toNat) = true := by decide

theorem State.typedWrite_ringBase (s : State) {o : Nat} (w : Nat) (h : 0x7000 ≤ o ∧ o < 0x7100 ∧ o % 32 < 8) :
    s.typedWrite o w = s.baseWrite ((o - 0x7000) / 32) o w := by
  rw [State.typedWrite, if_neg (by omega), if_neg (by omega), if_neg (by omega), if_neg (by omega), if_neg (by omega), if_pos h]

theorem State.baseWrite_of_enabled (s : State) (r o w : Nat) (h : s.zget (ZR.CFG.EN.hring r) ≠ 0) :
    s.baseWrite r o w = if (ZR.BASE.BASE.hring r).merged o w (s.zget (ZR.BASE.BASE.hring r)) = s.zget (ZR.BASE.BASE.hring r) then s
      else s.zput (ZR.CFG.REFUSED.hring r) 1 := by
  simp only [State.baseWrite, if_neg h, State.changes, bne_iff_ne, ne_eq, ite_not]

theorem shadow_writable : ((zfields 0x7100).filter fun f => !ownCommand f && !(f == Z.HOST_SHADOW.ADDR)) = [Z.HOST_SHADOW.EN] := by decide

theorem shadowEn_merged (w old : Nat) (h : bitAt w 0 = false) : Z.HOST_SHADOW.EN.merged 0x7100 w old = 0 := by
  have heven : w % 2 = 0 := by simpa [bitAt] using h
  simp only [Field.merged, Z.HOST_SHADOW.EN]
  omega

/-- With EN = 1 a write of Z_HOST_SHADOW reaches EN alone. -/
theorem State.shadowWrite_disable (s : State) (w : Nat) (hen : s.zget Z.HOST_SHADOW.EN = 1) (hw : bitAt w 0 = false) :
    s.shadowWrite 0x7100 w = s.zput Z.HOST_SHADOW.EN 0 := by
  have hon : (s.zget Z.HOST_SHADOW.EN == 1) = true := by simp [hen]
  have hput (r : Tab Nat) : fwrite r Z.HOST_SHADOW.EN 0x7100 w = fset r Z.HOST_SHADOW.EN 0 := by
    rw [fwrite_of_rw r _ _ (.inl rfl), shadowEn_merged w _ hw]
  simp only [State.shadowWrite, State.plainWrite, hon, Bool.true_and, shadow_writable, List.foldl_cons, List.foldl_nil, hput, State.zput]

theorem specialWords_mapped : ∀ o ∈ ([0x4030, 0x4034, 0x7100] : List Nat), inMsix o = false ∧ zmapped o = true := by decide

theorem State.typedWrite_set0 (s : State) (w : Nat) : s.typedWrite 0x4030 w = s.updRing fun r => { r with set0 := w } := rfl
theorem State.typedWrite_set1 (s : State) (w : Nat) : s.typedWrite 0x4034 w = s.updRing fun r => { r with set1 := w } := rfl
theorem State.typedWrite_shadow (s : State) (w : Nat) : s.typedWrite 0x7100 w = s.shadowWrite 0x7100 w := rfl

/-! ### The MSI-X table -/

theorem State.updHost_msix_upd (s : State) (v : Nat) (f : MsixEntry → MsixEntry) :
    (s.updHost fun h => { h with msix := Tab.upd {} h.msix v f }) =
      s.updHost fun h => { h with msix := Tab.set {} h.msix v (f (Tab.get {} s.host.msix v)) } := rfl

theorem State.msixWrite_addrLow (s : State) {i : Nat} (w : Nat) (h : i % 4 = 0) :
    s.msixWrite i w =
      s.updHost fun t => { t with msix := Tab.upd {} t.msix (i / 4) fun e => { e with addr := e.addr / 2 ^ 32 * 2 ^ 32 + w } } := by
  simp only [State.msixWrite, h]

theorem State.msixWrite_addrHigh (s : State) {i : Nat} (w : Nat) (h : i % 4 = 1) :
    s.msixWrite i w =
      s.updHost fun t => { t with msix := Tab.upd {} t.msix (i / 4) fun e => { e with addr := e.addr % 2 ^ 32 + w * 2 ^ 32 } } := by
  simp only [State.msixWrite, h]

theorem State.msixWrite_data (s : State) {i : Nat} (w : Nat) (h : i % 4 = 2) :
    s.msixWrite i w = s.updHost fun t => { t with msix := Tab.upd {} t.msix (i / 4) fun e => { e with data := w } } := by
  simp only [State.msixWrite, h]

/-! ### Accesses that R249 refuses -/

theorem State.badRead_wellFormed (s : State) {bar size o : Nat} {write : Bool} (h : badForm bar size write o = false) :
    s.badRead bar size write o = s := by
  simp [State.badRead, h]

theorem State.badRead_write (s : State) {bar size o : Nat} (hs : s.safe = false) (h : badForm bar size true o = true) :
    s.badRead bar size true o =
      s.badAccess bar size true (bar == 0 && decide (0x80000 ≤ o)) (if bar = 0 then o % 0x80000 else o) := by
  simp [State.badRead, h, hs]

theorem State.badRead_narrow (s : State) {size o : Nat} (hs : s.safe = false) (hsize : size ≠ 4) (hm : inMsix o = false) (ho : o < 0x80000) :
    s.badRead 0 size true o = s.badAccess 0 size true false o := by
  have hbad : badForm 0 size true o = true := by simp [badForm, hm, hsize, Nat.not_le.mpr ho]
  rw [s.badRead_write hs hbad]
  simp [Nat.not_le.mpr ho, Nat.mod_eq_of_lt ho]

/-- R422: a narrow access of the MSI-X table is reported in the safe state too. -/
theorem State.badRead_msix (s : State) {size o : Nat} (hsize : size < 4) (hm : inMsix o = true) (write : Bool) :
    s.badRead 0 size write o = if write then s.badAccess 0 size true false o
      else (s.badAccess 0 size false false o).emit (.readData (leBytes 0 size)) := by
  have hrange : 0x7800 ≤ o ∧ o < 0x7C08 := of_decide_eq_true hm
  have hlt : o < 0x80000 := by omega
  have hbad : badForm 0 size write o = true := by simp [badForm, hm, hsize]
  cases write <;> simp [State.badRead, hbad, hm, Nat.not_le.mpr hlt, Nat.mod_eq_of_lt hlt]

/-- R336: in the safe state a refused write is silent, outside the MSI-X table and the clock/power group. -/
theorem State.badRead_safe (s : State) (bar : Fin 3) (size o : Nat) (hs : s.safe = true) :
    s.badRead (2 * bar) size true o = s ∨ bar = 0 ∧ (inMsix o = true ∨ powerGroup (o - o % 4) = true) := by
  by_cases hkeep : bar = 0 ∧ (inMsix o = true ∨ powerGroup (o - o % 4) = true)
  · exact .inr hkeep
  · left
    have hbar : ¬ (2 * bar.val = 0 ∧ (inMsix o = true ∨ powerGroup (o - o % 4) = true)) :=
      fun ⟨hzero, hin⟩ => hkeep ⟨Fin.ext (by simpa using hzero), hin⟩
    simp only [State.badRead, hs, hbar, true_or, not_false_eq_true, and_self, if_true, ite_self]

theorem State.badRead_bar2_write (s : State) {size o : Nat} (hs : s.safe = false) (h : size ≠ 4 ∨ o % 0x1000 ≠ 0 ∨ 0x8000 ≤ o) :
    s.badRead 2 size true o = s.badAccess 2 size true false o := by
  have hbad : badForm 2 size true o = true := by simpa [badForm, or_assoc] using h
  rw [s.badRead_write hs hbad]
  rfl

theorem State.badRead_bar4_write (s : State) {size o : Nat} (hs : s.safe = false)
    (h : (size ≠ 4 ∧ size ≠ 8) ∨ o % size ≠ 0 ∨ (0xF00000 ≤ o ∧ o < 0xF40000)) :
    s.badRead 4 size true o = s.badAccess 4 size true false o := by
  have hbad : badForm 4 size true o = true := by simpa [badForm, or_assoc] using h
  rw [s.badRead_write hs hbad]
  rfl

/-! ### Bytes and words -/

theorem leNat_cons (b : Byte) (bs : List Byte) : leNat (b :: bs) = leNat bs * 256 + b.toNat := rfl

theorem leNat_lt (bs : List Byte) : leNat bs < 256 ^ bs.length := by
  induction bs with
  | nil => decide
  | cons b bs ih =>
    have hb : b.toNat < 256 := b.isLt
    rw [leNat_cons, List.length_cons, Nat.pow_succ]
    omega

theorem leWords_length (bs : List Byte) : (leWords bs).length = bs.length / 4 := by
  induction bs using leWords.induct with
  | case1 a b c d t ih => simp only [leWords, List.length_cons, ih]; omega
  | case2 bs hshort =>
    rw [leWords.eq_2 bs hshort]
    match bs with
    | [] | [_] | [_, _] | [_, _, _] => simp
    | a :: b :: c :: d :: t => exact (hshort a b c d t rfl).elim

theorem leWords_getElem (bs : List Byte) {k : Nat} (hk : k < (leWords bs).length) : (leWords bs)[k] = leNat (slice bs (4 * k) 4) := by
  induction bs using leWords.induct generalizing k with
  | case1 a b c d t ih =>
    cases k with
    | zero => rfl
    | succ k => exact ih (by simpa [leWords] using hk)
  | case2 bs hshort =>
    have hnil : leWords bs = [] := leWords.eq_2 bs hshort
    simp [hnil] at hk

theorem leWords_word (bs : List Byte) {k : Nat} (hk : k < (leWords bs).length) :
    (BitVec.ofNat 32 (leWords bs)[k]).toNat = leNat (slice bs (4 * k) 4) := by
  have hlen : (slice bs (4 * k) 4).length ≤ 4 := List.length_take_le 4 _
  have hlt : leNat (slice bs (4 * k) 4) < 2 ^ 32 :=
    Nat.lt_of_lt_of_le (leNat_lt _) (Nat.pow_le_pow_right (by decide) hlen)
  rw [leWords_getElem bs hk, BitVec.toNat_ofNat, Nat.mod_eq_of_lt hlt]

/-! ### BAR4 -/

@[simp] theorem State.eng_updEng_same (s : State) (e : Nat) (f : Engine → Engine) : (s.updEng e f).eng e = f (s.eng e) := by
  simp [State.eng, State.updEng]

/-- Changing an engine asks only what the change makes of that engine. -/
theorem State.updEng_congr (s : State) (e : Nat) {f g : Engine → Engine} (h : f (s.eng e) = g (s.eng e)) : s.updEng e f = s.updEng e g :=
  congrArg (fun x => s.updEngines fun t => Tab.set {} t e x) h

theorem State.engineWrite_dmem (s : State) (e y : Nat) (bytes : List Byte) :
    s.engineWrite e (0x8000 + y) bytes = s.updEng e fun x => { x with dmem := Tab.writeList 0 id y (s.eng e).dmem bytes } := by
  rw [State.engineWrite, if_neg (by omega)]
  simp only [Nat.add_sub_cancel_left]
  exact s.updEng_congr e rfl

theorem State.engineWrite_imem (s : State) (e : Nat) {x : Nat} (hx : x < 0x8000) (bytes : List Byte) :
    s.engineWrite e x bytes =
      s.updEng e fun y => { y with imem := Tab.writeList 0 (BitVec.ofNat 32) (x / 4) (s.eng e).imem (leWords bytes) } := by
  rw [State.engineWrite, if_pos hx]
  exact s.updEng_congr e rfl

theorem State.bar4_safe (s : State) (o : Nat) (bytes : List Byte) (hs : s.safe = true) : s.bar4 o bytes = s := by
  simp [State.bar4, hs]

theorem State.bar4_badSize (s : State) {o : Nat} {bytes : List Byte} (hs : s.safe = false)
    (h : bytes.length ≠ 4 ∧ bytes.length ≠ 8 ∨ o % bytes.length ≠ 0) : s.bar4 o bytes = s.badAccess 4 bytes.length true false o := by
  simp only [State.bar4, hs, Bool.false_eq_true, if_false, if_pos h]

/-- A BAR4 write of a size and an alignment that R230 allows. -/
def bar4Sized (o : Nat) (bytes : List Byte) : Prop := (bytes.length = 4 ∨ bytes.length = 8) ∧ o % bytes.length = 0

theorem bar4Sized.not_bad {o : Nat} {bytes : List Byte} (h : bar4Sized o bytes) :
    ¬ ((bytes.length ≠ 4 ∧ bytes.length ≠ 8) ∨ o % bytes.length ≠ 0) := by
  obtain ⟨hlen, hal⟩ := h
  simp only [hal, ne_eq, not_true_eq_false, or_false]
  omega

theorem State.bar4_engine (s : State) {o e x : Nat} {bytes : List Byte} (hs : s.safe = false) (hb : bar4Sized o bytes) (he : e < 96)
    (ho : o = e * 0x28000 + x) (hx : x < 0x28000) :
    s.bar4 o bytes = if s.engState e = engOff ∨ (x < 0x8000 ∧ s.engState e = engRunning) then s.badAccess 4 bytes.length true false o
      else s.engineWrite e x bytes := by
  have hin : o < 0xF00000 := by omega
  have hdiv : o / 0x28000 = e := by omega
  have hmod : o % 0x28000 = x := by omega
  simp only [State.bar4, hs, Bool.false_eq_true, if_false, if_neg hb.not_bad, if_pos hin, hdiv, hmod]

theorem State.bar4_gap (s : State) {o : Nat} {bytes : List Byte} (hs : s.safe = false) (hb : bar4Sized o bytes) (hlo : 0xF00000 ≤ o)
    (hhi : o < 0xF40000) : s.bar4 o bytes = s.badAccess 4 bytes.length true false o := by
  simp only [State.bar4, hs, Bool.false_eq_true, if_false, if_neg hb.not_bad, if_neg (Nat.not_lt.mpr hlo), if_pos hhi]

theorem State.bar4_shared (s : State) {o y : Nat} {bytes : List Byte} (hs : s.safe = false) (hb : bar4Sized o bytes)
    (ho : o = 0xF40000 + y) (hy : y < 0x80000) :
    s.bar4 o bytes = if s.zget (ZC.CTL.EN.gcl (s.zget Z.HOST_SHWIN.CLUSTER)) = 0 then s.badAccess 4 bytes.length true false o
      else s.updShm fun m =>
        Tab.writeList 0 id (s.zget Z.HOST_SHWIN.CLUSTER * 0x100000 + s.zget Z.HOST_SHWIN.HALF * 0x80000 + y) m bytes := by
  have h1 : ¬ o < 0xF00000 := by omega
  have h2 : ¬ o < 0xF40000 := by omega
  have h3 : o < 0xFC0000 := by omega
  have hy : o - 0xF40000 = y := by omega
  simp only [State.bar4, hs, Bool.false_eq_true, if_false, if_neg hb.not_bad, if_neg h1, if_neg h2, if_pos h3, hy]
  rfl

theorem State.bar4_beyond (s : State) {o : Nat} {bytes : List Byte} (hs : s.safe = false) (hb : bar4Sized o bytes) (ho : 0xFC0000 ≤ o) :
    s.bar4 o bytes = s := by
  have h1 : ¬ o < 0xF00000 := by omega
  have h2 : ¬ o < 0xF40000 := by omega
  simp only [State.bar4, hs, Bool.false_eq_true, if_false, if_neg hb.not_bad, if_neg h1, if_neg h2, if_neg (Nat.not_lt.mpr ho)]

end Sys2Proof.Machine
end

section
/-!
PROOFS. The obligation on writes, clause by clause.
-/

namespace Sys2Proof.Machine

section Bar0

variable (s : State)

/-- A word with no command of its own (R9). -/
theorem registerWrite_plainWord (off : Fin 1048576) (w : Word) (hb : s.bar0Open) (hm : inMsix off = false) (ho : off.val < 0x80000)
    (hz : zmapped off = true) (hp : plainWord off = true) :
    ∃ t, exec (.registerWrite off w) s = .next t ∧ t = s.updZreg (fun _ => t.zreg) ∧
      (∀ f, soleField off f → ownCommand f = false →
        (f.acc = .rw ∨ f.acc = .st → t.zget f = f.merged off w.toNat (s.zget f)) ∧
        (f.acc = .w1c → s.zget f < 2 ^ f.wid → t.zget f = s.zget f &&& (2 ^ f.wid - 1 - f.merged off w.toNat 0))) ∧
      (∀ k, (∀ f ∈ zfields off, ownCommand f = false → f.acc = .rw ∨ f.acc = .st ∨ f.acc = .w1c → f.key ≠ k) →
        Tab.get 0 t.zreg k = Tab.get 0 s.zreg k) := by
  refine ⟨s.plainWrite off w.toNat fun _ => false, ?_, rfl, fun f hf hown => ⟨?_, ?_⟩, fun k hk => ?_⟩
  · rw [exec_registerWrite, State.regWrite_open hb _ hm ho hz, s.typedWrite_plainWord _ hp]
  · exact fun hacc => State.plainWrite_zget_of_rw _ hf hown hacc
  · exact fun hacc hlt => State.plainWrite_zget_of_w1c _ hf hown hacc hlt
  · exact State.plainWrite_get_other _ hk

/-- Z_RINGr_BASE of an enabled ring (R236). -/
theorem registerWrite_ringBase (r : Fin 8) (hi : Bool) (w : Word) (o : Fin 1048576) (ho : o.val = 0x7000 + 32 * r.val + 4 * hi.toNat)
    (hb : s.bar0Open) (hen : s.zget (ZR.CFG.EN.hring r) ≠ 0) :
    exec (.registerWrite o w) s =
      .next (if (ZR.BASE.BASE.hring r).merged o w.toNat (s.zget (ZR.BASE.BASE.hring r)) = s.zget (ZR.BASE.BASE.hring r) then s
        else s.zput (ZR.CFG.REFUSED.hring r) 1) := by
  have hhi : hi.toNat ≤ 1 := Bool.toNat_le hi
  obtain ⟨hm, hz⟩ := ringBase_mapped r hi
  rw [← ho] at hm hz
  have hidx : (o.val - 0x7000) / 32 = r.val := by omega
  rw [exec_registerWrite, State.regWrite_open hb _ hm (by omega) hz, s.typedWrite_ringBase _ (by omega), hidx,
    s.baseWrite_of_enabled _ _ _ hen]

/-- The words of the MSI-X table, except a vector's mask. -/
theorem registerWrite_msixTable (v : Fin 64) (o : Fin 1048576) (w : Word) (e : MsixEntry) (he : Tab.get {} s.host.msix v = e) :
    (o.val = 0x7800 + 16 * v.val →
      exec (.registerWrite o w) s =
        .next (s.updHost fun h => { h with msix := Tab.set {} h.msix v { e with addr := e.addr / 2 ^ 32 * 2 ^ 32 + w.toNat } })) ∧
    (o.val = 0x7804 + 16 * v.val →
      exec (.registerWrite o w) s =
        .next (s.updHost fun h => { h with msix := Tab.set {} h.msix v { e with addr := e.addr % 2 ^ 32 + w.toNat * 2 ^ 32 } })) ∧
    (o.val = 0x7808 + 16 * v.val →
      exec (.registerWrite o w) s = .next (s.updHost fun h => { h with msix := Tab.set {} h.msix v { e with data := w.toNat } })) := by
  have hv : v.val < 64 := v.isLt
  have hword (i : Nat) (hi : o.val = 0x7800 + 4 * i) (hlt : i < 256) : exec (.registerWrite o w) s = .next (s.msixWrite i w.toNat) := by
    have hidx : (o.val - 0x7800) / 4 = i := by omega
    rw [exec_registerWrite, s.regWrite_msixTable _ (by omega) (by omega), hidx]
  have h0 : 4 * v.val / 4 = v := by omega
  have h1 : (4 * v.val + 1) / 4 = v := by omega
  have h2 : (4 * v.val + 2) / 4 = v := by omega
  refine ⟨fun h => ?_, fun h => ?_, fun h => ?_⟩
  · rw [hword (4 * v) (by omega) (by omega), s.msixWrite_addrLow _ (by omega), State.updHost_msix_upd, h0, he]
  · rw [hword (4 * v + 1) (by omega) (by omega), s.msixWrite_addrHigh _ (by omega), State.updHost_msix_upd, h1, he]
  · rw [hword (4 * v + 2) (by omega) (by omega), s.msixWrite_data _ (by omega), State.updHost_msix_upd, h2, he]

/-- Writes that R249 refuses, by BAR. -/
theorem barAccessInvalid_refused (size : Byte) (off : BitVec 24) :
    (s.safe = false → size.toNat ≠ 4 → inMsix off.toNat = false → off.toNat < 0x80000 →
      exec (.barAccessInvalid 0 size true off) s = .next (s.badAccess 0 size.toNat true false off.toNat)) ∧
    (size.toNat < 4 → inMsix off.toNat = true → ∀ wr : Bool,
      exec (.barAccessInvalid 0 size wr off) s =
        .next (if wr then s.badAccess 0 size.toNat true false off.toNat
          else (s.badAccess 0 size.toNat false false off.toNat).emit (.readData (leBytes 0 size.toNat)))) ∧
    (s.safe = true → ∀ bar : Fin 3, exec (.barAccessInvalid bar size true off) s = .next s ∨
      bar = 0 ∧ (inMsix off.toNat = true ∨ powerGroup (off.toNat - off.toNat % 4) = true)) ∧
    (s.safe = false → size.toNat ≠ 4 ∨ off.toNat % 0x1000 ≠ 0 ∨ 0x8000 ≤ off.toNat →
      exec (.barAccessInvalid 1 size true off) s = .next (s.badAccess 2 size.toNat true false off.toNat)) ∧
    (exec (.barAccessInvalid 1 size false off) s = .next s) ∧
    (s.safe = false →
      (size.toNat ≠ 4 ∧ size.toNat ≠ 8) ∨ off.toNat % size.toNat ≠ 0 ∨ (0xF00000 ≤ off.toNat ∧ off.toNat < 0xF40000) →
      exec (.barAccessInvalid 2 size true off) s = .next (s.badAccess 4 size.toNat true false off.toNat)) := by
  refine ⟨fun hs hsize hm ho => ?_, fun hsize hm wr => ?_, fun hs bar => ?_, fun hs h => ?_, ?_, fun hs h => ?_⟩
  · exact congrArg Host.Outcome.next (s.badRead_narrow hs hsize hm ho)
  · exact congrArg Host.Outcome.next (s.badRead_msix hsize hm wr)
  · exact (s.badRead_safe bar size.toNat off.toNat hs).imp (congrArg Host.Outcome.next) id
  · exact congrArg Host.Outcome.next (s.badRead_bar2_write hs h)
  · exact congrArg Host.Outcome.next (s.badRead_wellFormed rfl)
  · exact congrArg Host.Outcome.next (s.badRead_bar4_write hs h)

end Bar0

section Bar4

variable {s : State} {off : BitVec 24} {bytes : List Byte} (hs : s.safe = false) (hb : bar4Sized off.toNat bytes)
include hs hb

theorem bar4Write_dmem (e : Fin 96) (y : Nat) (ho : off.toNat = e.val * 0x28000 + 0x8000 + y) (hy : y < 0x20000) :
    (s.engState e ≠ engOff →
      ∃ t, exec (.bar4Write off bytes) s = .next t ∧ t = s.updEng e (fun x => { x with dmem := (t.eng e).dmem }) ∧
        (∀ k, k < bytes.length → Tab.get 0 (t.eng e).dmem (y + k) = bytes.getD k 0) ∧
        (∀ a, a < y ∨ y + bytes.length ≤ a → Tab.get 0 (t.eng e).dmem a = Tab.get 0 (s.eng e).dmem a)) ∧
    (s.engState e = engOff → exec (.bar4Write off bytes) s = .next (s.badAccess 4 bytes.length true false off.toNat)) := by
  have hwrite := s.bar4_engine hs hb e.isLt (ho.trans (Nat.add_assoc _ _ _)) (by omega)
  refine ⟨fun hon => ⟨s.engineWrite e (0x8000 + y) bytes, ?_, ?_, fun k hk => ?_, fun a ha => ?_⟩, fun hoff => ?_⟩
  · rw [exec_bar4Write, hwrite, if_neg (fun h => h.elim hon fun h => by omega)]
  · rw [s.engineWrite_dmem, State.eng_updEng_same]
  · rw [s.engineWrite_dmem, State.eng_updEng_same, List.getD_eq_getElem _ _ hk]
    exact Tab.get_writeList_inside 0 id y _ bytes hk
  · rw [s.engineWrite_dmem, State.eng_updEng_same]
    exact Tab.get_writeList_outside 0 id y _ bytes ha
  · rw [exec_bar4Write, hwrite, if_pos (.inl hoff)]

theorem bar4Write_imem (e : Fin 96) (y : Nat) (ho : off.toNat = e.val * 0x28000 + y) (hy : y < 0x8000) :
    (s.engState e ≠ engOff → s.engState e ≠ engRunning →
      ∃ t, exec (.bar4Write off bytes) s = .next t ∧ t = s.updEng e (fun x => { x with imem := (t.eng e).imem }) ∧
        (∀ k, k < bytes.length / 4 → (Tab.get 0 (t.eng e).imem (y / 4 + k)).toNat = leNat (slice bytes (4 * k) 4)) ∧
        (∀ a, a < y / 4 ∨ (y + bytes.length) / 4 ≤ a → Tab.get 0 (t.eng e).imem a = Tab.get 0 (s.eng e).imem a)) ∧
    (s.engState e = engOff ∨ s.engState e = engRunning →
      exec (.bar4Write off bytes) s = .next (s.badAccess 4 bytes.length true false off.toNat)) := by
  have hwrite := s.bar4_engine hs hb e.isLt ho (by omega)
  refine ⟨fun hon hrun => ⟨s.engineWrite e y bytes, ?_, ?_, fun k hk => ?_, fun a ha => ?_⟩, fun hoff => ?_⟩
  · rw [exec_bar4Write, hwrite, if_neg (fun h => h.elim hon fun h => hrun h.2)]
  · rw [s.engineWrite_imem e hy, State.eng_updEng_same]
  · rw [← leWords_length] at hk
    rw [s.engineWrite_imem e hy, State.eng_updEng_same, ← leWords_word bytes hk]
    exact congrArg BitVec.toNat (Tab.get_writeList_inside 0 (BitVec.ofNat 32) (y / 4) _ (leWords bytes) hk)
  · rw [s.engineWrite_imem e hy, State.eng_updEng_same]
    refine Tab.get_writeList_outside 0 (BitVec.ofNat 32) (y / 4) _ (leWords bytes) ?_
    rw [leWords_length]
    obtain ⟨hlen | hlen, -⟩ := hb <;> rw [hlen] at ha ⊢ <;> omega
  · rw [exec_bar4Write, hwrite, if_pos (hoff.imp id fun h => ⟨hy, h⟩)]

theorem bar4Write_shared (y n : Nat) (ho : off.toNat = 0xF40000 + y) (hy : y < 0x80000)
    (hn : n = s.zget Z.HOST_SHWIN.CLUSTER * 0x100000 + s.zget Z.HOST_SHWIN.HALF * 0x80000 + y) :
    (s.zget (ZC.CTL.EN.gcl (s.zget Z.HOST_SHWIN.CLUSTER)) ≠ 0 →
      ∃ t, exec (.bar4Write off bytes) s = .next t ∧ t = s.updShm (fun _ => t.shm) ∧
        (∀ k, k < bytes.length → Tab.get 0 t.shm (n + k) = bytes.getD k 0) ∧
        (∀ a, a < n ∨ n + bytes.length ≤ a → Tab.get 0 t.shm a = Tab.get 0 s.shm a)) ∧
    (s.zget (ZC.CTL.EN.gcl (s.zget Z.HOST_SHWIN.CLUSTER)) = 0 →
      exec (.bar4Write off bytes) s = .next (s.badAccess 4 bytes.length true false off.toNat)) := by
  have hwrite := s.bar4_shared hs hb ho hy
  rw [← hn] at hwrite
  refine ⟨fun hen => ⟨s.updShm fun m => Tab.writeList 0 id n m bytes, ?_, rfl, fun k hk => ?_, fun a ha => ?_⟩, fun hoff => ?_⟩
  · rw [exec_bar4Write, hwrite, if_neg hen]
  · rw [List.getD_eq_getElem _ _ hk]
    exact Tab.get_writeList_inside 0 id n s.shm bytes hk
  · exact Tab.get_writeList_outside 0 id n s.shm bytes ha
  · rw [exec_bar4Write, hwrite, if_pos hoff]

end Bar4

/-- Settles O46: the words with a rule of their own, then what `State.regWrite`, `State.badRead` and `State.bar4` do case by case. -/
theorem registerWrites : Obligations.RegisterWrites := by
  unfold Obligations.RegisterWrites
  intro s
  refine ⟨registerWrite_plainWord s, registerWrite_ringBase s, fun w hb hen hw => ?_, fun w hb => ⟨?_, ?_⟩, registerWrite_msixTable s,
    fun off w hm hs hp => ?_, fun off w hs ho hm => ⟨fun hz => ?_, fun hz hstage h18 h1C hp => ?_⟩, fun off w hs ho => ?_,
    barAccessInvalid_refused s, fun off bytes hs => ⟨fun hbad => ?_, fun hlen hal => ⟨bar4Write_dmem hs ⟨hlen, hal⟩,
      bar4Write_imem hs ⟨hlen, hal⟩, fun hlo hhi => ?_, bar4Write_shared hs ⟨hlen, hal⟩, fun ho => ?_⟩⟩, fun off bytes hs => ?_⟩
  · obtain ⟨hm, hz⟩ := specialWords_mapped 0x7100 (by simp)
    rw [exec_registerWrite, State.regWrite_open hb _ hm (by decide) hz, s.typedWrite_shadow, s.shadowWrite_disable _ hen hw]
  · obtain ⟨hm, hz⟩ := specialWords_mapped 0x4030 (by simp)
    rw [exec_registerWrite, State.regWrite_open hb _ hm (by decide) hz, s.typedWrite_set0]
  · obtain ⟨hm, hz⟩ := specialWords_mapped 0x4034 (by simp)
    rw [exec_registerWrite, State.regWrite_open hb _ hm (by decide) hz, s.typedWrite_set1]
  · rw [exec_registerWrite, s.regWrite_safe _ hm hs hp]
  · rw [exec_registerWrite, s.regWrite_unmapped _ hs ho hm hz]
  · rw [exec_registerWrite, s.regWrite_early _ hs ho hm hz hstage h18 h1C hp]
  · rw [exec_registerWrite, s.regWrite_mirror _ hs ho]
  · rw [exec_bar4Write, s.bar4_badSize hs hbad]
  · rw [exec_bar4Write, s.bar4_gap hs ⟨hlen, hal⟩ hlo hhi]
  · rw [exec_bar4Write, s.bar4_beyond hs ⟨hlen, hal⟩ ho]
  · rw [exec_bar4Write, s.bar4_safe _ _ hs]

end Sys2Proof.Machine
end

section
/-!
PROOFS. What the commit of a frame is seen by (R136 to R143): the operations that leave it alone, and the placing of a frame's lines in
the writer's buffer (R140, R158).
-/

namespace Sys2Proof.Machine

/-! ### What a commit is seen by -/

/-- The parts of the state that the commit of a frame leaves alone when nothing but the merger follows it. -/
structure Bystand where
  time : Nat
  lanes : Tab Lane
  chips : Vector Pelnos 16
  cmds : List Cmd
  ctxs : List Ctx
  mem : Tab Byte
  pins : Tab (Option PinRange)

/-- Those parts, and beside the registers what a commit changes: the run, the writer's place and buffer, and what the ports hold. -/
structure MergeView where
  rest : Bystand
  run : RunSt
  pos : Option (Nat × Nat)
  wbuf : List WLine
  held : Port → List QRec × List SideEntry

def State.view (s : State) : MergeView where
  rest := ⟨s.time, s.lanes, s.chips, s.cmds, s.xtr.ctxs, s.buf.mem, s.buf.pins⟩
  run := s.run
  pos := s.buf.pos
  wbuf := s.buf.wbuf
  held p := ((s.port p).queue, (s.port p).side)

/-- What every step of a fold keeps, the fold keeps. -/
theorem foldl_keeps {α β : Type} (v : State → β) (l : List α) (g : State → α → State) (s : State)
    (h : ∀ s, ∀ a ∈ l, v (g s a) = v s) : v (l.foldl g s) = v s := by
  induction l generalizing s with
  | nil => rfl
  | cons a l ih => exact (ih _ fun s b hb => h s b (List.mem_cons_of_mem a hb)).trans (h s a List.mem_cons_self)

theorem foldl_view {α : Type} (l : List α) (g : State → α → State) (s : State) (h : ∀ s a, (g s a).view = s.view) :
    (l.foldl g s).view = s.view := foldl_keeps State.view l g s fun s a _ => h s a

theorem foldl_rest {α : Type} (l : List α) (g : State → α → State) (s : State) (h : ∀ s a, (g s a).view.rest = s.view.rest) :
    (l.foldl g s).view.rest = s.view.rest := foldl_keeps (fun s => s.view.rest) l g s fun s a _ => h s a

theorem foldl_zget {α : Type} (l : List α) (g : State → α → State) (s : State) (f : Field)
    (h : ∀ s, ∀ a ∈ l, (g s a).zget f = s.zget f) : (l.foldl g s).zget f = s.zget f := foldl_keeps (fun s => s.zget f) l g s h

@[simp] theorem if_view (c : Prop) [Decidable c] (s t : State) : (if c then s else t).view = if c then s.view else t.view :=
  apply_ite _ _ _ _

@[simp] theorem updOut_view (s : State) (f) : (s.updOut f).view = s.view := rfl
@[simp] theorem updZreg_view (s : State) (f) : (s.updZreg f).view = s.view := rfl
@[simp] theorem updEv_view (s : State) (f) : (s.updEv f).view = s.view := rfl
@[simp] theorem updHost_view (s : State) (f) : (s.updHost f).view = s.view := rfl
@[simp] theorem zput_view (s : State) (f : Field) (v : Nat) : (s.zput f v).view = s.view := rfl
@[simp] theorem zbump_view (s : State) (f : Field) (n : Nat) : (s.zbump f n).view = s.view := rfl
@[simp] theorem zwrap_view (s : State) (f : Field) (n : Nat) : (s.zwrap f n).view = s.view := rfl

theorem updRun_rest (s : State) (f) : (s.updRun f).view.rest = s.view.rest := rfl
theorem updPort_rest (s : State) (p : Port) (f) : (s.updPort p f).view.rest = s.view.rest := rfl

/-- A change of the event buffer that leaves contents, pins, place and writer's buffer. -/
@[simp] theorem updBuf_view (s : State) (f : Buffer → Buffer) (hm : (f s.buf).mem = s.buf.mem) (hp : (f s.buf).pins = s.buf.pins)
    (hpos : (f s.buf).pos = s.buf.pos) (hw : (f s.buf).wbuf = s.buf.wbuf) : (s.updBuf f).view = s.view := by
  simp [State.view, State.port, hm, hp, hpos, hw]

/-- A change of the event buffer that leaves contents and pins. -/
theorem updBuf_rest (s : State) (f : Buffer → Buffer) (hm : (f s.buf).mem = s.buf.mem) (hp : (f s.buf).pins = s.buf.pins) :
    (s.updBuf f).view.rest = s.view.rest := by
  simp [State.view, hm, hp]

theorem updPort_held (s : State) (p q : Port) (f : PortIn → PortIn) :
    (s.updPort p f).view.held q = if q = p then ((f (s.port p)).queue, (f (s.port p)).side) else s.view.held q := by
  simp only [State.view, State.port_updPort]
  split <;> rfl

/-- A change of a receive path that leaves its queues. -/
@[simp] theorem updPort_view (s : State) (p : Port) (f : PortIn → PortIn) (hq : (f (s.port p)).queue = (s.port p).queue)
    (hs : (f (s.port p)).side = (s.port p).side) : (s.updPort p f).view = s.view := by
  have hheld : (s.updPort p f).view.held = s.view.held := by
    funext q
    rw [updPort_held]
    split
    next h => rw [h, hq, hs]; rfl
    next => rfl
  exact congrArg (fun h => { s.view with held := h }) hheld

/-! ### Operations that a commit is not seen by -/

@[simp] theorem emit_view (s : State) (o : Out) : (s.emit o).view = s.view := rfl
@[simp] theorem message_view (s : State) (v : Nat) : (s.message v).view = s.view := by simp [State.message]
@[simp] theorem raiseSev_view (s : State) (src sev : Nat) (d : List Byte) : (s.raiseSev src sev d).view = s.view := by
  simp [State.raiseSev]
@[simp] theorem raise_view (s : State) (src : Nat) (d : List Byte) : (s.raise src d).view = s.view := raiseSev_view ..
@[simp] theorem raisePort_view (s : State) (p : Port) (i : Nat) (d : List Byte) : (s.raisePort p i d).view = s.view := raise_view ..
@[simp] theorem stallPort_view (s : State) (m : Nat) (early : Bool) (p : Port) : (s.stallPort m early p).view = s.view := by
  simp [State.stallPort]
@[simp] theorem expireSlot_view (s : State) (k : Nat) (forced : Bool) : (s.expireSlot k forced).view = s.view := by
  simp [State.expireSlot]
@[simp] theorem freeDirSlot_view (s : State) (k : Nat) : (s.freeDirSlot k).view = s.view := by simp [State.freeDirSlot]
@[simp] theorem enterFrame_view (s : State) (m : Nat) (x : Nat × Nat) (segs : List Seg) (flags : Nat) :
    (s.enterFrame m x segs flags).1.view = s.view := by
  simp [State.enterFrame]
@[simp] theorem countPresent_view (s : State) (m : Nat) (x : Seg) : (s.countPresent m x).view = s.view := by simp [State.countPresent]
@[simp] theorem refreshCopies_view (s : State) (e : DirEnt) : (s.refreshCopies e).view = s.view := by simp [State.refreshCopies]
@[simp] theorem dropLate_view (s : State) (p : Port) (r : QRec) : (s.dropLate p r).view = s.view := by
  simp [State.dropLate]

/-! ### Placing the lines of a frame -/

/-- Between `s` and `t` nothing changes but the event buffer, and of it neither the contents nor the pins. -/
def onlyPlaces (s t : State) : Prop := t = s.updBuf (fun _ => t.buf) ∧ t.buf.mem = s.buf.mem ∧ t.buf.pins = s.buf.pins

theorem onlyPlaces.refl (s : State) : onlyPlaces s s := ⟨rfl, rfl, rfl⟩

theorem onlyPlaces.trans {s t u : State} (h : onlyPlaces s t) (k : onlyPlaces t u) : onlyPlaces s u := by
  obtain ⟨ht, hmem, hpins⟩ := h
  obtain ⟨hu, kmem, kpins⟩ := k
  refine ⟨?_, kmem.trans hmem, kpins.trans hpins⟩
  rw [hu, ht]
  rfl

theorem onlyPlaces.rest {s t : State} (h : onlyPlaces s t) : t.view.rest = s.view.rest := by
  obtain ⟨ht, hmem, hpins⟩ := h
  rw [ht]
  exact updBuf_rest _ _ hmem hpins

theorem onlyPlaces.run {s t : State} (h : onlyPlaces s t) : t.run = s.run := congrArg (fun u => u.run) h.1
theorem onlyPlaces.held {s t : State} (h : onlyPlaces s t) : t.view.held = s.view.held := congrArg (fun u => u.view.held) h.1
theorem onlyPlaces.zget {s t : State} (h : onlyPlaces s t) (g : Field) : t.zget g = s.zget g := congrArg (fun u => u.zget g) h.1

theorem onlyPlaces_updBuf (s : State) {f : Buffer → Buffer} (hm : ∀ y, (f y).mem = y.mem) (hp : ∀ y, (f y).pins = y.pins) :
    onlyPlaces s (s.updBuf f) := ⟨rfl, hm s.buf, hp s.buf⟩

theorem foldl_onlyPlaces {α : Type} (l : List α) (g : State → α → State) (s : State) (h : ∀ s a, onlyPlaces s (g s a)) :
    onlyPlaces s (l.foldl g s) := by
  induction l generalizing s with
  | nil => exact .refl s
  | cons a l ih => exact (h s a).trans (ih _)

theorem updBillet_onlyPlaces (s : State) (b : Nat) (f : Billet → Billet) : onlyPlaces s (s.updBillet b f) :=
  onlyPlaces_updBuf _ (fun _ => rfl) fun _ => rfl

theorem expireBillet_onlyPlaces (s : State) (b : Nat) : onlyPlaces s (s.expireBillet b) :=
  foldl_onlyPlaces _ _ _ fun _ _ => onlyPlaces_updBuf _ (fun _ => rfl) fun _ => rfl

theorem allocate_onlyPlaces (s : State) : onlyPlaces s s.allocate.1 := by
  unfold State.allocate
  dsimp only
  split
  · exact .refl s
  · dsimp only
    refine .trans (.trans ?_ (updBillet_onlyPlaces _ _ _)) (onlyPlaces_updBuf _ (fun _ => rfl) fun _ => rfl)
    split
    · exact ((foldl_onlyPlaces _ _ _ expireBillet_onlyPlaces).trans (expireBillet_onlyPlaces _ _)).trans (updBillet_onlyPlaces _ _ _)
    · exact (foldl_onlyPlaces _ _ _ expireBillet_onlyPlaces).trans (expireBillet_onlyPlaces _ _)

theorem nextLine_onlyPlaces (s : State) : onlyPlaces s s.nextLine.1 := by
  have h := allocate_onlyPlaces s
  unfold State.nextLine
  split
  · split
    · exact .refl s
    · split <;> simp_all
  · split <;> simp_all

theorem placeLines_onlyPlaces (s : State) (ls : List (List Byte)) : onlyPlaces s (s.placeLines ls) := by
  induction ls generalizing s with
  | nil => exact .refl s
  | cons x xs ih =>
    have h := nextLine_onlyPlaces s
    unfold State.placeLines
    split
    next t b l heq =>
      rw [heq] at h
      exact (h.trans (onlyPlaces_updBuf _ (fun _ => rfl) fun _ => rfl)).trans (ih _)
    next t heq => rwa [heq] at h

theorem nextLine_of_room {s : State} {b l : Nat} (hpos : s.buf.pos = some (b, l)) (hl : l < 1024) : s.nextLine = (s, some (b, l)) := by
  simp [State.nextLine, hpos, hl]

/-- The lines `ls` of the writer's buffer from line `l` of billet `b` on. -/
def billetLines (b : Nat) : Nat → List (List Byte) → List WLine
  | _, [] => []
  | l, x :: xs => ⟨b * 65536 + 64 * l, x⟩ :: billetLines b (l + 1) xs

theorem billetLines_length (b l : Nat) (ls : List (List Byte)) : (billetLines b l ls).length = ls.length := by
  induction ls generalizing l with
  | nil => rfl
  | cons x xs ih => simp [billetLines, ih]

/-- Lines for which the billet has room go behind one another into the writer's buffer, and nothing else changes but its place. -/
theorem placeLines_of_room {s : State} {b l : Nat} (ls : List (List Byte)) (hpos : s.buf.pos = some (b, l)) (hl : l + ls.length ≤ 1024) :
    (s.placeLines ls).buf.pos = some (b, l + ls.length) ∧ (s.placeLines ls).buf.wbuf = s.buf.wbuf ++ billetLines b l ls := by
  induction ls generalizing s l with
  | nil => simp [State.placeLines, billetLines, hpos]
  | cons x xs ih =>
    rw [List.length_cons] at hl ⊢
    unfold State.placeLines
    rw [nextLine_of_room hpos (by omega)]
    obtain ⟨ihpos, ihwbuf⟩ := ih (s := s.updBuf fun y => { y with
      wbuf := y.wbuf ++ [{ addr := b * 65536 + 64 * l, bytes := x }], pos := some (b, l + 1) }) rfl (by omega)
    exact ⟨by rw [ihpos]; congr 2; omega, by rw [ihwbuf]; simp [billetLines]⟩

theorem cutLines_length (n : Nat) (bs : List Byte) : (cutLines n bs).length = n := by
  induction n generalizing bs with
  | zero => rfl
  | succ n ih => simp [cutLines, ih]

end Sys2Proof.Machine
end

section
/-!
PROOFS. The registers that a commit writes (R139, R143, R148), and those that its operations leave.
-/

namespace Sys2Proof.Machine

/-! ### The fields that the bookkeeping writes -/

/-- What the bookkeeping of a commit writes: fields of the block of port `p`, and two shared counters.  The state of the port, its last
frame, EARLY and M are written besides, each in one place. -/
def bookFields (p : Port) : List Field :=
  [ZP.FRAMES.COUNT.port p, ZP.BYTES.BYTES.port p, ZP.ABSENT.COUNT.port p, ZP.LATE.HITS.port p, ZP.LATE.FRAMES.port p,
    ZP.EVSTAT.PEND.port p, Z.EVT_STAT.FILTERED, Z.BUF_DIRCNT.FORCED]

theorem bookFields_keys (p : Port) : (bookFields p).map Field.key =
    [(0x10020 + 0x400 * p.val) * 64, (0x10018 + 0x400 * p.val) * 64, (0x10024 + 0x400 * p.val) * 64, (0x10028 + 0x400 * p.val) * 64,
      (0x10028 + 0x400 * p.val) * 64 + 24, (0x1004C + 0x400 * p.val) * 64, 0xA004 * 64 + 16, 0x224 * 64] := by
  simp only [bookFields, List.map_cons, List.map_nil, Field.key, Field.port, Field.at, ZP.FRAMES.COUNT, ZP.BYTES.BYTES, ZP.ABSENT.COUNT,
    ZP.LATE.HITS, ZP.LATE.FRAMES, ZP.EVSTAT.PEND, Z.EVT_STAT.FILTERED, Z.BUF_DIRCNT.FORCED, List.cons.injEq, and_true]
  omega

/-- `g` is none of those fields. -/
def Field.apart (g : Field) : Prop := ∀ p : Port, ∀ f ∈ bookFields p, g.key ≠ f.key

theorem Field.apart_of_key {g : Field} (h : ∀ p : Port, g.key ∉ (bookFields p).map Field.key) : g.apart := fun p _ hf heq =>
  h p (heq ▸ List.mem_map_of_mem hf)

theorem next_apart : Z.MERGE_NEXT.NEXT.apart := Field.apart_of_key fun p => by
  simp only [bookFields_keys, List.mem_cons, List.not_mem_nil, or_false, Field.key, Z.MERGE_NEXT.NEXT]
  omega

theorem early_apart : Z.MERGE_CNT.EARLY.apart := Field.apart_of_key fun p => by
  simp only [bookFields_keys, List.mem_cons, List.not_mem_nil, or_false, Field.key, Z.MERGE_CNT.EARLY]
  omega

theorem lastFrame_apart (q : Port) : (ZP.LASTF.FRAME.port q).apart := Field.apart_of_key fun p => by
  simp only [bookFields_keys, List.mem_cons, List.not_mem_nil, or_false, Field.key, Field.port, Field.at, ZP.LASTF.FRAME]
  omega

theorem portState_apart (q : Port) : (ZP.STAT.STATE.port q).apart := Field.apart_of_key fun p => by
  simp only [bookFields_keys, List.mem_cons, List.not_mem_nil, or_false, Field.key, Field.port, Field.at, ZP.STAT.STATE]
  omega

theorem engRole_apart (e : Nat) : (ZE.STAT.ROLE.geng e).apart := Field.apart_of_key fun p => by
  simp only [bookFields_keys, List.mem_cons, List.not_mem_nil, or_false, Field.key, Field.geng, Field.at, ZE.STAT.ROLE]
  omega

/-! ### Fields that a commit writes in one place each -/

theorem early_ne_lastFrame (p : Port) : Z.MERGE_CNT.EARLY.key ≠ (ZP.LASTF.FRAME.port p).key := by
  simp only [Field.key, Field.at, Field.port, Z.MERGE_CNT.EARLY, ZP.LASTF.FRAME]
  omega

theorem early_ne_state (p : Port) : Z.MERGE_CNT.EARLY.key ≠ (ZP.STAT.STATE.port p).key := by
  simp only [Field.key, Field.at, Field.port, Z.MERGE_CNT.EARLY, ZP.STAT.STATE]
  omega

theorem state_ne_lastFrame (p q : Port) : (ZP.STAT.STATE.port p).key ≠ (ZP.LASTF.FRAME.port q).key := by
  simp only [Field.key, Field.at, Field.port, ZP.STAT.STATE, ZP.LASTF.FRAME]
  omega

theorem state_ne_next (p : Port) : (ZP.STAT.STATE.port p).key ≠ Z.MERGE_NEXT.NEXT.key := by
  simp only [Field.key, Field.at, Field.port, ZP.STAT.STATE, Z.MERGE_NEXT.NEXT]
  omega

theorem lastFrame_ne_next (p : Port) : (ZP.LASTF.FRAME.port p).key ≠ Z.MERGE_NEXT.NEXT.key := by
  simp only [Field.key, Field.at, Field.port, ZP.LASTF.FRAME, Z.MERGE_NEXT.NEXT]
  omega

theorem engRole_ne_next (e : Nat) : (ZE.STAT.ROLE.geng e).key ≠ Z.MERGE_NEXT.NEXT.key := by
  simp only [Field.key, Field.at, Field.geng, ZE.STAT.ROLE, Z.MERGE_NEXT.NEXT]
  omega

theorem engRole_ne_early (e : Nat) : (ZE.STAT.ROLE.geng e).key ≠ Z.MERGE_CNT.EARLY.key := by
  simp only [Field.key, Field.at, Field.geng, ZE.STAT.ROLE, Z.MERGE_CNT.EARLY]
  omega

theorem engRole_ne_lastFrame (e : Nat) (p : Port) : (ZE.STAT.ROLE.geng e).key ≠ (ZP.LASTF.FRAME.port p).key := by
  simp only [Field.key, Field.at, Field.geng, Field.port, ZE.STAT.ROLE, ZP.LASTF.FRAME]
  omega

theorem engRole_ne_state (e : Nat) (p : Port) : (ZE.STAT.ROLE.geng e).key ≠ (ZP.STAT.STATE.port p).key := by
  simp only [Field.key, Field.at, Field.geng, Field.port, ZE.STAT.ROLE, ZP.STAT.STATE]
  omega

theorem runActive_ne_state (p : Port) : Z.TIME_STAT.RUN_ACTIVE.key ≠ (ZP.STAT.STATE.port p).key := by
  simp only [Field.key, Field.at, Field.port, Z.TIME_STAT.RUN_ACTIVE, ZP.STAT.STATE]
  omega

/-! ### Operations that leave the other fields -/

@[simp] theorem message_zget (s : State) (v : Nat) (g : Field) : (s.message v).zget g = s.zget g := by
  unfold State.message
  dsimp only
  split
  · rfl
  · rfl

theorem raiseSev_zget (s : State) (src sev : Nat) (d : List Byte) {g : Field} (hpend : g.key ≠ (evBits src).1.key)
    (hfilt : g.key ≠ Z.EVT_STAT.FILTERED.key) : (s.raiseSev src sev d).zget g = s.zget g := by
  rw [← s.zget_zput_ne (s.zget (evBits src).1 ||| 2 ^ (evBits src).2.2) hpend]
  unfold State.raiseSev
  dsimp only
  repeat' split
  · rfl
  · exact State.zget_zbump_ne _ _ hfilt
  · rfl
  · exact message_zget _ _ _
  · rfl

section
variable {g : Field}

theorem Field.apart.filtered (hg : g.apart) : g.key ≠ Z.EVT_STAT.FILTERED.key := hg 0 _ (by simp [bookFields])

theorem evBits_port (p : Port) {i : Nat} (hi : i < 20) : (evBits (p * 20 + i)).1 = ZP.EVSTAT.PEND.port p := by
  have hp := p.isLt
  have hq : (p.val * 20 + i) / 20 = p := by omega
  rw [evBits, if_pos (by omega), hq]

variable (hg : g.apart)
include hg

theorem raisePort_zget (s : State) (p : Port) {i : Nat} (hi : i < 20) (d : List Byte) : (s.raisePort p i d).zget g = s.zget g := by
  refine raiseSev_zget _ _ _ _ ?_ hg.filtered
  rw [evBits_port p hi]
  exact hg p _ (by simp [bookFields])

theorem stallPort_zget (s : State) (m : Nat) (early : Bool) (p : Port) (hst : g.key ≠ (ZP.STAT.STATE.port p).key) :
    (s.stallPort m early p).zget g = s.zget g := by
  rw [State.stallPort, raisePort_zget hg _ _ (by decide), State.zget_zput_ne _ _ hst]

theorem freeDirSlot_zget (s : State) (k : Nat) : (s.freeDirSlot k).zget g = s.zget g := by
  unfold State.freeDirSlot
  dsimp only
  split
  · exact State.zget_zbump_ne _ _ (hg 0 _ (by simp [bookFields]))
  · rfl

theorem enterFrame_zget (s : State) (m : Nat) (x : Nat × Nat) (segs : List Seg) (flags : Nat) :
    (s.enterFrame m x segs flags).1.zget g = s.zget g := by
  unfold State.enterFrame
  dsimp only
  split
  · rfl
  · exact freeDirSlot_zget hg _ _

theorem countPresent_zget (s : State) (m : Nat) (x : Seg) (hl : g.key ≠ (ZP.LASTF.FRAME.port x.port).key) :
    (s.countPresent m x).zget g = s.zget g := by
  rw [State.countPresent, State.zget_zput_ne _ _ hl, State.zget_zwrap_ne _ _ (hg x.port _ (by simp [bookFields])),
    State.zget_zbump_ne _ _ (hg x.port _ (by simp [bookFields]))]

theorem dropLate_zget (s : State) (p : Port) (r : QRec) : (s.dropLate p r).zget g = s.zget g := by
  have hhits : g.key ≠ (ZP.LATE.HITS.port p).key := hg p _ (by simp [bookFields])
  unfold State.dropLate
  dsimp only
  rw [State.updPort, State.zget_updPorts]
  repeat' split
  · rfl
  · exact raisePort_zget hg _ _ (by decide) _
  · exact State.zget_zbump_ne _ _ hhits
  · rw [State.zget_zbump_ne _ _ hhits]
    exact raisePort_zget hg _ _ (by decide) _

theorem lateFrame_zget (s : State) (p : Port) : (s.lateFrame p).zget g = s.zget g :=
  State.zget_zbump_ne _ _ (hg p _ (by simp [bookFields]))

theorem purgeLate_zget (s : State) (p : Port) : (s.purgeLate p).zget g = s.zget g := by
  unfold State.purgeLate
  dsimp only
  rw [foldl_zget _ _ _ _ fun s e _ => ?late, foldl_zget _ _ _ _ fun s r _ => dropLate_zget hg s p r]
  · rfl
  case late =>
    split
    · exact lateFrame_zget hg s p
    · rfl

end

end Sys2Proof.Machine
end

section
/-!
PROOFS. The commit of a frame cut into its stages (R136 to R148), and what each stage changes.
-/

namespace Sys2Proof.Machine

/-! ### What the ports hold after a commit -/

/-- What is held of frames from `m` on. -/
def keepFrom (m : Nat) (x : List QRec × List SideEntry) : List QRec × List SideEntry :=
  (x.1.filter fun r => decide (m ≤ r.frame), x.2.filter fun e => decide (m ≤ e.frame))

theorem keepFrom_keepFrom (m : Nat) (x : List QRec × List SideEntry) : keepFrom m (keepFrom m x) = keepFrom m x := by
  simp [keepFrom, List.filter_filter]

/-- The queues and side entries below M go; what counts them is not seen. -/
theorem purgeLate_view (s : State) (p : Port) : (s.purgeLate p).view = (s.updPort p fun q =>
    { q with
      queue := q.queue.filter fun r => decide (s.mNext ≤ r.frame),
      side := q.side.filter fun e => decide (s.mNext ≤ e.frame) }).view := by
  unfold State.purgeLate
  dsimp only
  rw [foldl_view _ _ _ fun s e => ?late, foldl_view _ _ _ fun s r => dropLate_view s p r]
  case late => split <;> rfl

theorem purgeLate_held (s : State) (p q : Port) :
    (s.purgeLate p).view.held q = if q = p then keepFrom s.mNext (s.view.held q) else s.view.held q := by
  rw [purgeLate_view, updPort_held]
  split
  next h => rw [h]; rfl
  next => rfl

theorem foldl_purgeLate_zget {g : Field} (hg : g.apart) (ps : List Port) (s : State) :
    (ps.foldl (fun s p => s.purgeLate p) s).zget g = s.zget g :=
  foldl_zget _ _ _ _ fun s p _ => purgeLate_zget hg s p

theorem foldl_purgeLate_held (ps : List Port) (s : State) (q : Port) : (ps.foldl (fun s p => s.purgeLate p) s).view.held q =
    if q ∈ ps then keepFrom s.mNext (s.view.held q) else s.view.held q := by
  induction ps generalizing s with
  | nil => simp
  | cons p ps ih =>
    have hnext : (s.purgeLate p).mNext = s.mNext := purgeLate_zget next_apart s p
    rw [List.foldl_cons, ih, hnext, purgeLate_held]
    by_cases hp : q = p <;> simp [hp, keepFrom_keepFrom]

/-! ### The stages of a commit -/

/-- The ports still waited for are STALLED. -/
def State.stalled (s : State) (early : Bool) : State := s.waitedPorts.foldl (fun t p => t.stallPort s.mNext early p) s

/-- The segments of the frame, of the complete ports. -/
def State.segments (s : State) (early : Bool) : List Seg := s.completePorts.map fun p => ((s.stalled early).port p).segment p s.mNext

/-- The lines of the frame: its header and its segments. -/
def State.frameLines (s : State) (early : Bool) : List (List Byte) :=
  cutLines (totalLines (s.segments early))
    ((s.stalled early).frameHeader s.mNext (s.segments early) early ++ (s.segments early).flatMap Seg.bytes)

/-- The segments leave the queues, and the lines go to the writer's buffer. -/
def State.placed (s : State) (early : Bool) : State :=
  (s.completePorts.foldl (fun t p => t.updPort p fun q => q.taken s.mNext) (s.stalled early)).placeLines (s.frameLines early)

/-- Expected ports without a segment are counted, and a membership held for the frame ends. -/
def State.countAbsent (s : State) (expected present : Nat) : State :=
  ports16.foldl (fun s (p : Port) =>
    let s := if bitAt expected p.val ∧ ¬ bitAt present p.val then s.zbump (ZP.ABSENT.COUNT.port p) 1 else s
    s.updPort p fun q => { q with heldExpect := false }) s

/-- The directory and the counters take in frame `m`, whose header stands at `x`. -/
def State.book (s : State) (m : Nat) (early : Bool) (x : Nat × Nat) (segs : List Seg) (flags expected : Nat) : State :=
  let r := s.enterFrame m x segs flags
  let s := (segs.foldl (fun s y => s.countPresent m y) r.1).countAbsent expected (segMask segs fun _ => true)
  let s := if early then s.zbump Z.MERGE_CNT.EARLY 1 else s
  (s.updBuf fun b => { b with sizes := (totalLines segs :: b.sizes).take 1024 }).refreshCopies r.2

def State.booked (s : State) (early : Bool) (x : Nat × Nat) : State :=
  (s.placed early).book s.mNext early x (s.segments early) ((s.stalled early).frameFlags s.mNext (s.segments early) early)
    (s.stalled early).expected

/-- M moves on from `m`, and spans that no later frame meets are forgotten. -/
def State.advance (s : State) (m : Nat) : State :=
  (s.setM (m + 1)).updRun fun r => { r with rests := spanKeep (s.frameEnd m) r.rests, warns := spanKeep (s.frameEnd m) r.warns }

/-- Frame M is committed, and what is held of frames up to it is purged. -/
def State.committed (s : State) (early : Bool) (x : Nat × Nat) : State :=
  ports16.foldl (fun s p => s.purgeLate p) ((s.booked early x).advance s.mNext)

/-! ### What each stage is seen by -/

theorem stalled_view (s : State) (early : Bool) : (s.stalled early).view = s.view :=
  foldl_view _ _ _ fun _ _ => stallPort_view ..

theorem countAbsent_view (s : State) (expected present : Nat) : (s.countAbsent expected present).view = s.view :=
  foldl_view _ _ _ fun s p => by
    dsimp only
    rw [updPort_view _ _ _ rfl rfl, if_view, zbump_view, ite_self]

theorem book_view (s : State) (m : Nat) (early : Bool) (x : Nat × Nat) (segs : List Seg) (flags expected : Nat) :
    (s.book m early x segs flags expected).view = s.view := by
  unfold State.book
  dsimp only
  rw [refreshCopies_view, updBuf_view _ _ rfl rfl rfl rfl, if_view, zbump_view, ite_self, countAbsent_view,
    foldl_view _ _ _ fun s y => countPresent_view s m y, enterFrame_view]

theorem placed_rest (s : State) (early : Bool) : (s.placed early).view.rest = s.view.rest := by
  rw [State.placed, (placeLines_onlyPlaces _ _).rest, foldl_rest _ _ _ fun s p => updPort_rest s p _, stalled_view]

theorem foldl_updPort_run (ps : List Port) (f : PortIn → PortIn) (s : State) : (ps.foldl (fun t p => t.updPort p f) s).run = s.run :=
  foldl_keeps State.run _ _ _ fun _ _ _ => rfl

theorem foldl_updPort_buf (ps : List Port) (f : PortIn → PortIn) (s : State) : (ps.foldl (fun t p => t.updPort p f) s).buf = s.buf :=
  foldl_keeps State.buf _ _ _ fun _ _ _ => rfl

theorem placed_run (s : State) (early : Bool) : (s.placed early).run = s.run := by
  rw [State.placed, (placeLines_onlyPlaces _ _).run, foldl_updPort_run]
  exact congrArg MergeView.run (stalled_view s early)

theorem foldl_purgeLate_view (ps : List Port) (s : State) :
    (ps.foldl (fun s p => s.purgeLate p) s).view = { s.view with held := (ps.foldl (fun s p => s.purgeLate p) s).view.held } := by
  induction ps generalizing s with
  | nil => rfl
  | cons p ps ih =>
    rw [List.foldl_cons, ih, purgeLate_view]
    rfl

theorem booked_view (s : State) (early : Bool) (x : Nat × Nat) : (s.booked early x).view = (s.placed early).view := book_view ..

theorem advance_view (s : State) (m : Nat) : (s.advance m).view = { s.view with run := (s.advance m).run } := rfl

theorem committed_view (s : State) (early : Bool) (x : Nat × Nat) : (s.committed early x).view =
    { (s.placed early).view with run := ((s.booked early x).advance s.mNext).run, held := (s.committed early x).view.held } := by
  have hpurge := foldl_purgeLate_view ports16 ((s.booked early x).advance s.mNext)
  rw [advance_view, booked_view] at hpurge
  exact hpurge

theorem committed_rest (s : State) (early : Bool) (x : Nat × Nat) : (s.committed early x).view.rest = s.view.rest := by
  rw [committed_view]
  exact placed_rest s early

theorem State.view_pos (s : State) : s.view.pos = s.buf.pos := rfl
theorem State.view_wbuf (s : State) : s.view.wbuf = s.buf.wbuf := rfl
theorem State.view_run (s : State) : s.view.run = s.run := rfl
theorem State.view_held (s : State) (p : Port) : s.view.held p = ((s.port p).queue, (s.port p).side) := rfl
theorem State.view_time (s : State) : s.view.rest.time = s.time := rfl

theorem committed_pos (s : State) (early : Bool) (x : Nat × Nat) : (s.committed early x).buf.pos = (s.placed early).buf.pos := by
  rw [← State.view_pos, ← State.view_pos, committed_view]

theorem committed_wbuf (s : State) (early : Bool) (x : Nat × Nat) : (s.committed early x).buf.wbuf = (s.placed early).buf.wbuf := by
  rw [← State.view_wbuf, ← State.view_wbuf, committed_view]

theorem advance_run (s : State) (m : Nat) :
    (s.advance m).run.active = s.run.active ∧ (s.advance m).run.last = s.run.last ∧ (s.advance m).run.mAt = s.time := ⟨rfl, rfl, rfl⟩

theorem booked_run (s : State) (early : Bool) (x : Nat × Nat) : (s.booked early x).run = s.run := by
  rw [← State.view_run, booked_view, State.view_run, placed_run]

theorem booked_time (s : State) (early : Bool) (x : Nat × Nat) : (s.booked early x).time = s.time := by
  rw [← State.view_time, booked_view, placed_rest, State.view_time]

/-- The wait for the next frame begins now, and the run goes on as it was. -/
theorem committed_run (s : State) (early : Bool) (x : Nat × Nat) : (s.committed early x).run.active = s.run.active ∧
    (s.committed early x).run.last = s.run.last ∧ (s.committed early x).run.mAt = s.time := by
  have hrun : (s.committed early x).run = ((s.booked early x).advance s.mNext).run := by
    rw [← State.view_run, committed_view]
  rw [hrun, ← booked_run s early x, ← booked_time s early x]
  exact advance_run _ _

/-! ### What each stage writes in the registers -/

section
variable {g : Field} (hg : g.apart)
include hg

theorem stalled_zget (s : State) (early : Bool) (hst : ∀ p ∈ s.waitedPorts, g.key ≠ (ZP.STAT.STATE.port p).key) :
    (s.stalled early).zget g = s.zget g :=
  foldl_zget _ _ _ _ fun t p hp => stallPort_zget hg t _ early p (hst p hp)

theorem countAbsent_zget (s : State) (expected present : Nat) : (s.countAbsent expected present).zget g = s.zget g :=
  foldl_zget _ _ _ _ fun s p _ => by
    dsimp only
    rw [State.updPort, State.zget_updPorts]
    split
    · exact State.zget_zbump_ne _ _ (hg p _ (by simp [bookFields]))
    · rfl

theorem foldl_countPresent_zget (s : State) (m : Nat) (segs : List Seg) (hl : ∀ y ∈ segs, g.key ≠ (ZP.LASTF.FRAME.port y.port).key) :
    (segs.foldl (fun s y => s.countPresent m y) s).zget g = s.zget g :=
  foldl_zget _ _ _ _ fun s y hy => countPresent_zget hg s m y (hl y hy)

end

theorem refreshCopies_zget (s : State) (e : DirEnt) (g : Field) : (s.refreshCopies e).zget g = s.zget g := rfl

theorem ite_zget (c : Prop) [Decidable c] (s t : State) (g : Field) : (if c then s else t).zget g = if c then s.zget g else t.zget g :=
  apply_ite (fun u : State => u.zget g) _ _ _

/-- Beside EARLY a register shows of the bookkeeping what the counting of the segments leaves. -/
theorem book_zget {g : Field} (hg : g.apart) (he : g.key ≠ Z.MERGE_CNT.EARLY.key) (s : State) (m : Nat) (early : Bool) (x : Nat × Nat)
    (segs : List Seg) (flags expected : Nat) : (s.book m early x segs flags expected).zget g =
      (segs.foldl (fun s y => s.countPresent m y) (s.enterFrame m x segs flags).1).zget g := by
  unfold State.book
  dsimp only
  rw [refreshCopies_zget, State.zget_updBuf, ite_zget, State.zget_zbump_ne _ _ he, ite_self, countAbsent_zget hg]

theorem book_early (s : State) (m : Nat) (early : Bool) (x : Nat × Nat) (segs : List Seg) (flags expected : Nat) :
    (s.book m early x segs flags expected).zget Z.MERGE_CNT.EARLY =
      if early then sat Z.MERGE_CNT.EARLY.wid (s.zget Z.MERGE_CNT.EARLY + 1) else s.zget Z.MERGE_CNT.EARLY := by
  unfold State.book
  dsimp only
  rw [refreshCopies_zget, State.zget_updBuf, ite_zget, State.zget_zbump, countAbsent_zget early_apart,
    foldl_countPresent_zget early_apart _ _ _ fun y _ => early_ne_lastFrame y.port, enterFrame_zget early_apart]

theorem foldl_updPort_zget (ps : List Port) (f : PortIn → PortIn) (s : State) (g : Field) :
    (ps.foldl (fun t p => t.updPort p f) s).zget g = s.zget g :=
  foldl_zget _ _ _ _ fun _ _ _ => rfl

theorem placed_zget (s : State) (early : Bool) (g : Field) : (s.placed early).zget g = (s.stalled early).zget g := by
  rw [State.placed, (placeLines_onlyPlaces _ _).zget, foldl_updPort_zget]

theorem advance_zget (s : State) (m : Nat) {g : Field} (hn : g.key ≠ Z.MERGE_NEXT.NEXT.key) : (s.advance m).zget g = s.zget g :=
  State.zget_zput_ne _ _ hn

theorem committed_zget {g : Field} (hg : g.apart) (hn : g.key ≠ Z.MERGE_NEXT.NEXT.key) (s : State) (early : Bool) (x : Nat × Nat) :
    (s.committed early x).zget g = (s.booked early x).zget g := by
  rw [State.committed, foldl_purgeLate_zget hg, advance_zget _ _ hn]

theorem committed_mNext (s : State) (early : Bool) (x : Nat × Nat) : (s.committed early x).mNext = (s.mNext + 1) % 2 ^ 40 := by
  unfold State.mNext
  rw [State.committed, foldl_purgeLate_zget next_apart]
  exact State.zget_zput _ _ _

theorem booked_zget_of_unwritten {g : Field} (hg : g.apart) (he : g.key ≠ Z.MERGE_CNT.EARLY.key)
    (hl : ∀ p : Port, g.key ≠ (ZP.LASTF.FRAME.port p).key) (s : State) (early : Bool) (x : Nat × Nat) :
    (s.booked early x).zget g = (s.stalled early).zget g := by
  rw [State.booked, book_zget hg he, foldl_countPresent_zget hg _ _ _ fun y _ => hl y.port, enterFrame_zget hg, placed_zget]

/-- The counter of early commits counts when the commit is early. -/
theorem committed_early (s : State) (early : Bool) (x : Nat × Nat) : (s.committed early x).zget Z.MERGE_CNT.EARLY =
    if early then sat Z.MERGE_CNT.EARLY.wid (s.zget Z.MERGE_CNT.EARLY + 1) else s.zget Z.MERGE_CNT.EARLY := by
  rw [committed_zget early_apart (by decide), State.booked, book_early, placed_zget,
    stalled_zget early_apart _ _ fun p _ => early_ne_state p]

theorem committed_state (s : State) (early : Bool) (x : Nat × Nat) {p : Port} (hw : s.waitedPorts = [p]) :
    (s.committed early x).zget (ZP.STAT.STATE.port p) = 4 := by
  rw [committed_zget (portState_apart p) (state_ne_next p), booked_zget_of_unwritten (portState_apart p) (early_ne_state p).symm
    (state_ne_lastFrame p), State.stalled, hw, List.foldl_cons, List.foldl_nil, State.stallPort,
    raisePort_zget (portState_apart p) _ _ (by decide), State.zget_zput]
  rfl

theorem committed_lastFrame (s : State) (early : Bool) (x : Nat × Nat) {p : Port} (hc : s.completePorts = [p]) :
    (s.committed early x).zget (ZP.LASTF.FRAME.port p) = s.mNext % 2 ^ 40 := by
  rw [committed_zget (lastFrame_apart p) (lastFrame_ne_next p), State.booked, book_zget (lastFrame_apart p) (early_ne_lastFrame p).symm,
    State.segments, hc]
  exact State.zget_zput _ _ _

end Sys2Proof.Machine
end

section
/-!
PROOFS. What follows a commit when nothing but the merger does, and the end of the run with its last frame (R11, R144).
-/

namespace Sys2Proof.Machine

/-! ### What follows a commit when nothing but the merger does -/

theorem foldl_fixed {α : Type} (l : List α) (g : State → α → State) (s : State) (h : ∀ a ∈ l, g s a = s) : l.foldl g s = s := by
  induction l with
  | nil => rfl
  | cons a l ih => rw [List.foldl_cons, h a List.mem_cons_self, ih fun b hb => h b (List.mem_cons_of_mem a hb)]

theorem pinCommitted_of_no_pins {s : State} (h : s.buf.pins = []) (f : Nat) (e : DirEnt) : s.pinCommitted f e = s :=
  foldl_fixed _ _ _ fun k _ => by rw [h]; rfl

theorem clipPins_of_no_pins {s : State} (h : s.buf.pins = []) (id : Nat) : s.clipPins id = s :=
  foldl_fixed _ _ _ fun k _ => by rw [h]; rfl

theorem wakeWaiting_of_no_contexts {s : State} (h : s.xtr.ctxs = []) : s.wakeWaiting = s := by
  simp [State.wakeWaiting, h]

theorem marksIn_of_no_commands {s : State} (h : s.cmds = []) (m : Nat) : s.marksIn m = [] := by
  simp [State.marksIn, h]

theorem feedEngines_of_no_roles {s : State} (h : ∀ e : Eng, s.engRole e = 0) (fv : FrameView) : s.feedEngines fv = s :=
  foldl_fixed _ _ _ fun e he => by
    have hrole : s.engRole e = 0 := h ⟨e, List.mem_range.mp he⟩
    simp [State.feedEngine, hrole]

/-- A commit is its stages, with what marks, pins, engines, contexts and the end of the run have from it. -/
theorem commitAt_stages (s : State) (early : Bool) (x : Nat × Nat) : ∃ e fv, s.commitAt early x =
    ((ports16.foldl (fun s p => s.purgeLate p)
      ((((s.stalled early).marksIn s.mNext).foldl (fun t c => t.finish c.id resOk (leBytes s.mNext 5))
        ((s.booked early x).pinCommitted s.mNext e)).advance s.mNext)).feedEngines fv).wakeWaiting.endIfLast s.mNext := ⟨_, _, rfl⟩

theorem stalled_of_none_waited {s : State} (h : s.waitedPorts = []) (early : Bool) : s.stalled early = s := by
  simp [State.stalled, h]

/-- No commit changes the role of an engine. -/
theorem committed_engRole (s : State) (early : Bool) (x : Nat × Nat) (e : Nat) : (s.committed early x).engRole e = s.engRole e := by
  unfold State.engRole
  rw [committed_zget (engRole_apart e) (engRole_ne_next e), booked_zget_of_unwritten (engRole_apart e) (engRole_ne_early e)
    (engRole_ne_lastFrame e), stalled_zget (engRole_apart e) _ _ fun p _ => engRole_ne_state e p]

/-- The parts that a commit leaves alone, one by one. -/
theorem rest_eq {s t : State} (h : t.view.rest = s.view.rest) :
    t.time = s.time ∧ t.lanes = s.lanes ∧ t.chips = s.chips ∧ t.cmds = s.cmds ∧ t.xtr.ctxs = s.xtr.ctxs ∧ t.buf.mem = s.buf.mem ∧
      t.buf.pins = s.buf.pins := by
  simpa [State.view] using h

/-- Nothing follows the commit but, at the run's last frame, the end of the run. -/
theorem commitAt_of_alone {s : State} (h : s.mergeAlone) (early : Bool) (x : Nat × Nat) :
    s.commitAt early x = (s.committed early x).endIfLast s.mNext := by
  obtain ⟨hcmds, hctxs, hpins, hroles⟩ := h
  obtain ⟨-, -, -, hcmds', -, -, -⟩ := rest_eq (congrArg MergeView.rest (stalled_view s early))
  obtain ⟨-, -, -, -, -, -, hpins'⟩ := rest_eq ((congrArg MergeView.rest (booked_view s early x)).trans (placed_rest s early))
  obtain ⟨-, -, -, -, hctxs', -, -⟩ := rest_eq (committed_rest s early x)
  obtain ⟨e, fv, hstages⟩ := commitAt_stages s early x
  rw [hstages, marksIn_of_no_commands (hcmds'.trans hcmds), List.foldl_nil, pinCommitted_of_no_pins (hpins'.trans hpins)]
  change (((s.committed early x).feedEngines fv).wakeWaiting).endIfLast s.mNext = _
  rw [feedEngines_of_no_roles fun e => (committed_engRole s early x e).trans (hroles e), wakeWaiting_of_no_contexts (hctxs'.trans hctxs)]

theorem commitFrame_of_room {s : State} {b l : Nat} (hrun : s.run.active = true) (hbuf : s.buf.wbuf.length < 65536)
    (hpos : s.buf.pos = some (b, l)) (hl : l < 1024) (early : Bool) : s.commitFrame early = s.commitAt early (b, l) := by
  rw [State.commitFrame, if_neg (by simp [hrun, hbuf]), nextLine_of_room hpos hl]

theorem commitFrame_of_open {s : State} {b l : Nat} (h : s.mergeAlone) (hopen : s.mergeOpen b l) (hl : l < 1024) (early : Bool) :
    s.commitFrame early = s.committed early (b, l) := by
  obtain ⟨hrun, hlast, hbuf, hpos, hm⟩ := hopen
  obtain ⟨-, hlast', -⟩ := committed_run s early (b, l)
  rw [commitFrame_of_room hrun hbuf hpos hl, commitAt_of_alone h, State.endIfLast, if_neg (by omega), if_neg (by simp [hlast', hlast])]

theorem committed_mNext_of_open {s : State} {b l : Nat} (hopen : s.mergeOpen b l) (early : Bool) (x : Nat × Nat) :
    (s.committed early x).mNext = s.mNext + 1 := by
  obtain ⟨-, -, -, -, hm⟩ := hopen
  rw [committed_mNext, Nat.mod_eq_of_lt (by omega)]

/-! ### The queues and the writer's buffer after a commit -/

theorem committed_held (s : State) (early : Bool) (x : Nat × Nat) (hm : s.mNext < 2 ^ 40 - 1) (q : Port) :
    (s.committed early x).view.held q = keepFrom (s.mNext + 1) ((s.placed early).view.held q) := by
  have hnext : ((s.booked early x).advance s.mNext).mNext = s.mNext + 1 :=
    (State.zget_zput _ _ _).trans (Nat.mod_eq_of_lt (by show s.mNext + 1 < 2 ^ 40; omega))
  rw [State.committed, foldl_purgeLate_held, hnext, if_pos (by revert q; decide), advance_view, booked_view]

/-- The complete port's part leaves its queues. -/
theorem placed_held {s : State} {p : Port} (hw : s.waitedPorts = []) (hc : s.completePorts = [p]) (early : Bool) :
    (s.placed early).view.held p = (((s.port p).taken s.mNext).queue, ((s.port p).taken s.mNext).side) := by
  rw [State.placed, (placeLines_onlyPlaces _ _).held, stalled_of_none_waited hw, hc, List.foldl_cons, List.foldl_nil, updPort_held,
    if_pos rfl]

/-- The part taken is frame M's, so that of what is held only what lies above M stays. -/
theorem keepFrom_taken (q : PortIn) (m : Nat) : keepFrom (m + 1) ((q.taken m).queue, (q.taken m).side) =
    (q.queue.filter (fun r => decide (m < r.frame)), (q.side.drop 1).filter fun e => decide (m < e.frame)) := by
  simp only [keepFrom, PortIn.taken, List.filter_filter, Nat.succ_le_iff, Prod.mk.injEq, and_true]
  refine List.filter_congr fun r _ => ?_
  by_cases h : m < r.frame <;> simp [h]; omega

/-- The lines of the frame stand behind one another in the writer's buffer, for the billet has room for them. -/
theorem committed_lines {s : State} {b l : Nat} (hpos : s.buf.pos = some (b, l)) (hw : s.waitedPorts = []) (early : Bool) (x : Nat × Nat)
    (hroom : l + totalLines (s.segments early) ≤ 1024) :
    (s.committed early x).buf.pos = some (b, l + totalLines (s.segments early)) ∧
    (s.committed early x).buf.wbuf = s.buf.wbuf ++ billetLines b l (s.frameLines early) := by
  have hlen : (s.frameLines early).length = totalLines (s.segments early) := cutLines_length _ _
  have htaken := foldl_updPort_buf s.completePorts (fun q => q.taken s.mNext) s
  have hplaced := placeLines_of_room (s := s.completePorts.foldl (fun t p => t.updPort p fun q => q.taken s.mNext) s) (s.frameLines early)
    ((congrArg Buffer.pos htaken).trans hpos) (hlen ▸ hroom)
  rw [committed_pos, committed_wbuf, State.placed, stalled_of_none_waited hw, ← hlen, ← htaken]
  exact hplaced

/-! ### The end of the run -/

/-- The run is over with frame `last`, and the ports are on their way to SYNC. -/
def State.runOver (s : State) (kind last : Nat) : State :=
  (ports16.foldl (fun s p => (s.clearPort p).syncPort p)
    ((s.updRun fun r => { r with active := false, last := some last }).zput Z.TIME_STAT.RUN_ACTIVE 0)).runStopped kind last

theorem syncPort_view (s : State) (p : Port) : (s.syncPort p).view = s.view := by simp [State.syncPort]

theorem clearSync_rest (s : State) (p : Port) : ((s.clearPort p).syncPort p).view.rest = s.view.rest := by
  rw [syncPort_view, State.clearPort, updPort_rest]

theorem clearSync_run (s : State) (p : Port) : ((s.clearPort p).syncPort p).run = s.run :=
  congrArg MergeView.run (syncPort_view (s.clearPort p) p)

theorem runStopped_view (s : State) (kind last : Nat) : (s.runStopped kind last).view = s.view := raise_view ..

theorem runOver_rest (s : State) (kind last : Nat) : (s.runOver kind last).view.rest = s.view.rest := by
  rw [State.runOver, runStopped_view, foldl_rest _ _ _ clearSync_rest, zput_view, updRun_rest]

theorem foldl_clearSync_run (ps : List Port) (s : State) : (ps.foldl (fun s p => (s.clearPort p).syncPort p) s).run = s.run :=
  foldl_keeps State.run _ _ _ fun s p _ => clearSync_run s p

theorem runOver_run (s : State) (kind last : Nat) : (s.runOver kind last).run = { s.run with active := false, last := some last } := by
  rw [State.runOver, ← State.view_run, runStopped_view, State.view_run, foldl_clearSync_run]
  rfl

theorem runOver_runActive (s : State) (kind last : Nat) : (s.runOver kind last).zget Z.TIME_STAT.RUN_ACTIVE = 0 := by
  rw [State.runOver, State.runStopped, State.raise, raiseSev_zget _ _ _ _ (by decide) (by decide), foldl_zget _ _ _ _ fun s p _ => ?sync]
  · exact State.zget_zput _ _ _
  case sync =>
    unfold State.syncPort
    split
    · rfl
    · exact State.zget_zput_ne _ _ (runActive_ne_state p)

theorem finishStops_of_finished {s : State} (h : ∀ c ∈ s.cmds, c.result.isNone = false) (last : Nat) : s.finishStops last = s := by
  have hnone : (s.cmds.filter fun c => c.started && c.result.isNone) = [] :=
    List.filter_eq_nil_iff.mpr fun c hc => by simp [h c hc]
  rw [State.finishStops, hnone, List.foldl_nil]

/-- No context, no range and no command waits for the end of the run: beside the run's own end at most the gather begins. -/
theorem endRun_of_alone {s : State} (hctxs : s.xtr.ctxs = []) (hpins : s.buf.pins = []) (hcmds : ∀ c ∈ s.cmds, c.result.isNone = false)
    (kind last : Nat) : s.endRun kind last =
      if (s.runOver kind last).run.pasr then
        (((s.runOver kind last).zput Z.BUF_STAT.GATHER 1).zput Z.BUF_GATHER.MOVED 0).updRun fun r => { r with pasr := false }
      else s.runOver kind last := by
  obtain ⟨-, -, -, hcmds', hctxs', -, hpins'⟩ := rest_eq (runOver_rest s kind last)
  have hend : ∀ id, ((((s.runOver kind last).wakeWaiting).clipPins id).finishStops last) = s.runOver kind last := fun id => by
    rw [wakeWaiting_of_no_contexts (hctxs'.trans hctxs), clipPins_of_no_pins (hpins'.trans hpins),
      finishStops_of_finished (hcmds'.symm ▸ hcmds)]
  unfold State.endRun
  dsimp only
  rw [← State.runOver, hend]

/-- The run has ended with frame `last`, and Z_TIME_STAT says so. -/
theorem endRun_ended {s : State} (hctxs : s.xtr.ctxs = []) (hpins : s.buf.pins = []) (hcmds : ∀ c ∈ s.cmds, c.result.isNone = false)
    (kind last : Nat) : (s.endRun kind last).run.active = false ∧ (s.endRun kind last).run.last = some last ∧
      (s.endRun kind last).zget Z.TIME_STAT.RUN_ACTIVE = 0 ∧ (s.endRun kind last).view.rest = s.view.rest := by
  have hrun := runOver_run s kind last
  have hreg := runOver_runActive s kind last
  have hrest := runOver_rest s kind last
  rw [endRun_of_alone hctxs hpins hcmds]
  split
  · refine ⟨congrArg RunSt.active hrun, congrArg RunSt.last hrun, ?_, hrest⟩
    rw [State.zget_updRun, State.zget_zput_ne _ _ (by decide), State.zget_zput_ne _ _ (by decide), hreg]
  · exact ⟨congrArg RunSt.active hrun, congrArg RunSt.last hrun, hreg, hrest⟩

/-- The stop that Zwiuc places by itself is finished when it is placed. -/
theorem placeSelfStop_cmds {s : State} (h : s.cmds = []) : ∀ c ∈ s.placeSelfStop.cmds, c.result.isNone = false := by
  intro c hc
  simp only [State.placeSelfStop, State.updCmdCount_fields, State.updCmds_fields, h, List.takeWhile_nil, List.dropWhile_nil,
    List.nil_append, List.append_nil, List.mem_singleton] at hc
  rw [hc]
  rfl

/-- Frame 2⁴⁰ − 1 ends the run by itself (R11). -/
theorem endIfLast_of_last_frame {s : State} (hcmds : s.cmds = []) (hctxs : s.xtr.ctxs = []) (hpins : s.buf.pins = []) :
    let t := s.endIfLast (2 ^ 40 - 1)
    t.run.active = false ∧ t.run.last = some (2 ^ 40 - 1) ∧ t.zget Z.TIME_STAT.RUN_ACTIVE = 0 ∧
      t.chips = s.chips ∧ t.lanes = s.lanes := by
  have hend : s.endIfLast (2 ^ 40 - 1) = s.placeSelfStop.endRun 2 (2 ^ 40 - 1) := if_pos rfl
  obtain ⟨hactive, hlast, hreg, hrest⟩ := endRun_ended (s := s.placeSelfStop) hctxs hpins (placeSelfStop_cmds hcmds) 2 (2 ^ 40 - 1)
  obtain ⟨-, hlanes, hchips, -⟩ := rest_eq hrest
  rw [hend]
  exact ⟨hactive, hlast, hreg, hchips, hlanes⟩

end Sys2Proof.Machine
end

section
/-!
PROOFS. The moments of a commit (R11, R136, R137): each is the commit of a lone merger, and what that shows.
-/

namespace Sys2Proof.Machine

/-! ### The moments of a commit -/

theorem exec_mergeCommit (s : State) : exec .mergeCommit s = .next (if s.commitReady then s.commitFrame false else s) := rfl
theorem exec_mergeWaitExpiry (s : State) :
    exec .mergeWaitExpiry s = .next (if s.waitPassed then s.commitFrame (s.overMark && s.waitedPorts != []) else s) := rfl
theorem exec_mergeHighWater (s : State) :
    exec .mergeHighWater s = .next (if s.overMark then s.commitFrame (s.waitedPorts != []) else s) := rfl
theorem exec_mergeEmptyDue (s : State) : exec .mergeEmptyDue s = .next (if s.emptyDue then s.commitFrame false else s) := rfl
theorem exec_runSelfStop (s : State) : exec .runSelfStop s = .next (if s.mNext = 2 ^ 40 - 1 then s.commitDue else s) := rfl

theorem commitReady_of_complete {s : State} {p : Port} (hc : s.completePorts = [p]) (hw : s.waitedPorts = []) : s.commitReady = true := by
  simp [State.commitReady, hc, hw]

theorem emptyDue_of_due {s : State} (hc : s.completePorts = [])
    (hdue : s.frameEnd s.mNext + usUnits s.run.dueUs + s.waitUnits ≤ s.time) : s.emptyDue = true := by
  simp [State.emptyDue, hc, hdue]

theorem overMark_of_none_complete {s : State} (hc : s.completePorts = []) : s.overMark = false := by
  refine List.any_eq_false.mpr fun p hp => ?_
  have hp' : ¬ s.complete p = true := List.filter_eq_nil_iff.mp hc p hp
  simp [State.highWater, hp']

/-- With no port complete the commit that is due is the empty one. -/
theorem commitDue_of_empty {s : State} (hc : s.completePorts = []) (hdue : s.emptyDue = true) : s.commitDue = s.commitFrame false := by
  rw [State.commitDue, overMark_of_none_complete hc, if_neg (by decide), if_pos (.inr (.inr hdue))]

/-! ### The clauses -/

section
variable {s : State} {b l : Nat}

theorem segments_of_complete {p : Port} (hc : s.completePorts = [p]) (hw : s.waitedPorts = []) (early : Bool) :
    s.segments early = [(s.port p).segment p s.mNext] := by
  rw [State.segments, stalled_of_none_waited hw, hc]
  rfl

theorem segments_of_none_complete (hc : s.completePorts = []) (early : Bool) : s.segments early = [] := by
  rw [State.segments, hc]
  rfl

/-- What every commit of a lone merger shows. -/
theorem committed_common (hopen : s.mergeOpen b l) (early : Bool) (x : Nat × Nat) : (s.committed early x).mNext = s.mNext + 1 ∧
    (s.committed early x).buf.mem = s.buf.mem ∧ (s.committed early x).chips = s.chips ∧ (s.committed early x).lanes = s.lanes := by
  obtain ⟨-, hlanes, hchips, -, -, hmem, -⟩ := rest_eq (committed_rest s early x)
  exact ⟨committed_mNext_of_open hopen early x, hmem, hchips, hlanes⟩

theorem two_le_totalLines (segs : List Seg) : 2 ≤ totalLines segs := by
  have hfold : ∀ n, n ≤ segs.foldl (fun a x => a + x.lines) n := by
    induction segs with
    | nil => exact Nat.le_refl
    | cons y ys ih => exact fun n => (Nat.le_add_right n y.lines).trans (ih _)
  exact hfold 2

theorem mergeCommit_complete (halone : s.mergeAlone) {p : Port} (hopen : s.mergeOpen b l) (hc : s.completePorts = [p])
    (hw : s.waitedPorts = []) (hroom : l + totalLines [(s.port p).segment p s.mNext] ≤ 1024) :
    ∃ t, exec .mergeCommit s = .next t ∧ t.mNext = s.mNext + 1 ∧
      t.buf.pos = some (b, l + totalLines [(s.port p).segment p s.mNext]) ∧
      t.buf.wbuf.length = s.buf.wbuf.length + totalLines [(s.port p).segment p s.mNext] ∧ t.run.mAt = s.time ∧
      (t.port p).queue = (s.port p).queue.filter (fun r => decide (s.mNext < r.frame)) ∧
      (t.port p).side = ((s.port p).side.drop 1).filter (fun e => decide (s.mNext < e.frame)) ∧
      t.zget (ZP.LASTF.FRAME.port p) = s.mNext ∧ t.buf.mem = s.buf.mem ∧ t.chips = s.chips ∧ t.lanes = s.lanes := by
  have hl : l < 1024 := by have := two_le_totalLines [(s.port p).segment p s.mNext]; omega
  have hsegs := segments_of_complete hc hw false
  have ⟨_, _, _, hpos, hm⟩ := hopen
  obtain ⟨hnext, hmem, hchips, hlanes⟩ := committed_common hopen false (b, l)
  obtain ⟨hpos', hwbuf⟩ := committed_lines hpos hw false (b, l) (hsegs ▸ hroom)
  obtain ⟨-, -, hmAt⟩ := committed_run s false (b, l)
  have hheld := committed_held s false (b, l) hm p
  rw [placed_held hw hc, keepFrom_taken, State.view_held] at hheld
  obtain ⟨hqueue, hside⟩ := Prod.mk.inj hheld
  have hlast := committed_lastFrame s false (b, l) hc
  rw [Nat.mod_eq_of_lt (by omega)] at hlast
  refine ⟨s.committed false (b, l), ?_, hnext, hsegs ▸ hpos', ?_, hmAt, hqueue, hside, hlast, hmem, hchips, hlanes⟩
  · rw [exec_mergeCommit, commitReady_of_complete hc hw, if_pos rfl, commitFrame_of_open halone hopen hl]
  · rw [hwbuf, List.length_append, billetLines_length, State.frameLines, cutLines_length, hsegs]

/-- A commit that does not wait for port `p` any longer: the port is STALLED, and EARLY counts an early one. -/
theorem commitFrame_stalls (halone : s.mergeAlone) (hopen : s.mergeOpen b l) (hl : l < 1024) {p : Port} (hw : s.waitedPorts = [p])
    (early : Bool) : (s.commitFrame early).mNext = s.mNext + 1 ∧ (s.commitFrame early).zget (ZP.STAT.STATE.port p) = 4 ∧
      (s.commitFrame early).zget Z.MERGE_CNT.EARLY =
        (if early then sat Z.MERGE_CNT.EARLY.wid (s.zget Z.MERGE_CNT.EARLY + 1) else s.zget Z.MERGE_CNT.EARLY) ∧
      (s.commitFrame early).buf.mem = s.buf.mem ∧ (s.commitFrame early).chips = s.chips ∧ (s.commitFrame early).lanes = s.lanes := by
  obtain ⟨hnext, hmem, hchips, hlanes⟩ := committed_common hopen early (b, l)
  rw [commitFrame_of_open halone hopen hl]
  exact ⟨hnext, committed_state s early (b, l) hw, committed_early s early (b, l), hmem, hchips, hlanes⟩

theorem mergeEmptyDue_header (halone : s.mergeAlone) (hopen : s.mergeOpen b l) (hl : l ≤ 1022) (hc : s.completePorts = [])
    (hw : s.waitedPorts = []) (hdue : s.frameEnd s.mNext + usUnits s.run.dueUs + s.waitUnits ≤ s.time) :
    ∃ t, exec .mergeEmptyDue s = .next t ∧ t.mNext = s.mNext + 1 ∧ t.buf.pos = some (b, l + 2) ∧
      t.buf.wbuf = s.buf.wbuf ++ [⟨b * 65536 + 64 * l, (s.frameHeader s.mNext [] false).take 64⟩,
        ⟨b * 65536 + 64 * (l + 1), ((s.frameHeader s.mNext [] false).drop 64).take 64⟩] ∧
      t.buf.mem = s.buf.mem ∧ t.chips = s.chips ∧ t.lanes = s.lanes := by
  have hsegs := segments_of_none_complete hc false
  have hlines : s.frameLines false = [(s.frameHeader s.mNext [] false).take 64, ((s.frameHeader s.mNext [] false).drop 64).take 64] := by
    rw [State.frameLines, hsegs, stalled_of_none_waited hw, List.flatMap_nil, List.append_nil]
    rfl
  have ⟨_, _, _, hpos, _⟩ := hopen
  obtain ⟨hnext, hmem, hchips, hlanes⟩ := committed_common hopen false (b, l)
  obtain ⟨hpos', hwbuf⟩ := committed_lines hpos hw false (b, l) (by rw [hsegs]; show l + 2 ≤ 1024; omega)
  rw [hsegs] at hpos'
  rw [hlines] at hwbuf
  refine ⟨s.committed false (b, l), ?_, hnext, hpos', hwbuf, hmem, hchips, hlanes⟩
  rw [exec_mergeEmptyDue, emptyDue_of_due hc hdue, if_pos rfl, commitFrame_of_open halone hopen (by omega)]

theorem runSelfStop_ends (halone : s.mergeAlone) (hm : s.mNext = 2 ^ 40 - 1) (hrun : s.run.active = true)
    (hbuf : s.buf.wbuf.length < 65536) (hpos : s.buf.pos = some (b, l)) (hl : l ≤ 1022) (hc : s.completePorts = [])
    (hdue : s.frameEnd s.mNext + usUnits s.run.dueUs + s.waitUnits ≤ s.time) :
    ∃ t, exec .runSelfStop s = .next t ∧ t.run.active = false ∧ t.run.last = some (2 ^ 40 - 1) ∧
      t.zget Z.TIME_STAT.RUN_ACTIVE = 0 ∧ t.chips = s.chips ∧ t.lanes = s.lanes := by
  have ⟨hcmds, hctxs, hpins, _⟩ := halone
  obtain ⟨-, hlanes, hchips, hcmds', hctxs', -, hpins'⟩ := rest_eq (committed_rest s false (b, l))
  obtain ⟨hactive, hlast, hreg, hchips', hlanes'⟩ :=
    endIfLast_of_last_frame (hcmds'.trans hcmds) (hctxs'.trans hctxs) (hpins'.trans hpins)
  refine ⟨(s.committed false (b, l)).endIfLast (2 ^ 40 - 1), ?_, hactive, hlast, hreg, hchips'.trans hchips, hlanes'.trans hlanes⟩
  rw [exec_runSelfStop, if_pos hm, commitDue_of_empty hc (emptyDue_of_due hc hdue), commitFrame_of_room hrun hbuf hpos (by omega),
    commitAt_of_alone halone, hm]

end

/-- Settles O24: each clause is a commit of `State.commitFrame`, cut into its stages; only the last frame's goes on to end the run. -/
theorem merge : Obligations.Merge := by
  unfold Obligations.Merge
  rintro s m b l rfl halone
  refine ⟨fun p x hopen hc hw hx hroom => ?_, fun p p' hopen hc hw hl => ⟨fun hmark hwait => ?_, fun hmark => ?_⟩,
    fun hopen hl hc hw hdue => mergeEmptyDue_header halone hopen hl hc hw hdue,
    fun hm hrun hbuf hpos hl hc _ hdue => runSelfStop_ends halone hm hrun hbuf hpos hl hc hdue⟩
  · subst hx
    exact mergeCommit_complete halone hopen hc hw hroom
  · refine ⟨s.commitFrame false, ?_, commitFrame_stalls halone hopen (by omega) hw false⟩
    rw [exec_mergeWaitExpiry, hwait, hmark, if_pos rfl, Bool.false_and]
  · refine ⟨s.commitFrame true, ?_, commitFrame_stalls halone hopen (by omega) hw true⟩
    rw [exec_mergeHighWater, hmark, if_pos rfl, hw]
    rfl

end Sys2Proof.Machine
end

section
/-!
PROOFS. What the commands of the pixel matrix share (R31, R32, R40, R42): the fast-OR one-shots, a table changed entry by entry, and
the window.
-/

namespace Sys2Proof.Machine

/-! ### Fast-OR one-shots -/

/-- Carrying the one-shots over a change touches nothing else. -/
theorem forAfter_eq_withPulse (c d : Pelnos) : ∃ fp, forAfter c d = d.withPulse fp := by
  unfold forAfter
  split <;> exact ⟨_, rfl⟩

/-- A change of no class opens no settling window (R42). -/
@[simp] theorem settleBy_zero (c : Pelnos) : c.settleBy 0 = c := rfl

/-- R40: ending the pulse of region `r` clears its bit alone. -/
theorem getLsbD_clear_bit (m : BitVec 16) (r j : Fin 16) :
    (m &&& ~~~ BitVec.ofNat 16 (2 ^ r.val)).getLsbD j = (m.getLsbD j && j != r) := by
  have hbit : (BitVec.ofNat 16 (2 ^ r.val)).getLsbD j = decide (j = r) := by
    rw [BitVec.getLsbD_ofNat, Nat.testBit_two_pow]
    simp [Fin.ext_iff, eq_comm]
  rw [BitVec.getLsbD_and, BitVec.getLsbD_not, hbit]
  by_cases h : j = r <;> simp [h]

/-! ### A table changed entry by entry -/

section
variable {α : Type} [DecidableEq α] {d : α}

theorem Tab.mapVals_cons (f : Nat → α → α) (a : Nat) (v : α) (t : Tab α) :
    Tab.mapVals d f ((a, v) :: t) = if f a v = d then Tab.mapVals d f t else (a, f a v) :: Tab.mapVals d f t := by
  by_cases h : f a v = d <;> simp [Tab.mapVals, h]

/-- In a canonical table every key reads the image of what it read, where the default stays the default. -/
theorem Tab.get_mapVals {f : Nat → α → α} (hf : ∀ k, f k d = d) {t : Tab α} (h : Tab.wf d t = true) (k : Nat) :
    Tab.get d (Tab.mapVals d f t) k = f k (Tab.get d t k) := by
  induction t with
  | nil => exact (hf k).symm
  | cons e t ih =>
    obtain ⟨a, v⟩ := e
    simp only [Tab.wf, Bool.and_eq_true, decide_eq_true_eq] at h
    obtain ⟨⟨habove, -⟩, hwf⟩ := h
    rw [Tab.mapVals_cons]
    by_cases hk : a = k
    · subst hk
      have htail : Tab.get d t a = d := Tab.get_above d t habove (Nat.le_refl a)
      split
      · rename_i hdrop
        rw [ih hwf, htail, hf, Tab.get, if_pos rfl, hdrop]
      · simp [Tab.get]
    · split <;> simp [Tab.get, hk, ih hwf]

end

/-! ### Pixel indices and the window -/

theorem pixIdx_div (col row : Fin 512) : pixIdx col row / 512 = col := by
  unfold pixIdx; omega

theorem pixIdx_mod (col row : Fin 512) : pixIdx col row % 512 = row := by
  unfold pixIdx; omega

/-- Stepping the window sees the registers alone. -/
theorem stepWindow_withPulse_of_regs {c d : Pelnos} (h : d.regs = c.regs) (fp : BitVec 16) :
    (d.withPulse fp).stepWindow = (d.withPulse fp).setWindow (pixStep (c.get P.PIXADDR.INC) c.window) := by
  have hget : ∀ f, (d.withPulse fp).get f = c.get f := fun f => congrArg (fget · f) h
  simp only [Pelnos.stepWindow, Pelnos.window, hget]

theorem pixStep_one (i : Nat) : pixStep 1 i = (i + 1) % 262144 := rfl
theorem pixStep_two (i : Nat) : pixStep 2 i =
    ((i / 512 + 1) % 512) * 512 + (if i / 512 = 511 then (i % 512 + 1) % 512 else i % 512) := rfl

/-- R32: INC 0 stands, INC 1 steps by row and on to the next column, INC 2 by column and on to the next row. -/
theorem pixStep_cases (col row : Fin 512) : pixStep 0 (col * 512 + row) = col * 512 + row ∧
    (row.val < 511 → pixStep 1 (col * 512 + row) = col * 512 + (row + 1 : Nat)) ∧
    (col.val < 511 → row.val = 511 → pixStep 1 (col * 512 + row) = (col + 1 : Nat) * 512) ∧
    (col.val < 511 → pixStep 2 (col * 512 + row) = (col + 1 : Nat) * 512 + row) ∧
    (col.val = 511 → row.val < 511 → pixStep 2 (col * 512 + row) = row + 1) := by
  have hdiv := pixIdx_div col row
  have hmod := pixIdx_mod col row
  unfold pixIdx at hdiv hmod
  refine ⟨rfl, fun _ => ?_, fun _ _ => ?_, fun hcol => ?_, fun hcol _ => ?_⟩
  · rw [pixStep_one, Nat.mod_eq_of_lt (by omega)]
    omega
  · rw [pixStep_one, Nat.mod_eq_of_lt (by omega)]
    omega
  · rw [pixStep_two, hdiv, hmod, if_neg (Nat.ne_of_lt hcol)]
    omega
  · rw [pixStep_two, hdiv, hmod, if_pos hcol]
    omega

end Sys2Proof.Machine
end

section
/-!
PROOFS. Pixel configuration (R31, R32, R35, R36, R42, R43): pixel words, auto-masks, double-columns and the end of a settling window.
-/

namespace Sys2Proof.Machine

theorem exec_pixdataWrite (p : Port) (w : Half) (s : State) :
    exec (.pixdataWrite p w) s = .next (s.setChip p ((s.chip p).writePixdata w)) := rfl
theorem exec_pixdataRead (p : Port) (s : State) : exec (.pixdataRead p) s =
    .next ((s.emit (.chipWord p ((s.chip p).pixWord (s.chip p).window))).setChip p (s.chip p).stepWindow) := rfl
theorem exec_autoMask (p : Port) (col row : Fin 512) (s : State) :
    exec (.autoMask p col row) s = .next (s.setChip p ((s.chip p).autoMask (pixIdx col row))) := rfl
theorem exec_clearAll (p : Port) (s : State) :
    exec (.clearAll p) s = .next (s.setChip p (forAfter (s.chip p) (s.chip p).clearAll)) := rfl
theorem exec_dcCfgWrite (p : Port) (dc : Fin 256) (v : Half) (s : State) :
    exec (.dcCfgWrite p dc v) s = .next (s.setChip p ((s.chip p).writeDcCfg dc v)) := rfl
theorem exec_settlingWindowEnd (p : Port) (s : State) :
    exec (.settlingWindowEnd p) s = .next (s.setChip p (s.chip p).settleEnd) := rfl

/-! ### Pixel words -/

/-- Words that agree in TRIM and GAIN_LO (bits 4:0 and 7) are of one operating point: no settling window (R42). -/
theorem pixClass_eq_zero (c : Pelnos) (i : Nat) {old new : Half} (h : new &&& 0x009F#16 = old &&& 0x009F#16) :
    c.pixClass i old new = 0 := by
  have hgain : old.getLsbD 7 = new.getLsbD 7 := by
    have hbit := congrArg (fun b : Half => b.getLsbD 7) h
    simpa using hbit.symm
  have htrim : old.extractLsb' 0 5 = new.extractLsb' 0 5 := by
    have hlow := congrArg (fun b : Half => b.extractLsb' 0 5) h
    have hmask : (0x009F#16).extractLsb' 0 5 = BitVec.allOnes 5 := rfl
    simpa only [BitVec.extractLsb'_and, hmask, BitVec.and_allOnes] using hlow.symm
  rw [Pelnos.pixClass, hgain, htrim, if_neg (not_not_intro rfl), if_neg (not_not_intro rfl), ite_self]

/-- A write that keeps TRIM and GAIN_LO stores the word and releases the auto-mask. -/
theorem writePix_of_same_point (c : Pelnos) (i : Nat) {w : Half} (h : w &&& 0x009F#16 = c.pixWord i &&& 0x009F#16) :
    ∃ fp, c.writePix i w = (({ c with pix := Tab.set 0x0030#16 c.pix i (w &&& 0x01FF#16) }.setPixel i
      { c.pixel i with amask := false }).withPulse fp) := by
  have hpoint : (w &&& 0x01FF#16) &&& 0x009F#16 = c.pixWord i &&& 0x009F#16 := by
    rw [BitVec.and_assoc]
    exact h
  simp only [Pelnos.writePix, pixClass_eq_zero c i hpoint, settleBy_zero]
  exact forAfter_eq_withPulse c _

theorem writePixdata_of_same_point (c : Pelnos) {w : Half} (h : w &&& 0x009F#16 = c.pixWord c.window &&& 0x009F#16) :
    ∃ fp, c.writePixdata w = ((({ c with pix := Tab.set 0x0030#16 c.pix c.window (w &&& 0x01FF#16) }.setPixel c.window
      { c.pixel c.window with amask := false }).withPulse fp).setWindow (pixStep (c.get P.PIXADDR.INC) c.window)) := by
  obtain ⟨fp, hfp⟩ := writePix_of_same_point c c.window h
  refine ⟨fp, ?_⟩
  rw [Pelnos.writePixdata, hfp]
  exact stepWindow_withPulse_of_regs rfl fp

/-! ### Auto-masks (R36) -/

/-- An auto-mask with its report: queued while the queue has room, else AM_OVF is pending. -/
theorem autoMask_eq {c : Pelnos} {col row : Fin 512} (hen : c.get P.FE_CFG.AMASK_EN = 1)
    (hhigh : (c.pixel (pixIdx col row)).high = true) (hon : c.enabled (pixIdx col row) = true) : c.autoMask (pixIdx col row) =
    if c.amQueue.length < 16 then
      { c.setPixel (pixIdx col row) { c.pixel (pixIdx col row) with amask := true } with amQueue := c.amQueue ++ [(col.val, row.val)] }
    else { c.setPixel (pixIdx col row) { c.pixel (pixIdx col row) with amask := true } with amOvf := true } := by
  rw [Pelnos.autoMask, if_pos ⟨hen, hhigh, hon⟩, pixIdx_div, pixIdx_mod]
  rfl

/-- CLEAR_ALL releases the auto-mask of every pixel. -/
theorem pixel_clearAll {c : Pelnos} (hwf : Tab.wf {} c.pixels = true) (i : Nat) :
    c.clearAll.pixel i = { c.pixel i with amask := false } :=
  Tab.get_mapVals (f := fun _ (x : Pixel) => { x with amask := false }) (fun _ => rfl) hwf i

theorem exec_clearAll_releases {s : State} {p : Port} {c : Pelnos} (hc : s.chip p = c) :
    ∃ fp t, exec (.clearAll p) s = .next (s.setChip p { c with pixels := t, forPulse := fp }) ∧
      ∀ i, Tab.wf {} c.pixels = true → Tab.get {} t i = { c.pixel i with amask := false } := by
  obtain ⟨fp, hfp⟩ := forAfter_eq_withPulse c c.clearAll
  refine ⟨fp, c.clearAll.pixels, ?_, fun i hwf => pixel_clearAll hwf i⟩
  rw [exec_clearAll, hc, hfp]
  rfl

/-! ### Double-columns and settling windows -/

theorem b2n_eq_toNat (b : Bool) : b2n b = b.toNat := by cases b <;> rfl

/-- R35: a write to a double-column that is not powered down opens no settling window; setting DC_OFF stops its DLL. -/
theorem writeDcCfg_of_powered {c : Pelnos} {n : Nat} (hon : c.get (P.DCn_CFG.DC_OFF.at (4 * n)) = 0) (v : Half) :
    ∃ fp, c.writeDcCfg n v = (if v.getLsbD 1 then
        ((c.put (P.DCn_CFG.DC_MASK.at (4 * n)) (v.getLsbD 0).toNat).put (P.DCn_CFG.DC_OFF.at (4 * n)) 1).put (P.DCn_DLL.LOCK.at (4 * n)) 0
      else (c.put (P.DCn_CFG.DC_MASK.at (4 * n)) (v.getLsbD 0).toNat).put (P.DCn_CFG.DC_OFF.at (4 * n)) 0).withPulse fp := by
  have hwas : ((0 : Nat) == 1) = false := rfl
  simp only [Pelnos.writeDcCfg, hon, hwas, Bool.false_and, Bool.false_eq_true, if_false, b2n_eq_toNat, settleBy_zero]
  cases v.getLsbD 1 with
  | false => exact forAfter_eq_withPulse c _
  | true => exact forAfter_eq_withPulse c _

/-- R43: no frame that begins after every window's last tick carries SETTLING. -/
theorem settling_of_passed {c : Pelnos} {f : Nat} (h : ∀ w ∈ c.settle, w.2 < f * 4096) : c.settling f = false := by
  refine List.any_eq_false.mpr fun w hw => ?_
  have hpast := h w hw
  simp [hpast]

theorem settleEnd_of_passed {c : Pelnos} (h : ∀ w ∈ c.settle, w.2 < c.frame * 4096) : c.settleEnd = { c with settleBlank := false } := by
  rw [Pelnos.settleEnd, settling_of_passed h]
  rfl

/-- Settles O10: each clause is what one operation on the Pelnos does; the changes that carry the fast-OR one-shots over are equal up to
those by `forAfter_eq_withPulse`. -/
theorem pixelConfiguration : Obligations.PixelConfiguration := by
  unfold Obligations.PixelConfiguration
  intro s p c hc
  refine ⟨fun w hw => ?_, ?_, pixStep_cases, fun col row i hi hen hhigh hon => ?_, exec_clearAll_releases hc, fun dc v hon => ?_,
    fun hpast => ?_⟩
  · obtain ⟨fp, hfp⟩ := writePixdata_of_same_point c hw
    exact ⟨fp, by rw [exec_pixdataWrite, hc, hfp]⟩
  · rw [exec_pixdataRead, hc]
    rfl
  · obtain rfl : i = pixIdx col row := hi
    refine ⟨fun hroom => ?_, fun hfull => ?_⟩
    · rw [exec_autoMask, hc, autoMask_eq hen hhigh hon, if_pos hroom]
    · rw [exec_autoMask, hc, autoMask_eq hen hhigh hon, if_neg (by omega)]
  · obtain ⟨fp, hfp⟩ := writeDcCfg_of_powered hon v
    exact ⟨fp, by rw [exec_dcCfgWrite, hc, hfp]⟩
  · rw [exec_settlingWindowEnd, hc, settleEnd_of_passed hpast]

end Sys2Proof.Machine
end

section
/-!
PROOFS. Injection (R37 to R40): GO and STOP, the pulse of a frame, the end of a sequence.
-/

namespace Sys2Proof.Machine

theorem exec_injGo (p : Port) (s : State) : exec (.injGo p) s = .next (s.setChip p ((s.chip p).injCtl true false)) := rfl
theorem exec_injStop (p : Port) (s : State) : exec (.injStop p) s = .next (s.setChip p ((s.chip p).injCtl false true)) := rfl
theorem exec_injectionPulse_of_some {p : Port} {s : State} {d : Pelnos} (h : (s.chip p).injPulse = some d) :
    exec (.injectionPulse p) s = .next ((s.emit (.inject p (s.chip p).samp.charge)).setChip p d) := by
  show execInjectionPulse p s = _
  rw [execInjectionPulse, h]
  rfl
theorem exec_injSequenceEnd (p : Port) (s : State) : exec (.injSequenceEnd p) s = .next (s.setChip p (s.chip p).injEnd) := rfl
theorem exec_forPulseEnd (p : Port) (r : Fin 16) (s : State) : exec (.forPulseEnd p r) s =
    .next (s.setChip p ((s.chip p).withPulse ((s.chip p).forPulse &&& ~~~ BitVec.ofNat 16 (2 ^ r.val)))) := rfl
theorem exec_calBlankEnd (p : Port) (s : State) :
    exec (.calBlankEnd p) s = .next (s.setChip p { s.chip p with calBlank := false }) := rfl

section
variable {c : Pelnos} {q : InjSeq}

/-! ### GO and STOP (R38, R39) -/

theorem injCtl_go_of_idle (hinj : c.inj = none) (hcsu : c.csu = none) : c.injCtl true false =
    { c with inj := some { started := false, stop := false, left := none, pulsed := false } } := by
  simp [Pelnos.injCtl, Pelnos.injBusy, Pelnos.csuBusy, hinj, hcsu]

theorem injCtl_go_of_busy (h : c.inj ≠ none ∨ c.csu ≠ none) : c.injCtl true false = c.put P.INJ_CFG.GO_LOST 1 := by
  have hbusy : c.injBusy = true ∨ c.csuBusy = true := h.imp Option.isSome_iff_ne_none.mpr Option.isSome_iff_ne_none.mpr
  simp [Pelnos.injCtl, hbusy]

theorem injCtl_stop (go : Bool) (hinj : c.inj = some q) : c.injCtl go true = { c with inj := some { q with stop := true } } := by
  simp [Pelnos.injCtl, hinj]

/-! ### Pulses (R37, R39, R40) -/

/-- A pulse marks the frame CAL and holds the regions low. -/
theorem pulse_eq_withPulse (c : Pelnos) : ∃ fp, c.pulse =
    { c with frames := Tab.upd {} c.frames c.frame (fun b => { b with cal := true }), calBlank := true, forPulse := fp } :=
  forAfter_eq_withPulse c _

theorem injPulse_of_ready (hinj : c.inj = some q) (hstarted : q.started = true) (hpulsed : q.pulsed = false) (hleft : q.left ≠ some 0)
    (hlock : c.locked = true) : ∃ fp, c.injPulse = some { c with
      inj := some { q with pulsed := true, left := q.left.map (· - 1) },
      frames := Tab.upd {} c.frames c.frame (fun b => { b with cal := true }), calBlank := true, forPulse := fp } := by
  obtain ⟨fp, hfp⟩ := pulse_eq_withPulse { c with inj := some { q with pulsed := true, left := q.left.map (· - 1) } }
  have hready : q.started = true ∧ ¬ q.pulsed = true ∧ q.left ≠ some 0 ∧ c.locked = true :=
    ⟨hstarted, by simp [hpulsed], hleft, hlock⟩
  refine ⟨fp, ?_⟩
  simp only [Pelnos.injPulse, hinj]
  rw [if_pos hready, hfp]

/-! ### The end of a sequence (R38, R39) -/

theorem InjSeq.over_iff (q : InjSeq) : q.over = true ↔ q.stop = true ∨ q.left = some 0 := by
  simp [InjSeq.over]

theorem injEnd_of_over (hinj : c.inj = some q) (hstarted : q.started = true) (hover : q.over = true) :
    c.injEnd = { c with inj := none } := by
  simp [Pelnos.injEnd, hinj, hstarted, hover]

theorem injEnd_of_not_over (hinj : c.inj = some q) (hover : ¬ q.over = true) : c.injEnd = c := by
  simp [Pelnos.injEnd, hinj, hover]

end

/-- Settles O11: each clause is what one operation on the injector of the Pelnos does. -/
theorem injection : Obligations.Injection := by
  unfold Obligations.Injection
  intro s p c hc
  refine ⟨fun hinj hcsu => ?_, fun hbusy => ?_, fun q hinj => ?_, fun q hinj hstarted hpulsed hleft hlock => ?_,
    fun q hinj hstarted hend => ?_, fun q n hinj _ hstop hleft => ?_, fun r => ?_, ?_⟩
  · rw [exec_injGo, hc, injCtl_go_of_idle hinj hcsu]
  · rw [exec_injGo, hc, injCtl_go_of_busy hbusy]
  · rw [exec_injStop, hc, injCtl_stop false hinj]
  · obtain ⟨fp, hfp⟩ := injPulse_of_ready hinj hstarted hpulsed hleft hlock
    rw [← hc] at hfp
    exact ⟨fp, by rw [exec_injectionPulse_of_some hfp, hc]; rfl⟩
  · rw [exec_injSequenceEnd, hc, injEnd_of_over hinj hstarted (q.over_iff.mpr hend)]
  · have hover : ¬ q.over = true := by simp [InjSeq.over, hstop, hleft]
    rw [exec_injSequenceEnd, hc, injEnd_of_not_over hinj hover]
  · refine ⟨c.forPulse &&& ~~~ BitVec.ofNat 16 (2 ^ r.val), ?_, getLsbD_clear_bit c.forPulse r⟩
    rw [exec_forPulseEnd, hc]
  · rw [exec_calBlankEnd, hc]

end Sys2Proof.Machine
end

section
/-!
PROOFS. Leading edges (R47, R48, R50, R51, R61): the start that an edge gives, and what becomes of it at its pixel.
-/

namespace Sys2Proof.Machine

/-- A change of a Pelnos replaces it by its image. -/
theorem updChip_eq_setChip (s : State) (p : Port) (f : Pelnos → Pelnos) : s.updChip p f = s.setChip p (f (s.chip p)) := rfl

theorem exec_pixelLeadingEdge (p : Port) (col row : Fin 512) (sub : Fin 4) (k : Fin 34) (m : Fin 8) (s : State) :
    exec (.pixelLeadingEdge p col row sub k m) s = .next (s.setChip p (forAfter (s.chip p)
      ((s.chip p).leadingEdge (pixIdx col row) ((s.chip p).now + sub) k m))) :=
  congrArg Host.Outcome.next (updChip_eq_setChip s p fun c => forAfter c (c.leadingEdge (pixIdx col row) (c.now + sub) k m))

/-- The meaning of a leading edge, up to the fast-OR one-shots that it carries over. -/
theorem exec_pixelLeadingEdge_withPulse {s : State} {p : Port} {c d : Pelnos} {col row : Fin 512} {sub : Fin 4} {k : Fin 34} {m : Fin 8}
    (hc : s.chip p = c) (h : c.leadingEdge (pixIdx col row) (c.now + sub) k m = d) :
    ∃ fp, exec (.pixelLeadingEdge p col row sub k m) s = .next (s.setChip p (d.withPulse fp)) := by
  subst hc h
  obtain ⟨fp, hfp⟩ := forAfter_eq_withPulse (s.chip p) ((s.chip p).leadingEdge (pixIdx col row) ((s.chip p).now + sub) k m)
  exact ⟨fp, by rw [exec_pixelLeadingEdge, hfp]⟩

theorem exec_interpConversionDone (p : Port) (dc quad : Fin 256) (s : State) : exec (.interpConversionDone p dc quad) s =
    .next (s.setChip p ((s.chip p).setQuad (dc * 256 + quad) { (s.chip p).quad (dc * 256 + quad) with interp := .free })) := rfl

theorem dcOf_pixIdx (col row : Fin 512) : dcOf (pixIdx col row) = col / 2 := by
  unfold dcOf pixIdx; omega

section
variable {c : Pelnos} {i t k m : Nat}

/-! ### The start of a hit: fewer than 32 taps lie in the tick latched -/

theorem wrapTick_edgeTick (hk : k < 32) : wrapTick (edgeTick t k) = t % 2 ^ 44 := by
  rw [edgeTick, if_neg (Nat.not_le.mpr hk)]
  rfl

theorem edgeTap_of_lt (hk : k < 32) : edgeTap k = 31 - k := if_neg (Nat.not_le.mpr hk)

theorem startOf_claimed (hk : k < 32) :
    startOf t k m true true = { tick := t % 2 ^ 44, fine := 255 - (8 * k + m), lowres := false, dll := true } := by
  simp [startOf, wrapTick_edgeTick hk, edgeFine, Nat.not_le.mpr hk]

theorem startOf_unclaimed (hk : k < 32) :
    startOf t k m true false = { tick := t % 2 ^ 44, fine := 8 * (31 - k) + 4, lowres := true, dll := true } := by
  simp [startOf, wrapTick_edgeTick hk, edgeTap_of_lt hk]

theorem startOf_unlocked (won : Bool) (hk : k < 32) :
    startOf t k m false won = { tick := t % 2 ^ 44, fine := 0x80, lowres := true, dll := false } := by
  simp [startOf, wrapTick_edgeTick hk]

/-! ### The edge at its pixel -/

/-- An idle statistics unit takes no hit. -/
theorem csuHit_of_idle (hcsu : c.csu = none) (col row : Nat) (h : Meas) : c.csuHit col row h = c := by
  simp [Pelnos.csuHit, hcsu]

theorem leadingEdge_of_not_enabled (hhigh : (c.pixel i).high = false) (hen : c.enabled i = false) :
    c.leadingEdge i t k m = c.setPixel i { c.pixel i with high := true } := by
  simp [Pelnos.leadingEdge, hhigh, hen]

theorem leadingEdge_of_occupied (hhigh : (c.pixel i).high = false) (hen : c.enabled i = true) (hocc : (c.pixel i).occupied = true) :
    c.leadingEdge i t k m = (c.setPixel i { c.pixel i with high := true }).bump (P.DCn_PILEUP.COUNT.at (4 * dcOf i)) 1 := by
  simp [Pelnos.leadingEdge, hhigh, hen, hocc]

/-- R50: the edge claims the free interpolator of its quad. -/
theorem leadingEdge_of_free (hcsu : c.csu = none) (hhigh : (c.pixel i).high = false) (hen : c.enabled i = true)
    (hocc : (c.pixel i).occupied = false) (hfine : c.get P.TDC_CFG.FINE_EN = 1) (hfree : (c.quad (quadOf i)).interp = .free)
    {start : Meas} (hstart : startOf t k m (c.dllLocked (dcOf i)) true = start) :
    c.leadingEdge i t k m = (c.setPixel i { c.pixel i with high := true, hold := true, meas := some start }).setQuad
      (quadOf i) { c.quad (quadOf i) with interp := .pixel } := by
  have hwon : (c.get P.TDC_CFG.FINE_EN == 1 && decide ((c.quad (quadOf i)).interp = .free)) = true := by simp [hfine, hfree]
  have hquiet : (c.get P.TDC_CFG.FINE_EN == 1 && decide ((c.quad (quadOf i)).interp = .cal)) = false := by simp [hfree]
  simp only [Pelnos.leadingEdge, hhigh, hen, hocc, hwon, hquiet, hstart, Bool.false_eq_true, not_true_eq_false, if_true, if_false]
  refine csuHit_of_idle ?_ _ _ _
  exact hcsu

/-- R51: with fine measurement off, or the interpolator taken by another pixel, the edge claims none. -/
theorem leadingEdge_of_unclaimed (hcsu : c.csu = none) (hhigh : (c.pixel i).high = false) (hen : c.enabled i = true)
    (hocc : (c.pixel i).occupied = false) (hq : c.get P.TDC_CFG.FINE_EN = 0 ∨ (c.quad (quadOf i)).interp = .pixel)
    {start : Meas} (hstart : startOf t k m (c.dllLocked (dcOf i)) false = start) :
    c.leadingEdge i t k m = c.setPixel i { c.pixel i with high := true, hold := true, meas := some start } := by
  have hlost : (c.get P.TDC_CFG.FINE_EN == 1 && decide ((c.quad (quadOf i)).interp = .free)) = false := by
    rcases hq with hoff | htaken
    · simp [hoff]
    · simp [htaken]
  have hquiet : (c.get P.TDC_CFG.FINE_EN == 1 && decide ((c.quad (quadOf i)).interp = .cal)) = false := by
    rcases hq with hoff | htaken
    · simp [hoff]
    · simp [htaken]
  simp only [Pelnos.leadingEdge, hhigh, hen, hocc, hlost, hquiet, hstart, Bool.false_eq_true, not_true_eq_false, if_false]
  refine csuHit_of_idle ?_ _ _ _
  exact hcsu

end

/-- Settles O8: each clause is one case of `Pelnos.leadingEdge`, with the start that `startOf` gives in that case. -/
theorem leadingEdges : Obligations.LeadingEdges := by
  unfold Obligations.LeadingEdges
  intro s p c col row sub k m i x q hc hi hx hq hcsu hhigh
  obtain rfl : i = pixIdx col row := hi
  subst hx hq
  rw [← dcOf_pixIdx col row]
  refine ⟨fun hen hocc hdll hk hfine hfree => ?_, fun hen hocc hdll hk _ htaken => ?_, fun hen hocc hdll hk hfine => ?_,
    fun hen hocc => exec_pixelLeadingEdge_withPulse hc (leadingEdge_of_occupied hhigh hen hocc),
    fun hen => exec_pixelLeadingEdge_withPulse hc (leadingEdge_of_not_enabled hhigh hen), fun dc quad => ?_⟩
  · exact exec_pixelLeadingEdge_withPulse hc
      (leadingEdge_of_free hcsu hhigh hen hocc hfine hfree (by rw [hdll, startOf_claimed hk]))
  · exact exec_pixelLeadingEdge_withPulse hc
      (leadingEdge_of_unclaimed hcsu hhigh hen hocc (.inr htaken) (by rw [hdll, startOf_unclaimed hk]))
  · exact exec_pixelLeadingEdge_withPulse hc
      (leadingEdge_of_unclaimed hcsu hhigh hen hocc (.inl hfine) (by rw [hdll, startOf_unlocked false hk]))
  · rw [exec_interpConversionDone, hc]

end Sys2Proof.Machine
end

section
/-!
PROOFS. Trailing edges and the end of a hit (R48, R54 to R58, R61): how a hit is completed, and what the ends of its intervals do.
-/

namespace Sys2Proof.Machine

theorem exec_pixelTrailingEdge (p : Port) (col row : Fin 512) (sub : Fin 4) (k : Fin 34) (s : State) :
    exec (.pixelTrailingEdge p col row sub k) s =
      .next (s.setChip p ((s.chip p).trailingEdge (pixIdx col row) ((s.chip p).now + sub) k)) := rfl
theorem exec_totTimeout (p : Port) (col row : Fin 512) (s : State) :
    exec (.totTimeout p col row) s = .next (s.setChip p ((s.chip p).totTimeout (pixIdx col row))) := rfl
theorem exec_occupationEnd (p : Port) (col row : Fin 512) (s : State) :
    exec (.occupationEnd p col row) s = .next (s.setChip p ((s.chip p).occupationEnd (pixIdx col row))) := rfl

/-! ### The completed hit -/

/-- A free hit register takes the hit. -/
theorem Pixel.complete_of_free {x : Pixel} (hreg : x.reg = none) (h : Hit) : x.complete h = { x with reg := some h } := by
  rw [Pixel.complete, hreg]

theorem hitOf_pixIdx (col row : Fin 512) (tot : Nat) (long : Bool) (m : Meas) (era : Nat) : hitOf (pixIdx col row) tot long m era =
    { col := col, row := row, tick := m.tick, fine := m.fine, tot := tot, short := tot == 0, long := long, orphan := false,
      lowres := m.lowres, era := era } := by
  rw [hitOf, pixIdx_div, pixIdx_mod]

/-- R54: under a locked DLL, ToT counts eighths of a tick and saturates at 511. -/
theorem totOf_of_locked {m : Meas} (hdll : m.dll = true) {t k : Nat} (hk : k < 32) :
    totOf m (wrapTick (edgeTick t k)) (edgeTap k / 4) =
      min (8 * ((t % 2 ^ 44 + 2 ^ 44 - m.tick % 2 ^ 44) % 2 ^ 44) + (31 - k) / 4 - m.fine / 32) 511 := by
  rw [wrapTick_edgeTick hk, edgeTap_of_lt hk, totOf, if_pos hdll, ticksSince, tickMod, Nat.mod_mod]

section
variable {c : Pelnos} {i t k : Nat}

/-! ### The fall -/

theorem trailingEdge_of_meas (hhigh : (c.pixel i).high = true) {m : Meas} (hmeas : (c.pixel i).meas = some m) {tot : Nat}
    (htot : totOf m (wrapTick (edgeTick t k)) (edgeTap k / 4) = tot) : c.trailingEdge i t k =
      c.setPixel i ({ c.pixel i with high := false, meas := none }.complete (hitOf i tot (tot == 511) m c.era)) := by
  simp [Pelnos.trailingEdge, hhigh, hmeas, htot]

/-- R55: the fall after a timeout ends the occupation. -/
theorem trailingEdge_of_tail (hhigh : (c.pixel i).high = true) (hmeas : (c.pixel i).meas = none) (htail : (c.pixel i).tail = true) :
    c.trailingEdge i t k = c.setPixel i { c.pixel i with high := false, tail := false } := by
  simp [Pelnos.trailingEdge, hhigh, hmeas, htail]

theorem Pixel.tail_of_not_occupied {x : Pixel} (hocc : x.occupied = false) : x.tail = false := by
  simp only [Pixel.occupied, Bool.or_eq_false_iff] at hocc
  exact hocc.1.2

/-- R57: the fall of an enabled pixel that holds no start gives an ORPHAN. -/
theorem trailingEdge_of_no_start (hhigh : (c.pixel i).high = true) (hmeas : (c.pixel i).meas = none)
    (hocc : (c.pixel i).occupied = false) (hen : c.enabled i = true) (hk : k < 32) : c.trailingEdge i t k =
      c.setPixel i ({ c.pixel i with high := false }.complete
        { col := i / 512, row := i % 512, tick := t % 2 ^ 44, fine := 32 * ((31 - k) / 4) + 16, tot := 0, short := false, long := false,
          orphan := true, lowres := false, era := c.era }) := by
  simp [Pelnos.trailingEdge, hhigh, hmeas, Pixel.tail_of_not_occupied hocc, hocc, hen, wrapTick_edgeTick hk, edgeTap_of_lt hk]

/-! ### The ends of the intervals -/

theorem totTimeout_of_meas {m : Meas} (hmeas : (c.pixel i).meas = some m) : c.totTimeout i =
    c.setPixel i ({ c.pixel i with meas := none, tail := true }.complete (hitOf i 511 true m c.era)) := by
  simp [Pelnos.totTimeout, hmeas]

theorem occupationEnd_of_waiting {h : Hit} (hreg : (c.pixel i).reg = none) (hdone : (c.pixel i).done = some h) :
    c.occupationEnd i = c.setPixel i { c.pixel i with hold := false, reg := some h, done := none } := by
  simp [Pelnos.occupationEnd, hreg, hdone]

theorem occupationEnd_of_full {h : Hit} (hreg : (c.pixel i).reg = some h) :
    c.occupationEnd i = c.setPixel i { c.pixel i with hold := false } := by
  simp [Pelnos.occupationEnd, hreg]

end

/-- Settles O9: each clause is one case of the fall, the timeout or the end of the occupation; a free hit register takes the hit by
`Pixel.complete_of_free`. -/
theorem trailingEdges : Obligations.TrailingEdges := by
  unfold Obligations.TrailingEdges
  intro s p c col row sub k i x hc hi hx
  obtain rfl : i = pixIdx col row := hi
  subst hx
  refine ⟨fun m tot hhigh hmeas hreg hdll hk htot => ?_, fun m hhigh hmeas => ?_, fun hhigh hmeas htail => ?_,
    fun hhigh hmeas hocc hen hreg hk => ?_, fun m hmeas => ?_,
    fun hhigh hen n => exec_pixelLeadingEdge_withPulse hc (leadingEdge_of_not_enabled hhigh hen),
    fun h hreg hdone => ?_, fun h hreg => ?_⟩
  · rw [exec_pixelTrailingEdge, hc, trailingEdge_of_meas hhigh hmeas ((totOf_of_locked hdll hk).trans htot.symm),
      Pixel.complete_of_free, hitOf_pixIdx]
    exact hreg
  · rw [exec_pixelTrailingEdge, hc, trailingEdge_of_meas hhigh hmeas rfl]
    exact ⟨_, rfl, rfl, beq_iff_eq, beq_iff_eq, rfl, rfl, rfl⟩
  · rw [exec_pixelTrailingEdge, hc, trailingEdge_of_tail hhigh hmeas htail]
  · rw [exec_pixelTrailingEdge, hc, trailingEdge_of_no_start hhigh hmeas hocc hen hk, Pixel.complete_of_free, pixIdx_div, pixIdx_mod]
    exact hreg
  · rw [exec_totTimeout, hc, totTimeout_of_meas hmeas, hitOf_pixIdx]
    rfl
  · rw [exec_occupationEnd, hc, occupationEnd_of_waiting hreg hdone]
  · rw [exec_occupationEnd, hc, occupationEnd_of_full hreg]

end Sys2Proof.Machine
end

section
/-!
PROOFS. Delay-locked loops and background calibration (R48, R49, R63 to R66).
-/

namespace Sys2Proof.Machine

theorem exec_dllLock (p : Port) (dc : Fin 256) (ctrl : Byte) (s : State) :
    exec (.dllLock p dc ctrl) s = .next (s.setChip p ((s.chip p).dllLock dc ctrl.toNat)) := rfl
theorem exec_dllLockLost (p : Port) (dc : Fin 256) (s : State) :
    exec (.dllLockLost p dc) s = .next (s.setChip p ((s.chip p).dllLost dc)) := rfl
theorem exec_calPeriodStart (p : Port) (s : State) : exec (.calPeriodStart p) s = .next (s.setChip p (s.chip p).calStart) := rfl
theorem exec_calConversion (p : Port) (dc quad : Fin 256) (code : Fin 64) (s : State) :
    exec (.calConversion p dc quad code) s = .next (s.setChip p ((s.chip p).calConvert (dc * 256 + quad) code)) := rfl
theorem exec_calReset (p : Port) (s : State) : exec (.calReset p) s = .next (s.setChip p (s.chip p).calReset) := rfl

/-! ### Trims (R64) -/

/-- GAIN follows the difference of a pair around 48, OFFSET its sum around 64. -/
theorem Quad.update_eq (q : Quad) (a b : Nat) : q.update a b = { q with
    gain := if 49 < (b : Int) - a then q.gain - 1 else if (b : Int) - a < 47 then min 31 (q.gain + 1) else q.gain,
    offset := if 66 < a + b then q.offset - 1 else if a + b < 62 then min 31 (q.offset + 1) else q.offset,
    gainHist := (q.gain :: q.gainHist).take 8, offsetHist := (q.offset :: q.offsetHist).take 8 } := by
  have hhi : (49 < (b : Int) - a) = (a + 49 < b) := by rw [eq_iff_iff]; omega
  have hlo : ((b : Int) - a < 47) = (b < a + 47) := by rw [eq_iff_iff]; omega
  simp only [Quad.update, trimStep, hist8, decide_eq_true_eq, hhi, hlo]

section
variable {c : Pelnos}

/-! ### DLLs -/

theorem dllLock_of_ready {n : Nat} (hpll : c.get P.PLL_STAT.LOCK = 1) (hon : c.get (P.DCn_CFG.DC_OFF.at (4 * n)) = 0) (ctrl : Nat) :
    c.dllLock n ctrl = (c.put (P.DCn_DLL.LOCK.at (4 * n)) 1).put (P.DCn_DLL.CTRL.at (4 * n)) ctrl := if_pos ⟨hpll, hon⟩

theorem dllLost_of_locked {n : Nat} (hlock : c.get (P.DCn_DLL.LOCK.at (4 * n)) = 1) :
    c.dllLost n = (c.put (P.DCn_DLL.LOCK.at (4 * n)) 0).put (P.DCn_DLL.LOCK_LOST.at (4 * n)) 1 := if_pos (beq_iff_eq.mpr hlock)

/-! ### Periods and conversions -/

/-- Quads of which none is listed have waited since the first period. -/
theorem maxAge_of_no_quads (hq : c.quads = []) : c.maxAge = c.calPeriod := by
  simp [Pelnos.maxAge, hq]

theorem calStart_of_no_quads (hpll : c.get P.PLL_STAT.LOCK = 1) (hq : c.quads = []) :
    c.calStart = if c.calPeriod < 10 then { c with calPeriod := c.calPeriod + 1 }
      else { c with calPeriod := c.calPeriod + 1 }.put P.CAL_STAT2.LAG 1 := by
  have hage : ({ c with calPeriod := c.calPeriod + 1 } : Pelnos).maxAge = c.calPeriod + 1 := maxAge_of_no_quads hq
  simp only [Pelnos.calStart, if_pos hpll, hage]
  by_cases hlag : c.calPeriod < 10
  · rw [if_pos hlag, if_neg (by omega)]
  · rw [if_neg hlag, if_pos (by omega)]

/-- R64: quad `k` may take a conversion in this period. -/
structure CalReady (c : Pelnos) (k : Nat) : Prop where
  pll : c.get P.PLL_STAT.LOCK = 1
  calEn : c.get P.TDC_CFG.CAL_EN = 1
  fineEn : c.get P.TDC_CFG.FINE_EN = 1
  due : (c.quad k).last < c.calPeriod
  free : (c.quad k).interp = .free
  quiet : c.quadQuiet k = true
  idle : c.csu = none

theorem csuHolds_of_idle (hcsu : c.csu = none) (k : Nat) : c.csuHolds k = false := by
  rw [Pelnos.csuHolds, hcsu]

theorem CalReady.guard {k : Nat} (h : CalReady c k) : c.get P.PLL_STAT.LOCK = 1 ∧ c.get P.TDC_CFG.CAL_EN = 1 ∧
    c.get P.TDC_CFG.FINE_EN = 1 ∧ (c.quad k).last < c.calPeriod ∧ (c.quad k).interp = .free ∧ c.quadQuiet k ∧ ¬ c.csuHolds k :=
  ⟨h.pll, h.calEn, h.fineEn, h.due, h.free, h.quiet, by simp [csuHolds_of_idle h.idle k]⟩

theorem calConvert_of_odd {k : Nat} (h : CalReady c k) (hodd : c.calPeriod % 2 = 1) (code : Nat) :
    c.calConvert k code = c.setQuad k { c.quad k with
      interp := .cal, last := c.calPeriod, convs := (c.quad k).convs + 1, odd := some code } := by
  simp only [Pelnos.calConvert, if_pos h.guard, if_pos hodd]

theorem calConvert_of_even {k : Nat} (h : CalReady c k) (heven : c.calPeriod % 2 = 0) {a : Nat} (ha : (c.quad k).odd = some a)
    (code : Nat) : c.calConvert k code = c.setQuad k
      ({ c.quad k with interp := .cal, last := c.calPeriod, convs := (c.quad k).convs + 1 }.update a code) := by
  have hnodd : ¬ c.calPeriod % 2 = 1 := by omega
  simp only [Pelnos.calConvert, if_pos h.guard, if_neg hnodd, ha]

/-- R66: the reset leaves no trim and no history at any quad, listed or not. -/
theorem quad_calReset (hwf : Tab.wf {} c.quads = true) (k : Nat) : c.calReset.quad k =
    { c.quad k with gain := 16, offset := 16, convs := 0, odd := none, gainHist := [], offsetHist := [] } :=
  Tab.get_mapVals (f := fun _ (q : Quad) =>
    { q with gain := 16, offset := 16, convs := 0, odd := none, gainHist := [], offsetHist := [] }) (fun _ => rfl) hwf k

end

/-- Settles O12: each clause is one case of a DLL's or a quad's operation; the even period's trims are those of `Quad.update_eq`. -/
theorem delayLinesAndCalibration : Obligations.DelayLinesAndCalibration := by
  unfold Obligations.DelayLinesAndCalibration
  intro s p c hc
  refine ⟨fun dc ctrl hpll hon => ?_, fun dc hlock => ?_, fun hpll hquads => ?_,
    fun dc quad code k q hk hq hpll hcal hfine hdue hfree hquiet hcsu => ?_,
    c.calReset.quads, ?_, quad_calReset⟩
  · rw [exec_dllLock, hc, dllLock_of_ready hpll hon]
  · rw [exec_dllLockLost, hc, dllLost_of_locked hlock]
  · rw [exec_calPeriodStart, hc, calStart_of_no_quads hpll hquads]
  · subst hk hq
    have hready : CalReady c (dc * 256 + quad) := ⟨hpll, hcal, hfine, hdue, hfree, hquiet, hcsu⟩
    refine ⟨fun hodd => ?_, fun a heven ha => ?_⟩
    · rw [exec_calConversion, hc, calConvert_of_odd hready hodd]
    · rw [exec_calConversion, hc, calConvert_of_even hready heven ha, Quad.update_eq]
  · rw [exec_calReset, hc]
    rfl

end Sys2Proof.Machine
end

section
/-!
PROOFS. The calibration statistics unit (R67 to R70): GO and STOP, the run, its records, and the slots.
-/

namespace Sys2Proof.Machine

theorem exec_csuGo (p : Port) (s : State) : exec (.csuGo p) s = .next (s.setChip p ((s.chip p).csuCtl true false)) := rfl
theorem exec_csuStop (p : Port) (s : State) : exec (.csuStop p) s = .next (s.setChip p ((s.chip p).csuCtl false true)) := rfl
theorem exec_csuRunStart (p : Port) (s : State) : exec (.csuRunStart p) s = .next (s.setChip p (s.chip p).csuStart) := rfl
theorem exec_csuPulse_of_some {p : Port} {s : State} {d : Pelnos} (h : (s.chip p).csuFire = some d) :
    exec (.csuPulse p) s = .next ((s.emit (.inject p (s.chip p).samp.charge)).setChip p d) := by
  show execCsuPulse p s = _
  rw [execCsuPulse, h]
  rfl
theorem exec_csuRecordsEmit (p : Port) (s : State) : exec (.csuRecordsEmit p) s = .next (s.setChip p (s.chip p).csuEmit) := rfl
theorem exec_csuRowWrite (p : Port) (row : Half) (s : State) :
    exec (.csuRowWrite p row) s = .next (s.setChip p ((s.chip p).csuRow row.toNat)) := rfl

section
variable {c : Pelnos} {r : CsuRun}

/-! ### GO and STOP (R69) -/

theorem csuCtl_go_of_idle (hcsu : c.csu = none) (hinj : c.inj = none) (hslot : Tab.any (fun _ x => x.valid) c.slots = true) :
    c.csuCtl true false = { c with csu := some {
      started := false, stop := false, issued := 0, total := max 15 (c.get P.CSU_N.NM1) + 1, pulse := none, pulsed := false,
      ended := false } } := by
  simp [Pelnos.csuCtl, Pelnos.csuBusy, Pelnos.injBusy, hcsu, hinj, hslot]

theorem csuCtl_go_of_injecting (hinj : c.inj ≠ none) : c.csuCtl true false = c.put P.CSU_CTRL.GO_LOST 1 := by
  have hbusy : c.injBusy = true := Option.isSome_iff_ne_none.mpr hinj
  simp [Pelnos.csuCtl, hbusy]

theorem csuCtl_stop (go : Bool) (hcsu : c.csu = some r) : c.csuCtl go true = { c with csu := some { r with stop := true } } := by
  simp [Pelnos.csuCtl, hcsu]

/-! ### The run (R67) -/

theorem csuStart_of_pending (hcsu : c.csu = some r) (hstarted : r.started = false) (hstop : r.stop = false) :
    c.csuStart = { c with csu := some { r with started := true }, slots := c.csuStart.slots } := by
  simp [Pelnos.csuStart, hcsu, hstarted, hstop]

/-- The start of a run clears the statistics of every slot and keeps its pixel. -/
theorem slot_csuStart (hcsu : c.csu = some r) (hstarted : r.started = false) (hstop : r.stop = false)
    (hwf : Tab.wf {} c.slots = true) (k : Nat) :
    c.csuStart.slot k = { col := (c.slot k).col, row := (c.slot k).row, valid := (c.slot k).valid } := by
  simp only [Pelnos.csuStart, hcsu, hstarted, hstop, Bool.false_eq_true, or_self, if_false]
  exact Tab.get_mapVals (f := fun _ (x : CsuSlot) => { col := x.col, row := x.row, valid := x.valid }) (fun _ => rfl) hwf k

theorem csuFire_of_ready (hcsu : c.csu = some r) (hstarted : r.started = true) (hended : r.ended = false) (hpulsed : r.pulsed = false)
    (hleft : r.issued < r.total) (hlock : c.locked = true) : ∃ fp, c.csuFire = some ({ c with
      csu := some { r with issued := r.issued + 1, pulse := some (c.frame * 4096 + c.samp.time), pulsed := true },
      frames := Tab.upd {} c.frames c.frame (fun b => { b with cal := true }), calBlank := true }.withPulse fp) := by
  obtain ⟨fp, hfp⟩ := pulse_eq_withPulse { c with
    csu := some { r with issued := r.issued + 1, pulse := some (c.frame * 4096 + c.samp.time), pulsed := true } }
  have hready : r.started = true ∧ ¬ r.ended = true ∧ ¬ r.pulsed = true ∧ r.issued < r.total ∧ c.locked = true :=
    ⟨hstarted, by simp [hended], by simp [hpulsed], hleft, hlock⟩
  refine ⟨fp, ?_⟩
  simp only [Pelnos.csuFire, hcsu]
  rw [if_pos hready, hfp]
  rfl

/-! ### The records (R70) -/

/-- The valid slots, in slot order. -/
def Pelnos.validSlots (c : Pelnos) : List Nat := (List.range 64).filter fun k => (c.slot k).valid

theorem csuEmit_of_issued (hcsu : c.csu = some r) (hissued : r.issued = r.total) : c.csuEmit =
    { c.validSlots.foldl (fun (c : Pelnos) k => c.periph (calStatRec (c.slot k) r.total r.stop) 8) c with
      csu := none }.put P.CSU_CTRL.DONE 1 := by
  have hover : r.over = true := by simp [CsuRun.over, hissued]
  simp only [Pelnos.csuEmit, hcsu]
  rw [if_pos hover, hissued]
  rfl

theorem validSlots_of_no_slots (hslots : c.slots = []) : c.validSlots = [] :=
  List.filter_eq_nil_iff.mpr fun k _ => by simp [Pelnos.slot, hslots]

theorem validSlots_of_only_zero (hothers : ∀ j, j ≠ 0 → (c.slot j).valid = false) (hzero : (c.slot 0).valid = true) :
    c.validSlots = [0] := by
  have hvalid : (fun k => (c.slot k).valid) = fun k => k == 0 := by
    funext k
    by_cases hk : k = 0
    · simp [hk, hzero]
    · simp [hk, hothers k hk]
  rw [Pelnos.validSlots, hvalid]
  rfl

/-! ### The slots (R69) -/

theorem csuRow_of_idle (hcsu : c.csu = none) (w : Nat) : c.csuRow w =
    { c.put P.CSU_SLOT.SLOT ((c.get P.CSU_SLOT.SLOT + 1) % 64) with
      slots := Tab.set {} c.slots (c.get P.CSU_SLOT.SLOT) { c.slot (c.get P.CSU_SLOT.SLOT) with row := w % 512 } } := by
  rw [Pelnos.csuRow, Pelnos.csuBusy, hcsu]
  rfl

end

/-- Settles O13: each clause is one case of an operation of the unit; the records are those of the list `Pelnos.validSlots`. -/
theorem calibrationStatistics : Obligations.CalibrationStatistics := by
  unfold Obligations.CalibrationStatistics
  intro s p c hc
  refine ⟨fun hcsu hinj hslot => ?_, fun hinj => ?_, fun r hcsu => ?_, fun r hcsu hstarted hstop => ?_,
    fun r hcsu hstarted hended hpulsed hleft hlock => ?_, fun r hcsu hissued hslots => ?_, fun r hcsu hissued hothers hzero => ?_,
    fun row hcsu _ => ?_⟩
  · rw [exec_csuGo, hc, csuCtl_go_of_idle hcsu hinj hslot]
  · rw [exec_csuGo, hc, csuCtl_go_of_injecting hinj]
  · rw [exec_csuStop, hc, csuCtl_stop false hcsu]
  · refine ⟨c.csuStart.slots, ?_, slot_csuStart hcsu hstarted hstop⟩
    rw [exec_csuRunStart, hc, ← csuStart_of_pending hcsu hstarted hstop]
  · obtain ⟨fp, hfp⟩ := csuFire_of_ready hcsu hstarted hended hpulsed hleft hlock
    rw [← hc] at hfp
    exact ⟨fp, by rw [exec_csuPulse_of_some hfp, hc]⟩
  · rw [exec_csuRecordsEmit, hc, csuEmit_of_issued hcsu hissued, validSlots_of_no_slots hslots]
    rfl
  · rw [exec_csuRecordsEmit, hc, csuEmit_of_issued hcsu hissued, validSlots_of_only_zero hothers hzero]
    rfl
  · rw [exec_csuRowWrite, hc, csuRow_of_idle hcsu]

end Sys2Proof.Machine
end

section
/-!
PROOFS. What the hit pipeline shares (R72, R76, R83): its queues and builders under an update, and the frames that are still open.
-/

namespace Sys2Proof.Machine

section
variable (c : Pelnos) (n g : Nat)

@[simp] theorem dcol_setDcol (d : DCol) : (c.setDcol n d).dcol n = d := Tab.get_set_same _ _ _ _
@[simp] theorem setDcol_setDcol (d e : DCol) : (c.setDcol n d).setDcol n e = c.setDcol n e :=
  congrArg (fun t => { c with dcols := t }) (Tab.set_set _ _ _ _ _)
theorem dcol_with_frames (t : Tab FrameBuf) : Pelnos.dcol { c with frames := t } n = c.dcol n := rfl
theorem setDcol_with_frames (t : Tab FrameBuf) (d : DCol) :
    Pelnos.setDcol { c with frames := t } n d = { c.setDcol n d with frames := t } :=
  rfl
@[simp] theorem builder_setBuilder (b : Builder) : (c.setBuilder g b).builder g = b := Tab.get_set_same _ _ _ _
@[simp] theorem setBuilder_setBuilder (a b : Builder) : (c.setBuilder g a).setBuilder g b = c.setBuilder g b :=
  congrArg (fun t => { c with builders := t }) (Tab.set_set _ _ _ _ _)

end

theorem framesSince_add {f d : Nat} (h : f + d < 2 ^ 32) : framesSince (f + d) f = d := by
  unfold framesSince; omega

/-- A frame of the present count that is the oldest open one is open. -/
theorem isClosed_nextClose {c : Pelnos} {f e : Nat} (hera : e = c.era) (hframe : f = c.nextClose) (hlt : c.nextClose < 2 ^ 32) :
    c.isClosed f e = false := by
  have hzero : framesSince c.nextClose c.nextClose = 0 := framesSince_add (d := 0) hlt
  simp [Pelnos.isClosed, hera, hframe, hzero]

end Sys2Proof.Machine
end

section
/-!
PROOFS. Column drain and end-of-column queues (R72, R74, R81): the hit register that the drain serves, and where its hit goes.
-/

namespace Sys2Proof.Machine

theorem exec_columnDrainMove (p : Port) (n : Fin 256) (s : State) :
    exec (.columnDrainMove p n) s = .next (s.setChip p ((s.chip p).drain n)) := rfl
theorem exec_eocQueuePtrReset (p : Port) (n : Fin 256) (s : State) :
    exec (.eocQueuePtrReset p n) s = .next (s.setChip p ((s.chip p).eocReset n)) := rfl

section
variable {c : Pelnos} {n i : Nat} {x : Pixel} {d : DCol} {h : Hit}

/-! ### The hit register served (R72) -/

theorem pixel_of_sole (hpix : c.pixels = [(i, x)]) : c.pixel i = x := by
  simp [Pelnos.pixel, hpix, Tab.get]

theorem nextReg_of_sole (hpix : c.pixels = [(i, x)]) (hreg : x.reg = some h) (hcol : i / 1024 = n) : c.nextReg n = some (i, h) := by
  simp [Pelnos.nextReg, hpix, hreg, dcOf, hcol]

/-- The hit in register `i` of double-column `n` has left it: a waiting hit takes its place. -/
def Pelnos.takeReg (c : Pelnos) (n i : Nat) : Pelnos :=
  (c.setPixel i { c.pixel i with reg := (c.pixel i).done, done := none }).setDcol n { c.dcol n with served := i % 1024 }

theorem drain_of_next (hnext : c.nextReg n = some (i, h)) : c.drain n = ((c.takeReg n i).countPrim i h).eocPush n h := by
  rw [Pelnos.drain, hnext]
  rfl

theorem dcol_takeReg (hd : c.dcol n = d) : (c.takeReg n i).dcol n = { d with served := i % 1024 } := by
  rw [Pelnos.takeReg, dcol_setDcol, hd]

theorem setDcol_takeReg_of_sole (hpix : c.pixels = [(i, x)]) (e : DCol) :
    (c.takeReg n i).setDcol n e = (c.setPixel i { x with reg := x.done, done := none }).setDcol n e := by
  rw [Pelnos.takeReg, setDcol_setDcol, pixel_of_sole hpix]

/-! ### The PRIMITIVE of its region (R81) -/

theorem countPrim_of_orphan (horphan : h.orphan = true) : c.countPrim i h = c := if_pos (.inl horphan)

/-- The first hit of a region in the oldest open frame gives the PRIMITIVE its count of 1 and its FIRST. -/
theorem countPrim_of_first {b : FrameBuf} (horphan : h.orphan = false) (hera : h.era = c.era) (hframe : h.tick / 4096 = c.nextClose)
    (hlt : c.nextClose < 2 ^ 32) (hb : Tab.get {} c.frames c.nextClose = b) (hprims : b.prims = []) : c.countPrim i h =
      { c with frames := Tab.set {} c.frames c.nextClose { b with prims := Tab.set (0, 0) [] (regionOf i) (1, h.tick % 4096) } } := by
  have hopen : ¬ (h.orphan = true ∨ c.isClosed (h.tick / 4096) h.era = true) := by
    simp [horphan, isClosed_nextClose hera hframe hlt]
  rw [Pelnos.countPrim, if_neg hopen, hframe, Pelnos.updFrame, Tab.upd, hb, hprims]
  rfl

/-! ### The queue (R74) -/

theorem eocPush_of_room (hd : c.dcol n = d) (hpend : d.pend = none) (hroom : d.queue.length < 64) :
    c.eocPush n h = c.setDcol n { d with queue := d.queue ++ [.hit h] } := by
  simp [Pelnos.eocPush, hd, hpend, hroom]

theorem eocPush_of_full (hd : c.dcol n = d) (hpend : d.pend = none) (hfull : d.queue.length = 64) : c.eocPush n h =
    (c.setDcol n { d with pend := some (h.tick, 1, h.era) }).bump (P.DCn_DROP.COUNT.at (4 * n)) 1 := by
  simp [Pelnos.eocPush, hd, hpend, hfull]

theorem eocPush_of_pending {t k e : Nat} (hd : c.dcol n = d) (hpend : d.pend = some (t, k, e)) (hk : k < 65535) : c.eocPush n h =
    (c.setDcol n { d with pend := some (t, k + 1, e) }).bump (P.DCn_DROP.COUNT.at (4 * n)) 1 := by
  have hsat : sat 16 (k + 1) = k + 1 := Nat.min_eq_left hk
  simp [Pelnos.eocPush, hd, hpend, hsat]

end

/-- Settles O14: the drain serves the one occupied register by `nextReg_of_sole`; the clauses are the cases of the count into the
PRIMITIVE and of the push into the queue. -/
theorem columnDrain : Obligations.ColumnDrain := by
  unfold Obligations.ColumnDrain
  intro s p c n d hc hd
  refine ⟨fun i x h hpix hreg hcol horphan => ?_, fun i x h b hpix hreg hcol horphan hera hframe hlt hb hprims hpend hqueue => ?_, ?_⟩
  · have hdrain := drain_of_next (nextReg_of_sole hpix hreg hcol)
    rw [countPrim_of_orphan horphan] at hdrain
    rw [exec_columnDrainMove, hc, hdrain]
    refine ⟨fun hpend hroom => ?_, fun hpend hfull => ?_, fun t k e hpend hk => ?_⟩
    · rw [eocPush_of_room (dcol_takeReg hd) hpend hroom, setDcol_takeReg_of_sole hpix]
    · rw [eocPush_of_full (dcol_takeReg hd) hpend hfull, setDcol_takeReg_of_sole hpix]
    · rw [eocPush_of_pending (dcol_takeReg hd) hpend hk, setDcol_takeReg_of_sole hpix]
  · have hroom : d.queue.length < 64 := by simp [hqueue]
    have hprim := countPrim_of_first (c := c.takeReg n i) (i := i) horphan hera hframe hlt hb hprims
    rw [exec_columnDrainMove, hc, drain_of_next (nextReg_of_sole hpix hreg hcol), hprim,
      eocPush_of_room ((dcol_with_frames _ _ _).trans (dcol_takeReg hd)) hpend hroom, setDcol_with_frames,
      setDcol_takeReg_of_sole hpix, hqueue]
    rfl
  · rw [exec_eocQueuePtrReset, hc, Pelnos.eocReset, hd]
    rfl

end Sys2Proof.Machine
end

section
/-!
PROOFS. Cluster builders (R74, R76 to R78, R85): what a pop takes from its queue, where a hit is placed, and how a record reaches its frame.
-/

namespace Sys2Proof.Machine

theorem exec_builderPop (p : Port) (g : Fin 16) (s : State) :
    exec (.builderPop p g) s = .next (s.setChip p ((s.chip p).builderPop g)) := rfl
theorem exec_clusterClose (p : Port) (g : Fin 16) (s : State) :
    exec (.clusterClose p g) s = .next (s.setChip p ((s.chip p).clusterClose g)) :=
  congrArg Host.Outcome.next (updChip_eq_setChip s p fun c => c.clusterClose g)
theorem exec_builderStallEnd (p : Port) (g : Fin 16) (s : State) : exec (.builderStallEnd p g) s =
    .next (s.setChip p ((s.chip p).unstall g ((s.chip p).builder g).stalled)) := rfl

theorem ticksSince_self (t : Nat) : ticksSince t t = 0 := by
  rw [ticksSince, Nat.add_sub_cancel_left, Nat.mod_self]

section
variable {c : Pelnos} {g j : Nat} {b : Builder} {k : Cluster} {h a : Hit}

/-! ### Records (R78, R85) -/

/-- A record whose frame is open and for which the builders' share has room reaches its frame. -/
theorem assemble_of_room (hb : c.builder g = b) (hstalled : b.stalled = []) {r : PRec} {n : Nat} (hsize : 2 * r.hws.length = n)
    (hopen : c.isClosed r.frame r.era = false) (hroom : c.storeBytes + n ≤ builderShare) : c.assemble g r = c.addRec r.frame r := by
  have hfits : ¬ ((c.builder g).stalled ≠ [] ∨ builderShare < c.storeBytes + 2 * r.hws.length) := by
    simpa [hb, hstalled, hsize] using hroom
  rw [Pelnos.assemble, if_neg (by simp [hopen]), if_neg hfits]

theorem toRec_of_no_others (hothers : k.others = []) : k.toRec =
    { hws := halves (headRec k.anchor 0) 4, frame := k.anchor.tick / 4096, hits := 1, src := k.anchor.col / 2,
      coarse := k.anchor.tick % 4096, shaving := false, era := k.anchor.era } := by
  rw [Cluster.toRec, hothers]
  rfl

theorem loneRec_eq (h : Hit) : loneRec h =
    { hws := halves (headRec h 0) 4, frame := h.tick / 4096, hits := 1, src := h.col / 2, coarse := h.tick % 4096, shaving := false,
      era := h.era } := toRec_of_no_others rfl

/-! ### Clusters (R77) -/

theorem binDiff_of_same_time (htick : h.tick = a.tick) (hfine : h.fine = a.fine) : binDiff h a = 0 := by
  simp [binDiff, htick, hfine, ticksSince_self]

/-- A cluster is the best of one that satisfies `q`. -/
theorem bestCluster_singleton {q : Cluster → Bool} (hq : q k = true) : bestCluster q [k] = some 0 := by
  simp [bestCluster, hq]

theorem nearHit_of_row_succ (hcol : h.col = a.col) (hrow : h.row = a.row + 1) : nearHit h a = true := by
  simp only [nearHit, hcol, hrow, Bool.and_eq_true, decide_eq_true_eq]
  omega

/-- A hit fits a single anchor of its time in the row below. -/
theorem fits_of_beside (hothers : k.others = []) (htick : h.tick = k.anchor.tick) (hfine : h.fine = k.anchor.fine)
    (hcol : h.col = k.anchor.col) (hrow : h.row = k.anchor.row + 1) : k.fits h = true := by
  simp [Cluster.fits, fitsHit, nearHit_of_row_succ hcol hrow, binDiff_of_same_time htick hfine, Cluster.pixels, hothers]

/-- On equal times the anchor with the lower row stays the anchor. -/
theorem join_of_above (hcol : h.col = k.anchor.col) (hrow : h.row = k.anchor.row + 1) (htick : h.tick = k.anchor.tick)
    (hfine : h.fine = k.anchor.fine) : k.join h = { k with others := k.others ++ [h] } := by
  have hafter : anchorBefore h k.anchor = false := by
    simp [anchorBefore, binDiff_of_same_time htick hfine, hcol, hrow]
  simp [Cluster.join, hafter]

/-! ### The place of a hit -/

theorem place_of_lone (hlone : h.orphan = true ∨ c.samp.bypass = true) : c.place g h = c.assemble g (loneRec h) := if_pos hlone

theorem place_of_no_cluster (hb : c.builder g = b) (horphan : h.orphan = false) (hbypass : c.samp.bypass = false)
    (hnone : b.clusters = []) : c.place g h = c.setBuilder g { b with clusters := [⟨h, [], c.now, c.samp.hold⟩] } := by
  simp [Pelnos.place, horphan, hbypass, hb, hnone, bestCluster]

theorem place_of_beside (hb : c.builder g = b) (horphan : h.orphan = false) (hbypass : c.samp.bypass = false)
    (hone : b.clusters = [k]) (hothers : k.others = []) (htick : h.tick = k.anchor.tick) (hfine : h.fine = k.anchor.fine)
    (hcol : h.col = k.anchor.col) (hrow : h.row = k.anchor.row + 1) :
    c.place g h = c.setBuilder g { b with clusters := [{ k with others := [h] }] } := by
  have hbest := bestCluster_singleton (q := fun k => k.fits h) (fits_of_beside hothers htick hfine hcol hrow)
  simp [Pelnos.place, horphan, hbypass, hb, hone, hbest, join_of_above hcol hrow htick hfine, hothers, Pelnos.putCluster,
    Cluster.pixels]

/-! ### The pop (R74, R76) -/

/-- The queue after its first item has left: a pending marker takes the slot that the pop frees. -/
def DCol.popped (d : DCol) (rest : List QItem) : DCol :=
  match d.pend with
  | some (t, n, e) => { d with queue := rest ++ [.mark t n e], pend := none }
  | none => { d with queue := rest }

theorem DCol.popped_of_no_marker {d : DCol} (hpend : d.pend = none) (rest : List QItem) : d.popped rest = { d with queue := rest } := by
  rw [DCol.popped, hpend]

/-- Builder `g` has taken the first item of queue `j` of its group. -/
def Pelnos.popFrom (c : Pelnos) (g j : Nat) (rest : List QItem) : Pelnos :=
  (c.setDcol (16 * g + j) ((c.dcol (16 * g + j)).popped rest)).setBuilder g { c.builder g with served := j }

theorem builderPop_of_hit {rest : List QItem} (hstalled : (c.builder g).stalled = []) (hnext : c.nextQueue g = some j)
    (hqueue : (c.dcol (16 * g + j)).queue = .hit h :: rest) : c.builderPop g = (c.popFrom g j rest).place g h := by
  rw [Pelnos.builderPop, if_neg (not_not.mpr hstalled), hnext]
  simp only [hqueue]
  rfl

theorem builderPop_of_mark {t n e : Nat} {rest : List QItem} (hstalled : (c.builder g).stalled = []) (hnext : c.nextQueue g = some j)
    (hqueue : (c.dcol (16 * g + j)).queue = .mark t n e :: rest) :
    c.builderPop g = (c.popFrom g j rest).assemble g (markRec (16 * g + j) t n e) := by
  rw [Pelnos.builderPop, if_neg (not_not.mpr hstalled), hnext]
  simp only [hqueue]
  rfl

theorem builderPop_of_stalled (hstalled : (c.builder g).stalled ≠ []) : c.builderPop g = c := if_pos hstalled

theorem builder_popFrom (hb : c.builder g = b) (rest : List QItem) : (c.popFrom g j rest).builder g = { b with served := j } := by
  rw [Pelnos.popFrom, builder_setBuilder, hb]

theorem setBuilder_popFrom {d : DCol} (hd : c.dcol (16 * g + j) = d) (hpend : d.pend = none) (rest : List QItem) (e : Builder) :
    (c.popFrom g j rest).setBuilder g e = (c.setDcol (16 * g + j) { d with queue := rest }).setBuilder g e := by
  rw [Pelnos.popFrom, setBuilder_setBuilder, hd, DCol.popped_of_no_marker hpend]

/-! ### HOLD and stall (R78, R85) -/

theorem clusterClose_of_sole (hb : c.builder g = b) (hone : b.clusters = [k]) (hhold : k.hold ≤ ticksSince c.now k.opened) :
    c.clusterClose g = (c.setBuilder g { b with clusters := [] }).assemble g k.toRec := by
  simp [Pelnos.clusterClose, Pelnos.closeAt, hb, hone, hhold]

theorem unstall_of_room {r : PRec} (hopen : c.isClosed r.frame r.era = false)
    (hroom : c.storeBytes + 2 * r.hws.length ≤ builderShare) (rs : List PRec) :
    c.unstall g (r :: rs) = (c.addRec r.frame r).unstall g rs := by
  rw [Pelnos.unstall, if_neg (by simp [hopen]), if_neg (Nat.not_lt.mpr hroom)]

end

/-- Settles O15: a pop is `Pelnos.popFrom` followed by the place of its item; a record that leaves the builder reaches its frame by
`assemble_of_room`. -/
theorem clusterBuilders : Obligations.ClusterBuilders := by
  unfold Obligations.ClusterBuilders
  intro s p c g b hc hb
  refine ⟨fun j d h rest hnext hd hqueue hpend hstalled => ?_, fun j d t n e rest hnext hd hqueue hstalled hopen hroom => ?_,
    fun hstalled => ?_, fun k hone hothers hhold hstalled hopen hroom => ?_, fun r hstalled hopen hroom => ?_⟩
  · have hpop : c.builderPop g = (c.popFrom g j rest).place g h := builderPop_of_hit (hb ▸ hstalled) hnext (hd ▸ hqueue)
    have hpopped : (c.popFrom g j rest).builder g = { b with served := j } := builder_popFrom hb rest
    rw [exec_builderPop, hc, hpop]
    refine ⟨fun horphan hbypass hnone => ?_, fun k horphan hbypass hone hothers htick hfine hcol hrow => ?_,
      fun hlone hopen hroom => ?_⟩
    · rw [place_of_no_cluster hpopped horphan hbypass hnone, setBuilder_popFrom hd hpend]
      rfl
    · rw [place_of_beside hpopped horphan hbypass hone hothers htick hfine hcol hrow, setBuilder_popFrom hd hpend]
    · rw [place_of_lone (c := c.popFrom g j rest) hlone, assemble_of_room hpopped hstalled (r := loneRec h) rfl hopen hroom, loneRec_eq,
        Pelnos.popFrom, hd, DCol.popped_of_no_marker hpend, hb]
  · have hpop : c.builderPop g = (c.popFrom g j rest).assemble g (markRec (16 * g + j) t n e) :=
      builderPop_of_mark (hb ▸ hstalled) hnext (hd ▸ hqueue)
    have hpopped : (c.popFrom g j rest).builder g = { b with served := j } := builder_popFrom hb rest
    rw [exec_builderPop, hc, hpop,
      assemble_of_room hpopped hstalled (r := markRec (16 * g + j) t n e) rfl hopen hroom, Pelnos.popFrom, hd, hb]
    rfl
  · rw [exec_builderPop, hc, builderPop_of_stalled (hb ▸ hstalled)]
  · have hempty : (c.setBuilder g { b with clusters := [] }).builder g = { b with clusters := [] } := builder_setBuilder _ _ _
    rw [exec_clusterClose, hc, clusterClose_of_sole hb hone hhold,
      assemble_of_room hempty hstalled (r := k.toRec) (by rw [toRec_of_no_others hothers]; rfl) hopen hroom, toRec_of_no_others hothers]
  · have hkept : (c.addRec r.frame r).builder g = b := hb
    rw [exec_builderStallEnd, hc, hb, hstalled, unstall_of_room hopen hroom, Pelnos.unstall, hkept]

end Sys2Proof.Machine
end

section
/-!
PROOFS. Frames and the uplink distributor (R83 to R90, R105, R106, R113): the close of the oldest frame, its transmission, the lanes that
its blocks take, and the marks.
-/

namespace Sys2Proof.Machine

theorem exec_frameClose (p : Port) (s : State) : exec (.frameClose p) s = .next (s.setChip p (s.chip p).frameClose) :=
  congrArg Host.Outcome.next (updChip_eq_setChip s p fun c => c.frameClose)
theorem exec_frameSendStart (p : Port) (s : State) : exec (.frameSendStart p) s = .next (s.setChip p (s.chip p).frameSend) := rfl
theorem exec_uplinkBlockTransmit_of_some {p : Port} {s : State} {l : Nat} {b : Block} {d : Pelnos}
    (h : (s.chip p).dealOne = some (l, b, d)) :
    exec (.uplinkBlockTransmit p) s = .next ((s.emit (.uplink p l b (blockCrc b))).setChip p d) := by
  show execUplinkBlockTransmit p s = _
  rw [execUplinkBlockTransmit, h]
  rfl
theorem exec_activeLanesWrite (p : Port) (mask : Half) (s : State) :
    exec (.activeLanesWrite p mask) s = .next (s.setChip p ((s.chip p).writeLanes mask.toNat)) := rfl

section
variable {c : Pelnos}

/-! ### The close of a frame (R83, R105, R113) -/

theorem frameClose_of_due (hloaded : c.get P.SYNC_STAT.LOADED = 1) (hframe : c.frame = c.nextClose + 1 + c.samp.close)
    (hclose : c.samp.close < 16) (hlt : c.frame < 2 ^ 32) : c.frameClose = c.closeOne := by
  have hage : framesSince c.frame c.nextClose = 1 + c.samp.close := by
    rw [hframe, Nat.add_assoc]
    exact framesSince_add (by omega)
  have hdue : 1 + c.samp.close < 2 ^ 31 := by omega
  rw [Pelnos.frameClose, hage]
  exact if_pos ⟨hloaded, le_rfl, hdue⟩

theorem frameClose_of_young (hframe : c.frame = c.nextClose + c.samp.close) (hlt : c.frame < 2 ^ 32) : c.frameClose = c := by
  have hage : framesSince c.frame c.nextClose = c.samp.close := by
    rw [hframe]
    exact framesSince_add (by omega)
  rw [Pelnos.frameClose, hage]
  exact if_neg fun ⟨_, hold, _⟩ => by omega

theorem closeOne_of_sent (hsent : c.unsent c.nextClose = false) (hactive : c.active = true) : c.closeOne = { c with
    frames := Tab.set {} c.frames c.nextClose {}, late := none, nextClose := (c.nextClose + 1) % 2 ^ 32,
    settle := c.settle.filter fun w => decide ((c.nextClose + 1) * 4096 ≤ w.2),
    closed := c.closed ++ [(c.nextClose, c.closeHalves c.nextClose)] }.notePeak := by
  rw [Pelnos.closeOne, if_neg (by simp [hsent]), if_pos hactive]

theorem closeOne_of_unsent (hunsent : c.unsent c.nextClose = true) : c.closeOne = { c with
    frames := Tab.set {} c.frames c.nextClose {}, late := none, nextClose := (c.nextClose + 1) % 2 ^ 32,
    settle := c.settle.filter fun w => decide ((c.nextClose + 1) * 4096 ≤ w.2) }.bump P.SLEEP_FRAMES.COUNT 1 := by
  rw [Pelnos.closeOne, if_pos hunsent]

theorem unsent_of_asleep (hasleep : c.get P.LINK_STAT.UL_ASLEEP = 1) (f : Nat) : c.unsent f = true := by
  simp [Pelnos.unsent, hasleep]

/-! ### Transmission (R87 to R90) -/

theorem frameSend_of_closed {f : Nat} {hs : List Nat} {rest : List (Nat × List Nat)} (hclosed : c.closed = (f, hs) :: rest)
    (hidle : c.sending = []) (hactive : c.active = true) (hstatus : c.statusDue f = false) : c.frameSend = { c with
      closed := rest, sending := c.frameBlocks f hs, seq := (c.seq + (c.frameBlocks f hs).length) % 256, storeFull := false,
      laneMask := c.get P.ACTIVE_LANES.MASK } := by
  simp [Pelnos.frameSend, hclosed, hidle, hactive, hstatus]

/-- With all eight lanes in the active set the next lane is the next number, around the eight. -/
theorem laneAfter_of_all (hmask : c.laneMask = 0xFF) {l : Nat} (hl : l < 8) : c.laneAfter l = (l + 1) % 8 := by
  have hnext : ∀ l < 8, Pelnos.laneAfter { laneMask := 0xFF } l = (l + 1) % 8 := by decide
  calc c.laneAfter l = Pelnos.laneAfter { laneMask := c.laneMask } l := rfl
    _ = (l + 1) % 8 := by rw [hmask, hnext l hl]

theorem dealOne_of_data {b : Block} {rest : List Block} (hsending : c.sending = b :: rest) (hkind : b.kind ≠ .frame)
    (hecho : c.echo = []) : c.dealOne = some (c.laneAfter c.lane, b, { c with sending := rest, lane := c.laneAfter c.lane }) := by
  simp [Pelnos.dealOne, hsending, hecho, hkind]

theorem dealOne_of_frame {b : Block} {rest : List Block} (hsending : c.sending = b :: rest) (hkind : b.kind = .frame)
    (hecho : c.echo = []) : c.dealOne = some (c.lowLane, b, { c with sending := rest, lane := c.lowLane }) := by
  simp [Pelnos.dealOne, hsending, hecho, hkind]

theorem dealOne_of_echo {e : EchoAnswer} {es : List EchoAnswer} (hecho : c.echo = e :: es) (hidle : c.sending = []) : c.dealOne =
    some (c.lowLane, ⟨.echo, (c.seq + 255) % 256, pad16 e⟩, { c with echo := es, lane := c.lowLane }) := by
  simp [Pelnos.dealOne, hecho, hidle]

end

/-! ### Lane marks (R106, R116) -/

/-- The mark of lane `l` as it leaves a Pelnos. -/
def Pelnos.mark (c : Pelnos) (p : Port) (l : Nat) : Out :=
  .uplink p l ⟨.laneMark, (c.seq + 255) % 256, markPayload l c.markCnt c.laneMask⟩
    (blockCrc ⟨.laneMark, (c.seq + 255) % 256, markPayload l c.markCnt c.laneMask⟩)

theorem foldl_emit {α : Type} (f : α → Out) (l : List α) (s : State) :
    l.foldl (fun s a => s.emit (f a)) s = s.updOut (· ++ l.map f) := by
  induction l generalizing s with
  | nil => simp [State.updOut]
  | cons a l ih =>
    rw [List.foldl_cons, ih, List.map_cons]
    simp [State.emit, State.updOut]

/-- The lanes of port `p` that send marks: those in ACTIVE whose generator is still. -/
def State.markLanes (s : State) (p : Port) : List Nat :=
  (List.range 8).filter fun l => s.zget ((ZP.LSTATm.STATE.at (4 * l)).port p) == 5 && !(Tab.get {} s.lanes (8 * p + l)).gen

theorem markLanes_of_all {s : State} {p : Port}
    (hall : ∀ l : Fin 8, s.zget ((ZP.LSTATm.STATE.at (4 * l)).port p) = 5 ∧ (Tab.get {} s.lanes (8 * p + l)).gen = false) :
    s.markLanes p = List.range 8 := by
  refine List.filter_eq_self.mpr fun l hl => ?_
  obtain ⟨hactive, hstill⟩ := hall ⟨l, List.mem_range.mp hl⟩
  simp only [hactive, hstill, beq_self_eq_true, Bool.not_false, Bool.and_self]

theorem exec_laneMarkSend_of_awake {s : State} {p : Port} {c : Pelnos} (hc : s.chip p = c) (hlanes : s.markLanes p ≠ [])
    (hawake : c.get P.LINK_STAT.UL_ASLEEP = 0) : exec (.laneMarkSend p) s =
      .next ((s.updOut (· ++ (s.markLanes p).map (c.mark p))).setChip p { c with markCnt := (c.markCnt + 1) % 2 ^ 32 }) := by
  have hsend : ¬ (s.markLanes p = [] ∨ (s.chip p).get P.LINK_STAT.UL_ASLEEP = 1) := by simp [hlanes, hc, hawake]
  show execLaneMarkSend p s = _
  subst hc
  refine (congrArg Host.Outcome.next (if_neg hsend)).trans ?_
  exact congrArg (fun t : State => Host.Outcome.next (t.updChip p fun c => { c with markCnt := (c.markCnt + 1) % 2 ^ 32 }))
    (foldl_emit ((s.chip p).mark p) (s.markLanes p) s)

/-- Settles O16: a frame closes by `Pelnos.closeOne` when it is old enough; each slot of the distributor is one case of
`Pelnos.dealOne`; the marks are those of `Pelnos.mark` on all eight lanes. -/
theorem framesAndDistributor : Obligations.FramesAndDistributor := by
  unfold Obligations.FramesAndDistributor
  intro s p c hc
  refine ⟨fun hloaded _ hframe hclose hlt => ?_, fun hframe hlt => ?_, fun f hs rest hclosed hidle hactive hstatus => ?_,
    fun b rest hsending hkind hecho hmask hlane => ?_, fun b rest hsending hkind hecho hmask => ?_,
    fun e es hecho hidle => ?_, fun hawake hall => ?_, fun mask => ?_⟩
  · rw [exec_frameClose, hc, frameClose_of_due hloaded hframe hclose hlt]
    refine ⟨fun hsent hactive => ?_, fun hasleep => ?_⟩
    · rw [closeOne_of_sent hsent hactive]
    · rw [closeOne_of_unsent (unsent_of_asleep hasleep _)]
  · rw [exec_frameClose, hc, frameClose_of_young hframe hlt]
  · rw [exec_frameSendStart, hc, frameSend_of_closed hclosed hidle hactive hstatus]
  · have hdeal := dealOne_of_data hsending hkind hecho
    rw [laneAfter_of_all hmask hlane, ← hc] at hdeal
    rw [exec_uplinkBlockTransmit_of_some hdeal, hc]
  · have hdeal := dealOne_of_frame hsending hkind hecho
    have hlow : c.lowLane = 4 := by rw [Pelnos.lowLane, hmask]; decide
    rw [hlow, ← hc] at hdeal
    rw [exec_uplinkBlockTransmit_of_some hdeal, hc]
  · have hdeal := dealOne_of_echo hecho hidle
    rw [← hc] at hdeal
    rw [exec_uplinkBlockTransmit_of_some hdeal, hc]
  · have hlanes := markLanes_of_all hall
    rw [exec_laneMarkSend_of_awake hc (by simp [hlanes]) hawake, hlanes]
    rfl
  · rw [exec_activeLanesWrite, hc]
    rfl

end Sys2Proof.Machine
end


section
/-!
PROOFS. The rules of the serial lanes: the receivers, receive paths and chips as parts of the state, the register fields of a port that
lie apart, what an event leaves of the lanes, and an intact block at its receiver (R98, R101).
-/

namespace Sys2Proof.Machine

/-! ### Receivers -/

theorem laneKey_injective : Function.Injective laneKey := by
  rintro (⟨p, l⟩ | p | (_ | _)) (⟨q, m⟩ | q | (_ | _)) h <;>
    simp only [laneKey, Link.up.injEq, Link.down.injEq, Link.ring.injEq, Fin.ext_iff, reduceCtorEq] at h ⊢ <;> omega

section
variable (s : State) (j k : Link) (f g : Lane → Lane)

theorem lane_updLane : (s.updLane k f).lane j = if j = k then f (s.lane k) else s.lane j := by
  simp only [State.lane, State.updLane, State.updLanes_fields, Tab.get_upd, laneKey_injective.eq_iff]

@[simp] theorem lane_updLane_same : (s.updLane k f).lane k = f (s.lane k) := by rw [lane_updLane, if_pos rfl]

@[simp] theorem lane_zput (a : Field) (v : Nat) : (s.zput a v).lane k = s.lane k := rfl
@[simp] theorem lane_setPort (p : Port) (q : PortIn) : (s.setPort p q).lane k = s.lane k := rfl

theorem updLane_updLane : (s.updLane k f).updLane k g = s.updLane k fun x => g (f x) := by
  refine congrArg (fun t => s.updLanes fun _ => t) ?_
  show Tab.upd {} (Tab.upd {} s.lanes (laneKey k) f) (laneKey k) g = _
  simp only [Tab.upd, Tab.get_set_same, Tab.set_set]

end

theorem updLane_congr (s : State) (k : Link) {f g : Lane → Lane} (h : f (s.lane k) = g (s.lane k)) : s.updLane k f = s.updLane k g :=
  congrArg (fun x => s.updLanes fun t => Tab.set {} t (laneKey k) x) h

/-! ### Receive paths and chips -/

theorem updPort_eq_setPort (s : State) (p : Port) (f : PortIn → PortIn) : s.updPort p f = s.setPort p (f (s.port p)) := rfl

theorem vupd_vupd {α : Type} {n : Nat} (v : Vector α n) (i : Fin n) (f g : α → α) : vupd (vupd v i f) i g = vupd v i fun x => g (f x) := by
  simp [vupd]

@[simp] theorem setPort_setPort (s : State) (p : Port) (a b : PortIn) : (s.setPort p a).setPort p b = s.setPort p b :=
  congrArg (fun v => s.updPorts fun _ => v) (vupd_vupd s.ports p (fun _ => a) fun _ => b)

@[simp] theorem setPort_self (s : State) (p : Port) : s.setPort p (s.port p) = s :=
  congrArg (fun v => s.updPorts fun _ => v) (Vector.set_getElem_self _)

theorem updLane_setPort (s : State) (k : Link) (f : Lane → Lane) (p : Port) (q : PortIn) :
    (s.updLane k f).setPort p q = (s.setPort p q).updLane k f := rfl

@[simp] theorem port_setPort (s : State) (p : Port) (q : PortIn) : (s.setPort p q).port p = q := State.port_updPort_same s p fun _ => q
@[simp] theorem chip_setChip (s : State) (p : Port) (c : Pelnos) : (s.setChip p c).chip p = c := State.chip_updChip_same s p fun _ => c

/-! ### Fields of a port's block that lie apart -/

theorem port_key (f : Field) (p : Port) : (f.port p).key = f.key + (0x10000 + p * 0x400) * 64 := by
  simp only [Field.key, Field.port, Field.at]
  omega

theorem port_key_ne {f g : Field} (h : f.key ≠ g.key) (p : Port) : (f.port p).key ≠ (g.port p).key := by
  rw [port_key, port_key]
  omega

/-- The field of each lane at `f` stands apart from `g` in the block of a port. -/
theorem laneF_key_ne_port {f g : Field} (h : ∀ l : Fin 8, (f.at (4 * l)).key ≠ g.key) (p : Port) (l : Fin 8) :
    (laneF f p l).key ≠ (g.port p).key := port_key_ne (h l) p

theorem laneState_apart (p : Port) (l : Fin 8) : (laneF ZP.LSTATm.STATE p l).apart := Field.apart_of_key fun q => by
  have hl := l.isLt
  simp only [bookFields_keys, List.mem_cons, List.not_mem_nil, or_false, laneF, Field.key, Field.port, Field.at, ZP.LSTATm.STATE]
  omega

/-! ### The state of a lane -/

section
variable (s : State) (k : Link)

@[simp] theorem lst_updLane (j : Link) (f : Lane → Lane) : (s.updLane j f).lst k = s.lst k := by cases k <;> rfl
@[simp] theorem lst_setPort (p : Port) (q : PortIn) : (s.setPort p q).lst k = s.lst k := by cases k <;> rfl
@[simp] theorem lst_setChip (p : Port) (c : Pelnos) : (s.setChip p c).lst k = s.lst k := by cases k <;> rfl

end

/-- A write of a field of the port that is no lane's STATE moves no lane of it. -/
theorem lst_zput_port (s : State) (p : Port) (l : Fin 8) {f : Field} (v : Nat) (h : ∀ l : Fin 8, (ZP.LSTATm.STATE.at (4 * l)).key ≠ f.key) :
    (s.zput (f.port p) v).lst (.up p l) = s.lst (.up p l) := State.zget_zput_ne _ _ (laneF_key_ne_port h p l)

/-- An event of a port moves no lane. -/
theorem lst_raisePort (s : State) (p q : Port) (l : Fin 8) {i : Nat} (hi : i < 20) (d : List Byte) :
    (s.raisePort q i d).lst (.up p l) = s.lst (.up p l) := raisePort_zget (laneState_apart p l) s q hi d

/-- An event of a ring side moves no ring link. -/
theorem lst_ringLink (s : State) (d e : Side) (cause extra : Nat) : (s.ringLink e cause extra).lst (.ring d) = s.lst (.ring d) := by
  refine raiseSev_zget _ _ _ _ ?_ ?_
  · cases d <;> decide
  · cases d <;> decide

theorem lst_ringMoved (s : State) (d : Side) (was now : Bool) : (s.ringMoved d was now).lst (.ring d) = s.lst (.ring d) := by
  unfold State.ringMoved
  split
  · rw [lst_ringLink, lst_ringLink]
  · split
    · rw [lst_ringLink, lst_ringLink]
    · rfl

/-- R101: a lane stands in the state it is moved to. -/
theorem lst_setLst (s : State) (k : Link) (v : Fin 8) : (s.setLst k v).lst k = v := by
  have hv : v.val % 2 ^ 3 = v := Nat.mod_eq_of_lt v.isLt
  cases k with
  | up p l => exact (State.zget_zput _ _ _).trans hv
  | down p => exact (State.zget_zput _ _ _).trans hv
  | ring d => exact (lst_ringMoved _ _ _ _).trans ((State.zget_zput _ _ _).trans hv)

theorem activeLanes_congr {s t : State} {p : Port} (h : ∀ l : Fin 8, t.lst (.up p l) = s.lst (.up p l)) :
    t.activeLanes p = s.activeLanes p := List.filter_congr fun l _ => by rw [h l]

/-! ### Intact blocks and writes of BAR0 -/

/-- An intact block other than DATA passes the check and leaves the receiver as it was (R98). -/
theorem receive_of_intact {s : State} {k : Link} {b : RxBlock} (hintact : intact k b = true) (hbad : (s.lane k).badKind = 0)
    (hkind : b.blk.kind ≠ .data) : s.receive k b = (s, some b.blk) := by
  simp [State.receive, hintact, State.goodBlock, hbad, State.prbsCheck, hkind]

theorem bar0_of_open {s : State} (h : s.bar0Open) (f : State → State) : s.bar0 f = f s := by
  obtain ⟨hsafe, hready⟩ := h
  simp [State.bar0, hsafe, hready]

end Sys2Proof.Machine
end

section
/-!
PROOFS. Bring-up of a lane (R100, R101, R103, R122): detection, the counts of TRAIN blocks, timeouts, and the loss of symbol lock.
-/

namespace Sys2Proof.Machine

theorem exec_trainBlockReceive (k : Link) (b : RxBlock) (s : State) : exec (.trainBlockReceive k b) s = .next (s.trainReceive k b) := rfl

/-! ### Detection -/

theorem detect_of_enabled {s : State} {k : Link} (hst : s.lst k = 0 ∨ s.lst k = 1) (hen : s.laneEnabled k = true) :
    s.detect k = s.enterTrain k := if_pos ⟨hst, hen⟩

theorem freshLane_of_enabled {s : State} {k : Link} (hen : s.laneEnabled k = true) : s.freshLane k = s.enterDetect k := if_pos hen

/-! ### TRAIN blocks (R101 to R103) -/

/-- An intact TRAIN block reaches the training of its lane; a Pelnos in reset hears none (R404). -/
theorem trainReceive_of_intact {s : State} {k : Link} {b : RxBlock} (hintact : intact k b = true) (hkind : b.blk.kind = .train)
    (hbad : (s.lane k).badKind = 0) (hlive : ∀ p, k = .down p → (s.chip p).inReset = false) : s.trainReceive k b = s.train k b.blk := by
  have hreceive : s.receive k b = (s, some b.blk) := receive_of_intact hintact hbad (by simp [hkind])
  cases k with
  | up p l => simp [State.trainReceive, hreceive, hkind]
  | down p => simp [State.trainReceive, hreceive, hkind, hlive p rfl]
  | ring d => simp [State.trainReceive, hreceive, hkind]

section
variable {s u : State} {k : Link} {b : Block} (hu : u = s.trainPresets k b)
include hu

theorem train_in_train (hst : u.lst k = 2) (hgood : (u.lane k).good < 15) :
    s.train k b = u.updLane k fun x => { x with good := (u.lane k).good + 1 } := by
  have hfew : (u.lane k).good + 1 < 16 := by omega
  simp only [State.train, ← hu, hst, hfew, if_true]

/-- The 16th good block leads to LOCK; on a downlink the PLLs lock besides (R104). -/
theorem train_to_lock (hst : u.lst k = 2) (hgood : (u.lane k).good = 15) (hk : ∀ p, k ≠ .down p) :
    s.train k b = (u.updLane k fun x => { x with
      good := 16, ready := 0, badKind := 0, leaving := false, lost := 0, mark := none }).setLst k 3 := by
  have hlock : (u.updLane k fun x => { x with good := 16 }).enterLock k = (u.updLane k fun x => { x with
      good := 16, ready := 0, badKind := 0, leaving := false, lost := 0, mark := none }).setLst k 3 :=
    congrArg (fun t : State => t.setLst k 3) (updLane_updLane _ _ _ _)
  rw [← hlock]
  cases k with
  | up p l => simp only [State.train, ← hu, hst, hgood, Nat.reduceAdd, Nat.lt_irrefl, if_false]
  | down p => exact absurd rfl (hk p)
  | ring d => simp only [State.train, ← hu, hst, hgood, Nat.reduceAdd, Nat.lt_irrefl, if_false]

theorem train_to_cap (hst : u.lst k = 3) (hready : (u.lane k).ready = 7) (hbit : pbyte b 4 % 2 = 1) (hcap : (u.lane k).capDone = false) :
    s.train k b = (u.updLane k fun x => { x with ready := 8, cap := 0 }).setLst k 4 := by
  refine Eq.trans ?_ (congrArg (fun t : State => t.setLst k 4) (updLane_updLane u k (fun x => { x with ready := 8 }) fun x =>
    { x with cap := 0 }))
  simp only [State.train, ← hu, hst, hready, hbit, if_true, Nat.reduceAdd, Nat.lt_irrefl, if_false, lane_updLane_same, hcap,
    Bool.false_eq_true]

theorem train_unready (hst : u.lst k = 3) (hbit : pbyte b 4 % 2 = 0) : s.train k b = u.updLane k fun x => { x with ready := 0 } := by
  simp only [State.train, ← hu, hst, hbit, Nat.zero_ne_one, if_false, Nat.zero_lt_succ, if_true]

theorem train_in_cap (hst : u.lst k = 4) (hcap : pbyte b 1 = 4) (hfew : (u.lane k).cap < 3) :
    s.train k b = u.updLane k fun x => { x with cap := (u.lane k).cap + 1 } := by
  have hmin : min ((u.lane k).cap + 1) 5 = (u.lane k).cap + 1 := by omega
  have hjudge : (u.lane k).cap + 1 ≠ 4 := by omega
  simp only [State.train, ← hu, hst, hcap, ne_eq, not_true, if_false, hmin, hjudge]

end

/-! ### Timeouts (R101) -/

/-- The third timeout in a row in TRAIN or LOCK retires an uplink lane or a ring link; a downlink begins again in DETECT. -/
def State.timedOut (s : State) : Link → State
  | .up p l => s.retire p l
  | .down p => s.freshLane (.down p)
  | .ring d => s.setLst (.ring d) 7

section
variable {s : State} {k : Link}

theorem trainTimeout_in_cap (hst : s.lst k = 4) (hcap : (s.lane k).cap < 4) (hen : s.laneEnabled k = true) :
    s.trainTimeout k = s.enterDetect k := by
  simp only [State.trainTimeout, hst, if_true, Nat.not_le.mpr hcap, if_false, freshLane_of_enabled hen]

theorem trainTimeout_third (hst : s.lst k = 2 ∨ s.lst k = 3) (hfails : (s.lane k).fails = 2) :
    s.trainTimeout k = (s.updLane k fun x => { x with fails := 0 }).timedOut k := by
  have hcap : s.lst k ≠ 4 := by omega
  cases k <;> simp only [State.trainTimeout, hcap, if_false, hst, if_true, hfails, Nat.reduceAdd, Nat.le_refl, State.timedOut]

theorem trainTimeout_in_lock (hst : s.lst k = 3) (hfails : (s.lane k).fails < 2) :
    s.trainTimeout k = (s.updLane k fun x => { x with fails := x.fails + 1 }).enterTrain k := by
  have hfew : ¬ 3 ≤ (s.lane k).fails + 1 := by omega
  have hcount : s.updLane k (fun x => { x with fails := (s.lane k).fails + 1 }) = s.updLane k fun x => { x with fails := x.fails + 1 } :=
    updLane_congr s k rfl
  simp only [State.trainTimeout, hst, Nat.reduceEqDiff, if_false, or_true, if_true, hfew, hcount]

end

/-! ### Symbol lock (R100, R108) -/

theorem exec_symbolLockLoss_down {s : State} {p : Port} (hbad : 4 ≤ (s.lane (.down p)).badKind) :
    exec (.symbolLockLoss (.down p)) s = .next ((s.updLane (.down p) fun x => { x with badKind := 0 }).setChip p
      ((s.chip p).put P.LINK_STAT.DL_STATE 3)) :=
  congrArg Host.Outcome.next (if_neg (Nat.not_lt.mpr hbad))

theorem exec_symbolLockLoss_retrain {s : State} {k : Link} (hk : ∀ p, k ≠ .down p) (hbad : 4 ≤ (s.lane k).badKind) (hst : s.lst k = 5) :
    exec (.symbolLockLoss k) s = .next ((s.updLane k fun x => { x with badKind := 0 }).retrainLink k .other) := by
  have hactive : (s.updLane k fun x => { x with badKind := 0 }).lst k = 5 := (lst_updLane ..).trans hst
  cases k with
  | down p => exact absurd rfl (hk p)
  | up p l => exact congrArg Host.Outcome.next ((if_neg (Nat.not_lt.mpr hbad)).trans (if_pos hactive))
  | ring d => exact congrArg Host.Outcome.next ((if_neg (Nat.not_lt.mpr hbad)).trans (if_pos hactive))

/-- Settles O17: each clause is one branch of `State.detect`, `State.noRx`, `State.train` or `State.trainTimeout`. -/
theorem laneBringUp : Obligations.LaneBringUp := by
  unfold Obligations.LaneBringUp
  refine ⟨fun s k hst hen => ?_, lst_setLst, fun s k hst hnoRx => ?_, fun s u k b hintact hkind hbad hlive hu => ?_,
    fun s k hst hcap hen => ?_, fun s p l hst hfails => ?_, fun s d hst hfails => ?_, fun s k hst hfails => ?_, fun s k hbad hst => ?_⟩
  · exact congrArg Host.Outcome.next (detect_of_enabled hst hen)
  · refine congrArg Host.Outcome.next ((if_pos ⟨hst, by simp [hnoRx]⟩).trans ?_)
    cases k <;> rfl
  · rw [exec_trainBlockReceive, trainReceive_of_intact hintact hkind hbad hlive]
    exact ⟨fun h hgood => congrArg _ (train_in_train hu h hgood), fun h hgood hk => congrArg _ (train_to_lock hu h hgood hk),
      fun h hready hbit hcap => congrArg _ (train_to_cap hu h hready hbit hcap), fun h hbit => congrArg _ (train_unready hu h hbit),
      fun h hcap hfew => congrArg _ (train_in_cap hu h hcap hfew)⟩
  · exact congrArg Host.Outcome.next (trainTimeout_in_cap hst hcap hen)
  · exact congrArg Host.Outcome.next (trainTimeout_third hst hfails)
  · exact congrArg Host.Outcome.next (trainTimeout_third hst hfails)
  · exact congrArg Host.Outcome.next (trainTimeout_in_lock hst hfails)
  · cases k with
    | up p l => exact exec_symbolLockLoss_retrain (by simp) hbad hst
    | down p => exact exec_symbolLockLoss_down hbad
    | ring d => exact exec_symbolLockLoss_retrain (by simp) hbad hst

end Sys2Proof.Machine
end

section
/-!
PROOFS. A port becomes active, and the pairing of marks (R104, R105, R107): activation, the mask 1 ms later, and one or no mark to pair.
-/

namespace Sys2Proof.Machine

/-! ### Activation (R105) -/

/-- What Pelnos and the receive path begin with when their port becomes active. -/
def State.linked (s : State) (p : Port) : State :=
  ((s.zput (ZP.STAT.LINK.port p) 1).setChip p { s.chip p with active := true, seq := 0, markCnt := 0 }).setPort p { s.port p with
    arrived := [], expect := 0, held := [], discard := false, resync := false, holdGap := false, lastNum := none, cur := none,
    mask := 0, waitMask := true, asleep := false, dlSeq := 0, markCnt := none, echo := { acq := true, epoch := s.portEpoch },
    scrubPos := 0, scrubStart := s.time }

theorem activeLanes_linked (s : State) (p : Port) : (s.linked p).activeLanes p = s.activeLanes p :=
  activeLanes_congr fun l => (lst_setPort ..).trans ((lst_setChip ..).trans (lst_zput_port s p l _ (by decide)))

theorem activate_of_ready {s : State} {p : Port} (hlink : s.linkUp p = false) (hdown : s.lst (.down p) = 5) (hlanes : s.activeLanes p ≠ []) :
    s.activate p = ((s.linked p).mergeUp p).raisePort p 0 [b8 (maskOf (s.activeLanes p))] := by
  have hready : ¬ (s.linkUp p ∨ s.lst (.down p) ≠ 5 ∨ s.activeLanes p = []) := by simp [hlink, hdown, hlanes]
  rw [← activeLanes_linked]
  exact if_neg hready

theorem activationEnd_of_waiting {s : State} {p : Port} (hwait : (s.port p).waitMask = true) :
    s.activationEnd p = (s.activeLanes p).foldl (fun t (l : Nat) => t.raisePort p 5 [b8 l, b8 (maskOf (s.activeLanes p))])
      ((s.setPort p { s.port p with waitMask := false, mask := maskOf (s.activeLanes p) }).dlSend p
        [regWr .own [(0x033, maskOf (s.activeLanes p))]]) := by
  have hmask : (s.setPort p { s.port p with waitMask := false }).writeMask p (maskOf (s.activeLanes p)) =
      (s.setPort p { s.port p with waitMask := false, mask := maskOf (s.activeLanes p) }).dlSend p
        [regWr .own [(0x033, maskOf (s.activeLanes p))]] := by
    simp only [State.writeMask, updPort_eq_setPort, port_setPort, setPort_setPort]
  rw [← hmask]
  exact if_neg (by simp [hwait])

/-! ### The marks to pair (R107) -/

theorem marks_of_sole {s : State} {p : Port} {l : Fin 8} (hsole : s.activeLanes p = [l]) :
    s.marks p = ((s.lane (.up p l)).mark.map fun t => (l, t)).toList := by
  cases h : (s.lane (.up p l)).mark <;> simp [State.marks, hsole, h]

theorem bitAt_two_pow (l : Nat) : bitAt (2 ^ l) l = true := by
  simp [bitAt, Nat.div_self (Nat.two_pow_pos l)]

/-- A single mark of a lane in the mask is its own reference span. -/
theorem refSpan_of_single (l : Fin 8) (t : Nat) : refSpan (2 ^ l.val) [(l, t)] = [(l, t)] := by
  have hspan : spanAt [(l, t)] t = [(l, t)] := by simp [spanAt]
  have hweight : spanWeight (2 ^ l.val) [] < spanWeight (2 ^ l.val) [(l, t)] := by simp [spanWeight, bitAt_two_pow]
  simp only [refSpan, List.foldl_cons, List.foldl_nil, hspan, hweight, if_true]

/-- A change of every uplink lane of a port, seen at one of them. -/
theorem lane_foldl_updLane (s : State) (p : Port) (f : Lane → Lane) (l : Fin 8) :
    (fins8.foldl (fun s m => s.updLane (.up p m) f) s).lane (.up p l) = f (s.lane (.up p l)) := by
  simp only [fins8, List.foldl_cons, List.foldl_nil, lane_updLane, Link.up.injEq, true_and]
  fin_cases l <;> simp

/-- Nothing but the receivers changes with them. -/
theorem foldl_updLane_eq (s : State) (p : Port) (f : Lane → Lane) (ls : List (Fin 8)) :
    ∃ t, ls.foldl (fun s m => s.updLane (.up p m) f) s = s.updLanes fun _ => t := by
  induction ls generalizing s with
  | nil => exact ⟨s.lanes, rfl⟩
  | cons m ls ih => exact ih _

/-- The receivers of port `p` without their marks; irreducible, so that comparing states does not run through the eight updates. -/
@[irreducible] def State.unmarked (s : State) (p : Port) : State :=
  fins8.foldl (fun s l => s.updLane (.up p l) fun x => { x with mark := none }) s

theorem lane_unmarked (s : State) (p : Port) (l : Fin 8) : (s.unmarked p).lane (.up p l) = { s.lane (.up p l) with mark := none } := by
  rw [State.unmarked, lane_foldl_updLane]

theorem unmarked_eq (s : State) (p : Port) : ∃ t, s.unmarked p = s.updLanes fun _ => t := by
  rw [State.unmarked]
  exact foldl_updLane_eq s p _ fins8
theorem unmarked_zreg (s : State) (p : Port) : (s.unmarked p).zreg = s.zreg := by
  obtain ⟨t, ht⟩ := unmarked_eq s p
  rw [ht, State.updLanes]

/-- A mark inside the span of a lane that stands in the mask: its delay is set, and no mark counts as lost. -/
theorem markInside_of_member {s : State} {p : Port} {l : Fin 8} (hrejoin : (s.lane (.up p l)).rejoin = false) (latest t : Nat) :
    s.markInside p latest (l, t) = (s.zput (laneF ZP.LSTATm.SKEW p l) (latest - t)).updLane (.up p l) fun y => { y with lost := 0 } := by
  have hkeep : (((s.zput (laneF ZP.LSTATm.SKEW p l) (latest - t)).updLane (.up p l) fun y => { y with lost := 0 }).lane (.up p l)).rejoin
      = false := by rw [lane_updLane_same]; exact hrejoin
  exact if_neg (Bool.eq_false_iff.mp hkeep)

/-- The only active lane's mark is evaluated alone: skew 0. -/
theorem evalMarks_of_single {s : State} {p : Port} {l : Fin 8} {t : Nat} (hsole : s.activeLanes p = [l])
    (hmark : (s.lane (.up p l)).mark = some t) (hmask : (s.port p).mask = 2 ^ l.val) (hrejoin : (s.lane (.up p l)).rejoin = false) :
    s.evalMarks p = (((s.setPort p { s.port p with markCnt := none }).unmarked p).zput (laneF ZP.LSTATm.SKEW p l) 0).updLane (.up p l)
      fun y => { y with lost := 0 } := by
  have hms : s.marks p = [(l, t)] := by simp [marks_of_sole hsole, hmark]
  have hspan : refSpan (s.port p).mask [(l, t)] = [(l, t)] := by rw [hmask, refSpan_of_single]
  have hrejoin' : (((s.setPort p { s.port p with markCnt := none }).unmarked p).lane (.up p l)).rejoin = false := by
    rw [lane_unmarked]
    exact hrejoin
  refine Eq.trans ?_ ((markInside_of_member hrejoin' t t).trans ?_)
  · simp only [State.evalMarks, hms, hsole, hspan]
    simp [updPort_eq_setPort, State.unmarked]
  · rw [Nat.sub_self]

/-- The port after the marks of a count have ended without the mark of lane `l`. -/
def State.unpaired (s : State) (p : Port) (l : Fin 8) : State :=
  ((s.setPort p { s.port p with markCnt := none }).unmarked p).updLane (.up p l) fun x => { x with lost := (s.lane (.up p l)).lost + 1 }

theorem unpaired_eq (s : State) (p : Port) (l : Fin 8) :
    s.unpaired p l = (s.updLanes fun _ => (s.unpaired p l).lanes).setPort p { s.port p with markCnt := none } := by
  obtain ⟨u, hu⟩ := unmarked_eq (s.setPort p { s.port p with markCnt := none }) p
  rw [State.unpaired, hu]
  rfl

theorem lane_unpaired {s : State} {p : Port} {l : Fin 8} (hmark : (s.lane (.up p l)).mark = none) :
    (s.unpaired p l).lane (.up p l) = { s.lane (.up p l) with lost := (s.lane (.up p l)).lost + 1 } := by
  rw [State.unpaired, lane_updLane_same, lane_unmarked, lane_setPort, ← hmark]

/-- The only active lane has delivered no mark: it counts as lost. -/
theorem evalMarks_of_missing {s : State} {p : Port} {l : Fin 8} (hsole : s.activeLanes p = [l])
    (hmark : (s.lane (.up p l)).mark = none) (hlost : (s.lane (.up p l)).lost < 2) :
    s.evalMarks p = s.unpaired p l := by
  have hms : s.marks p = [] := by simp [marks_of_sole hsole, hmark]
  have hcount : (((s.setPort p { s.port p with markCnt := none }).unmarked p).lane (.up p l)).lost = (s.lane (.up p l)).lost := by
    rw [lane_unmarked, lane_setPort]
  have hfew : ¬ 3 ≤ (s.lane (.up p l)).lost + 1 := by omega
  have hmod : ((s.lane (.up p l)).lost + 1) % 3 = (s.lane (.up p l)).lost + 1 := Nat.mod_eq_of_lt (by omega)
  have hall : s.evalMarks p = ((s.setPort p { s.port p with markCnt := none }).unmarked p).markLost p l := by
    simp [State.evalMarks, hms, hsole, refSpan, updPort_eq_setPort, State.unmarked]
  simp only [hall, State.markLost, hcount, hmod, hfew, if_false, State.unpaired]

/-! ### The arrival of a mark -/

theorem exec_laneMarkReceive_of_intact {s : State} {p : Port} {l : Fin 8} {b : RxBlock} (hst : s.lst (.up p l) = 5)
    (hintact : intact (.up p l) b = true) (hkind : b.blk.kind = .laneMark) (hbad : (s.lane (.up p l)).badKind = 0) (t : Nat) :
    exec (.laneMarkReceive p l t b) s = .next (s.takeMark p l t b.blk) := by
  show execLaneMarkReceive p l t b s = _
  simp only [execLaneMarkReceive, hst, ne_eq, not_true, if_false, receive_of_intact hintact hbad (by simp [hkind]), hkind, if_true]

/-- The port with the mark of lane `l` recorded. -/
def State.marked (s : State) (p : Port) (l : Fin 8) (t n : Nat) : State :=
  (s.setPort p { s.port p with markCnt := some n }).updLane (.up p l) fun x => { x with mark := some t }

/-- The port after lane `l` has been paired alone by its mark at `t`. -/
def State.paired (s : State) (p : Port) (l : Fin 8) (t : Nat) : State :=
  (((s.updLane (.up p l) fun x => { x with mark := some t }).unmarked p).zput (laneF ZP.LSTATm.SKEW p l) 0).updLane
    (.up p l) fun x => { x with lost := 0 }

section
variable (s : State) (p : Port) (l : Fin 8) (t : Nat)

theorem paired_zreg : (s.paired p l t).zreg = fset s.zreg (laneF ZP.LSTATm.SKEW p l) 0 :=
  congrArg (fun r => fset r (laneF ZP.LSTATm.SKEW p l) 0) (unmarked_zreg _ p)

theorem paired_eq : s.paired p l t = (s.updLanes fun _ => (s.paired p l t).lanes).updZreg fun _ => (s.paired p l t).zreg := by
  obtain ⟨u, hu⟩ := unmarked_eq (s.updLane (.up p l) fun x => { x with mark := some t }) p
  rw [State.paired, hu]
  rfl

theorem paired_skew : (s.paired p l t).zget (laneF ZP.LSTATm.SKEW p l) = 0 := by
  rw [State.zget, paired_zreg, fget_fset_same, Nat.zero_mod]

theorem paired_regsBut : regsBut [laneF ZP.LSTATm.SKEW p l] s (s.paired p l t) := fun k hk => by
  rw [paired_zreg, get_fset_ne _ _ (by simpa using hk)]

theorem lane_paired : (s.paired p l t).lane (.up p l) = { s.lane (.up p l) with mark := none, lost := 0 } := by
  rw [State.paired, lane_updLane_same, lane_zput, lane_unmarked, lane_updLane_same]

end

section
variable {s : State} {p : Port} {l : Fin 8} {b : Block} (hidle : (s.port p).markCnt = none) (t : Nat)

theorem activeLanes_marked (n : Nat) : (s.marked p l t n).activeLanes p = s.activeLanes p :=
  activeLanes_congr fun _ => (lst_updLane ..).trans (lst_setPort ..)

include hidle

theorem takeMark_of_idle : s.takeMark p l t b =
    if ((s.marked p l t (beNat (slice b.payload 2 4))).activeLanes p).all fun j =>
        ((s.marked p l t (beNat (slice b.payload 2 4))).lane (.up p j)).mark.isSome then
      (s.marked p l t (beNat (slice b.payload 2 4))).evalMarks p
    else s.marked p l t (beNat (slice b.payload 2 4)) := by
  simp only [State.takeMark, hidle]
  rfl

theorem takeMark_of_waiting {j : Fin 8} (hj : j ∈ s.activeLanes p) (hne : j ≠ l) (hmark : (s.lane (.up p j)).mark = none) :
    s.takeMark p l t b = s.marked p l t (beNat (slice b.payload 2 4)) := by
  rw [takeMark_of_idle hidle]
  refine if_neg fun hall => ?_
  have hsome := List.all_eq_true.mp hall j (by rwa [activeLanes_marked])
  have hother : (s.marked p l t (beNat (slice b.payload 2 4))).lane (.up p j) = s.lane (.up p j) :=
    (lane_updLane ..).trans (if_neg (by simp [hne]))
  simp [hother, hmark] at hsome

/-- The pairing is over: the receive path is as it was before the mark. -/
theorem setPort_marked (n : Nat) : (s.marked p l t n).setPort p { (s.marked p l t n).port p with markCnt := none } =
    s.updLane (.up p l) fun x => { x with mark := some t } := by
  have hport : { (s.marked p l t n).port p with markCnt := none } = s.port p := by
    have hmarked : (s.marked p l t n).port p = { s.port p with markCnt := some n } := port_setPort ..
    rw [hmarked, ← hidle]
  rw [hport, State.marked, updLane_setPort, setPort_setPort, setPort_self]

/-- The one active lane's mark gives skew 0. -/
theorem takeMark_of_sole (hsole : s.activeLanes p = [l]) (hmask : (s.port p).mask = 2 ^ l.val) (hrejoin : (s.lane (.up p l)).rejoin = false) :
    s.takeMark p l t b = s.paired p l t := by
  have hall : s.takeMark p l t b = (s.marked p l t (beNat (slice b.payload 2 4))).evalMarks p := by
    rw [takeMark_of_idle hidle]
    refine if_pos ?_
    rw [activeLanes_marked, hsole]
    simp [State.marked]
  rw [hall, State.paired, ← setPort_marked hidle t]
  refine evalMarks_of_single (t := t) ((activeLanes_marked ..).trans hsole) ?_ ?_ ?_
  · simp [State.marked]
  · exact (congrArg PortIn.mask (port_setPort ..)).trans hmask
  · rw [State.marked, lane_updLane_same]
    exact hrejoin

end

/-- Settles O18: activation, its mask, and `State.evalMarks` on the one mark, or on none. -/
theorem portActivationAndMarks : Obligations.PortActivationAndMarks := by
  unfold Obligations.PortActivationAndMarks
  rintro s p _ rfl
  refine ⟨fun hlink hdown hlanes => congrArg _ (activate_of_ready hlink hdown hlanes),
    fun hwait => congrArg _ (activationEnd_of_waiting hwait), fun l t b hst hintact hkind hbad hidle => ⟨?_, fun hsole hmask hrejoin => ?_⟩,
    fun hidle => congrArg _ (if_neg (by simp [hidle])), fun l n hpaired hsole hmark hlost => ?_⟩
  · rintro ⟨j, hj, hne, hmark⟩
    rw [exec_laneMarkReceive_of_intact hst hintact hkind hbad, takeMark_of_waiting hidle t hj hne hmark]
    rfl
  · rw [exec_laneMarkReceive_of_intact hst hintact hkind hbad, takeMark_of_sole hidle t hsole hmask hrejoin]
    exact ⟨_, rfl, paired_eq s p l t, paired_regsBut s p l t, paired_skew s p l t, lane_paired s p l t⟩
  · exact ⟨_, congrArg Host.Outcome.next ((if_pos (by simp [hpaired])).trans (evalMarks_of_missing hsole hmark hlost)), unpaired_eq s p l,
      lane_unpaired hmark⟩

end Sys2Proof.Machine
end

section
/-!
PROOFS. Retraining (R98, R108 to R110, R122): blocks on an active lane, a lane that leaves its mask, failed attempts, orders, and LANE_EN.
-/

namespace Sys2Proof.Machine

/-! ### Blocks on an active lane (R98) -/

theorem exec_uplinkBlockReceive_of_intact {s : State} {p : Port} {l : Fin 8} {b : RxBlock} (hst : s.lst (.up p l) = 5)
    (hintact : intact (.up p l) b = true) (hkind : b.blk.kind = .frame ∨ b.blk.kind = .status) (hbad : (s.lane (.up p l)).badKind = 0)
    (hloop : s.zget (laneF ZP.LSTATm.LOOPED p l) = 0) :
    exec (.uplinkBlockReceive p l b) s = .next (s.setPort p { s.port p with arrived := (s.port p).arrived ++ [b.blk] }) := by
  have hdata : b.blk.kind ≠ .data := by rcases hkind with h | h <;> simp [h]
  have hpass : b.blk.kind = .frame ∨ b.blk.kind = .data ∨ b.blk.kind = .status := hkind.imp_right .inr
  show execUplinkBlockReceive p l b s = _
  simp only [execUplinkBlockReceive, hst, ne_eq, not_true, if_false, receive_of_intact hintact hbad hdata, hpass, hloop, true_and, if_true]
  rfl

theorem exec_uplinkBlockReceive_of_damaged {s : State} {p : Port} {l : Fin 8} {b : RxBlock} (hst : s.lst (.up p l) = 5)
    (hintact : intact (.up p l) b = false) : exec (.uplinkBlockReceive p l b) s = .next (s.discardBlock (.up p l) b) := by
  show execUplinkBlockReceive p l b s = _
  simp [execUplinkBlockReceive, hst, State.receive, hintact]

/-- Without a limit a discarded block is counted, and the receiver notes it. -/
theorem discardBlock_of_no_limit {s : State} {p : Port} (hlimit : s.zget (ZP.LCTL.ERR_LIMIT.port p) = 0) (l : Fin 8) (b : RxBlock) :
    ∃ f, s.discardBlock (.up p l) b = (s.zbump (laneF ZP.LSTATm.CRC_ERR p l) 1).updLane (.up p l) f := by
  have hkey : (ZP.LCTL.ERR_LIMIT.port p).key ≠ (laneF ZP.LSTATm.CRC_ERR p l).key := Ne.symm (laneF_key_ne_port (by decide) p l)
  have hoff : (s.zbump (laneF ZP.LSTATm.CRC_ERR p l) 1).zget (ZP.LCTL.ERR_LIMIT.port p) = 0 := (State.zget_zbump_ne _ _ hkey).trans hlimit
  have hunlimited (f : Lane → Lane) : ((s.zbump (laneF ZP.LSTATm.CRC_ERR p l) 1).updLane (.up p l) f).limitErrors (.up p l) =
      ((s.zbump (laneF ZP.LSTATm.CRC_ERR p l) 1).updLane (.up p l) f).updLane (.up p l) fun x =>
        { x with errs := s.time :: x.errs.filter fun t => decide (s.time < t + 1000000 * nsUnits) } := if_neg fun h => h.1 hoff
  exact ⟨_, (hunlimited _).trans (updLane_updLane ..)⟩

/-! ### A lane that leaves its mask (R108) -/

section
variable {s : State} {p : Port} {l : Fin 8}

theorem retrainLane_of_member (hin : bitAt (s.port p).mask l = true) (hmore : (s.port p).mask ≠ 2 ^ l.val) (c : RetrainCause) (out : Nat) :
    s.retrainLane p l c out = ((s.writeMask p ((s.port p).mask - 2 ^ l.val)).raisePort p 4
      [b8 l, b8 out, b8 ((s.port p).mask - 2 ^ l.val)]).updLane (.up p l) fun x => { x with cause := some c, leaving := true } := by
  simp only [State.retrainLane, hin, if_true, hmore, if_false, State.laneOut, clearBit]

theorem retrainLane_of_last (hlast : (s.port p).mask = 2 ^ l.val) (c : RetrainCause) (out : Nat) :
    s.retrainLane p l c out = (s.portLeave p 1).restartPort p := by
  simp only [State.retrainLane, hlast, bitAt_two_pow, if_true]

theorem retrainLane_of_outside (hout : bitAt (s.port p).mask l = false) (hstay : (s.lane (.up p l)).leaving = false) (c : RetrainCause)
    (out : Nat) : s.retrainLane p l c out = (s.updLane (.up p l) fun x => { x with cause := some c }).enterTrain (.up p l) := by
  simp only [State.retrainLane, hout, hstay, Bool.false_eq_true, if_false]

/-! ### Failed attempts (R109) -/

theorem retrainFail_eye (hst : s.lst (.up p l) = 2 ∨ s.lst (.up p l) = 3) (hcause : (s.lane (.up p l)).cause = some .eye) :
    s.retrainFail (.up p l) = ((((s.updLane (.up p l) fun y => { y with cause := none, attempts := 0 }).zput
      (laneF ZP.LSTATm.STATE p l) 5).zput (laneF ZP.LSTATm.MARGINAL p l) 1).raisePort p 6
        [b8 l, b8 (s.lane (.up p l)).eyeW, b8 (s.lane (.up p l)).eyeH]).laneIn p l := by
  have htraining : ¬ (s.lst (.up p l) ≠ 2 ∧ s.lst (.up p l) ≠ 3) := by omega
  simp only [State.retrainFail, htraining, if_false, hcause]
  rfl

theorem retrainFail_other (hst : s.lst (.up p l) = 2 ∨ s.lst (.up p l) = 3) (hcause : (s.lane (.up p l)).cause = some .other) :
    s.retrainFail (.up p l) = s.failAttempt p l := by
  have htraining : ¬ (s.lst (.up p l) ≠ 2 ∧ s.lst (.up p l) ≠ 3) := by omega
  simp only [State.retrainFail, htraining, if_false, hcause]

theorem lst_retire (s : State) (p : Port) (l : Fin 8) : (s.retire p l).lst (.up p l) = 7 :=
  (lst_raisePort _ p p l (by decide) _).trans (lst_setLst s (.up p l) 7)

theorem failAttempt_third (hattempts : (s.lane (.up p l)).attempts = 2) : (s.failAttempt p l).lst (.up p l) = 7 := by
  simp only [State.failAttempt, hattempts, Nat.reduceAdd, Nat.le_refl, if_true, lst_retire]

/-! ### Orders (R108, R110, R122) -/

theorem exec_laneRetrainOrder_up (hopen : s.bar0Open) : exec (.laneRetrainOrder (.up p l)) s = .next (s.orderRetrain p l) :=
  congrArg Host.Outcome.next (bar0_of_open hopen _)

theorem exec_laneRetrainOrder_ring {d : Side} (hopen : s.bar0Open) (hst : s.lst (.ring d) ≠ 0) : exec (.laneRetrainOrder (.ring d)) s =
    .next ((s.updLane (.ring d) fun x => { x with fails := 0, attempts := 0, cause := some .other }).enterTrain (.ring d)) := by
  show Host.Outcome.next (s.bar0 _) = _
  rw [bar0_of_open hopen]
  exact congrArg _ (if_neg hst)

theorem orderRetrain_active (hst : s.lst (.up p l) = 5) : s.orderRetrain p l = s.retrainLane p l .other 0 := by
  simp only [State.orderRetrain, hst, OfNat.ofNat_ne_zero, Nat.reduceEqDiff, if_false, if_true]

theorem orderRetrain_asleep (hst : s.lst (.up p l) = 6) : s.orderRetrain p l =
    (s.updLane (.up p l) fun x => { x with cause := some .other }).emit (.orderedSet p false true 0x5A) := by
  simp only [State.orderRetrain, hst, OfNat.ofNat_ne_zero, if_false, if_true, State.askWake]

theorem orderRetrain_retired (hst : s.lst (.up p l) = 7) : s.orderRetrain p l =
    (s.updLane (.up p l) fun x => { x with fails := 0, attempts := 0, cause := some .other }).enterTrain (.up p l) := by
  simp only [State.orderRetrain, hst, OfNat.ofNat_ne_zero, Nat.reduceEqDiff, if_false]

end

/-! ### LANE_EN (R122) -/

section
variable {s : State} {p : Port}

theorem exec_laneEnWrite (hopen : s.bar0Open) (m : Byte) : exec (.laneEnWrite p m) s =
    .next (fins8.foldl (fun s (l : Fin 8) => s.laneEnBit p (bitAt m.toNat l.val) l) s) :=
  congrArg Host.Outcome.next (bar0_of_open hopen _)

theorem laneEnBit_of_same {v : Bool} {l : Fin 8} (h : bitAt (s.zget (ZP.LCTL.LANE_EN.port p)) l = v) : s.laneEnBit p v l = s := if_pos h

/-- The lane of a cleared bit that stands outside the mask is disabled. -/
def State.laneOff (s : State) (p : Port) (l : Fin 8) : State :=
  (s.zput (ZP.LCTL.LANE_EN.port p) (clearBit (s.zget (ZP.LCTL.LANE_EN.port p)) l)).setLst (.up p l) 0

theorem laneEnBit_clear {l : Fin 8} (hset : bitAt (s.zget (ZP.LCTL.LANE_EN.port p)) l = true) (hmask : (s.port p).mask = 0) :
    s.laneEnBit p false l = s.laneOff p l := by
  have hout : bitAt (s.port p).mask l = false := by simp [hmask, bitAt]
  have hput (v : Nat) : (s.zput (ZP.LCTL.LANE_EN.port p) v).port p = s.port p := rfl
  simp [State.laneEnBit, hset, hput, hout, State.laneOff]

theorem laneOff_laneEn (l : Fin 8) : (s.laneOff p l).zget (ZP.LCTL.LANE_EN.port p) = clearBit (s.zget (ZP.LCTL.LANE_EN.port p)) l % 256 := by
  have hkey : (ZP.LCTL.LANE_EN.port p).key ≠ (laneF ZP.LSTATm.STATE p l).key := Ne.symm (laneF_key_ne_port (by decide) p l)
  exact (State.zget_zput_ne _ _ hkey).trans (State.zget_zput ..)

theorem laneOff_onlyRegs (l : Fin 8) : onlyRegs [ZP.LCTL.LANE_EN.port p, laneF ZP.LSTATm.STATE p l] s (s.laneOff p l) := by
  refine ⟨rfl, fun k hk => ?_⟩
  simp only [List.map_cons, List.map_nil, List.mem_cons, List.not_mem_nil, or_false, not_or] at hk
  exact (get_fset_ne _ _ hk.2).trans (get_fset_ne _ _ hk.1)

end

theorem bitAt_eq_testBit (v i : Nat) : bitAt v i = v.testBit i := by
  rw [Nat.testBit_eq_decide_div_mod_eq, bitAt]
  rfl

/-- A set bit taken out of a mask is turned in its low byte. -/
theorem ofNat_clearBit {v : Nat} {l : Fin 8} (hset : bitAt v l = true) :
    BitVec.ofNat 8 (clearBit v l) = BitVec.ofNat 8 v ^^^ BitVec.ofNat 8 (2 ^ l.val) := by
  have hbit : v.testBit l = true := (bitAt_eq_testBit v l).symm.trans hset
  obtain ⟨c, rfl⟩ := Nat.exists_eq_add_of_le (Nat.ge_two_pow_of_testBit hbit)
  have hclear : clearBit (2 ^ l.val + c) l = c := by rw [clearBit, if_pos hset, Nat.add_sub_cancel_left]
  have hc : c.testBit l = false := by simpa [Nat.testBit_two_pow_add_eq] using hbit
  have happart : BitVec.ofNat 8 (2 ^ l.val) &&& BitVec.ofNat 8 c = 0#8 := by
    refine BitVec.eq_of_getLsbD_eq fun i hi => ?_
    rw [BitVec.getLsbD_and, BitVec.getLsbD_ofNat, BitVec.getLsbD_ofNat, Nat.testBit_two_pow]
    by_cases h : l.val = i
    · simp [← h, hc]
    · simp [h]
  rw [hclear, BitVec.ofNat_add, BitVec.add_eq_or_of_and_eq_zero _ _ happart]
  refine BitVec.eq_of_getLsbD_eq fun i hi => ?_
  have hapart := congrArg (fun x : BitVec 8 => x.getLsbD i) happart
  rw [BitVec.getLsbD_and, BitVec.getLsbD_zero] at hapart
  have hxor : ∀ a b : Bool, (a && b) = false → b = ((a || b) ^^ a) := by decide
  rw [BitVec.getLsbD_xor, BitVec.getLsbD_or]
  exact hxor _ _ hapart

theorem mem_fins8 : ∀ l : Fin 8, l ∈ fins8 := by decide

section
variable {s : State} {p : Port} {l : Fin 8} {m : Byte}

theorem laneEnBits_of_same {ls : List (Fin 8)} (h : ∀ j ∈ ls, bitAt (s.zget (ZP.LCTL.LANE_EN.port p)) j.val = bitAt m.toNat j.val) :
    ls.foldl (fun s (j : Fin 8) => s.laneEnBit p (bitAt m.toNat j.val) j) s = s :=
  foldl_fixed ls _ s fun j hj => laneEnBit_of_same (h j hj)

/-- A write that clears one bit disables its lane, outside the mask, and leaves the other lanes. -/
theorem laneEnBits_of_clear (hm : m = BitVec.ofNat 8 (s.zget (ZP.LCTL.LANE_EN.port p)) ^^^ BitVec.ofNat 8 (2 ^ l.val))
    (hset : bitAt (s.zget (ZP.LCTL.LANE_EN.port p)) l = true) (hmask : (s.port p).mask = 0) :
    fins8.foldl (fun s (j : Fin 8) => s.laneEnBit p (bitAt m.toNat j.val) j) s = s.laneOff p l ∧
      (s.laneOff p l).zget (ZP.LCTL.LANE_EN.port p) = m.toNat := by
  have hbits (j : Fin 8) : bitAt m.toNat j = (bitAt (s.zget (ZP.LCTL.LANE_EN.port p)) j ^^ decide (l = j)) := by
    rw [bitAt_eq_testBit, BitVec.testBit_toNat, hm, BitVec.getLsbD_xor, BitVec.getLsbD_ofNat, BitVec.getLsbD_ofNat, Nat.testBit_two_pow]
    simp [bitAt_eq_testBit, Fin.ext_iff]
  have hwritten : (s.laneOff p l).zget (ZP.LCTL.LANE_EN.port p) = m.toNat := by
    rw [laneOff_laneEn, hm, ← ofNat_clearBit hset, BitVec.toNat_ofNat]
  obtain ⟨before, after, hsplit, hnot⟩ := List.eq_append_cons_of_mem (mem_fins8 l)
  have hbefore (j : Fin 8) (hj : j ∈ before) : bitAt (s.zget (ZP.LCTL.LANE_EN.port p)) j.val = bitAt m.toNat j.val := by
    have hne : l ≠ j := fun h => hnot (h ▸ hj)
    simp [hbits, hne]
  have hoff : bitAt m.toNat l.val = false := by simp [hbits, hset]
  refine ⟨?_, hwritten⟩
  rw [hsplit, List.foldl_append, laneEnBits_of_same hbefore, List.foldl_cons, hoff, laneEnBit_clear hset hmask]
  exact laneEnBits_of_same fun j _ => by rw [hwritten]

end

/-- Settles O19: each clause is one branch of `State.retrainLane`, `State.retrainFail`, `State.orderRetrain` or `State.laneEnBit`. -/
theorem retraining : Obligations.Retraining := by
  unfold Obligations.Retraining
  refine ⟨fun s p l b hst hbad => ⟨fun hintact hkind hloop => exec_uplinkBlockReceive_of_intact hst hintact hkind hbad hloop,
      fun hintact hlimit => ?_⟩,
    fun s p l c out => ⟨fun hin hmore => retrainLane_of_member hin hmore c out, fun hlast => retrainLane_of_last hlast c out,
      fun hout hstay => retrainLane_of_outside hout hstay c out⟩,
    fun s p l hst => ⟨fun hcause => congrArg _ (retrainFail_eye hst hcause), fun hcause hattempts => ⟨_, rfl, ?_⟩⟩,
    fun s p l hopen => ⟨fun hst => ?_, fun hst => ?_, fun hst => ?_, rfl, congrArg _ (bar0_of_open hopen _), fun m hm => ?_,
      fun m hm hset hmask => ?_⟩,
    fun s d hopen hst => exec_laneRetrainOrder_ring hopen hst⟩
  · obtain ⟨f, hf⟩ := discardBlock_of_no_limit hlimit l b
    rw [exec_uplinkBlockReceive_of_damaged hst hintact, hf]
    exact ⟨_, rfl, rfl, fun k hk => get_fadd_ne _ _ (by simpa using hk), State.zget_zbump ..⟩
  · rw [retrainFail_other hst hcause]
    exact failAttempt_third hattempts
  · rw [exec_laneRetrainOrder_up hopen, orderRetrain_active hst]
  · rw [exec_laneRetrainOrder_up hopen, orderRetrain_asleep hst]
  · rw [exec_laneRetrainOrder_up hopen, orderRetrain_retired hst]
  · rw [exec_laneEnWrite hopen, laneEnBits_of_same fun j _ => by rw [hm]]
  · obtain ⟨hoff, hwritten⟩ := laneEnBits_of_clear hm hset hmask
    obtain ⟨hframe, hregs⟩ := laneOff_onlyRegs (s := s) (p := p) l
    exact ⟨_, (exec_laneEnWrite hopen m).trans (congrArg _ hoff), hframe, hregs, lst_setLst _ (.up p l) 0, hwritten⟩

end Sys2Proof.Machine
end

section
/-!
PROOFS. Uplink sleep and downlink quiet (R111 to R116): requests, what Pelnos answers, the wake, and the quiet of the downlink.
-/

namespace Sys2Proof.Machine

section
variable {s : State} {p : Port}

/-! ### Zwiuc asks (R112, R114) -/

theorem exec_ulSleepRequest (hopen : s.bar0Open) : exec (.ulSleepRequest p) s = .next (((s.zput (ZP.LCTL.UL_SLEEP.port p) 1).setPort p
    { s.port p with sleepWait := !(s.port p).asleep }).emit (.orderedSet p false false 0x5A)) :=
  congrArg Host.Outcome.next (bar0_of_open hopen _)

theorem exec_ulWakeRequest (hopen : s.bar0Open) : exec (.ulWakeRequest p) s = .next ((s.zput (ZP.LCTL.UL_SLEEP.port p) 0).emit
    (.orderedSet p false true 0x5A)) :=
  congrArg Host.Outcome.next (bar0_of_open hopen _)

/-! ### Pelnos answers (R112, R113) -/

theorem sleepOk_of_calm (hen : (s.chip p).get P.LINK_CTL.SLEEP_EN = 1) (hfe : (s.chip p).get P.FE_CFG.FE_EN = 0)
    (hinj : (s.chip p).inj = none) (hcsu : (s.chip p).csu = none) (hlanes : ∀ l : Fin 8, s.lst (.up p l) = 5) : s.sleepOk p = true := by
  simp [State.sleepOk, hen, hfe, Pelnos.injBusy, hinj, Pelnos.csuBusy, hcsu, hlanes]

theorem sleepOk_of_busy (h : (s.chip p).get P.LINK_CTL.SLEEP_EN = 0 ∨ (s.chip p).get P.FE_CFG.FE_EN = 1 ∨ (s.chip p).inj ≠ none ∨
    (s.chip p).csu ≠ none) : s.sleepOk p = false := by
  rcases h with h | h | h | h
  · simp [State.sleepOk, h]
  · simp [State.sleepOk, h]
  · simp [State.sleepOk, Pelnos.injBusy, Option.isSome_iff_ne_none.mpr h]
  · simp [State.sleepOk, Pelnos.csuBusy, Option.isSome_iff_ne_none.mpr h]

/-- With nothing left to send no frame counts as slept through. -/
theorem fallAsleep_of_empty {c : Pelnos} (hclosed : c.closed = []) (hsending : c.sending = []) :
    c.fallAsleep = (c.bump P.SLEEP_FRAMES.COUNT 0).put P.LINK_STAT.UL_ASLEEP 1 := by
  have hsame : ({ c with closed := [], sending := [], seq := c.seq } : Pelnos) = c := by rw [← hclosed, ← hsending]
  simp only [Pelnos.fallAsleep, hclosed, hsending, List.length_nil, ne_eq, not_true, decide_false, b2n, Bool.false_eq_true, if_false,
    Nat.add_zero, hsame]

section
variable (hlive : (s.chip p).inReset = false) (hawake : (s.chip p).get P.LINK_STAT.UL_ASLEEP = 0)
include hlive hawake

theorem exec_sleepReqReceive_of_ok (hok : s.sleepOk p = true) :
    exec (.sleepReqReceive p) s = .next ((s.setChip p (s.chip p).fallAsleep).emit (.orderedSet p true false 0xA5)) :=
  congrArg Host.Outcome.next ((if_neg (by simp [hlive, hawake])).trans (if_pos hok))

theorem exec_sleepReqReceive_of_refused (hno : s.sleepOk p = false) :
    exec (.sleepReqReceive p) s = .next (s.setChip p ((s.chip p).put P.LINK_STAT.SLEEP_REFUSED 1)) :=
  congrArg Host.Outcome.next ((if_neg (by simp [hlive, hawake])).trans (if_neg (by simp [hno])))

end

/-! ### The wake (R114) -/

theorem wakeCause_of_front_end {c : Pelnos} (h : c.get P.FE_CFG.FE_EN = 1 ∨ c.amOvf = true) : c.wakeCause = true := by
  rcases h with h | h <;> simp [Pelnos.wakeCause, h]

theorem exec_selfWake_of_cause (hauto : (s.chip p).get P.LINK_CTL.AUTO_WAKE = 1) (hasleep : (s.chip p).get P.LINK_STAT.UL_ASLEEP = 1)
    (hcause : (s.chip p).wakeCause = true) : exec (.selfWake p) s = .next (s.setChip p { s.chip p with waking := true }) :=
  congrArg Host.Outcome.next (if_pos ⟨hauto, hasleep, hcause⟩)

theorem lane_mergeUp (s : State) (p : Port) (k : Link) : (s.mergeUp p).lane k = s.lane k := by
  unfold State.mergeUp
  split <;> rfl

/-- A lane that sleeps without an order wakes into ACTIVE. -/
theorem exec_wakeReceive_of_asleep {l : Fin 8} (hst : s.lst (.up p l) = 6) (hcause : (s.lane (.up p l)).cause = none) :
    exec (.wakeReceive p l) s = .next (((s.zput (laneF ZP.LSTATm.STATE p l) 5).setPort p { s.port p with asleep := false }).mergeUp p) := by
  have hunordered : ¬ ((((s.zput (laneF ZP.LSTATm.STATE p l) 5).setPort p { s.port p with asleep := false }).mergeUp p).lane
      (.up p l)).cause.isSome = true := by simp [lane_mergeUp, hcause]
  exact congrArg Host.Outcome.next ((if_pos hst).trans (if_neg hunordered))

end

/-- Settles O20: each clause is the branch of its command that the hypotheses name; a Pelnos falls asleep by `State.sleepOk`. -/
theorem sleepAndQuiet : Obligations.SleepAndQuiet := by
  unfold Obligations.SleepAndQuiet
  rintro s p _ _ rfl rfl
  exact ⟨exec_ulSleepRequest, exec_ulWakeRequest,
    fun hlive hawake => ⟨fun hen hfe hinj hcsu hlanes hclosed hsending => by
        rw [exec_sleepReqReceive_of_ok hlive hawake (sleepOk_of_calm hen hfe hinj hcsu hlanes), fallAsleep_of_empty hclosed hsending],
      fun hbusy => exec_sleepReqReceive_of_refused hlive hawake (sleepOk_of_busy hbusy)⟩,
    fun l hst => congrArg _ (if_pos hst), fun hwait => congrArg _ (if_pos hwait),
    fun hasleep hlive => congrArg _ (if_pos ⟨hasleep, by simp [hlive]⟩),
    fun hauto hasleep hcause => exec_selfWake_of_cause hauto hasleep (wakeCause_of_front_end hcause),
    fun hmanual => congrArg _ (if_neg (by simp [hmanual])), fun hwaking => congrArg _ (if_pos hwaking),
    fun l hst hcause => exec_wakeReceive_of_asleep hst hcause, fun l hst => congrArg _ (if_pos hst),
    fun hordered hloud hidle => congrArg _ (if_pos ⟨hordered, hloud, hidle⟩), fun hquiet => congrArg _ (if_pos hquiet)⟩

end Sys2Proof.Machine
end

section
/-!
PROOFS. Loops, pattern generators and checkers, and the eye monitor (R117 to R122).
-/

namespace Sys2Proof.Machine

/-! ### P_LINK_CTL (R121) -/

/-- The bits that a write of its one word gives to a field. -/
theorem Field.merged_of_word {f : Field} (hfit : f.lsb + f.wid ≤ 32) (w old : Nat) : f.merged f.off w old = bits w f.lsb f.wid := by
  have hbits (v : Nat) : v / 2 ^ f.lsb % 2 ^ f.wid = v % 2 ^ (f.lsb + f.wid) / 2 ^ f.lsb := by
    rw [Nat.pow_add, Nat.mod_mul_right_div_self]
  have hlow (a : Nat) : (w % 2 ^ 32 + a * 2 ^ 32) % 2 ^ (f.lsb + f.wid) = w % 2 ^ (f.lsb + f.wid) := by
    have hdvd : 2 ^ (f.lsb + f.wid) ∣ 2 ^ 32 := Nat.pow_dvd_pow 2 hfit
    rw [← Nat.mod_mod_of_dvd _ hdvd, Nat.add_mul_mod_self_right, Nat.mod_mod, Nat.mod_mod_of_dvd _ hdvd]
  simp only [Field.merged, Nat.sub_self, Nat.mul_zero, Nat.pow_zero, Nat.mod_one, Nat.zero_add, Nat.mul_one, hbits, hlow, bits]

theorem linkCtl_fields : fieldsAt 1 P.rows 0x200 = [P.LINK_CTL.SLEEP_EN, P.LINK_CTL.AUTO_WAKE, P.LINK_CTL.LOOP, P.LINK_CTL.LOOP_LANE] := by
  decide

section
variable {c : Pelnos}

/-- What a write of `w` to the word at `a` does by the access type of its field `f`. -/
def Pelnos.writeField (c : Pelnos) (a w : Nat) (f : Field) : Pelnos :=
  if f.acc = .sh then c.stage f (bits w f.lsb f.wid)
  else if f = P.LINK_STAT.DL_LOST then { c with regs := fwrite c.regs { f with acc := .w1c } a w }
  else { c with regs := fwrite c.regs f a w }

theorem writePlain_eq_foldl (c : Pelnos) (a w : Nat) : c.writePlain a w = (fieldsAt 1 P.rows a).foldl (fun c f => c.writeField a w f) c := rfl

theorem writeField_of_rw {a : Nat} {f : Field} (hrw : f.acc = .rw) (hoff : f.off = a) (hfit : f.lsb + f.wid ≤ 32) (w : Nat) :
    c.writeField a w f = c.put f (bits w f.lsb f.wid) := by
  have hlost : f ≠ P.LINK_STAT.DL_LOST := fun h => by simp [h, P.LINK_STAT.DL_LOST] at hrw
  subst hoff
  rw [Pelnos.writeField, if_neg (by simp [hrw]), if_neg hlost, fwrite_of_rw _ _ _ (.inl hrw), Field.merged_of_word hfit, Pelnos.put]

/-- The settings of P_LINK_CTL. -/
def Pelnos.setLinkCtl (c : Pelnos) (sleep auto loop lane : Nat) : Pelnos :=
  (((c.put P.LINK_CTL.SLEEP_EN sleep).put P.LINK_CTL.AUTO_WAKE auto).put P.LINK_CTL.LOOP loop).put P.LINK_CTL.LOOP_LANE lane

theorem setLinkCtl_get (c : Pelnos) (sleep auto loop lane : Nat) :
    (c.setLinkCtl sleep auto loop lane).get P.LINK_CTL.SLEEP_EN = sleep % 2 ∧
    (c.setLinkCtl sleep auto loop lane).get P.LINK_CTL.AUTO_WAKE = auto % 2 ∧
    (c.setLinkCtl sleep auto loop lane).get P.LINK_CTL.LOOP = loop % 4 ∧
    (c.setLinkCtl sleep auto loop lane).get P.LINK_CTL.LOOP_LANE = lane % 8 := by
  refine ⟨?_, ?_, ?_, fget_fset_same _ _ _⟩
  · exact (fget_fset_ne _ _ (by decide)).trans ((fget_fset_ne _ _ (by decide)).trans ((fget_fset_ne _ _ (by decide)).trans
      (fget_fset_same _ _ _)))
  · exact (fget_fset_ne _ _ (by decide)).trans ((fget_fset_ne _ _ (by decide)).trans (fget_fset_same _ _ _))
  · exact (fget_fset_ne _ _ (by decide)).trans (fget_fset_same _ _ _)

theorem writePlain_linkCtl (c : Pelnos) (w : Nat) :
    c.writePlain 0x200 w = c.setLinkCtl (bits w 0 1) (bits w 1 1) (bits w 2 2) (bits w 4 3) := by
  rw [writePlain_eq_foldl, linkCtl_fields]
  simp only [List.foldl_cons, List.foldl_nil]
  rw [writeField_of_rw (a := 0x200) (f := P.LINK_CTL.SLEEP_EN) rfl rfl (by decide),
    writeField_of_rw (a := 0x200) (f := P.LINK_CTL.AUTO_WAKE) rfl rfl (by decide),
    writeField_of_rw (a := 0x200) (f := P.LINK_CTL.LOOP) rfl rfl (by decide),
    writeField_of_rw (a := 0x200) (f := P.LINK_CTL.LOOP_LANE) rfl rfl (by decide)]
  rfl

theorem writeReg_linkCtl (c : Pelnos) (w : Nat) : ∃ fp, c.writeReg 0x200 w = (c.writePlain 0x200 w).withPulse fp := by
  have hplain : c.writeReg 0x200 w = forAfter c (c.writePlain 0x200 w) := by simp [Pelnos.writeReg]
  rw [hplain]
  exact forAfter_eq_withPulse c _

/-- Without a loop the low two bits of the word are SLEEP_EN and AUTO_WAKE. -/
theorem linkCtl_word_mod (hloop : c.get P.LINK_CTL.LOOP = 0) (hsleep : c.get P.LINK_CTL.SLEEP_EN ≤ 1) (hauto : c.get P.LINK_CTL.AUTO_WAKE ≤ 1) :
    c.word 0x200 % 4 = c.get P.LINK_CTL.SLEEP_EN + 2 * c.get P.LINK_CTL.AUTO_WAKE := by
  have hword : c.word 0x200 = 0 + P.LINK_CTL.SLEEP_EN.place 0x200 (c.get P.LINK_CTL.SLEEP_EN) +
      P.LINK_CTL.AUTO_WAKE.place 0x200 (c.get P.LINK_CTL.AUTO_WAKE) + P.LINK_CTL.LOOP.place 0x200 (c.get P.LINK_CTL.LOOP) +
      P.LINK_CTL.LOOP_LANE.place 0x200 (c.get P.LINK_CTL.LOOP_LANE) := by
    rw [Pelnos.word, linkCtl_fields]
    rfl
  rw [hword, hloop]
  simp only [Field.place, P.LINK_CTL.SLEEP_EN, P.LINK_CTL.AUTO_WAKE, P.LINK_CTL.LOOP, P.LINK_CTL.LOOP_LANE] at hsleep hauto ⊢
  omega

/-- The write of LOOP and LOOP_LANE that keeps the other two settings. -/
theorem writeReg_loop (hloop : c.get P.LINK_CTL.LOOP = 0) (hsleep : c.get P.LINK_CTL.SLEEP_EN ≤ 1) (hauto : c.get P.LINK_CTL.AUTO_WAKE ≤ 1)
    (loop : Fin 4) (l : Fin 8) : ∃ fp, c.writeReg 0x200 (c.word 0x200 % 4 + 4 * loop + 16 * l) =
      (c.setLinkCtl (c.get P.LINK_CTL.SLEEP_EN) (c.get P.LINK_CTL.AUTO_WAKE) loop l).withPulse fp := by
  have hl := l.isLt
  have hk := loop.isLt
  have hbits (w : Nat) (hw : w = c.get P.LINK_CTL.SLEEP_EN + 2 * c.get P.LINK_CTL.AUTO_WAKE + 4 * loop + 16 * l) :
      bits w 0 1 = c.get P.LINK_CTL.SLEEP_EN ∧ bits w 1 1 = c.get P.LINK_CTL.AUTO_WAKE ∧ bits w 2 2 = loop ∧ bits w 4 3 = l := by
    simp only [bits]
    omega
  obtain ⟨fp, hfp⟩ := writeReg_linkCtl c (c.word 0x200 % 4 + 4 * loop + 16 * l)
  obtain ⟨h0, h1, h2, h4⟩ := hbits (c.word 0x200 % 4 + 4 * loop + 16 * l) (by rw [linkCtl_word_mod hloop hsleep hauto])
  exact ⟨fp, by rw [hfp, writePlain_linkCtl, h0, h1, h2, h4]⟩

end

/-! ### Near-end loops (R117) -/

theorem nearLoop_none (s : State) (p : Port) (a b : Fin 8) : s.nearLoop p false a false b = s := by simp [State.nearLoop]

theorem nearLoop_set (s : State) (p : Port) (a b : Fin 8) : s.nearLoop p false a true b = s.nearLoopOn p b := by simp [State.nearLoop]

theorem nearLoopOn_of_outside {s : State} {p : Port} {l : Fin 8} (hout : bitAt (s.port p).mask l = false) :
    s.nearLoopOn p l = s.zput (laneF ZP.LSTATm.LOOPED p l) 1 := if_neg (Bool.eq_false_iff.mp hout)

/-- The near-end loop that P_LINK_CTL sets: codes 1 and 2 loop. -/
def Pelnos.nearOn (c : Pelnos) : Bool := c.get P.LINK_CTL.LOOP == 1 || c.get P.LINK_CTL.LOOP == 2

theorem pWrite_linkCtl {s : State} {p : Port} {w : Nat} {d : Pelnos} (hd : (s.chip p).writeReg 0x200 w = d) :
    s.pWrite p 0x200 w = (s.setChip p d).nearLoop p (s.chip p).nearOn (fin8 ((s.chip p).get P.LINK_CTL.LOOP_LANE)) d.nearOn
      (fin8 (d.get P.LINK_CTL.LOOP_LANE)) := by
  subst hd
  rw [State.pWrite, updChip_eq_setChip]
  simp only [if_true, chip_setChip]
  rfl

theorem exec_nearEndLoop_of_outside {s : State} {p : Port} {c : Pelnos} (hc : s.chip p = c) {loop : Fin 4} {l : Fin 8}
    (hnear : loop = 1 ∨ loop = 2) (hloop : c.get P.LINK_CTL.LOOP = 0) (hsleep : c.get P.LINK_CTL.SLEEP_EN ≤ 1)
    (hauto : c.get P.LINK_CTL.AUTO_WAKE ≤ 1) (hout : bitAt (s.port p).mask l = false) :
    ∃ fp, exec (.nearEndLoop p loop l) s = .next ((s.setChip p
      ((c.setLinkCtl (c.get P.LINK_CTL.SLEEP_EN) (c.get P.LINK_CTL.AUTO_WAKE) loop l).withPulse fp)).zput (laneF ZP.LSTATm.LOOPED p l) 1) := by
  subst hc
  obtain ⟨fp, hfp⟩ := writeReg_loop hloop hsleep hauto loop l
  obtain ⟨-, -, hset, hlane⟩ := setLinkCtl_get (s.chip p) ((s.chip p).get P.LINK_CTL.SLEEP_EN) ((s.chip p).get P.LINK_CTL.AUTO_WAKE) loop l
  refine ⟨fp, congrArg Host.Outcome.next ((pWrite_linkCtl hfp).trans ?_)⟩
  generalize (s.chip p).setLinkCtl ((s.chip p).get P.LINK_CTL.SLEEP_EN) ((s.chip p).get P.LINK_CTL.AUTO_WAKE) loop l = d at hset hlane ⊢
  have hwas : (s.chip p).nearOn = false := by simp [Pelnos.nearOn, hloop]
  have hon : (d.withPulse fp).nearOn = true := by
    have hget : (d.withPulse fp).get P.LINK_CTL.LOOP = loop % 4 := hset
    rcases hnear with rfl | rfl <;> simp [Pelnos.nearOn, hget]
  have hfin : fin8 ((d.withPulse fp).get P.LINK_CTL.LOOP_LANE) = l := by
    have hget : (d.withPulse fp).get P.LINK_CTL.LOOP_LANE = l % 8 := hlane
    simp [fin8, hget, Fin.ext_iff, Fin.ofNat]
  rw [hwas, hon, hfin, nearLoop_set]
  exact nearLoopOn_of_outside hout

/-! ### Far-end loops (R117, R118) -/

section
variable {s : State} {p : Port}

theorem exec_portLoopWrite (hopen : s.bar0Open) (loop : Fin 4) (l : Fin 8) :
    exec (.portLoopWrite p loop l) s = .next (s.portLoop p loop l) := congrArg Host.Outcome.next (bar0_of_open hopen _)

theorem portLoop_far_of_run (hrun : s.run.active = true) (hwas : s.zget (ZP.LCTL.LOOP.port p) ≠ 3) (l : Fin 8) :
    s.portLoop p 3 l = s.raisePort p 8 [3, b8 l] := if_pos ⟨rfl, hwas, hrun⟩

theorem portLoop_far_of_idle (hrun : s.run.active = false) (hwas : s.zget (ZP.LCTL.LOOP.port p) = 0) (hawake : (s.port p).asleep = false)
    (l : Fin 8) : s.portLoop p 3 l =
      ((s.zput (ZP.LCTL.LOOP.port p) 3).zput (ZP.LCTL.LOOP_LANE.port p) l).dlBlock p .loop (loopPayload l 1) := by
  simp [State.portLoop, hrun, hwas, hawake, nearLoop_none]

/-- An intact LOOP block reaches a Pelnos whose downlink is in ACTIVE; it is not sent back by the loop in force. -/
theorem dlReceive_of_loop {b : RxBlock} (hintact : intact (.down p) b = true) (hkind : b.blk.kind = .loop)
    (hlive : (s.chip p).inReset = false) (hbad : (s.lane (.down p)).badKind = 0) (hst : s.lst (.down p) = 5)
    (hdl : (s.chip p).get P.LINK_STAT.DL_STATE = 5) : s.dlReceive p b = (s, some b.blk) := by
  have hreceive : s.receive (.down p) b = (s, some b.blk) := receive_of_intact hintact hbad (by simp [hkind])
  simp [State.dlReceive, hlive, hreceive, hkind, hst, hdl]

theorem loopAtPelnos_of_on {b : Block} {l : Fin 8} (hlane : pbyte b 0 = l) (hon : pbyte b 1 = 1) (crc : Half) : s.loopAtPelnos p b crc =
    (s.setChip p { (s.chip p).put P.LINK_STAT.FAR_LOOP 1 with loopLane := l }).emit (.uplink p l b crc) := by
  have hmod : l.val % 8 = l := Nat.mod_eq_of_lt l.isLt
  simp [State.loopAtPelnos, hlane, hon, hmod, updChip_eq_setChip]

theorem loopAnswer_of_on {b : Block} (hon : pbyte b 1 = 1) (l : Fin 8) : s.loopAnswer p l b = s.zput (laneF ZP.LSTATm.LOOPED p l) 1 :=
  if_pos hon

theorem loopRing_of_order {d : Side} {b : Block} (hon : pbyte b 1 = 1) (hwas : s.zget (ZP.LSTATm.LOOPED.ringLane d) = 0)
    (hown : s.zget (ZP.LCTL.LOOP.ringLane d) ≠ 3) (crc : Half) : s.loopRing d b crc =
      ((s.zput (ZP.LSTATm.LOOPED.ringLane d) 1).ringLink d 2 0).emit (.ring d b crc) := by
  simp [State.loopRing, hon, hwas, hown, b2n]

section
variable {b : RxBlock} (hkind : b.blk.kind = .loop)
include hkind

theorem exec_loopBlockReceive_down (hintact : intact (.down p) b = true) (hlive : (s.chip p).inReset = false)
    (hbad : (s.lane (.down p)).badKind = 0) (hst : s.lst (.down p) = 5) (hdl : (s.chip p).get P.LINK_STAT.DL_STATE = 5) :
    exec (.loopBlockReceive (.down p) b) s = .next (s.loopAtPelnos p b.blk b.crc) := by
  show execLoopBlockReceive (.down p) b s = _
  simp only [execLoopBlockReceive, dlReceive_of_loop hintact hkind hlive hbad hst hdl, hkind, if_true]

theorem exec_loopBlockReceive_up {l : Fin 8} (hintact : intact (.up p l) b = true) (hbad : (s.lane (.up p l)).badKind = 0) :
    exec (.loopBlockReceive (.up p l) b) s = .next (s.loopAnswer p l b.blk) := by
  show execLoopBlockReceive (.up p l) b s = _
  simp only [execLoopBlockReceive, receive_of_intact hintact hbad (show b.blk.kind ≠ .data by simp [hkind]), hkind, if_true]

theorem exec_loopBlockReceive_ring {d : Side} (hintact : intact (.ring d) b = true) (hbad : (s.lane (.ring d)).badKind = 0) :
    exec (.loopBlockReceive (.ring d) b) s = .next (s.loopRing d b.blk b.crc) := by
  show execLoopBlockReceive (.ring d) b s = _
  simp only [execLoopBlockReceive, receive_of_intact hintact hbad (show b.blk.kind ≠ .data by simp [hkind]), hkind, if_true]

end

/-! ### Generators and checkers (R119) -/

theorem prbsGen_up_of_outside {l : Fin 8} (hout : bitAt (s.chip p).laneMask l = false) (hawake : (s.chip p).get P.LINK_STAT.UL_ASLEEP = 0) :
    s.prbsGen (.up p l) = (s.setChip p ((s.chip p).put P.PRBS_CFG.GEN_EN ((s.chip p).get P.PRBS_CFG.GEN_EN ||| 2 ^ l.val))).updLane
      (.up p l) fun x => { x with gen := true } := by
  have hstill (v : Nat) : ((s.chip p).put P.PRBS_CFG.GEN_EN v).get P.LINK_STAT.UL_ASLEEP = 0 := (fget_fset_ne _ _ (by decide)).trans hawake
  have hmask (v : Nat) : ((s.chip p).put P.PRBS_CFG.GEN_EN v).laneMask = (s.chip p).laneMask := rfl
  simp [State.prbsGen, updChip_eq_setChip, hstill, hmask, hout]

theorem prbsLock_of_run {k : Link} (hcheck : (s.prbsCfg k).1 = true) (hunlocked : (s.prbsCfg k).2.2 = false)
    (hrun : 64 ≤ (s.lane k).prbsRun) :
    s.prbsLock k = (s.updLane k fun y => { y with prbsWinErr := 0, prbsWinBits := 0 }).setPrbsLock k true := by
  simp only [State.prbsLock, hunlocked, Bool.false_eq_true, if_false, hcheck, hrun, and_self, if_true]

theorem prbsLock_of_errors {k : Link} (hlocked : (s.prbsCfg k).2.2 = true) (herrs : 256 < (s.lane k).prbsWinErr) :
    s.prbsLock k = (s.updLane k fun y => { y with prbsRun := 0, prbsWinErr := 0, prbsWinBits := 0 }).setPrbsLock k false := by
  simp only [State.prbsLock, hlocked, herrs, if_true]

theorem exec_portPrbsClear (hopen : s.bar0Open) (l : Fin 8) : ∃ t, exec (.portPrbsClear p) s = .next t ∧ t = s.updLanes (fun _ => t.lanes) ∧
    t.lane (.up p l) = { s.lane (.up p l) with prbsErr := 0, prbsBits := 0 } := by
  have hlane := lane_foldl_updLane s p (fun x => { x with prbsErr := 0, prbsBits := 0 }) l
  obtain ⟨t, ht⟩ := foldl_updLane_eq s p (fun x => { x with prbsErr := 0, prbsBits := 0 }) fins8
  rw [ht] at hlane
  exact ⟨_, congrArg Host.Outcome.next ((bar0_of_open hopen _).trans ht), rfl, hlane⟩

/-! ### The eye monitor (R120) -/

/-- An eye result without a lap, as the port's registers and the receiver show it. -/
def State.eyeShown (s : State) (p : Port) (l : Fin 8) (w h : Nat) : State :=
  (s.putEye (fun f => f.port p) l w h none).updLane (.up p l) fun x => { x with eyeW := w, eyeH := h }

theorem putEye_none (s : State) (sh : Field → Field) (l w h : Nat) : s.putEye sh l w h none =
    ((((s.zput (sh ZP.EYE.WIDTH) w).zput (sh ZP.EYE.HEIGHT) h).zput (sh ZP.EYE.LANE) l).zput (sh ZP.EYE.VALID) 1).zput
      (sh ZP.EYE.BELOW_MIN) (b2n (eyeBelow w h)) := rfl

theorem lst_eyeShown (s : State) (p : Port) (l : Fin 8) (w h : Nat) : (s.eyeShown p l w h).lst (.up p l) = s.lst (.up p l) := by
  rw [State.eyeShown, lst_updLane, putEye_none, lst_zput_port _ _ _ _ (by decide), lst_zput_port _ _ _ _ (by decide),
    lst_zput_port _ _ _ _ (by decide), lst_zput_port _ _ _ _ (by decide), lst_zput_port _ _ _ _ (by decide)]

theorem eyeBelow_of_large {w h : Nat} (hw : 20 ≤ w) (hh : 10 ≤ h) : eyeBelow w h = false := by
  simp [eyeBelow, hw, hh]

theorem eyeBelow_of_narrow {w : Nat} (hw : w < 20) (h : Nat) : eyeBelow w h = true := by
  simp [eyeBelow, hw]

theorem eyeDone_up_of_large {l : Fin 8} {w h : Nat} (hlarge : eyeBelow w h = false) : s.eyeDone (.up p l) w h none = s.eyeShown p l w h := by
  simp [State.eyeDone, hlarge, State.eyeShown]

theorem eyeDone_up_of_small {l : Fin 8} {w h : Nat} (hsmall : eyeBelow w h = true) (hst : s.lst (.up p l) ≠ 5) :
    s.eyeDone (.up p l) w h none = (s.eyeShown p l w h).raisePort p 9 ([b8 l, b8 w, b8 h, b8 1] ++ leBytes 0 2) := by
  have hstill (d : List Byte) : ((s.eyeShown p l w h).raisePort p 9 d).lst (.up p l) ≠ 5 := by
    rwa [lst_raisePort _ _ _ _ (by decide), lst_eyeShown]
  have hdone : s.eyeDone (.up p l) w h none =
      if true ∧ ((s.eyeShown p l w h).raisePort p 9 ([b8 l, b8 w, b8 h, b8 1] ++ leBytes 0 2)).lst (.up p l) = 5 then
        ((s.eyeShown p l w h).raisePort p 9 ([b8 l, b8 w, b8 h, b8 1] ++ leBytes 0 2)).retrainLane p l .eye 0
      else (s.eyeShown p l w h).raisePort p 9 ([b8 l, b8 w, b8 h, b8 1] ++ leBytes 0 2) := by
    simp [State.eyeDone, hsmall, State.eyeShown, b2n]
  rw [hdone, if_neg fun h => hstill _ h.2]

theorem eyeDone_down {w h : Nat} (lap : Option (Fin 65536)) : s.eyeDone (.down p) w h lap = s.setChip p
    (((((s.chip p).put P.EYE.WIDTH w).put P.EYE.HEIGHT h).put P.EYE.VALID 1).put P.EYE.BELOW_MIN (b2n (eyeBelow w h))) := rfl

end

theorem exec_eyeScanComplete (k : Link) (w : Fin 64) (h : Byte) (lap : Option (Fin 65536)) (s : State) :
    exec (.eyeScanComplete k w h lap) s = .next (s.eyeDone k w h.toNat lap) := rfl

/-- Settles O21: the write of P_LINK_CTL, the ways of a LOOP block, the branches of `State.prbsGen`, `State.prbsLock` and `State.eyeDone`. -/
theorem loopsAndPatterns : Obligations.LoopsAndPatterns := by
  unfold Obligations.LoopsAndPatterns
  rintro s p _ l rfl
  refine ⟨fun loop hnear hloop hsleep hauto hout => ?_, fun hopen hrun hwas => ?_, fun hopen hrun hwas hawake => ?_,
    fun b hkind _ hlane hon => ⟨fun hintact hlive hbad hst hdl => ?_, fun hintact hbad => ?_, fun d hintact hbad hwas hown => ?_⟩,
    fun hout hawake => congrArg _ (prbsGen_up_of_outside hout hawake), fun hopen => congrArg _ (bar0_of_open hopen _),
    fun d hopen => congrArg _ (bar0_of_open hopen _), fun k hcheck hunlocked hrun => congrArg _ (prbsLock_of_run hcheck hunlocked hrun),
    fun k hlocked herrs => congrArg _ (prbsLock_of_errors hlocked herrs), rfl, fun hopen => exec_portPrbsClear hopen l,
    fun w h hw hh => ⟨?_, ?_⟩, fun w h hw hst => ?_⟩
  · obtain ⟨fp, hfp⟩ := exec_nearEndLoop_of_outside rfl hnear hloop hsleep hauto hout
    obtain ⟨hsleep', hauto', hloop', hlane'⟩ :=
      setLinkCtl_get (s.chip p) ((s.chip p).get P.LINK_CTL.SLEEP_EN) ((s.chip p).get P.LINK_CTL.AUTO_WAKE) loop l
    exact ⟨_, fp, hfp, rfl, hloop'.trans (Nat.mod_eq_of_lt loop.isLt), hlane'.trans (Nat.mod_eq_of_lt l.isLt),
      hsleep'.trans (Nat.mod_eq_of_lt (by omega)), hauto'.trans (Nat.mod_eq_of_lt (by omega))⟩
  · exact (exec_portLoopWrite hopen 3 l).trans (congrArg _ (portLoop_far_of_run hrun hwas l))
  · exact (exec_portLoopWrite hopen 3 l).trans (congrArg _ (portLoop_far_of_idle hrun hwas hawake l))
  · rw [exec_loopBlockReceive_down hkind hintact hlive hbad hst hdl, loopAtPelnos_of_on hlane hon]
  · rw [exec_loopBlockReceive_up hkind hintact hbad, loopAnswer_of_on hon]
  · rw [exec_loopBlockReceive_ring hkind hintact hbad, loopRing_of_order hon hwas hown]
  · have hlarge : eyeBelow w h.toNat = false := eyeBelow_of_large hw hh
    rw [exec_eyeScanComplete, eyeDone_up_of_large hlarge, State.eyeShown, putEye_none, hlarge]
    rfl
  · rw [exec_eyeScanComplete, eyeDone_down, eyeBelow_of_large hw hh]
    rfl
  · have hsmall : eyeBelow w h.toNat = true := eyeBelow_of_narrow hw h.toNat
    have hheight : b8 h.toNat = h := BitVec.ofNat_toNat 8 h
    rw [exec_eyeScanComplete, eyeDone_up_of_small hsmall hst, State.eyeShown, putEye_none, hsmall, hheight]
    rfl

end Sys2Proof.Machine
end

section
/-!
PROOFS. What the operations of ingress share (R125, R148): a receive path and the counters beside it, and a gap with no frame open.
-/

namespace Sys2Proof.Machine

theorem setPort_zbump (s : State) (p : Port) (q : PortIn) (f : Field) (n : Nat) : (s.setPort p q).zbump f n = (s.zbump f n).setPort p q := rfl

/-- A counter in the block of a port stands apart from the merger's next frame. -/
theorem mNext_zbump_port (s : State) (p : Port) {f : Field} (hoff : f.off < 0x400) (n : Nat) : (s.zbump (f.port p) n).mNext = s.mNext := by
  refine State.zget_zbump_ne _ _ ?_
  rw [port_key]
  simp only [Field.key, Z.MERGE_NEXT.NEXT]
  omega

/-! ### A gap between frames (R125) -/

/-- A gap with no frame open, already shown as an event, is held for the next frame. -/
theorem gap_of_no_frame {s : State} {p : Port} (hcur : (s.port p).cur = none) (hevent : (s.port p).gapEvent = true) (cause : Nat) :
    s.gap p cause = s.setPort p { s.port p with holdGap := true, discard := true } := by
  simp only [State.gap, hcur, hevent, if_true, updPort_eq_setPort, port_setPort, setPort_setPort]

end Sys2Proof.Machine
end

section
/-!
PROOFS. Reassembly and parsing (R124, R125, R129, R130, R132): a block by its distance from the expected one, a SHAVING record followed by
BLANK halfwords, and the missing block.
-/

namespace Sys2Proof.Machine

/-! ### Records of the open frame (R129, R130, R132) -/

/-- `hws` is a SHAVING record of value `v` with a good CRC-5 that names its number of hits. -/
structure ShavingRec (hws : List Nat) (v : Nat) : Prop where
  length : hws.length = 4
  kind : hws.headD 0 / 4096 = 2
  value : v = recVal hws
  crc : seal64 v = v
  known : bits v 24 16 ≠ 0xFFFF

/-- The queue of port `p` has room for a record of `n` bytes of the open frame `o`, whose segment is within its limit. -/
structure State.Takes (s : State) (p : Port) (o : OpenFrame) (n : Nat) : Prop where
  isOpen : (s.port p).cur = some o
  kept : o.drop = false ∧ o.late = false
  segment : o.excess = none ∧ o.bytes + n ≤ segCap
  frame : s.mNext ≤ o.frame
  queue : (s.port p).pend = none ∧ queueBytes (s.port p).queue + n ≤ queueCap

/-- The receive path after record `r` of the open frame `o`. -/
def PortIn.recorded (q : PortIn) (o : OpenFrame) (r : QRec) : PortIn :=
  { q with queue := q.queue ++ [r], cur := some { o with rcount := o.rcount + 1, bytes := o.bytes + 2 * r.hws.length } }

section
variable {s : State} {p : Port} {o : OpenFrame}

theorem pushRec_of_room {r : QRec} (hframe : s.mNext ≤ r.frame) (hpend : (s.port p).pend = none)
    (hroom : queueBytes (s.port p).queue + 2 * r.hws.length ≤ queueCap) :
    s.pushRec p r = s.setPort p { s.port p with queue := (s.port p).queue ++ [r] } := by
  simp only [State.pushRec, Nat.not_lt.mpr hframe, hpend, Nat.not_lt.mpr hroom, Option.isSome_none, Bool.false_eq_true, or_self,
    if_false, updPort_eq_setPort]

theorem keep_of_kept (hkept : o.drop = false ∧ o.late = false) (hws : List Nat) (hits coarse : Nat) (shaving : Bool) :
    s.keep p o hws hits coarse shaving = s.pushRec p ⟨o.frame, hws, hits, coarse, shaving⟩ := by
  simp only [State.keep, hkept, Bool.false_eq_true, if_false]

/-- A record within the segment limit counts its bytes and is kept. -/
theorem keepLimited_of_room {hws : List Nat} (hroom : o.excess = none ∧ o.bytes + 2 * hws.length ≤ segCap) (hits coarse : Nat)
    (shaving : Bool) : s.keepLimited p o hws hits coarse shaving = (s.setPort p { s.port p with
      cur := (s.port p).cur.map fun x => { x with bytes := x.bytes + 2 * hws.length } }).keep p o hws hits coarse shaving := by
  simp only [State.keepLimited, hroom.1, Nat.not_lt.mpr hroom.2, Option.isSome_none, Bool.false_eq_true, or_self, if_false,
    updPort_eq_setPort]

theorem parseRec_shaving {hws : List Nat} {v : Nat} (hrec : ShavingRec hws v) : s.parseRec p o hws =
    ((s.zbump (ZP.FESHAVE.HITS.port p) (bits v 24 16)).setPort p { s.port p with
      cur := (s.port p).cur.map fun x => { x with rcount := x.rcount + 1 } }).keepLimited p o hws (bits v 24 16) (bits v 40 12) true := by
  obtain ⟨hlen, hkind, hv, hcrc, hhits⟩ := hrec
  have htake : hws.take 4 = hws := List.take_of_length_le (Nat.le_of_eq hlen)
  have hok : recOk 2 hws = true := by simp [recOk, htake, ← hv, hcrc]
  have hcount : recHits 2 v = bits v 24 16 := rfl
  simp only [State.parseRec, hkind, htake, ← hv, hok, hcount, hhits, Nat.reduceEqDiff, Nat.reduceLeDiff, OfNat.ofNat_ne_zero, false_and,
    not_true, if_false, if_true, beq_self_eq_true]
  rfl

/-- A SHAVING record of the open frame enters the queue, and its hits count in FESHAVE. -/
theorem parseRec_shaving_of_room {hws : List Nat} {v : Nat} (hrec : ShavingRec hws v) (htakes : s.Takes p o 8) :
    s.parseRec p o hws = (s.zbump (ZP.FESHAVE.HITS.port p) (bits v 24 16)).setPort p
      ((s.port p).recorded o ⟨o.frame, hws, bits v 24 16, bits v 40 12, true⟩) := by
  obtain ⟨hcur, hkept, hsegment, hframe, hpend, hroom⟩ := htakes
  have hnext : (s.zbump (ZP.FESHAVE.HITS.port p) (bits v 24 16)).mNext ≤ o.frame := by rwa [mNext_zbump_port s p (by decide)]
  rw [parseRec_shaving hrec, keepLimited_of_room (by rwa [hrec.length]), keep_of_kept hkept, pushRec_of_room]
  · simp [hcur, PortIn.recorded]
  · exact hnext
  · rwa [port_setPort, port_setPort]
  · rwa [port_setPort, port_setPort, hrec.length]

end

/-! ### The halfwords of a block (R129) -/

section
variable {s : State} {p : Port} {o : OpenFrame}

theorem parse_of_record {hws : List Nat} {n : Nat} (hcur : (s.port p).cur = some o) (hrec : recLen hws = some n) (hlen : n ≤ hws.length)
    (fuel : Nat) : s.parse p hws (fuel + 1) = (s.parseRec p o (hws.take n)).parse p (hws.drop n) fuel := by
  simp only [State.parse, hcur, hrec, hlen, if_true]

theorem PortIn.with_cur_of_no_carry {q : PortIn} (hcur : q.cur = some o) (hcarry : o.carry = []) :
    { q with cur := some { o with carry := [] } } = q := by
  rw [← hcarry, ← hcur]

theorem parseRec_blank : s.parseRec p o [0] = s := rfl

/-- BLANK halfwords change nothing. -/
theorem parse_blanks (hcur : (s.port p).cur = some o) (hcarry : o.carry = []) {n fuel : Nat} (hfuel : n < fuel) :
    s.parse p (List.replicate n 0) fuel = s := by
  induction n generalizing fuel with
  | zero =>
    obtain ⟨fuel, rfl⟩ := Nat.exists_eq_add_one.mpr hfuel
    have hparse : s.parse p [] (fuel + 1) = s.setPort p { s.port p with cur := some { o with carry := [] } } := by
      simp only [State.parse, hcur, recLen, updPort_eq_setPort]
    rw [List.replicate_zero, hparse, PortIn.with_cur_of_no_carry hcur hcarry, setPort_self]
  | succ n ih =>
    obtain ⟨fuel, rfl⟩ := Nat.exists_eq_add_one.mpr (Nat.zero_lt_of_lt hfuel)
    rw [List.replicate_succ, parse_of_record (n := 1) hcur rfl (by simp), List.take_succ_cons, List.take_zero, parseRec_blank]
    exact ih (Nat.lt_of_succ_lt_succ hfuel)

/-- The halfwords of a block, when no record is carried over from the block before. -/
theorem feed_of_no_carry (hcur : (s.port p).cur = some o) (hcarry : o.carry = []) (hws : List Nat) :
    s.feed p hws = s.parse p hws (hws.length + 1) := by
  simp only [State.feed, hcur, Option.elim_some, hcarry, List.nil_append, Option.map_some, updPort_eq_setPort,
    PortIn.with_cur_of_no_carry hcur hcarry, setPort_self]

theorem recLen_shaving {hws : List Nat} (hkind : hws.headD 0 / 4096 = 2) (rest : List Nat) : recLen (hws ++ rest) = some 4 := by
  cases hws with
  | nil => simp at hkind
  | cons h t =>
    have hk : h / 4096 = 2 := hkind
    simp [recLen, hk]

/-- A block of one SHAVING record and BLANK halfwords. -/
theorem feed_shaving {hws : List Nat} {v : Nat} (hrec : ShavingRec hws v) (htakes : s.Takes p o 8) (hcarry : o.carry = []) :
    s.feed p (hws ++ [0, 0, 0, 0]) = (s.zbump (ZP.FESHAVE.HITS.port p) (bits v 24 16)).setPort p
      ((s.port p).recorded o ⟨o.frame, hws, bits v 24 16, bits v 40 12, true⟩) := by
  have htake : (hws ++ [0, 0, 0, 0]).take 4 = hws := List.take_left' hrec.length
  have hdrop : (hws ++ [0, 0, 0, 0]).drop 4 = List.replicate 4 0 := List.drop_left' hrec.length
  rw [feed_of_no_carry htakes.isOpen hcarry, parse_of_record htakes.isOpen (recLen_shaving hrec.kind _) (by simp), htake, hdrop,
    parseRec_shaving_of_room hrec htakes]
  exact parse_blanks (o := { o with rcount := o.rcount + 1, bytes := o.bytes + 2 * hws.length }) (congrArg PortIn.cur (port_setPort ..))
    hcarry (by simp [hrec.length])

end

/-! ### Blocks in SEQ order (R124, R125) -/

section
variable {s : State} {p : Port} {b : Block}

theorem deliver_data (hkind : b.kind = .data) (hdiscard : (s.port p).discard = false) :
    s.deliver p b = s.feed p (bytesHalves b.payload) := by
  simp only [State.deliver, hkind, hdiscard, Bool.false_eq_true, if_false]

theorem deliver_discarded (hkind : b.kind = .data) (hdiscard : (s.port p).discard = true) : s.deliver p b = s := by
  simp only [State.deliver, hkind, hdiscard, if_true]

theorem drainHeld_of_none_held (hheld : (s.port p).held = []) (n : Nat) : s.drainHeld p n = s := by
  cases n <;> simp [State.drainHeld, hheld]

theorem drainHeld_of_sole (hheld : (s.port p).held = [b]) (hseq : b.seq = (s.port p).expect) (n : Nat) : s.drainHeld p (n + 1) =
    ((s.setPort p { s.port p with held := [], expect := (b.seq + 1) % 256 }).deliver p b).drainHeld p n := by
  simp [State.drainHeld, hheld, hseq, updPort_eq_setPort]

/-- How many blocks after the expected one block `b` was sent, modulo 256 (R124). -/
def PortIn.ahead (q : PortIn) (b : Block) : Nat := (b.seq + 256 - q.expect) % 256

/-- The next block, after a link event, unless it is a FRAME block (R125). -/
theorem exec_reassemblyBlock_of_resync {rest : List Block} (harrived : (s.port p).arrived = b :: rest) (hsync : (s.port p).resync = true)
    (hkind : b.kind ≠ .frame) : exec (.reassemblyBlock p) s = .next (s.setPort p { s.port p with arrived := rest }) := by
  show execReassemblyBlock p s = _
  simp only [execReassemblyBlock, harrived, updPort_eq_setPort, State.reassemble, port_setPort, hsync, ne_eq, hkind, not_false_eq_true,
    and_self, if_true]

/-- The next block in synchronism, by its distance from the expected one (R124, R125). -/
theorem exec_reassemblyBlock_of_synced {rest : List Block} (harrived : (s.port p).arrived = b :: rest) (hsync : (s.port p).resync = false) :
    exec (.reassemblyBlock p) s = .next (
      if (s.port p).ahead b = 0 then
        ((s.setPort p { s.port p with arrived := rest, expect := ((s.port p).expect + 1) % 256 }).deliver p b).drainHeld p 64
      else if (s.port p).ahead b ≤ 63 then s.setPort p { s.port p with
        arrived := rest, held := if (s.port p).held.any (fun x => x.seq == b.seq) then (s.port p).held else (s.port p).held ++ [b] }
      else if (s.port p).ahead b ≤ 127 then
        ((s.zbump (ZP.REASM.RESYNC.port p) 1).setPort p { s.port p with arrived := rest, held := [], resync := true }).gap p 1
      else (s.zbump (ZP.REASM.STALE.port p) 1).setPort p { s.port p with arrived := rest }) := by
  show execReassemblyBlock p s = _
  simp only [execReassemblyBlock, harrived, updPort_eq_setPort, State.reassemble, port_setPort, hsync, Bool.false_eq_true, false_and,
    if_false, setPort_setPort, setPort_zbump, PortIn.ahead]

theorem exec_reassemblyMissing_of_held (hheld : (s.port p).held ≠ []) : exec (.reassemblyMissing p) s = .next
    ((((s.zbump (ZP.REASM.MISSING.port p) 1).gap p 0).updPort p fun q => { q with expect := (q.expect + 1) % 256 }).drainHeld p 64) :=
  congrArg Host.Outcome.next (if_neg hheld)

end

/-- Settles O22: each clause is one distance of `exec_reassemblyBlock_of_synced`, or the missing block; what is passed on reaches the parser
by `feed_shaving`, or is discarded. -/
theorem reassembly : Obligations.Reassembly := by
  unfold Obligations.Reassembly
  rintro s p q b rest rfl
  refine ⟨fun harrived hsync hkind => exec_reassemblyBlock_of_resync harrived hsync hkind, fun harrived hsync _ => ?_,
    fun hheld hseq hkind hcur hevent => ?_, fun hheld => congrArg _ (if_pos hheld)⟩
  · rw [exec_reassemblyBlock_of_synced harrived hsync]
    refine ⟨fun o hws v hseq hkind hdiscard hheld hcur hcarry hdrop hlate hexcess hbytes hframe hpend hqueue hpayload hlen hhead hv hcrc
      hhits => ?_, fun hk hheld => ?_, fun hk hcur hevent => ?_, fun hk => ?_⟩
    · have hahead : (s.port p).ahead b = 0 := by rw [PortIn.ahead, hseq, Nat.add_sub_cancel_left]
      have htakes : (s.setPort p { s.port p with arrived := rest, expect := ((s.port p).expect + 1) % 256 }).Takes p o 8 :=
        ⟨by rwa [port_setPort], ⟨hdrop, hlate⟩, ⟨hexcess, by rw [hbytes]; decide⟩, hframe,
          by rw [port_setPort]; exact ⟨hpend, by rw [hqueue]; decide⟩⟩
      rw [if_pos hahead, deliver_data hkind (by rwa [port_setPort]), hpayload, feed_shaving ⟨hlen, hhead, hv, hcrc, hhits⟩ htakes hcarry,
        setPort_zbump, setPort_setPort, port_setPort, drainHeld_of_none_held (by rw [port_setPort]; exact hheld)]
      refine ⟨_, rfl, ?_, fun k hk => get_fadd_ne _ _ (by simpa using hk), State.zget_zbump .., ?_⟩
      · rw [port_setPort]
        rfl
      · rw [port_setPort, PortIn.recorded, hqueue, hlen, hbytes]
        rfl
    · obtain ⟨hlo, hhi⟩ := Finset.mem_Icc.mp hk
      rw [PortIn.ahead, if_neg (by omega), if_pos hhi, hheld]
      rfl
    · obtain ⟨hlo, hhi⟩ := Finset.mem_Icc.mp hk
      rw [PortIn.ahead, if_neg (by omega), if_neg (by omega), if_pos hhi, gap_of_no_frame (by rwa [port_setPort]) (by rwa [port_setPort]),
        port_setPort, setPort_setPort]
    · obtain ⟨hlo, hhi⟩ := Finset.mem_Icc.mp hk
      rw [PortIn.ahead, if_neg (by omega), if_neg (by omega), if_neg (by omega)]
  · have hnext : (s.port p).expect + 1 + 1 = (s.port p).expect + 2 := rfl
    rw [exec_reassemblyMissing_of_held (by simp [hheld]), gap_of_no_frame (s := s.zbump _ _) hcur hevent, updPort_eq_setPort, setPort_setPort, port_setPort,
      drainHeld_of_sole (b := b) (by rwa [port_setPort]) (by rwa [port_setPort]), setPort_setPort, port_setPort,
      deliver_discarded hkind (by rw [port_setPort]), drainHeld_of_none_held (by rw [port_setPort]), hseq, Nat.mod_add_mod, hnext]
    rfl

end Sys2Proof.Machine
end

section
/-!
PROOFS. Queue resets and membership (R134, R135, R143, R145, R148, R338): the pointer resets, writes of MERGE_EN and of RESYNC, and a port that
leaves ACTIVE and begins its bring-up again.
-/

namespace Sys2Proof.Machine

/-! ### Pointer resets (R134) -/

section
variable {s : State} {p : Port}

theorem queueReset_of_no_frame (hcur : (s.port p).cur = none) (hpend : (s.port p).pend = none) (hside : (s.port p).side = []) :
    s.queueReset p = ((s.setPort p { s.port p with
      queue := (((s.port p).queue.map (·.frame)).dedup).map fun f => zItem p mkQreset f 0 0xFFFF }).zbump (ZP.QDROP.QRESET.port p) 1).raisePort
        p 14 (leBytes (((s.port p).queue.map (·.frame)).dedup.headD s.mNext) 5 ++ [1]) := by
  simp only [State.queueReset, hcur, hpend, hside, Option.elim_none, List.append_nil, List.map_nil, Option.map_none, updPort_eq_setPort]
  rfl

theorem sideReset_of_entry {e : SideEntry} {es : List SideEntry} (hside : (s.port p).side = e :: es) : s.sideReset p =
    (s.setPort p { s.port p with queue := [], pend := none, side := [], cur := none, discard := true }).raisePort p 14
      (leBytes e.frame 5 ++ [2]) := by
  simp only [State.sideReset, hside, List.head?_cons, Option.elim_some, updPort_eq_setPort]

/-! ### Membership (R143, R338) -/

theorem exec_mergeEnWrite (hopen : s.bar0Open) (en : Bool) : exec (.mergeEnWrite p en) s = .next (s.mergeEn p en) :=
  congrArg Host.Outcome.next (bar0_of_open hopen _)

theorem mergeEn_clear_of_clear (hwas : s.zget (ZP.CTL.MERGE_EN.port p) = 0) : s.mergeEn p false = s := if_pos (by simp [hwas])

theorem mergeEn_set_of_gated (hwas : s.zget (ZP.CTL.MERGE_EN.port p) = 0) (hgate : bitAt (s.zget Z.CLK_GATE.PORT) p = false) :
    s.mergeEn p true = s.gateRefused (0x10000 + 0x400 * p.val) 0 := by
  simp [State.mergeEn, hwas, hgate]

theorem mergeEn_set_of_running (hwas : s.zget (ZP.CTL.MERGE_EN.port p) = 0) (hgate : bitAt (s.zget Z.CLK_GATE.PORT) p = true) :
    s.mergeEn p true = (s.zput (ZP.CTL.MERGE_EN.port p) 1).zput (ZP.STAT.STATE.port p)
      (if s.zget (ZP.STAT.LINK.port p) = 1 ∧ (s.port p).asleep = false then 2 else 1) := by
  simp [State.mergeEn, hwas, hgate, State.linkUp]

/-- A member with nothing queued leaves at once. -/
theorem mergeEn_clear_of_empty (hwas : s.zget (ZP.CTL.MERGE_EN.port p) = 1) (hqueue : (s.port p).queue = []) (hside : (s.port p).side = [])
    (hpend : (s.port p).pend = none) (hcur : (s.port p).cur = none) : s.mergeEn p false =
      ((s.zput (ZP.CTL.MERGE_EN.port p) 0).zput (ZP.STAT.STATE.port p) 0).setPort p { s.port p with heldExpect := s.run.active } := by
  have hport (v w : Nat) : ((s.zput (ZP.CTL.MERGE_EN.port p) v).zput (ZP.STAT.STATE.port p) w).port p = s.port p := rfl
  simp [State.mergeEn, hwas, hport, hqueue, hside, hpend, hcur, updPort_eq_setPort]

theorem exec_portResync (hopen : s.bar0Open) : exec (.portResync p) s = .next ((s.zbump (ZP.REASM.RESYNC.port p) 1).gap p 2) :=
  congrArg Host.Outcome.next (bar0_of_open hopen _)

end

/-! ### Bring-up begins again (R104, R110) -/

/-- Between `s` and `t` the bring-up of port `p` has moved lanes of it: their receivers and states, and registers of its Pelnos. -/
structure BringUp (p : Port) (s t : State) : Prop where
  ports : t.ports = s.ports
  link : t.zget (ZP.STAT.LINK.port p) = s.zget (ZP.STAT.LINK.port p)
  chip : ∃ r, t.chip p = { s.chip p with regs := r }
  others : ∀ o, o ≠ p → t.chip o = s.chip o

/-- The lanes of port `p`, at both ends of its links. -/
inductive LaneOf (p : Port) : Link → Prop
  | up (l : Fin 8) : LaneOf p (.up p l)
  | down : LaneOf p (.down p)

section
variable {p : Port} {s t u : State} {k : Link}

theorem BringUp.refl (p : Port) (s : State) : BringUp p s s := ⟨rfl, rfl, ⟨_, rfl⟩, fun _ _ => rfl⟩

theorem BringUp.trans (h : BringUp p s t) (g : BringUp p t u) : BringUp p s u := by
  obtain ⟨r, hr⟩ := h.chip
  obtain ⟨r', hr'⟩ := g.chip
  exact ⟨g.ports.trans h.ports, g.link.trans h.link, ⟨r', by rw [hr', hr]⟩, fun o ho => (g.others o ho).trans (h.others o ho)⟩

theorem foldl_bringUp {α : Type} (l : List α) (g : State → α → State) (s : State) (h : ∀ s a, BringUp p s (g s a)) :
    BringUp p s (l.foldl g s) := by
  induction l generalizing s with
  | nil => exact .refl p s
  | cons a l ih => exact (h s a).trans (ih _)

theorem updLane_bringUp (p : Port) (s : State) (k : Link) (f : Lane → Lane) : BringUp p s (s.updLane k f) :=
  ⟨rfl, rfl, ⟨_, rfl⟩, fun _ _ => rfl⟩

theorem setLst_bringUp (hk : LaneOf p k) (s : State) (v : Nat) : BringUp p s (s.setLst k v) := by
  cases hk with
  | up l => exact ⟨rfl, State.zget_zput_ne _ _ (Ne.symm (laneF_key_ne_port (by decide) p l)), ⟨_, rfl⟩, fun _ _ => rfl⟩
  | down =>
    exact ⟨rfl, State.zget_zput_ne _ _ (port_key_ne (by decide) p), ⟨_, State.chip_updChip_same _ p _⟩,
      fun o ho => (State.chip_updChip _ p o _).trans (if_neg ho)⟩

theorem freshLane_bringUp (hk : LaneOf p k) (s : State) : BringUp p s (s.freshLane k) := by
  unfold State.freshLane
  split
  · exact (updLane_bringUp p s k _).trans (setLst_bringUp hk _ 1)
  · exact setLst_bringUp hk s 0

theorem restartPort_bringUp (s : State) (p : Port) :
    BringUp p (s.setPort p { s.port p with stepping := none, dlPreset := 3 }) (s.restartPort p) := by
  refine ((updLane_bringUp p _ (.down p) _).trans (freshLane_bringUp .down _)).trans (foldl_bringUp _ _ _ fun s l => ?_)
  dsimp only
  split
  · exact (updLane_bringUp p s _ _).trans (freshLane_bringUp (.up l) _)
  · exact (updLane_bringUp p s _ _).trans (setLst_bringUp (.up l) _ 0)

end

/-! ### The port leaves ACTIVE (R145, R243) -/

theorem message_ports_chips (s : State) (v : Nat) : (s.message v).ports = s.ports ∧ (s.message v).chips = s.chips := by
  unfold State.message
  dsimp only
  split
  · exact ⟨rfl, rfl⟩
  · exact ⟨rfl, rfl⟩

/-- An event touches no receive path and no Pelnos. -/
theorem raisePort_ports_chips (s : State) (p : Port) (i : Nat) (d : List Byte) :
    (s.raisePort p i d).ports = s.ports ∧ (s.raisePort p i d).chips = s.chips := by
  unfold State.raisePort State.raise State.raiseSev
  dsimp only
  repeat' split
  · exact ⟨rfl, rfl⟩
  · exact ⟨rfl, rfl⟩
  · exact ⟨rfl, rfl⟩
  · exact message_ports_chips _ _
  · exact ⟨rfl, rfl⟩

theorem link_apart (p : Port) : (ZP.STAT.LINK.port p).apart := Field.apart_of_key fun q => by
  simp only [bookFields_keys, List.mem_cons, List.not_mem_nil, or_false, Field.key, Field.port, Field.at, ZP.STAT.LINK]
  omega

theorem mergeDown_eq (s : State) (p : Port) : ∃ r, s.mergeDown p = s.updZreg (fun _ => r) ∧
    (s.updZreg fun _ => r).zget (ZP.STAT.LINK.port p) = s.zget (ZP.STAT.LINK.port p) := by
  unfold State.mergeDown
  split
  · exact ⟨s.zreg, rfl, rfl⟩
  · exact ⟨_, rfl, State.zget_zput_ne _ _ (port_key_ne (by decide) p)⟩

/-- A Pelnos that has stopped drives nothing and holds no frame (R59). -/
theorem linkDown_stopped (c : Pelnos) : c.linkDown.active = false ∧ c.linkDown.frames = [] ∧ c.linkDown.sending = [] ∧
    c.linkDown.forPulse = 0 := ⟨rfl, rfl, rfl, rfl⟩

/-- Port `p` has left ACTIVE between `s` and `t`: its link is down, its receive path and its downlink traffic are dropped, its Pelnos has
stopped but for registers, and the other ports are as they were. -/
structure Left (p : Port) (s t : State) : Prop where
  link : t.zget (ZP.STAT.LINK.port p) = 0
  path : (t.port p).cur = none ∧ (t.port p).arrived = [] ∧ (t.port p).held = [] ∧ (t.port p).mask = 0
  traffic : (t.port p).outst = [] ∧ (t.port p).dlWait = []
  chip : ∃ r, t.chip p = { (s.chip p).linkDown with regs := r }
  others : ∀ o, o ≠ p → t.port o = s.port o ∧ t.chip o = s.chip o

section
variable {s t u : State} {p : Port}

theorem portLeave_of_up (hlink : s.zget (ZP.STAT.LINK.port p) = 1) (cause : Nat) : ∃ f : PortIn → PortIn,
    (∀ q, (f q).cur = none ∧ (f q).arrived = [] ∧ (f q).held = [] ∧ (f q).mask = 0) ∧ s.portLeave p cause =
      (((((s.zput (ZP.STAT.LINK.port p) 0).raisePort p 1 [b8 cause, b8 (s.port p).mask]).updPort p f).failTraffic p).mergeDown p).updChip p
        Pelnos.linkDown :=
  ⟨_, fun _ => ⟨rfl, rfl, rfl, rfl⟩, if_neg (by simp [State.linkUp, hlink])⟩

theorem port_failTraffic (s : State) (p o : Port) : (s.failTraffic p).port o = if o = p then
    { s.port p with dlWait := [], outst := [], commitPend := false, commitTill := 0 } else s.port o := State.port_updPort _ p o _

/-- Once the link shows down, the rest of the way out: the receive path, the traffic, the merger and Pelnos. -/
theorem left_of_link_down {v : State} {f : PortIn → PortIn} (hports : v.ports = s.ports) (hchips : v.chips = s.chips)
    (hdown : v.zget (ZP.STAT.LINK.port p) = 0) (hf : ∀ q, (f q).cur = none ∧ (f q).arrived = [] ∧ (f q).held = [] ∧ (f q).mask = 0) :
    Left p s ((((v.updPort p f).failTraffic p).mergeDown p).updChip p Pelnos.linkDown) := by
  obtain ⟨r, hr, hlink⟩ := mergeDown_eq ((v.updPort p f).failTraffic p) p
  have hchip (o : Port) : v.chip o = s.chip o := congrArg (fun x => x[o.val]) hchips
  have hown : ((v.updPort p f).failTraffic p).port p =
      { f (v.port p) with dlWait := [], outst := [], commitPend := false, commitTill := 0 } := by
    rw [port_failTraffic, if_pos rfl, State.port_updPort_same]
  rw [hr]
  refine ⟨hlink.trans hdown, ?_, ?_, ⟨(s.chip p).linkDown.regs, ?_⟩, fun o ho => ⟨?_, ?_⟩⟩
  · exact hown ▸ hf (v.port p)
  · exact hown ▸ ⟨rfl, rfl⟩
  · exact (State.chip_updChip_same ..).trans (congrArg Pelnos.linkDown (hchip p))
  · refine (port_failTraffic _ p o).trans ?_
    rw [if_neg ho, State.port_updPort, if_neg ho]
    exact congrArg (fun x => x[o.val]) hports
  · exact ((State.chip_updChip ..).trans (if_neg ho)).trans (hchip o)

theorem portLeave_left (hlink : s.zget (ZP.STAT.LINK.port p) = 1) (cause : Nat) : Left p s (s.portLeave p cause) := by
  obtain ⟨f, hf, hleave⟩ := portLeave_of_up hlink cause
  obtain ⟨hports, hchips⟩ := raisePort_ports_chips (s.zput (ZP.STAT.LINK.port p) 0) p 1 [b8 cause, b8 (s.port p).mask]
  rw [hleave]
  refine left_of_link_down hports hchips ?_ hf
  rw [raisePort_zget (link_apart p) _ p (by decide), State.zget_zput, Nat.zero_mod]

/-- The bring-up that follows leaves the port down. -/
theorem Left.restart (h : Left p s t) : Left p s (t.restartPort p) := by
  obtain ⟨hports, hlink, ⟨r, hr⟩, hothers⟩ := restartPort_bringUp t p
  obtain ⟨r', hr'⟩ := h.chip
  have hown : (t.restartPort p).port p = { t.port p with stepping := none, dlPreset := 3 } :=
    (congrArg (fun x => x[p.val]) hports).trans (port_setPort t p _)
  refine ⟨hlink.trans h.link, hown ▸ h.path, hown ▸ h.traffic, ⟨r, ?_⟩, fun o ho => ⟨?_, (hothers o ho).trans (h.others o ho).2⟩⟩
  · rw [hr]
    show { t.chip p with regs := r } = _
    rw [hr']
  · have hport : (t.restartPort p).port o = t.port o :=
      (congrArg (fun x => x[o.val]) hports).trans ((State.port_updPort t p o _).trans (if_neg ho))
    exact hport.trans (h.others o ho).1

theorem exec_portLeaveActive (s : State) (p : Port) (cause : Fin 3) :
    exec (.portLeaveActive p cause) s = .next ((s.portLeave p cause).restartPort p) := rfl

end

/-- Settles O23: each clause is what its operation does in the case named; a port that leaves ACTIVE is down by `portLeave_left` and stays so
in the bring-up that follows. -/
theorem queuesAndMembership : Obligations.QueuesAndMembership := by
  unfold Obligations.QueuesAndMembership
  rintro s p q rfl
  refine ⟨fun hcur hpend hside => congrArg _ (queueReset_of_no_frame hcur hpend hside), fun e es hside => congrArg _ (sideReset_of_entry hside),
    fun hopen hwas => ⟨fun hgate => ?_, fun hgate => ?_, ?_⟩, fun hopen hwas hqueue hside hpend hcur => ?_,
    fun hopen hcur hevent => ?_, fun cause hlink => ⟨_, exec_portLeaveActive s p cause, ?_⟩⟩
  · rw [exec_mergeEnWrite hopen, mergeEn_set_of_running hwas hgate]
  · rw [exec_mergeEnWrite hopen, mergeEn_set_of_gated hwas hgate]
    rfl
  · rw [exec_mergeEnWrite hopen, mergeEn_clear_of_clear hwas]
  · rw [exec_mergeEnWrite hopen, mergeEn_clear_of_empty hwas hqueue hside hpend hcur]
  · rw [exec_portResync hopen, gap_of_no_frame (s := s.zbump _ _) hcur hevent]
    rfl
  · obtain ⟨hdown, ⟨hcur, harrived, hheld, hmask⟩, ⟨houtst, hwait⟩, ⟨r, hr⟩, hothers⟩ := (portLeave_left hlink cause).restart
    obtain ⟨hactive, hframes, hsending, hpulse⟩ := linkDown_stopped (s.chip p)
    rw [hr]
    exact ⟨hdown, hcur, harrived, hheld, hmask, houtst, hwait, hactive, hframes, hsending, hpulse, hothers⟩

end Sys2Proof.Machine
end

section
/-!
PROOFS. The buffer writer (R156, R158, R159, R162, R182): the next billet in rotation, what a stored line leaves in DRAM, and the end of a
skip.
-/

namespace Sys2Proof.Machine

/-! ### The allocator (R156, R162) -/

theorem findBillet_of_inRotation {s : State} {b : Nat} (hrot : s.inRotation b = true) (n : Nat) (ps : List Nat) :
    s.findBillet b (n + 1) ps = (some b, ps) := if_pos hrot

theorem expireBillet_of_no_runs {s : State} (hdir : s.buf.dir = []) (b : Nat) : s.expireBillet b = s := by
  simp [State.expireBillet, hdir]

/-- The billet after the last one is in rotation: no billet is passed, and with no run listed none expires. -/
theorem allocate_of_next {s : State} {a b : Nat} (halloc : s.buf.alloc = some a) (hb : (a + 1) % billetCount = b)
    (hrot : s.inRotation b = true) (hdir : s.buf.dir = []) : s.allocate.1 =
      ((s.updBillet a fun x => { x with next := b }).updBillet b fun x => { x with gen := (x.gen + 1) % 2 ^ 32 }).updBuf fun x =>
        { x with alloc := some b, pos := some (b, 0) } := by
  have hfind : s.findBillet b billetCount [] = (some b, []) := findBillet_of_inRotation hrot 1966079 []
  simp only [State.allocate, halloc, hb, hfind, List.foldl_nil, expireBillet_of_no_runs hdir]

theorem exec_billetAllocate_of_no_place {s : State} (hpos : s.buf.pos = none) : exec .billetAllocate s = .next s.allocate.1 := by
  show execBilletAllocate s = _
  simp only [execBilletAllocate, hpos]

theorem exec_billetAllocate_of_room {s : State} {b l : Nat} (hpos : s.buf.pos = some (b, l)) (hl : l < 1024) :
    exec .billetAllocate s = .next s := by
  show execBilletAllocate s = _
  simp only [execBilletAllocate, hpos, if_pos hl]

/-! ### Lines of the writer (R158, R182) -/

/-- Between `s` and `t` nothing changes but the event buffer and Zwiuc registers. -/
def onlyBuffer (s t : State) : Prop := t = (s.updBuf fun _ => t.buf).updZreg fun _ => t.zreg

/-- Beside them, DRAM holds what it held. -/
def onlyMarks (s t : State) : Prop := onlyBuffer s t ∧ t.buf.mem = s.buf.mem

theorem onlyBuffer.trans {s t u : State} (h : onlyBuffer s t) (k : onlyBuffer t u) : onlyBuffer s u := by
  unfold onlyBuffer at *
  rw [k, h]
  rfl

theorem onlyMarks.refl (s : State) : onlyMarks s s := ⟨rfl, rfl⟩

theorem onlyMarks.trans {s t u : State} (h : onlyMarks s t) (k : onlyMarks t u) : onlyMarks s u :=
  ⟨h.1.trans k.1, k.2.trans h.2⟩

theorem onlyMarks_updBuf (s : State) {f : Buffer → Buffer} (hmem : (f s.buf).mem = s.buf.mem) : onlyMarks s (s.updBuf f) := ⟨rfl, hmem⟩

theorem foldl_onlyMarks {α : Type} (l : List α) (g : State → α → State) (s : State) (h : ∀ s a, onlyMarks s (g s a)) :
    onlyMarks s (l.foldl g s) := by
  induction l generalizing s with
  | nil => exact .refl s
  | cons a l ih => exact (h s a).trans (ih _)

theorem setPageBits_onlyMarks (s : State) (ch page : Nat) (v : BitVec 2) : onlyMarks s (s.setPageBits ch page v) := ⟨rfl, rfl⟩

theorem zwrap_onlyMarks (s : State) (f : Field) (n : Nat) : onlyMarks s (s.zwrap f n) := ⟨rfl, rfl⟩

theorem setDamage_onlyMarks (s : State) (ch l : Nat) (m : BitVec 9) : onlyMarks s (s.setDamage ch l m) := by
  unfold State.setDamage
  refine onlyMarks_updBuf s ?_
  split
  · rfl
  · rfl

theorem sealPage_onlyMarks (s : State) (ch page : Nat) : onlyMarks s (s.sealPage ch page) := by
  have hclear (s : State) (l : Nat) : onlyMarks s ((List.range 64).foldl (fun s j => s.setDamage ch (l + j) 0) s) :=
    foldl_onlyMarks _ _ _ fun s j => setDamage_onlyMarks s ch (l + j) 0
  exact (((onlyMarks_updBuf s rfl).trans (hclear _ _)).trans (hclear _ _)).trans (zwrap_onlyMarks _ _ _)

theorem oldKey_add (ch l j : Nat) : oldKey ch (l + j) = oldKey ch l + j := (Nat.add_assoc _ _ _).symm

theorem storeLine_onlyBuffer (s : State) (ch l : Nat) (bytes : List Byte) : onlyBuffer s (s.storeLine ch l bytes) := rfl

theorem storeLine_mem (s : State) (ch l : Nat) (bytes : List Byte) :
    (s.storeLine ch l bytes).buf.mem = Tab.writeList 0 id (oldKey ch l) s.buf.mem bytes := by
  have hclears (b : Buffer) (c : Prop) [Decidable c] (d e : Tab (BitVec 9)) :
      (if c then { b with dmg := d } else { b with dmg := e }).mem = b.mem := by split <;> rfl
  refine (hclears _ _ _ _).trans ?_
  simp only [Tab.writeList, oldKey_add, id]
  rfl

/-- A line of the event region is stored; opening and sealing its page leave the contents. -/
theorem writeEventLine_stores (s : State) (ch l : Nat) (bytes : List Byte) : onlyBuffer s (s.writeEventLine ch l bytes) ∧
    (s.writeEventLine ch l bytes).buf.mem = Tab.writeList 0 id (oldKey ch l) s.buf.mem bytes := by
  have hopen : onlyMarks s (if l % 2048 / 64 = 0 then
      (s.updBuf fun b => { b with opens := b.opens ++ [⟨ch, l / 2048, 0⟩] }).setPageBits ch (l / 2048) 0 else s) := by
    split
    · exact (onlyMarks_updBuf s rfl).trans (setPageBits_onlyMarks _ _ _ _)
    · exact .refl s
  have hseal (u : State) (i : Nat) : onlyMarks u
      (let v := u.updBuf fun b => { b with opens := b.opens.map fun (o : OpenPage) =>
          if o.ch = ch ∧ o.page = l / 2048 then { o with lines := i + 1 } else o }
        if i = 31 then v.sealPage ch (l / 2048) else v) := by
    dsimp only
    split
    · exact (onlyMarks_updBuf u rfl).trans (sealPage_onlyMarks _ _ _)
    · exact onlyMarks_updBuf u rfl
  obtain ⟨hframe, hmem⟩ := hseal _ _
  exact ⟨(hopen.1.trans (storeLine_onlyBuffer _ ch l bytes)).trans hframe, hmem.trans ((storeLine_mem _ ch l bytes).trans (by rw [hopen.2]))⟩

theorem exec_mergedFrameWrite (n : Nat) (s : State) : exec (.mergedFrameWrite n) s = .next (s.writeLines (min n s.buf.wbuf.length)) := rfl

theorem writeLines_of_waiting {s : State} {w : WLine} {rest : List WLine} (hbuf : s.buf.wbuf = w :: rest)
    (hwait : s.takesWrite w.addr = false) (n : Nat) : s.writeLines n = s := by
  cases n with
  | zero => rfl
  | succ n => simp [State.writeLines, hbuf, hwait]

theorem writeLines_one {s : State} {w : WLine} {rest : List WLine} {ch l : Nat} (hbuf : s.buf.wbuf = w :: rest)
    (hplace : s.place w.addr = (ch, l)) (htakes : s.takesWrite w.addr = true) :
    s.writeLines 1 = (s.writeEventLine ch l w.bytes).updBuf fun b => { b with wbuf := rest } := by
  simp [State.writeLines, hbuf, htakes, hplace]

/-! ### The end of a skip (R159) -/

/-- An operation that leaves the state on each channel of the stack leaves it. -/
theorem chans_fixed {s : State} {f : State → Nat → State} (h : ∀ c : Fin 4, f s c = s) : s.chans f = s :=
  foldl_fixed _ _ _ fun c hc => by
    have hlt : c < 4 := by
      simp only [List.mem_cons, List.not_mem_nil, or_false] at hc
      omega
    exact h ⟨c, hlt⟩

theorem exec_stackSkipEnd (n : Fin 8) (s : State) : exec (.stackSkipEnd n) s = .next (s.skipEnd n) := rfl

/-- No channel is stalled for its full training: the stack alone loses its mark. -/
theorem skipEnd_of_active {s : State} {n : Nat} (hskip : bitAt (s.zget Z.BUF_STAT.SKIPPED) n = true)
    (hactive : ∀ c : Fin 4, s.chState n c = 2) :
    s.skipEnd n = s.zput Z.BUF_STAT.SKIPPED (s.zget Z.BUF_STAT.SKIPPED - 2 ^ n) := by
  have hchan (c : Fin 4) : ¬ s.chState n c = chStalled := by simp [hactive c, chStalled]
  unfold State.skipEnd
  rw [if_pos hskip]
  dsimp only
  rw [chans_fixed fun c => if_neg (hchan c)]
  simp [State.skip, State.zbit, hskip]

theorem skipEnd_of_unskipped {s : State} {n : Nat} (hskip : bitAt (s.zget Z.BUF_STAT.SKIPPED) n = false) : s.skipEnd n = s :=
  if_neg (by simp [hskip])

/-- Settles O25: each clause is one case of the allocator, of the writer at the head of its buffer (`writeEventLine_stores`), or of the end
of a skip. -/
theorem bufferWriter : Obligations.BufferWriter := by
  unfold Obligations.BufferWriter
  intro s
  refine ⟨fun a b hpos halloc hb hrot hdir => ?_, fun b l hpos hl => exec_billetAllocate_of_room hpos hl,
    fun w rest ch l hbuf hplace hlen => ⟨fun htakes => ?_, fun hwait n => ?_⟩, fun n hskip hactive => ?_, fun n hskip => ?_⟩
  · rw [exec_billetAllocate_of_no_place hpos, allocate_of_next halloc hb.symm hrot hdir]
  · obtain ⟨hframe, hmem⟩ := writeEventLine_stores s ch l w.bytes
    have hone : min 1 s.buf.wbuf.length = 1 := by simp [hbuf]
    rw [exec_mergedFrameWrite, hone, writeLines_one hbuf hplace htakes]
    refine ⟨_, rfl, rfl, fun j => ?_, fun ch' l' hout => ?_, hframe.trans rfl⟩
    · have hj : j.val < w.bytes.length := hlen.symm ▸ j.isLt
      refine (congrArg (fun m => Tab.get 0 m (oldKey ch (l + j))) hmem).trans ?_
      rw [oldKey_add, Tab.get_writeList_inside 0 id _ _ _ hj, List.getD_eq_getElem _ _ hj]
      rfl
    · exact (congrArg (fun m => Tab.get 0 m (oldKey ch' l')) hmem).trans (Tab.get_writeList_outside 0 id _ _ _ (hlen.symm ▸ hout))
  · rw [exec_mergedFrameWrite, writeLines_of_waiting hbuf hwait]
  · rw [exec_stackSkipEnd, skipEnd_of_active hskip hactive]
  · rw [exec_stackSkipEnd, skipEnd_of_unskipped hskip]

end Sys2Proof.Machine
end

section
/-!
PROOFS. Register fields of the DRAM stacks and their channels (R178, R425): which lie apart, what an event leaves (R382), and the states of
the channels after a move of some of them.
-/

namespace Sys2Proof.Machine

/-! ### What writes of registers leave -/

section
variable {fs : List Field} {s t u : State}

theorem regsBut.zput (h : regsBut fs s t) {f : Field} (hf : f ∈ fs) (v : Nat) : regsBut fs s (t.zput f v) := fun k hk =>
  (get_fset_ne _ _ fun heq => hk (List.mem_map.mpr ⟨f, hf, heq.symm⟩)).trans (h k hk)

theorem regsBut.zbump (h : regsBut fs s t) {f : Field} (hf : f ∈ fs) (n : Nat) : regsBut fs s (t.zbump f n) := h.zput hf _

theorem regsBut.trans (h : regsBut fs s t) (k : regsBut fs t u) : regsBut fs s u := fun x hx => (k x hx).trans (h x hx)

theorem regsBut.mono {gs : List Field} (h : regsBut fs s t) (hsub : fs ⊆ gs) : regsBut gs s t := fun k hk =>
  h k fun hmem => hk (List.map_subset _ hsub hmem)

theorem onlyRegs.refl (fs : List Field) (s : State) : onlyRegs fs s s := ⟨rfl, fun _ _ => rfl⟩

theorem onlyRegs.trans (h : onlyRegs fs s t) (k : onlyRegs fs t u) : onlyRegs fs s u := by
  refine ⟨?_, h.2.trans k.2⟩
  rw [k.1, h.1]
  rfl

theorem onlyRegs_zput (s : State) {f : Field} (hf : f ∈ fs) (v : Nat) : onlyRegs fs s (s.zput f v) :=
  ⟨rfl, regsBut.zput (fun _ _ => rfl) hf v⟩

theorem foldl_onlyRegs {α : Type} (l : List α) (g : State → α → State) (s : State) (h : ∀ s, ∀ a ∈ l, onlyRegs fs s (g s a)) :
    onlyRegs fs s (l.foldl g s) := by
  induction l generalizing s with
  | nil => exact .refl fs s
  | cons a l ih => exact (h s a List.mem_cons_self).trans (ih _ fun s b hb => h s b (List.mem_cons_of_mem a hb))

theorem onlyRegs.zget (h : onlyRegs fs s t) {g : Field} (hg : g.key ∉ fs.map Field.key) : t.zget g = s.zget g :=
  congrArg (· ^^^ g.reset) (h.2 _ hg)

theorem onlyRegs.buf (h : onlyRegs fs s t) : t.buf = s.buf := congrArg (fun u => u.buf) h.1

theorem onlyRegs.out (h : onlyRegs fs s t) : t.out = s.out := congrArg (fun u => u.out) h.1

end

/-! ### Fields of a stack's block that lie apart -/

theorem stack_key (f : Field) (n : Nat) : (f.stack n).key = f.key + (0x20000 + n * 0x1000) * 64 := by
  simp only [Field.key, Field.stack, Field.at]
  omega

theorem stack_key_ne {f g : Field} (h : f.key ≠ g.key) (n : Nat) : (f.stack n).key ≠ (g.stack n).key := by
  rw [stack_key, stack_key]
  omega

/-- A stack's field stands apart from those below the stacks' blocks. -/
theorem stack_key_ne_low (f : Field) (n : Nat) {g : Field} (h : g.key < 0x20000 * 64) : (f.stack n).key ≠ g.key := by
  rw [stack_key]
  omega

/-- The field of each channel at `f` stands apart from the channel's field at `g`. -/
theorem chanF_key_ne {f g : Field} (h : ∀ c : Fin 4, (f.at (4 * c)).key ≠ (g.at (4 * c)).key) (n : Nat) (c : Fin 4) :
    (chanF f n c).key ≠ (chanF g n c).key := stack_key_ne (h c) n

/-- The field of each channel at `f` stands apart from the stack's field at `g`. -/
theorem chanF_key_ne_stack {f g : Field} (h : ∀ c : Fin 4, (f.at (4 * c)).key ≠ g.key) (n : Nat) (c : Fin 4) :
    (chanF f n c).key ≠ (g.stack n).key := stack_key_ne (h c) n

theorem setF_cases (n c point : Nat) : setF n c point = chanF ZS.CHSTATc.SET_32 n c ∨ setF n c point = chanF ZS.CHSTATc.SET_16 n c := by
  unfold setF
  split
  · exact .inl rfl
  · exact .inr rfl

/-- A set flag stands apart from a field of its channel that both flags stand apart from. -/
theorem setF_key_ne {g : Field} (h : ∀ c : Fin 4, (ZS.CHSTATc.SET_32.at (4 * c)).key ≠ (g.at (4 * c)).key ∧
    (ZS.CHSTATc.SET_16.at (4 * c)).key ≠ (g.at (4 * c)).key) (n : Nat) (c : Fin 4) (point : Nat) :
    (setF n c point).key ≠ (chanF g n c).key := by
  rcases setF_cases n c point with hset | hset
  · exact hset ▸ stack_key_ne (h c).1 n
  · exact hset ▸ stack_key_ne (h c).2 n

theorem setF_key_ne_stack {g : Field} (h : ∀ c : Fin 4, (ZS.CHSTATc.SET_32.at (4 * c)).key ≠ g.key ∧
    (ZS.CHSTATc.SET_16.at (4 * c)).key ≠ g.key) (n : Nat) (c : Fin 4) (point : Nat) : (setF n c point).key ≠ (g.stack n).key := by
  rcases setF_cases n c point with hset | hset
  · exact hset ▸ stack_key_ne (h c).1 n
  · exact hset ▸ stack_key_ne (h c).2 n

theorem setF_wid (n c point : Nat) : (setF n c point).wid = 1 := by
  rcases setF_cases n c point with hset | hset
  · exact hset ▸ rfl
  · exact hset ▸ rfl

/-! ### Events of a stack (R382, R386) -/

theorem raiseSev_get (s : State) (src sev : Nat) (d : List Byte) {k : Nat} (hpend : k ≠ (evBits src).1.key)
    (hfilt : k ≠ Z.EVT_STAT.FILTERED.key) : Tab.get 0 (s.raiseSev src sev d).zreg k = Tab.get 0 s.zreg k := by
  have hkey : (⟨k / 64, k % 64, 0, .ro, 0⟩ : Field).key = k := Nat.div_add_mod' k 64
  have hget := raiseSev_zget s src sev d (hkey.symm ▸ hpend : (⟨k / 64, k % 64, 0, .ro, 0⟩ : Field).key ≠ _) (by rwa [hkey])
  simpa only [State.zget, fget, hkey, Nat.xor_zero] using hget

/-- R382: an event touches its PEND field, FILTERED, the queue, pending messages and the output. -/
theorem raiseSev_onlyEvent (s : State) (src sev : Nat) (d : List Byte) :
    onlyEvent [(evBits src).1, Z.EVT_STAT.FILTERED] s (s.raiseSev src sev d) := by
  refine ⟨?_, fun k hk => ?_⟩
  · unfold State.raiseSev State.message
    dsimp only
    repeat' split
    all_goals rfl
  · simp only [List.map_cons, List.map_nil, List.mem_cons, List.not_mem_nil, or_false, not_or] at hk
    exact raiseSev_get s src sev d hk.1 hk.2

theorem raiseStack_onlyEvent (s : State) (n j : Nat) (d : List Byte) :
    onlyEvent [(evBits (320 + 12 * n + j)).1, Z.EVT_STAT.FILTERED] s (s.raiseStack n j d) := raiseSev_onlyEvent ..

theorem raiseStack_buf (s : State) (n j : Nat) (d : List Byte) : (s.raiseStack n j d).buf = s.buf :=
  congrArg (fun u => u.buf) (raiseStack_onlyEvent s n j d).1

theorem evBits_stack (n : Fin 8) {j : Nat} (hj : j < 12) : (evBits (320 + 12 * n + j)).1 = ZS.EVSTAT.PEND.stack n := by
  have hn := n.isLt
  have hstack : (320 + 12 * n.val + j - 320) / 12 = n := by omega
  rw [evBits, if_neg (by omega), if_pos (by omega), hstack]

/-- An event of a stack leaves its other fields. -/
theorem raiseStack_zget {f : Field} (h : f.key ≠ ZS.EVSTAT.PEND.key) (s : State) (n : Fin 8) {j : Nat} (hj : j < 12) (d : List Byte) :
    (s.raiseStack n j d).zget (f.stack n) = s.zget (f.stack n) :=
  raiseSev_zget s _ _ d (evBits_stack n hj ▸ stack_key_ne h n) (stack_key_ne_low f n (by decide))

/-- An event of a stack leaves the fields of its channels. -/
theorem raiseStack_zget_chan {f : Field} (h : ∀ c : Fin 4, (f.at (4 * c)).key ≠ ZS.EVSTAT.PEND.key) (s : State) (n : Fin 8) (c : Fin 4)
    {j : Nat} (hj : j < 12) (d : List Byte) : (s.raiseStack n j d).zget (chanF f n c) = s.zget (chanF f n c) :=
  raiseStack_zget (h c) s n hj d

/-! ### The states of channels -/

/-- The STATE fields of stack `n`. -/
def stateFields (n : Nat) : List Field := [0, 1, 2, 3].map (chanF ZS.CHSTATc.STATE n)

theorem mem_stateFields {n c : Nat} (hc : c ∈ [0, 1, 2, 3]) : chanF ZS.CHSTATc.STATE n c ∈ stateFields n := List.mem_map_of_mem hc

/-- A field of the stack's block that is no channel's STATE. -/
theorem key_notMem_stateFields {f : Field} (h : ∀ c ∈ [0, 1, 2, 3], f.key ≠ (ZS.CHSTATc.STATE.at (4 * c)).key) (n : Nat) :
    (f.stack n).key ∉ (stateFields n).map Field.key := by
  simp only [stateFields, List.mem_map, not_exists, not_and]
  rintro _ ⟨c, hc, rfl⟩
  exact Ne.symm (stack_key_ne (h c hc) n)

theorem chState_key (n c : Nat) : (chanF ZS.CHSTATc.STATE n c).key = (0x20008 + n * 0x1000 + 4 * c) * 64 := by
  simp only [chanF, Field.key, Field.stack, Field.at, ZS.CHSTATc.STATE]
  omega

theorem chState_setChState (s : State) (n v m : Nat) {c d : Nat} (hc : c < 4) (hd : d < 4) :
    (s.setChState n c v).chState m d = if m = n ∧ d = c then v % 8 else s.chState m d := by
  split
  next h => exact h.1 ▸ h.2 ▸ State.zget_zput s _ v
  next h =>
    refine State.zget_zput_ne s v ?_
    rw [chState_key, chState_key]
    omega

/-- Moving the channels `cs` of stack `n` that are in state `a`, and for which `q` holds, to state `b`: where each channel stands. -/
theorem foldl_chState {q : State → Nat → Bool} {g : State → Nat → State} {n a b : Nat}
    (hq : ∀ s c v d, q (s.setChState n c v) d = q s d)
    (hg : ∀ s c, g s c = if s.chState n c = a ∧ q s c = true then s.setChState n c b else s) (cs : List Nat) (hcs : ∀ c ∈ cs, c < 4)
    (s : State) (m : Nat) {d : Nat} (hd : d < 4) : (cs.foldl g s).chState m d =
      if m = n ∧ d ∈ cs ∧ s.chState m d = a ∧ q s d = true then b % 8 else s.chState m d := by
  induction cs generalizing s with
  | nil => simp
  | cons c cs ih =>
    have hc : c < 4 := hcs c List.mem_cons_self
    rw [List.foldl_cons, ih fun x hx => hcs x (List.mem_cons_of_mem c hx), hg]
    split
    next h =>
      rw [hq, chState_setChState s n b m hc hd]
      by_cases heq : m = n ∧ d = c
      · obtain ⟨rfl, rfl⟩ := heq
        simp [h]
      · simp only [if_neg heq, List.mem_cons]
        grind
    next h => grind

theorem chMove_chState (s : State) (n a b m : Nat) {d : Nat} (hd : d < 4) :
    (s.chMove n a b).chState m d = if m = n ∧ s.chState m d = a then b % 8 else s.chState m d := by
  have hmem : d ∈ [0, 1, 2, 3] := by
    simp only [List.mem_cons, List.not_mem_nil, or_false]
    omega
  refine (foldl_chState (n := n) (a := a) (b := b) (q := fun _ _ => true) (fun _ _ _ _ => rfl) (fun _ _ => by simp) [0, 1, 2, 3] (by simp)
    s m hd).trans ?_
  simp [hmem]

theorem chMove_onlyRegs (s : State) (n a b : Nat) : onlyRegs (stateFields n) s (s.chMove n a b) :=
  foldl_onlyRegs _ _ _ fun s c hc => by
    split
    · exact onlyRegs_zput s (mem_stateFields hc) b
    · exact .refl _ s

end Sys2Proof.Machine
end

section
/-!
PROOFS. DRAM training and operating points (R168, R170 to R173, R178, R398): slices and retrains of a channel, changes of point, thermal
emergencies.
-/

namespace Sys2Proof.Machine

/-! ### The parts of a stack -/

@[simp] theorem stack_updStack (s : State) (n : Nat) (f : StackSt → StackSt) : (s.updStack n f).stack n = f (s.stack n) := by
  simp [State.stack, State.updStack]

@[simp] theorem zget_updStack (s : State) (n : Nat) (f : StackSt → StackSt) (g : Field) : (s.updStack n f).zget g = s.zget g := rfl
@[simp] theorem stack_zput (s : State) (g : Field) (v m : Nat) : (s.zput g v).stack m = s.stack m := rfl
@[simp] theorem stack_zbump (s : State) (g : Field) (v m : Nat) : (s.zbump g v).stack m = s.stack m := rfl

theorem stack_congr {s t : State} (h : t.buf = s.buf) (n : Nat) : t.stack n = s.stack n :=
  congrArg (fun b : Buffer => Tab.get ({} : StackSt) b.stks n) h

theorem stack_raiseStack (s : State) (n j m : Nat) (d : List Byte) : (s.raiseStack n j d).stack m = s.stack m :=
  stack_congr (raiseStack_buf s n j d) m

theorem slicing_eq_false_iff {s : State} {n : Nat} : s.slicing n = false ↔ ∀ c : Fin 4, s.zget (chanF ZS.CHSTATc.SLICE n c) ≠ 1 := by
  simp [State.slicing, Fin.forall_fin_succ]

/-- A write beside the SLICE flags of the stack. -/
theorem slicing_zput {s : State} {n : Nat} {f : Field} (hf : ∀ c : Fin 4, (chanF ZS.CHSTATc.SLICE n c).key ≠ f.key) (v : Nat)
    (h : s.slicing n = false) : (s.zput f v).slicing n = false :=
  slicing_eq_false_iff.mpr fun c => (State.zget_zput_ne s v (hf c)).symm ▸ slicing_eq_false_iff.mp h c

/-! ### Slices (R170) -/

theorem sliceStart_of_idle {s : State} {n : Nat} {c : Fin 4} (hen : s.zget (ZS.CTL.RETRAIN_EN.stack n) = 1) (hactive : s.chState n c = 2)
    (hidle : s.slicing n = false) (hfew : Tab.get 0 (s.stack n).slices c < 16) (hpasr : s.zget Z.BUF_STAT.PASR = 0) :
    s.sliceStart n c = s.zput (chanF ZS.CHSTATc.SLICE n c) 1 :=
  if_pos ⟨hen, hactive, by simp [hidle], hfew, hpasr⟩

theorem sliceStart_of_slicing {s : State} {n : Nat} (hbusy : s.slicing n = true) (c : Nat) : s.sliceStart n c = s :=
  if_neg fun h => h.2.2.1 hbusy

theorem sliceEnd_of_slice {s : State} {n c : Nat} (hslice : s.zget (chanF ZS.CHSTATc.SLICE n c) = 1) (hwait : (s.stack n).waiting = false) :
    s.sliceEnd n c = (s.zput (chanF ZS.CHSTATc.SLICE n c) 0).updStack n fun x => { x with slices := Tab.upd 0 x.slices c (· + 1) } := by
  rw [State.sliceEnd, if_pos hslice, State.slicesOver, if_neg (by simp [hwait])]

theorem exec_retrainSlice (n : Fin 8) (c : Fin 4) (start : Bool) (s : State) :
    exec (.retrainSlice n c start) s = .next (if start then s.sliceStart n c else s.sliceEnd n c) := rfl

/-! ### Retrains (R170, R171) -/

/-- What every retrain leaves: the slices are used up, the margins show, DONE counts. -/
def State.measured (s : State) (n c w h : Nat) : State :=
  (((s.updStack n fun x => { x with slices := Tab.set 0 x.slices c 0 }).zput (chanF ZS.CHSTATc.MARGIN_W n c) w).zput
    (chanF ZS.CHSTATc.MARGIN_H n c) h).zbump (chanF ZS.TRAINc.DONE n c) 1

/-- The setting found is applied. -/
def State.setStored (s : State) (n c point : Nat) : State :=
  ((s.zput (chanF ZS.CHSTATc.MARGINAL n c) 0).zput (setF n c point) 1).updStack n fun x =>
    { x with trained := Tab.set 0 x.trained (c + 4 * point) s.time }

/-- The channel is marginal, and the old setting stays. -/
def State.setKept (s : State) (n c w h : Nat) : State :=
  ((s.zput (chanF ZS.CHSTATc.MARGINAL n c) 1).zbump (chanF ZS.TRAINc.NOSET n c) 1).raiseStack n 7 [b8 (4 * n + c), b8 w, b8 h]

theorem retrained_of_active {s : State} {n : Nat} {c : Fin 4} (hslices : Tab.get 0 (s.stack n).slices c ≠ 0)
    (hover : s.zget (chanF ZS.CHSTATc.SLICE n c) = 0) (hactive : s.chState n c = 2) (w h : Nat) : s.retrained n c w h =
      if 16 ≤ w ∧ 10 ≤ h then (s.measured n c w h).setStored n c (s.zget (ZS.DPT.POINT.stack n)) else
        (s.measured n c w h).setKept n c w h := by
  have hstays : (((s.updStack n fun x => { x with slices := Tab.set 0 x.slices c 0 }).zput (chanF ZS.CHSTATc.MARGIN_W n c) w).zput
      (chanF ZS.CHSTATc.MARGIN_H n c) h).chState n c = 2 :=
    (State.zget_zput_ne _ _ (chanF_key_ne (by decide) n c)).trans ((State.zget_zput_ne _ _ (chanF_key_ne (by decide) n c)).trans hactive)
  unfold State.retrained
  rw [if_neg (by simp [hslices, hover])]
  dsimp only
  rw [if_neg (mt And.left (hstays.trans_ne (by decide)))]
  rfl

section
variable (s : State) (n : Fin 8) (c : Fin 4) (w h : Nat)

theorem measured_slices : Tab.get 0 ((s.measured n c w h).stack n).slices c = 0 := by
  simp [State.measured]

theorem measured_trained : ((s.measured n c w h).stack n).trained = (s.stack n).trained := by
  simp [State.measured]

theorem measured_done : (s.measured n c w h).zget (chanF ZS.TRAINc.DONE n c) =
    sat (chanF ZS.TRAINc.DONE n c).wid (s.zget (chanF ZS.TRAINc.DONE n c) + 1) := by
  rw [State.measured, State.zget_zbump, State.zget_zput_ne _ _ (chanF_key_ne (by decide) n c),
    State.zget_zput_ne _ _ (chanF_key_ne (by decide) n c), zget_updStack]

theorem setStored_done (point : Nat) : (s.setStored n c point).zget (chanF ZS.TRAINc.DONE n c) = s.zget (chanF ZS.TRAINc.DONE n c) := by
  rw [State.setStored, zget_updStack, State.zget_zput_ne _ _ (Ne.symm (setF_key_ne (by decide) n c point)),
    State.zget_zput_ne _ _ (chanF_key_ne (by decide) n c)]

theorem setStored_shown (point : Nat) : (s.setStored n c point).zget (chanF ZS.CHSTATc.MARGINAL n c) = 0 ∧
    (s.setStored n c point).zget (setF n c point) = 1 := by
  constructor
  · rw [State.setStored, zget_updStack, State.zget_zput_ne _ _ (Ne.symm (setF_key_ne (by decide) n c point)), State.zget_zput, Nat.zero_mod]
  · rw [State.setStored, zget_updStack, State.zget_zput, setF_wid]
    rfl

theorem setKept_done : (s.setKept n c w h).zget (chanF ZS.TRAINc.DONE n c) = s.zget (chanF ZS.TRAINc.DONE n c) := by
  refine (raiseStack_zget_chan (by decide) _ n c (by decide) _).trans ?_
  exact (State.zget_zbump_ne _ _ (chanF_key_ne (by decide) n c)).trans (State.zget_zput_ne _ _ (chanF_key_ne (by decide) n c))

theorem setKept_marginal : (s.setKept n c w h).zget (chanF ZS.CHSTATc.MARGINAL n c) = 1 := by
  refine (raiseStack_zget_chan (by decide) _ n c (by decide) _).trans ?_
  exact (State.zget_zbump_ne _ _ (chanF_key_ne (by decide) n c)).trans (State.zget_zput _ _ _)

theorem setStored_stack (point : Nat) : (s.setStored n c point).stack n =
    { s.stack n with trained := Tab.set 0 (s.stack n).trained (c + 4 * point) s.time } := by
  rw [State.setStored, stack_updStack, stack_zput, stack_zput]

theorem setKept_buf : (s.setKept n c w h).buf = s.buf := raiseStack_buf ..

theorem setKept_stack : (s.setKept n c w h).stack n = s.stack n := stack_raiseStack ..

/-- The fields that a retrain of channel `c` of stack `n` may write. -/
def retrainFields (point : Nat) : List Field :=
  [chanF ZS.CHSTATc.MARGIN_W n c, chanF ZS.CHSTATc.MARGIN_H n c, chanF ZS.TRAINc.DONE n c, chanF ZS.CHSTATc.MARGINAL n c,
    setF n c point, chanF ZS.TRAINc.NOSET n c, (evBits (320 + 12 * n + 7)).1, Z.EVT_STAT.FILTERED]

theorem measured_regsBut (point : Nat) : regsBut (retrainFields n c point) s (s.measured n c w h) :=
  regsBut.zbump (.zput (.zput (fun _ _ => rfl) (by simp [retrainFields]) w) (by simp [retrainFields]) h) (by simp [retrainFields]) 1

theorem setStored_regsBut (point : Nat) : regsBut (retrainFields n c point) s (s.setStored n c point) :=
  regsBut.zput (.zput (fun _ _ => rfl) (by simp [retrainFields]) 0) (by simp [retrainFields]) 1

theorem setKept_regsBut (point : Nat) : regsBut (retrainFields n c point) s (s.setKept n c w h) :=
  (regsBut.zbump (.zput (fun _ _ => rfl) (by simp [retrainFields]) 1) (by simp [retrainFields]) 1).trans
    ((raiseStack_onlyEvent _ n 7 _).2.mono (by simp [retrainFields]))

end

/-! ### Changes of point (R172, R173) -/

section
variable {s : State} {n : Nat}

theorem wantedPoint_of_calm (hcalm : s.zget (ZS.DPT.EMERG.stack n) = 0) : s.wantedPoint n = s.zget (ZS.DPT.TARGET.stack n) :=
  if_neg (by simp [hcalm])

/-- During a change nothing more is done. -/
theorem evalPoint_of_switching (hsw : s.zget (ZS.DPT.SWITCHING.stack n) = 1) : s.evalPoint n = s := if_pos hsw

theorem evalPoint_of_there (hsw : s.zget (ZS.DPT.SWITCHING.stack n) = 0) (hthere : s.wantedPoint n = s.zget (ZS.DPT.POINT.stack n)) :
    s.evalPoint n = s.updStack n fun x => { x with waiting := false } := by
  rw [State.evalPoint, if_neg (by simp [hsw]), if_pos hthere]

theorem evalPoint_of_away (hsw : s.zget (ZS.DPT.SWITCHING.stack n) = 0) (haway : s.wantedPoint n ≠ s.zget (ZS.DPT.POINT.stack n))
    (hpasr : s.zget Z.BUF_STAT.PASR = 0) (htrain : (s.stack n).training = false) (hidle : s.slicing n = false) :
    s.evalPoint n = s.startPoint n (s.wantedPoint n) := by
  rw [State.evalPoint, if_neg (by simp [hsw]), if_neg haway, if_neg (by simp [hpasr]), if_neg (by simp [htrain, hidle])]

end

/-- Outside an emergency the point wanted is TARGET as written. -/
theorem wantedPoint_target {s : State} {n : Nat} (hcalm : s.zget (ZS.DPT.EMERG.stack n) = 0) (target : Bool) :
    (s.zput (ZS.DPT.TARGET.stack n) target.toNat).wantedPoint n = target.toNat := by
  rw [wantedPoint_of_calm ((State.zget_zput_ne s _ (stack_key_ne (by decide) n)).trans hcalm), State.zget_zput]
  cases target
  · rfl
  · rfl

theorem exec_pointTargetWrite {s : State} (hopen : s.bar0Open) (n : Fin 8) (target : Bool) :
    exec (.pointTargetWrite n target) s = .next ((s.zput (ZS.DPT.TARGET.stack n) target.toNat).evalPoint n) := by
  rw [← b2n_eq_toNat]
  exact congrArg Host.Outcome.next (bar0_of_open hopen _)

/-- A change has started: what it shows, and that beside registers only the stack's record has changed. -/
theorem startPoint_started (s : State) (n : Nat) (goal : Nat) (hactive : ∀ c : Fin 4, s.chState n c = 2) :
    (s.startPoint n goal).zget (ZS.DPT.TARGET.stack n) = s.zget (ZS.DPT.TARGET.stack n) ∧
      (s.startPoint n goal).zget (ZS.DPT.SWITCHING.stack n) = 1 ∧ ((s.startPoint n goal).stack n).goal = goal ∧
      (∀ c : Fin 4, (s.startPoint n goal).chState n c = 3) ∧ (s.startPoint n goal).buf.mem = s.buf.mem ∧
      (s.startPoint n goal).out = s.out := by
  have hmove := chMove_onlyRegs ((s.zput (ZS.DPT.SWITCHING.stack n) 1).updStack n fun x => { x with goal := goal, waiting := false }) n
    chActive chStalled
  refine ⟨?_, ?_, ?_, fun c => ?_, (congrArg Buffer.mem hmove.buf :), hmove.out⟩
  · exact (hmove.zget (key_notMem_stateFields (by decide) n)).trans (State.zget_zput_ne _ _ (stack_key_ne (by decide) n))
  · exact (hmove.zget (key_notMem_stateFields (by decide) n)).trans (State.zget_zput _ _ _)
  · exact congrArg StackSt.goal ((stack_congr hmove.buf n).trans (stack_updStack _ n _))
  · have hstate : (s.zput (ZS.DPT.SWITCHING.stack n) 1).chState n c = 2 :=
      (State.zget_zput_ne s _ (chanF_key_ne_stack (by decide) n c)).trans (hactive c)
    refine (chMove_chState _ n chActive chStalled n c.isLt).trans ?_
    exact if_pos ⟨rfl, hstate⟩

/-- A stalled channel whose set for the new point is stored carries traffic again. -/
def State.unstall (s : State) (n goal c : Nat) : State :=
  if s.chState n c = chStalled ∧ s.zget (setF n c goal) = 1 then s.setChState n c chActive else s

section
variable {s : State} {n : Fin 8} {target : Bool} (hopen : s.bar0Open) (hcalm : s.zget (ZS.DPT.EMERG.stack n) = 0)
  (hsw : s.zget (ZS.DPT.SWITCHING.stack n) = 0)
include hopen hcalm hsw

theorem exec_pointTargetWrite_there (hthere : s.zget (ZS.DPT.POINT.stack n) = target.toNat) : exec (.pointTargetWrite n target) s =
    .next ((s.zput (ZS.DPT.TARGET.stack n) target.toNat).updStack n fun x => { x with waiting := false }) := by
  have hsw' : (s.zput (ZS.DPT.TARGET.stack n) target.toNat).zget (ZS.DPT.SWITCHING.stack n) = 0 :=
    (State.zget_zput_ne _ _ (stack_key_ne (by decide) n)).trans hsw
  rw [exec_pointTargetWrite hopen, evalPoint_of_there hsw']
  rw [wantedPoint_target hcalm, State.zget_zput_ne _ _ (stack_key_ne (by decide) n), hthere]

/-- A stack whose channels all carry traffic begins the change at once. -/
theorem exec_pointTargetWrite_away (haway : s.zget (ZS.DPT.POINT.stack n) ≠ target.toNat) (hpasr : s.zget Z.BUF_STAT.PASR = 0)
    (htrain : (s.stack n).training = false) (hidle : s.slicing n = false) : exec (.pointTargetWrite n target) s =
      .next ((s.zput (ZS.DPT.TARGET.stack n) target.toNat).startPoint n target.toNat) := by
  have hsw' : (s.zput (ZS.DPT.TARGET.stack n) target.toNat).zget (ZS.DPT.SWITCHING.stack n) = 0 :=
    (State.zget_zput_ne _ _ (stack_key_ne (by decide) n)).trans hsw
  have hpasr' : (s.zput (ZS.DPT.TARGET.stack n) target.toNat).zget Z.BUF_STAT.PASR = 0 :=
    (State.zget_zput_ne _ _ (Ne.symm (stack_key_ne_low _ n (by decide)))).trans hpasr
  have haway' : (s.zput (ZS.DPT.TARGET.stack n) target.toNat).wantedPoint n ≠
      (s.zput (ZS.DPT.TARGET.stack n) target.toNat).zget (ZS.DPT.POINT.stack n) := by
    rw [wantedPoint_target hcalm, State.zget_zput_ne _ _ (stack_key_ne (by decide) n)]
    exact Ne.symm haway
  rw [exec_pointTargetWrite hopen, evalPoint_of_away hsw' haway' hpasr' htrain (slicing_zput (chanF_key_ne_stack (by decide) n) _ hidle),
    wantedPoint_target hcalm]

end

/-- The new point is shown, and the channels whose set for it is stored carry traffic again. -/
def State.pointMoved (s : State) (n goal : Nat) : State :=
  (((s.zput (ZS.DPT.SWITCHING.stack n) 0).zput (ZS.DPT.POINT.stack n) goal).updStack n fun x => { x with slices := [] }).chans fun s c =>
    s.unstall n goal c

theorem pointDone_of_switching {s : State} {n : Nat} (hsw : s.zget (ZS.DPT.SWITCHING.stack n) = 1) :
    s.pointDone n = (s.pointMoved n (s.stack n).goal).evalPoint n := if_neg (by simp [hsw])

theorem setF_key_ne_chState (n c point m d : Nat) : (setF n c point).key ≠ (chanF ZS.CHSTATc.STATE m d).key := by
  rw [chState_key]
  rcases setF_cases n c point with hset | hset
  · simp only [hset, chanF, Field.key, Field.stack, Field.at, ZS.CHSTATc.SET_32]
    omega
  · simp only [hset, chanF, Field.key, Field.stack, Field.at, ZS.CHSTATc.SET_16]
    omega

section
variable (s : State) (n goal : Nat)

theorem pointMoved_onlyRegs : onlyRegs (stateFields n)
    (((s.zput (ZS.DPT.SWITCHING.stack n) 0).zput (ZS.DPT.POINT.stack n) goal).updStack n fun x => { x with slices := [] })
    (s.pointMoved n goal) :=
  foldl_onlyRegs _ _ _ fun s c hc => by
    unfold State.unstall
    split
    · exact onlyRegs_zput s (mem_stateFields hc) chActive
    · exact .refl _ s

/-- A field of the stack that is neither a channel's STATE, nor SWITCHING, nor POINT. -/
theorem pointMoved_zget {f : Field} (hstate : ∀ c ∈ [0, 1, 2, 3], f.key ≠ (ZS.CHSTATc.STATE.at (4 * c)).key)
    (hsw : f.key ≠ ZS.DPT.SWITCHING.key) (hpoint : f.key ≠ ZS.DPT.POINT.key) :
    (s.pointMoved n goal).zget (f.stack n) = s.zget (f.stack n) :=
  ((pointMoved_onlyRegs s n goal).zget (key_notMem_stateFields hstate n)).trans
    ((State.zget_zput_ne _ _ (stack_key_ne hpoint n)).trans (State.zget_zput_ne _ _ (stack_key_ne hsw n)))

theorem pointMoved_switching : (s.pointMoved n goal).zget (ZS.DPT.SWITCHING.stack n) = 0 :=
  ((pointMoved_onlyRegs s n goal).zget (key_notMem_stateFields (by decide) n)).trans
    ((State.zget_zput_ne _ _ (stack_key_ne (by decide) n)).trans (State.zget_zput _ _ _))

theorem pointMoved_point {goal : Nat} (hgoal : goal < 2) : (s.pointMoved n goal).zget (ZS.DPT.POINT.stack n) = goal :=
  ((pointMoved_onlyRegs s n goal).zget (key_notMem_stateFields (by decide) n)).trans
    ((State.zget_zput _ _ _).trans (Nat.mod_eq_of_lt hgoal))

theorem pointMoved_buf : (s.pointMoved n goal).buf = (s.updStack n fun x => { x with slices := [] }).buf :=
  (pointMoved_onlyRegs s n goal).buf

theorem pointMoved_chState (hready : ∀ c : Fin 4, s.chState n c = 3 ∧ s.zget (setF n c goal) = 1) (c : Fin 4) :
    (s.pointMoved n goal).chState n c = 2 := by
  have hmem : c.val ∈ [0, 1, 2, 3] := by
    revert c
    decide
  obtain ⟨hstate, hset⟩ := hready c
  have hstate' : ((s.zput (ZS.DPT.SWITCHING.stack n) 0).zput (ZS.DPT.POINT.stack n) goal).chState n c = chStalled :=
    (State.zget_zput_ne _ _ (chanF_key_ne_stack (by decide) n c)).trans
      ((State.zget_zput_ne _ _ (chanF_key_ne_stack (by decide) n c)).trans hstate)
  have hset' : ((s.zput (ZS.DPT.SWITCHING.stack n) 0).zput (ZS.DPT.POINT.stack n) goal).zget (setF n c goal) = 1 :=
    (State.zget_zput_ne _ _ (setF_key_ne_stack (by decide) n c goal)).trans
      ((State.zget_zput_ne _ _ (setF_key_ne_stack (by decide) n c goal)).trans hset)
  have hmoved := foldl_chState (n := n) (a := chStalled) (b := chActive) (q := fun s c => decide (s.zget (setF n c goal) = 1))
    (g := fun s c => s.unstall n goal c)
    (fun s c v d => congrArg (fun x => decide (x = 1)) (State.zget_zput_ne s v (setF_key_ne_chState n d goal n c)))
    (fun s c => by simp [State.unstall]) [0, 1, 2, 3] (by simp)
    (((s.zput (ZS.DPT.SWITCHING.stack n) 0).zput (ZS.DPT.POINT.stack n) goal).updStack n fun x => { x with slices := [] }) n c.isLt
  exact hmoved.trans (if_pos ⟨rfl, hmem, hstate', decide_eq_true hset'⟩)

end

/-- The switch ends at the point wanted: nothing more is to change. -/
theorem pointDone_of_wanted {s : State} {n : Nat} (hsw : s.zget (ZS.DPT.SWITCHING.stack n) = 1) (hwant : s.wantedPoint n = (s.stack n).goal)
    (hgoal : (s.stack n).goal < 2) :
    s.pointDone n = (s.pointMoved n (s.stack n).goal).updStack n fun x => { x with waiting := false } := by
  have hwant' : (s.pointMoved n (s.stack n).goal).wantedPoint n = s.wantedPoint n := by
    simp only [State.wantedPoint, pointMoved_zget s n _ (f := ZS.DPT.EMERG) (by decide) (by decide) (by decide),
      pointMoved_zget s n _ (f := ZS.DPT.TARGET) (by decide) (by decide) (by decide)]
  rw [pointDone_of_switching hsw, evalPoint_of_there (pointMoved_switching s n _)]
  rw [hwant', hwant, pointMoved_point s n hgoal]

theorem exec_pointChangeDone (n : Fin 8) (s : State) : exec (.pointChangeDone n) s = .next (s.pointDone n) := rfl

/-! ### Thermal emergencies (R172, R173) -/

section
variable {s : State} {n : Fin 8} {temp : Byte}

theorem exec_thermalEmergencyEntry (stall : Fin 20001) :
    exec (.thermalEmergencyEntry n temp stall) s = .next (s.thermalEntry n temp.toNat stall) := rfl

theorem exec_thermalEmergencyExit : exec (.thermalEmergencyExit n temp) s = .next (s.thermalExit n temp.toNat) := rfl

theorem thermalEntry_of_cool {t : Nat} (hcool : t < s.zget (ZS.DPT.T_EMERG.stack n)) (stall : Nat) :
    s.thermalEntry n t stall = s.zput (ZS.DPT.TEMP.stack n) t := if_pos (.inr hcool)

/-- During start-up training the stack is at 1.6 Gb/s at once. -/
theorem thermalEntry_of_training (hcalm : s.zget (ZS.DPT.EMERG.stack n) = 0) (hhot : s.zget (ZS.DPT.T_EMERG.stack n) ≤ temp.toNat)
    (htrain : (s.stack n).training = true) (hidle : s.slicing n = false) (stall : Nat) : s.thermalEntry n temp.toNat stall =
      (((s.zput (ZS.DPT.TEMP.stack n) temp.toNat).zput (ZS.DPT.EMERG.stack n) 1).raiseStack n 9 [1, temp, 0, 0, 0, 0]).zput
        (ZS.DPT.POINT.stack n) 1 := by
  have hguard : ¬ (s.zget (ZS.DPT.EMERG.stack n) = 1 ∨ temp.toNat < s.zget (ZS.DPT.T_EMERG.stack n)) := by
    simp [hcalm, hhot]
  have hslice (d : List Byte) (c : Fin 4) : ¬ (((s.zput (ZS.DPT.TEMP.stack n) temp.toNat).zput (ZS.DPT.EMERG.stack n) 1).raiseStack n 9
      d).zget (chanF ZS.CHSTATc.SLICE n c) = 1 := by
    rw [raiseStack_zget_chan (by decide) _ n c (by decide), State.zget_zput_ne _ _ (chanF_key_ne_stack (by decide) n c),
      State.zget_zput_ne _ _ (chanF_key_ne_stack (by decide) n c)]
    exact slicing_eq_false_iff.mp hidle c
  have htrain' : (((s.zput (ZS.DPT.TEMP.stack n) temp.toNat).zput (ZS.DPT.EMERG.stack n) 1).stack n).training = true := htrain
  unfold State.thermalEntry
  rw [if_neg hguard]
  dsimp only
  rw [if_pos htrain', htrain']
  simp only [Bool.not_true, Bool.false_and, Bool.false_eq_true, if_false]
  rw [chans_fixed fun c => if_neg (hslice _ c)]
  simp [b8, leBytes]

theorem thermalExit_of_switching (hemerg : s.zget (ZS.DPT.EMERG.stack n) = 1) (hcool : temp.toNat ≤ s.zget (ZS.DPT.T_CLEAR.stack n))
    (hsw : s.zget (ZS.DPT.SWITCHING.stack n) = 1) : s.thermalExit n temp.toNat =
      ((s.zput (ZS.DPT.TEMP.stack n) temp.toNat).zput (ZS.DPT.EMERG.stack n) 0).raiseStack n 9 [0, temp, 0, 0, 0, 0] := by
  have hguard : ¬ ((s.zput (ZS.DPT.TEMP.stack n) temp.toNat).zget (ZS.DPT.EMERG.stack n) = 0 ∨
      (s.zput (ZS.DPT.TEMP.stack n) temp.toNat).zget (ZS.DPT.T_CLEAR.stack n) < temp.toNat) := by
    rw [State.zget_zput_ne _ _ (stack_key_ne (by decide) n), State.zget_zput_ne _ _ (stack_key_ne (by decide) n), hemerg]
    omega
  have hsw' (d : List Byte) : (((s.zput (ZS.DPT.TEMP.stack n) temp.toNat).zput (ZS.DPT.EMERG.stack n) 0).raiseStack n 9 d).zget
      (ZS.DPT.SWITCHING.stack n) = 1 := by
    rw [raiseStack_zget (by decide) _ n (by decide), State.zget_zput_ne _ _ (stack_key_ne (by decide) n),
      State.zget_zput_ne _ _ (stack_key_ne (by decide) n), hsw]
  unfold State.thermalExit
  dsimp only
  rw [if_neg hguard, evalPoint_of_switching (hsw' _)]
  simp [b8, leBytes]

/-! ### Hot dies and old trainings (R168, R178, R398) -/

theorem exec_refreshHot_of_first (hcold : (s.stack n).hot = 0) (rank : Fin 8) : exec (.refreshHot n rank true) s =
    .next ((s.updStack n fun x => { x with hot := 2 ^ rank.val }).zput (ZS.REFR.HOT.stack n) 1) := by
  have hmask : 0 ||| 2 ^ rank.val = 2 ^ rank.val := Nat.zero_or _
  have hshown : b2n (2 ^ rank.val != 0) = 1 := by simp [b2n]
  show execRefreshHot n rank true s = _
  simp only [execRefreshHot, hcold, if_true, hmask, hshown]

theorem exec_retrainAgeLag (c : Fin 4) : exec (.retrainAgeLag n c) s =
    .next ((s.bgLag 1).raiseStack n 6 ([3, b8 (4 * n + c)] ++ leBytes (max 200 (s.trainAge n c)) 4)) := rfl

theorem exec_dramRefresh (rank : Fin 8) (bank : Nat) : exec (.dramRefresh n rank bank) s = .next s := rfl

theorem exec_retrainComplete (c : Fin 4) (w h : Byte) : exec (.retrainComplete n c w h) s = .next (s.retrained n c w.toNat h.toNat) := rfl

end

/-- Settles O26: a refresh, the slices, a retrain that meets the margins or does not (`retrained_of_active`), TARGET (`startPoint_started`),
the end of a switch (`pointDone_of_wanted`), the emergencies, a hot die and the lag. -/
theorem dramTraining : Obligations.DramTraining := by
  unfold Obligations.DramTraining
  intro s n
  refine ⟨fun rank bank => exec_dramRefresh rank bank, fun c hen hactive hidle hfew hpasr => ?_, fun c hbusy => ?_, fun c hslice hwait => ?_,
    fun c w h hslices hover hactive => ?_, fun target hopen hcalm hsw hthere => ?_,
    fun target hopen hcalm hsw haway hpasr htrain hidle hactive => ?_, fun hsw hwant hgoal hready => ?_, fun temp stall => ⟨fun hcool => ?_,
    fun hcalm hhot htrain hidle => ?_, fun hemerg hcool hsw => ?_⟩, fun rank hcold => exec_refreshHot_of_first hcold rank,
    fun c => exec_retrainAgeLag c⟩
  · rw [exec_retrainSlice, if_pos rfl, sliceStart_of_idle hen hactive hidle hfew hpasr]
  · rw [exec_retrainSlice, if_pos rfl, sliceStart_of_slicing hbusy]
  · rw [exec_retrainSlice, if_neg (by decide), sliceEnd_of_slice hslice hwait]
  · refine ⟨_, exec_retrainComplete c w h, ?_⟩
    rw [retrained_of_active hslices (by simp [hover]) hactive]
    split
    next hmet =>
      refine ⟨(measured_regsBut s n c _ _ _).trans (setStored_regsBut _ n c _), ?_, rfl, ?_, fun _ _ => ?_, fun hunmet => ?_⟩
      · rw [setStored_stack, measured_slices]
      · exact (setStored_done _ n c _).trans (measured_done s n c _ _)
      · obtain ⟨hmarginal, hset⟩ := setStored_shown (s.measured n c w.toNat h.toNat) n c (s.zget (ZS.DPT.POINT.stack n))
        refine ⟨hmarginal, hset, ?_⟩
        rw [setStored_stack]
        exact Tab.get_set_same ..
      · omega
    next hunmet =>
      refine ⟨(measured_regsBut s n c _ _ _).trans (setKept_regsBut _ n c _ _ _), ?_, ?_, ?_, fun hw hh => absurd ⟨hw, hh⟩ hunmet, fun _ => ?_⟩
      · rw [setKept_stack, measured_slices]
      · rw [setKept_buf]
        rfl
      · exact (setKept_done _ n c _ _).trans (measured_done s n c _ _)
      · rw [setKept_stack, measured_trained]
        exact ⟨setKept_marginal _ n c _ _, rfl⟩
  · exact exec_pointTargetWrite_there hopen hcalm hsw hthere
  · have hactive' (c : Fin 4) : (s.zput (ZS.DPT.TARGET.stack n) target.toNat).chState n c = 2 :=
      (State.zget_zput_ne _ _ (chanF_key_ne_stack (by decide) n c)).trans (hactive c)
    have htarget : target.toNat % 2 ^ 1 = target.toNat := Nat.mod_eq_of_lt (Bool.toNat_lt target)
    obtain ⟨htgt, hrest⟩ := startPoint_started _ n target.toNat hactive'
    exact ⟨_, exec_pointTargetWrite_away hopen hcalm hsw haway hpasr htrain hidle, htgt.trans ((State.zget_zput _ _ _).trans htarget), hrest⟩
  · refine ⟨_, exec_pointChangeDone n s, ?_⟩
    rw [pointDone_of_wanted hsw hwant hgoal]
    have hbuf := pointMoved_buf s n (s.stack n).goal
    refine ⟨pointMoved_switching s n _, pointMoved_point s n hgoal, pointMoved_chState s n _ hready, ?_,
      (congrArg Buffer.mem hbuf :), (pointMoved_onlyRegs s n _).out⟩
    rw [stack_updStack, stack_congr hbuf n, stack_updStack]
  · rw [exec_thermalEmergencyEntry, thermalEntry_of_cool hcool]
  · rw [exec_thermalEmergencyEntry, thermalEntry_of_training hcalm hhot htrain hidle]
  · rw [exec_thermalEmergencyExit, thermalExit_of_switching hemerg hcool hsw]

end Sys2Proof.Machine
end

section
/-!
PROOFS. The gather, partial-array self-refresh and the address map (R174 to R176).
-/

namespace Sys2Proof.Machine

/-! ### The gather with nothing pinned (R174) -/

theorem exec_gatherComplete (s : State) : exec .gatherComplete s = .next s.gatherDone := rfl

theorem gatherDone_of_none {s : State} (hnone : s.zget Z.BUF_STAT.GATHER = 0) : s.gatherDone = s := if_pos hnone

/-- What the gather shows once nothing is left to move. -/
def State.gathered (s : State) : State :=
  ((s.zput Z.BUF_STAT.GATHER 0).zput Z.BUF_GATHER.DONE 1).zput Z.BUF_GATHER.MOVED 0

/-- Without billets nothing is moved, and without runs none expires: the ranks not kept go, and the channels go to self-refresh. -/
theorem gatherDone_of_unpinned {s : State} (hgather : s.zget Z.BUF_STAT.GATHER = 1) (hbillets : s.buf.billets = []) (hdir : s.buf.dir = []) :
    s.gatherDone = s.gathered.loseRanks.enterPasr := by
  have hdir' : s.gathered.buf.dir = [] := hdir
  unfold State.gatherDone
  rw [if_neg (by simp [hgather])]
  simp only [State.gatherList, hbillets, List.filter_nil, List.map_nil, State.gatherAll, List.length_nil]
  change ((List.map _ (List.filter _ s.gathered.buf.dir)).foldl _ s.gathered).loseRanks.enterPasr = _
  rw [hdir']
  rfl

/-! ### The ranks that are lost -/

/-- Dropping the entries at some keys leaves the other keys alone. -/
theorem Tab.get_filter {α : Type} (d : α) (p : Nat → Bool) (t : Tab α) (k : Nat) :
    Tab.get d (List.filter (fun e => p e.1) t) k = if p k then Tab.get d t k else d := by
  induction t with
  | nil => simp
  | cons e t ih =>
    obtain ⟨a, v⟩ := e
    rw [List.filter_cons]
    by_cases hak : a = k
    · subst hak
      cases hp : p a <;> simp [Tab.get, hp, ih]
    · cases hp : p a <;> simp [Tab.get, hak, ih]

/-- The byte at DRAM key `k` lies in a rank that is powered down. -/
def State.rankGone (s : State) (k : Nat) : Bool :=
  decide (k / 2 ^ 32 < 32 ∧ k % 2 ^ 32 < 2 ^ 31) && !bitAt (s.zget Z.BUF_KEEP.RANK0) (k / 2 ^ 32 / 4)

theorem rankGone_oldKey (s : State) {ch l : Nat} (hch : ch < 32) (hl : l < 2 ^ 32) :
    s.rankGone (oldKey ch l) = (decide (l < 2 ^ 31) && !bitAt (s.zget Z.BUF_KEEP.RANK0) (ch / 4)) := by
  have hdiv : oldKey ch l / 2 ^ 32 = ch := by
    unfold oldKey
    omega
  have hmod : oldKey ch l % 2 ^ 32 = l := by
    unfold oldKey
    omega
  rw [State.rankGone, hdiv, hmod]
  simp only [hch, true_and]

theorem loseRanks_zget (s : State) (g : Field) : s.loseRanks.zget g = s.zget g := rfl

section
variable {s : State} {ch l : Nat} (hch : ch < 32) (hl : l < 2 ^ 32)
include hch hl

theorem loseRanks_memByte : s.loseRanks.memByte ch l =
    if decide (l < 2 ^ 31) && !bitAt (s.zget Z.BUF_KEEP.RANK0) (ch / 4) then 0 else s.memByte ch l := by
  refine (Tab.get_filter 0 (fun k => !s.rankGone k) s.buf.mem (oldKey ch l)).trans ?_
  rw [rankGone_oldKey s hch hl]
  cases decide (l < 2 ^ 31) && !bitAt (s.zget Z.BUF_KEEP.RANK0) (ch / 4)
  · rfl
  · rfl

theorem loseRanks_memByte_kept (h : bitAt (s.zget Z.BUF_KEEP.RANK0) (ch / 4) = true ∨ 2 ^ 31 ≤ l) :
    s.loseRanks.memByte ch l = s.memByte ch l := by
  rw [loseRanks_memByte hch hl, if_neg]
  rcases h with hkept | hhigh
  · simp [hkept]
  · simp only [decide_eq_false (Nat.not_lt.mpr hhigh), Bool.false_and, Bool.false_eq_true, not_false_eq_true]

theorem loseRanks_memByte_lost (hlow : l < 2 ^ 31) (h : bitAt (s.zget Z.BUF_KEEP.RANK0) (ch / 4) = false) :
    s.loseRanks.memByte ch l = 0 := by
  rw [loseRanks_memByte hch hl, if_pos]
  simp only [h, decide_eq_true hlow, Bool.not_false, Bool.and_true]

end

/-! ### Self-refresh (R175) -/

/-- The channels of a stack in service go to self-refresh. -/
def State.restStack (s : State) (n : Nat) : State :=
  if s.inService n then (s.chMove n chActive chRefresh).chMove n chStalled chRefresh else s

theorem enterPasr_eq (s : State) : s.enterPasr =
    (List.range 8).foldl State.restStack ((s.zput Z.BUF_STAT.PASR 1).zput Z.BUF_PASR.ACTIVE 1) := rfl

/-- The STATE fields of all stacks. -/
def allStateFields : List Field := (List.range 8).flatMap stateFields

theorem restStack_onlyRegs (s : State) (n : Nat) : onlyRegs (stateFields n) s (s.restStack n) := by
  unfold State.restStack
  split
  · exact (chMove_onlyRegs s n _ _).trans (chMove_onlyRegs _ n _ _)
  · exact .refl _ s

theorem onlyRegs.mono {fs gs : List Field} {s t : State} (h : onlyRegs fs s t) (hsub : fs ⊆ gs) : onlyRegs gs s t :=
  ⟨h.1, h.2.mono hsub⟩

theorem enterPasr_onlyRegs (s : State) :
    onlyRegs allStateFields ((s.zput Z.BUF_STAT.PASR 1).zput Z.BUF_PASR.ACTIVE 1) s.enterPasr :=
  foldl_onlyRegs _ _ _ fun s n hn => (restStack_onlyRegs s n).mono fun _ hf => List.mem_flatMap.mpr ⟨n, hn, hf⟩

theorem low_notMem_allStateFields {g : Field} (h : g.key < 0x20000 * 64) : g.key ∉ allStateFields.map Field.key := by
  simp only [allStateFields, stateFields, List.mem_map, List.mem_flatMap, not_exists, not_and]
  rintro _ ⟨n, -, c, -, rfl⟩
  exact stack_key_ne_low _ n h

theorem enterPasr_zget (s : State) {g : Field} (h : g.key < 0x20000 * 64) :
    s.enterPasr.zget g = ((s.zput Z.BUF_STAT.PASR 1).zput Z.BUF_PASR.ACTIVE 1).zget g :=
  (enterPasr_onlyRegs s).zget (low_notMem_allStateFields h)

theorem restStack_inService (s : State) (n m : Nat) : (s.restStack n).inService m = s.inService m := by
  refine congrArg (· == 1) ((restStack_onlyRegs s n).zget ?_)
  simp only [stateFields, List.mem_map, not_exists, not_and]
  rintro _ ⟨c, hc, rfl⟩
  simp only [List.mem_cons, List.not_mem_nil, or_false] at hc
  rw [chState_key, stack_key, show ZS.CTL.SERVICE.key = 0 from rfl]
  omega

theorem restStack_chState (s : State) (n m : Nat) {d : Nat} (hd : d < 4) : (s.restStack n).chState m d =
    if s.inService n = true ∧ m = n ∧ (s.chState m d = 2 ∨ s.chState m d = 3) then 5 else s.chState m d := by
  unfold State.restStack
  split
  next hin =>
    rw [chMove_chState _ n _ _ m hd, chMove_chState s n _ _ m hd]
    simp only [hin, chActive, chStalled, chRefresh, true_and]
    grind
  next hout => simp [hout]

theorem foldl_restStack_chState (ns : List Nat) (s : State) (m : Nat) {d : Nat} (hd : d < 4) : (ns.foldl State.restStack s).chState m d =
    if s.inService m = true ∧ m ∈ ns ∧ (s.chState m d = 2 ∨ s.chState m d = 3) then 5 else s.chState m d := by
  induction ns generalizing s with
  | nil => simp
  | cons n ns ih =>
    rw [List.foldl_cons, ih, restStack_inService, restStack_chState s n m hd]
    grind

/-- A write below the stacks' blocks. -/
theorem zput_low_zget_stack (s : State) {g : Field} (h : g.key < 0x20000 * 64) (v : Nat) (f : Field) (n : Nat) :
    (s.zput g v).zget (f.stack n) = s.zget (f.stack n) := State.zget_zput_ne s v (stack_key_ne_low f n h)

/-- Every field of a stack's block is as it was before the gather, until self-refresh begins. -/
theorem gathered_zget_stack (s : State) (f : Field) (n : Nat) :
    ((s.gathered.loseRanks.zput Z.BUF_STAT.PASR 1).zput Z.BUF_PASR.ACTIVE 1).zget (f.stack n) = s.zget (f.stack n) :=
  (zput_low_zget_stack _ (by decide) 1 f n).trans ((zput_low_zget_stack _ (by decide) 1 f n).trans
    ((loseRanks_zget s.gathered _).trans ((zput_low_zget_stack _ (by decide) 0 f n).trans
      ((zput_low_zget_stack _ (by decide) 1 f n).trans (zput_low_zget_stack s (by decide) 0 f n)))))

/-- A channel in service that carries traffic goes to self-refresh. -/
theorem gathered_enterPasr_chState {s : State} {n : Fin 8} {c : Fin 4} (hin : s.inService n = true) (hactive : s.chState n c = 2) :
    s.gathered.loseRanks.enterPasr.chState n c = 5 := by
  have hstate := (gathered_zget_stack s (ZS.CHSTATc.STATE.at (4 * c)) n).trans hactive
  have hserves := (congrArg (· == 1) (gathered_zget_stack s ZS.CTL.SERVICE n)).trans hin
  rw [enterPasr_eq]
  refine (foldl_restStack_chState (List.range 8) _ n c.isLt).trans (if_pos ⟨hserves, ?_, .inl hstate⟩)
  exact List.mem_range.mpr n.isLt

theorem gathered_rank0 (s : State) : s.gathered.zget Z.BUF_KEEP.RANK0 = s.zget Z.BUF_KEEP.RANK0 :=
  (State.zget_zput_ne _ _ (by decide)).trans ((State.zget_zput_ne _ _ (by decide)).trans (State.zget_zput_ne _ _ (by decide)))

theorem enterPasr_memByte (s : State) (ch l : Nat) : s.enterPasr.memByte ch l = s.memByte ch l :=
  congrArg (fun b : Buffer => Tab.get 0 b.mem (oldKey ch l)) (enterPasr_onlyRegs s).buf

/-- What the registers show at the end of the gather. -/
theorem gathered_shown (s : State) : s.gathered.loseRanks.enterPasr.zget Z.BUF_STAT.GATHER = 0 ∧
    s.gathered.loseRanks.enterPasr.zget Z.BUF_GATHER.DONE = 1 ∧ s.gathered.loseRanks.enterPasr.zget Z.BUF_GATHER.MOVED = 0 ∧
    s.gathered.loseRanks.enterPasr.zget Z.BUF_STAT.PASR = 1 ∧ s.gathered.loseRanks.enterPasr.zget Z.BUF_PASR.ACTIVE = 1 := by
  have hlater {g : Field} (hlow : g.key < 0x20000 * 64) (hpasr : g.key ≠ Z.BUF_STAT.PASR.key) (hactive : g.key ≠ Z.BUF_PASR.ACTIVE.key) :
      s.gathered.loseRanks.enterPasr.zget g = s.gathered.zget g :=
    (enterPasr_zget _ hlow).trans ((State.zget_zput_ne _ _ hactive).trans (State.zget_zput_ne _ _ hpasr))
  refine ⟨?_, ?_, ?_, ?_, ?_⟩
  · rw [hlater (by decide) (by decide) (by decide), State.gathered, State.zget_zput_ne _ _ (by decide), State.zget_zput_ne _ _ (by decide),
      State.zget_zput, Nat.zero_mod]
  · rw [hlater (by decide) (by decide) (by decide), State.gathered, State.zget_zput_ne _ _ (by decide), State.zget_zput]
    rfl
  · rw [hlater (by decide) (by decide) (by decide), State.gathered, State.zget_zput, Nat.zero_mod]
  · rw [enterPasr_zget _ (by decide), State.zget_zput_ne _ _ (by decide), State.zget_zput]
    rfl
  · rw [enterPasr_zget _ (by decide), State.zget_zput]
    rfl

/-! ### Wake, idleness and the end (R175) -/

theorem exec_pasrWake (s : State) : exec .pasrWake s = .next s.touchKept := rfl
theorem exec_pasrIdleReentry (s : State) : exec .pasrIdleReentry s = .next (s.zput Z.BUF_PASR.AWAKE 0) := rfl

theorem touchKept_of_active {s : State} (h : s.zget Z.BUF_PASR.ACTIVE = 1) : s.touchKept = s.zput Z.BUF_PASR.AWAKE 1 := if_pos h
theorem touchKept_of_inactive {s : State} (h : s.zget Z.BUF_PASR.ACTIVE = 0) : s.touchKept = s := if_neg (by simp [h])

theorem exec_pasrExit {s : State} (hopen : s.bar0Open) : exec .pasrExit s = .next s.exitPasr :=
  congrArg Host.Outcome.next (bar0_of_open hopen _)

/-- No retirement waits on a stack of which nothing is recorded. -/
theorem runDue_of_no_record {s : State} (hstks : s.buf.stks = []) : s.runDue = s :=
  foldl_fixed _ _ _ fun n _ => by
    have hdue : (s.stack n).due = [] := by simp [State.stack, hstks]
    have hsame : (s.updStack n fun x => { x with due := [] }) = s := by
      have hupd : Tab.upd {} s.buf.stks n (fun x : StackSt => { x with due := [] }) = s.buf.stks := by
        rw [hstks]
        rfl
      exact congrArg (fun k => s.updBuf fun b => { b with stks := k }) hupd
    rw [hdue, List.foldl_nil, hsame]

/-- Self-refresh has ended, and no channel has been touched yet. -/
def State.awoken (s : State) : State := ((s.zput Z.BUF_STAT.PASR 0).zput Z.BUF_PASR.ACTIVE 0).zput Z.BUF_PASR.AWAKE 0

theorem awoken_zget_stack (s : State) (f : Field) (n : Nat) : s.awoken.zget (f.stack n) = s.zget (f.stack n) :=
  (zput_low_zget_stack _ (by decide) 0 f n).trans ((zput_low_zget_stack _ (by decide) 0 f n).trans
    (zput_low_zget_stack s (by decide) 0 f n))

/-- The channels of a stack in service wait for one complete retrain. -/
def State.wakeStack (s : State) (n : Nat) : State :=
  if s.inService n then
    (s.chMove n chRefresh chStalled).updStack n fun x => { x with slices := [(0, 16), (1, 16), (2, 16), (3, 16)] }
  else s

theorem exitPasr_of_pasr {s : State} (hpasr : s.zget Z.BUF_STAT.PASR = 1) : s.exitPasr =
    ((List.range 8).foldl (fun s n => s.evalPoint n) (((List.range 8).foldl State.wakeStack s.awoken).updBuf fun b =>
      { b with prioStart := ((List.range 8).foldl State.wakeStack s.awoken).time })).runDue := if_neg (by simp [hpasr])

/-- With no stack in service and every change of point under way, the end shows and a priority lap is due. -/
theorem exitPasr_of_no_stack {s : State} (hpasr : s.zget Z.BUF_STAT.PASR = 1) (hout : ∀ n : Fin 8, s.inService n = false)
    (hstks : s.buf.stks = []) (hsw : ∀ n : Fin 8, s.zget (ZS.DPT.SWITCHING.stack n) = 1) :
    s.exitPasr = s.awoken.updBuf fun b => { b with prioStart := s.time } := by
  have hasleep (n : Nat) (hn : n ∈ List.range 8) : s.awoken.wakeStack n = s.awoken := by
    have hidle : s.inService n = false := hout ⟨n, List.mem_range.mp hn⟩
    have hidle' : s.awoken.inService n = false := (congrArg (· == 1) (awoken_zget_stack s _ n)).trans hidle
    exact if_neg (by simp [hidle'])
  have hsw' (n : Nat) (hn : n ∈ List.range 8) : (s.awoken.updBuf fun b => { b with prioStart := s.time }).zget (ZS.DPT.SWITCHING.stack n) = 1 :=
    (awoken_zget_stack s _ n).trans (hsw ⟨n, List.mem_range.mp hn⟩)
  rw [exitPasr_of_pasr hpasr, foldl_fixed _ _ _ hasleep]
  change ((List.range 8).foldl (fun s n => s.evalPoint n) (s.awoken.updBuf fun b => { b with prioStart := s.time })).runDue = _
  rw [foldl_fixed _ _ _ fun n hn => evalPoint_of_switching (hsw' n hn), runDue_of_no_record]
  exact hstks

/-! ### The address map (R176) -/

theorem exec_bufMapWrite {s : State} (hopen : s.bar0Open) (w : Word) : exec (.bufMapWrite w) s = .next (s.writeBufMap w.toNat) :=
  congrArg Host.Outcome.next (bar0_of_open hopen _)

section
variable {s : State} {w : Nat} (hnew : w % 32 ≠ s.zget Z.BUF_MAP.GRAIN + 16 * s.zget Z.BUF_MAP.HASH) (hkeep : bitAt w 8 = false)
include hnew hkeep

theorem writeBufMap_refused (hbusy : s.run.active = true ∨ s.anyPin = true) : s.writeBufMap w = s.zput Z.BUF_MAP.REFUSED 1 := by
  simp only [State.writeBufMap, hkeep, Bool.false_eq_true, if_false, if_neg hnew, if_pos hbusy]

theorem writeBufMap_taken (hidle : s.run.active = false) (hfree : s.anyPin = false) :
    s.writeBufMap w = (s.zput Z.BUF_MAP.GRAIN (w % 16)).zput Z.BUF_MAP.HASH (w / 16 % 2) := by
  simp only [State.writeBufMap, hkeep, Bool.false_eq_true, if_false, if_neg hnew, hidle, hfree, or_self]

end

/-- Settles O27: the gather with nothing pinned (`gatherDone_of_unpinned`), the wake, the return to rest, the end (`exitPasr_of_no_stack`) and
the writes of the map.  That a lost rank reads 0 is the model's choice (log entry 10): R174 says only that its contents are lost. -/
theorem gatherAndSelfRefresh : Obligations.GatherAndSelfRefresh := by
  unfold Obligations.GatherAndSelfRefresh
  intro s
  refine ⟨fun hgather hbillets hdir => ⟨_, exec_gatherComplete s, ?_⟩, fun hnone => ?_, fun hactive => ?_, fun hrest => ?_,
    exec_pasrIdleReentry s, fun hopen hpasr hout hstks hsw => ?_, fun w hopen hnew hkeep => ⟨fun hbusy => ?_, fun hidle hfree => ?_⟩⟩
  · rw [gatherDone_of_unpinned hgather hbillets hdir]
    obtain ⟨hgather', hdone, hmoved, hpasr, hactive⟩ := gathered_shown s
    refine ⟨hgather', hdone, hmoved, hpasr, hactive, fun n c hin hrun => gathered_enterPasr_chState hin hrun, fun ch l hch hl hkept => ?_,
      fun ch l hch hl hlost => ?_⟩
    · exact (enterPasr_memByte _ ch l).trans (loseRanks_memByte_kept hch hl ((gathered_rank0 s).symm ▸ hkept))
    · exact (enterPasr_memByte _ ch l).trans (loseRanks_memByte_lost hch (by omega) hl ((gathered_rank0 s).symm ▸ hlost))
  · rw [exec_gatherComplete, gatherDone_of_none hnone]
  · rw [exec_pasrWake, touchKept_of_active hactive]
  · rw [exec_pasrWake, touchKept_of_inactive hrest]
  · rw [exec_pasrExit hopen, exitPasr_of_no_stack hpasr hout hstks hsw, State.awoken]
  · rw [exec_bufMapWrite hopen, writeBufMap_refused hnew hkeep hbusy]
  · rw [exec_bufMapWrite hopen, writeBufMap_taken hnew hkeep hidle hfree]

end Sys2Proof.Machine
end

section
/-!
PROOFS. The fetch of a CTRL entry and the start of its command when no other is under way (R238, R244).
-/

namespace Sys2Proof.Machine

/-! ### The bytes of an entry (R238) -/

theorem leBytes_length (v n : Nat) : (leBytes v n).length = n := by
  induction n generalizing v with
  | zero => rfl
  | succ n ih => rw [leBytes, List.length_cons, ih]

theorem leNat_leBytes (v n : Nat) : leNat (leBytes v n) = v % 256 ^ n := by
  induction n generalizing v with
  | zero => rw [Nat.pow_zero, Nat.mod_one]; rfl
  | succ n ih =>
    have hpow : 256 ^ (n + 1) = 256 * 256 ^ n := Nat.pow_succ'
    rw [leBytes, leNat_cons, ih, BitVec.toNat_ofNat, hpow, Nat.mod_mul]
    omega

/-- The part of an entry that stands behind `as`. -/
theorem slice_append (as bs cs : List Byte) {i n : Nat} (hi : as.length = i) (hn : bs.length = n) : slice (as ++ (bs ++ cs)) i n = bs := by
  rw [slice, List.drop_left' hi, List.take_left' hn]

/-! ### The state after the fetch (R244) -/

theorem shadow_updCmds (s : State) (f : List Cmd → List Cmd) : (s.updCmds f).shadow = s.shadow.updCmds f :=
  (apply_ite (fun t => State.updCmds t f) (s.zget Z.HOST_SHADOW.EN = 1 ∧ s.dmaOk)
    (s.emit (.hostWrite (s.zget Z.HOST_SHADOW.ADDR * 64) s.shadowBytes)) s).symm

theorem shadow_eq (s : State) : s.shadow = s.updOut fun _ => s.shadow.out := by
  unfold State.shadow
  split
  · rfl
  · rfl

section
variable (s : State) (c : Cmd)

theorem after_eq : s.after c = (((s.updCmds fun _ => [c]).updCmdCount (· + 1)).consume 0).updOut fun _ => (s.after c).out := shadow_eq _

theorem after_cmds : (s.after c).cmds = [c] := congrArg (fun u => u.cmds) (after_eq s c)
theorem after_run : (s.after c).run = s.run := congrArg (fun u => u.run) (after_eq s c)
theorem after_buf : (s.after c).buf = s.buf := congrArg (fun u => u.buf) (after_eq s c)
theorem after_time : (s.after c).time = s.time := congrArg (fun u => u.time) (after_eq s c)
theorem after_xtr : (s.after c).xtr = s.xtr := congrArg (fun u => u.xtr) (after_eq s c)
theorem after_engines : (s.after c).engines = s.engines := congrArg (fun u => u.engines) (after_eq s c)
theorem after_shm : (s.after c).shm = s.shm := congrArg (fun u => u.shm) (after_eq s c)
theorem after_chips : (s.after c).chips = s.chips := congrArg (fun u => u.chips) (after_eq s c)

/-- The fetch moves one index. -/
theorem after_zget {g : Field} (h : g.key ≠ (ZR.CIDX.INDEX.hring 0).key) : (s.after c).zget g = s.zget g :=
  (congrArg (fun u => u.zget g) (after_eq s c)).trans (State.zget_zput_ne _ _ h)

theorem updCmds_after (f : List Cmd → List Cmd) : (s.after c).updCmds f = ((((s.updCmds fun _ => f [c]).updCmdCount (· + 1)).consume 0).shadow) :=
  (shadow_updCmds (((s.updCmds fun _ => [c]).updCmdCount (· + 1)).consume 0) f).symm

/-- The one command changes. -/
theorem updCmd_after (f : Cmd → Cmd) : (s.after c).updCmd c.id f = s.after (f c) := by
  refine (updCmds_after s c _).trans ?_
  simp [State.after]

end

/-- A command that has read and awaits nothing finishes. -/
theorem finish_after (s : State) {c : Cmd} (hresult : c.result = none) (hrdata : c.rdata = []) (hleft : c.left = []) (r : Nat) :
    (s.after c).finish c.id r [] = s.after { c with result := some r } := by
  refine (updCmd_after s c _).trans ?_
  rw [if_pos hresult, ← hrdata, ← hleft]

/-- A FENCE alone holds back. -/
theorem releaseFence_of_other {s : State} {c : Cmd} (hcmds : s.cmds = [c]) (hop : c.opcode ≠ 0x40) : s.releaseFence = s := by
  simp [State.releaseFence, hcmds, hop]

/-! ### The effect of a command, by its opcode (R242) -/

section
variable {u : State} {c : Cmd} (hwf : c.wellFormed = true)
include hwf

theorem runCmd_of_wellFormed : u.runCmd c =
    if c.opcode = 1 then u.feWrite c else if c.opcode = 2 then u.feRead c else if c.opcode = 3 then u.feBulk c
    else if c.opcode = 4 then u.commitAtCmd c else if c.opcode = 5 then u.trueCmd c else if c.opcode = 0x10 then u.engineLoad c
    else if c.opcode = 0x11 then u.engineStart c else if c.opcode = 0x12 then u.engineStop c
    else if c.opcode = 0x20 then u.pin c.id (c.num 0 8) (c.num 8 8) (c.num 16 2) else if c.opcode = 0x21 then u.unpin c.id (c.num 0 1)
    else if c.opcode = 0x30 then u.mark c else if c.opcode = 0x40 then u.updCmd c.id fun x => { x with tick := u.xtr.fetched }
    else if c.opcode = 0x50 then u.monCfg c else if c.opcode = 0x60 then u.runStart c else u.runStop c :=
  if_neg (not_not.mpr hwf)

theorem runCmd_engineLoad (hop : c.opcode = 0x10) : u.runCmd c = u.engineLoad c := by simp [runCmd_of_wellFormed hwf, hop]
theorem runCmd_engineStart (hop : c.opcode = 0x11) : u.runCmd c = u.engineStart c := by simp [runCmd_of_wellFormed hwf, hop]
theorem runCmd_engineStop (hop : c.opcode = 0x12) : u.runCmd c = u.engineStop c := by simp [runCmd_of_wellFormed hwf, hop]
theorem runCmd_pin (hop : c.opcode = 0x20) : u.runCmd c = u.pin c.id (c.num 0 8) (c.num 8 8) (c.num 16 2) := by
  simp [runCmd_of_wellFormed hwf, hop]
theorem runCmd_unpin (hop : c.opcode = 0x21) : u.runCmd c = u.unpin c.id (c.num 0 1) := by simp [runCmd_of_wellFormed hwf, hop]
theorem runCmd_mark (hop : c.opcode = 0x30) : u.runCmd c = u.mark c := by simp [runCmd_of_wellFormed hwf, hop]
theorem runCmd_fence (hop : c.opcode = 0x40) : u.runCmd c = u.updCmd c.id fun x => { x with tick := u.xtr.fetched } := by
  simp [runCmd_of_wellFormed hwf, hop]
theorem runCmd_monCfg (hop : c.opcode = 0x50) : u.runCmd c = u.monCfg c := by simp [runCmd_of_wellFormed hwf, hop]
theorem runCmd_runStart (hop : c.opcode = 0x60) : u.runCmd c = u.runStart c := by simp [runCmd_of_wellFormed hwf, hop]
theorem runCmd_runStop (hop : c.opcode = 0x61) : u.runCmd c = u.runStop c := by simp [runCmd_of_wellFormed hwf, hop]

end

/-! ### The start of the command (R244) -/

/-- The command as it is fetched, before its start. -/
def Cmd.queued (c : Cmd) : Cmd := { c with started := false }

theorem updCmds_append_of_none {s : State} (h : s.cmds = []) (c : Cmd) : s.updCmds (· ++ [c]) = s.updCmds fun _ => [c] :=
  congrArg (fun l : List Cmd => s.updCmds fun _ => l ++ [c]) h

theorem ctrlEntry_of_open {s : State} (hopen : s.ctrlOpen) {arg : List Byte} (harg : arg.length = 24) {op : Nat} (hop : op < 65536) (tag : Word)
    (data : Option (List Byte)) : s.ctrlEntry op tag 0 arg data = (s.after (s.newCmd op tag 0 arg data).queued).ctrlAdvance := by
  obtain ⟨hup, hposted, hnone⟩ := hopen
  have harg' : (arg ++ List.replicate 24 0).take 24 = arg := List.take_left' harg
  have hentry := slice_append [] (leBytes op 2) (leBytes 0 2 ++ (leBytes tag.toNat 4 ++ arg)) (i := 0) rfl (leBytes_length op 2)
  have hports := slice_append (leBytes op 2) (leBytes 0 2) (leBytes tag.toNat 4 ++ arg) (leBytes_length op 2) (leBytes_length 0 2)
  have htag := slice_append (leBytes op 2 ++ leBytes 0 2) (leBytes tag.toNat 4) arg (i := 4) (by simp [leBytes_length]) (leBytes_length _ 4)
  have hargs := slice_append (leBytes op 2 ++ leBytes 0 2 ++ leBytes tag.toNat 4) arg [] (i := 8) (by simp [leBytes_length]) harg
  have hzero : (0 : Half).toNat = 0 := rfl
  have hop' : op % 256 ^ 2 = op := Nat.mod_eq_of_lt hop
  have htag' : tag.toNat % 256 ^ 4 = tag.toNat := Nat.mod_eq_of_lt tag.isLt
  simp only [List.nil_append, List.append_nil, List.append_assoc] at hentry hports htag hargs
  rw [State.ctrlEntry, State.ctrlFetch, if_neg (by simp [hup, hposted])]
  simp only [hzero, List.append_assoc, harg', hentry, hports, htag, hargs, leNat_leBytes, hop', htag', Nat.zero_mod]
  simp only [State.after, updCmds_append_of_none hnone, Cmd.queued, State.newCmd, hzero]

theorem waits_of_sole (s : State) {c : Cmd} (hop : c.opcode ≠ 5) : (s.after c).waits c =
    (c.opcode == 0x60 && (s.after c).startAllowed && ((s.after c).pasr || (c.held && !(s.after c).buffersReady))) := by
  simp [State.waits, after_cmds, hop]

/-- A command that need not wait starts at once. -/
theorem ctrlAdvance_of_queued {s : State} {c : Cmd} (hstarted : c.started = true)
    (hgo : (s.after c.queued).waits c.queued = false) : (s.after c.queued).ctrlAdvance = ((s.after c).runCmd c).releaseFence := by
  have hfence : (s.after c.queued).releaseFence = s.after c.queued := by
    simp [State.releaseFence, after_cmds, Cmd.running, Cmd.queued]
  have hstart : { c.queued with started := true } = c := by
    simp [Cmd.queued, ← hstarted]
  have hfind : (s.after c.queued).cmds.find? (fun x => !x.started) = some c.queued := by
    simp [after_cmds, Cmd.queued]
  have hone : (s.after c.queued).cmds.length = 0 + 1 := by rw [after_cmds]; rfl
  rw [State.ctrlAdvance, hone, State.startCmds, hfence, hfind]
  simp only [hgo, Bool.false_eq_true, if_false, State.startCmds, State.startCmd]
  rw [updCmd_after, hstart]

section
variable {s : State} {tag : Word} {arg : List Byte} (hopen : s.ctrlOpen) (harg : arg.length = 24) {op : Nat} {data : Option (List Byte)} {c : Cmd}
  (hc : c = s.newCmd op tag 0 arg data)
include hopen harg hc

theorem ctrlEntry_starts (hop : op < 65536) (hgo : (s.after c.queued).waits c.queued = false) :
    s.ctrlEntry op tag 0 arg data = ((s.after c).runCmd c).releaseFence := by
  subst hc
  rw [ctrlEntry_of_open hopen harg hop, ctrlAdvance_of_queued rfl hgo]

/-- A command that is neither TRUE nor RUN_START waits for nothing but a FENCE. -/
theorem ctrlEntry_runs (hop : op < 65536) (hsnap : op ≠ 5) (hstart : op ≠ 0x60) :
    s.ctrlEntry op tag 0 arg data = ((s.after c).runCmd c).releaseFence := by
  refine ctrlEntry_starts hopen harg hc hop ?_
  have hop' : c.queued.opcode = op := hc ▸ rfl
  rw [waits_of_sole s (hop'.symm ▸ hsnap)]
  simp [hop', hstart]

/-- What the start leaves, where it leaves the one command, is what the fetch leaves. -/
theorem ctrlEntry_leaves {u : State} {d : Cmd} (hrun : (s.after c).runCmd c = u) (hcmds : u.cmds = [d]) (hd : d.opcode = op) (hop : op < 65536)
    (hother : op ≠ 5 ∧ op ≠ 0x40 ∧ op ≠ 0x60) : s.ctrlEntry op tag 0 arg data = u := by
  rw [ctrlEntry_runs hopen harg hc hop hother.1 hother.2.2, hrun, releaseFence_of_other hcmds (hd.symm ▸ hother.2.1)]

/-- The start changes the command alone. -/
theorem ctrlEntry_after {d : Cmd} (hrun : (s.after c).runCmd c = s.after d) (hd : d.opcode = op) (hop : op < 65536)
    (hother : op ≠ 5 ∧ op ≠ 0x40 ∧ op ≠ 0x60) : s.ctrlEntry op tag 0 arg data = s.after d :=
  ctrlEntry_leaves hopen harg hc hrun (after_cmds s d) hd hop hother

/-- The command finishes at its start, with its result alone. -/
theorem ctrlEntry_finishes {r : Nat} (hrun : (s.after c).runCmd c = (s.after c).finish c.id r []) (hop : op < 65536)
    (hother : op ≠ 5 ∧ op ≠ 0x40 ∧ op ≠ 0x60) : s.ctrlEntry op tag 0 arg data = s.after { c with result := some r } := by
  have hfinish : (s.after c).finish c.id r [] = s.after { c with result := some r } := finish_after s (hc ▸ rfl) (hc ▸ rfl) (hc ▸ rfl) r
  exact ctrlEntry_after hopen harg hc (hrun.trans hfinish) (hc ▸ rfl) hop hother

end

end Sys2Proof.Machine
end

section
/-!
PROOFS. Commands to one gouge engine (R272, R286, R287): ENGINE_LOAD, ENGINE_START, ENGINE_STOP.
-/

namespace Sys2Proof.Machine

/-! ### Fields of engines -/

theorem geng_key (f : Field) (e : Nat) : (f.geng e).key = f.key + (0x34000 + e * 0x40) * 64 := by
  simp only [Field.key, Field.geng, Field.at]
  omega

theorem geng_key_ne {f g : Field} (h : f.key ≠ g.key) (e : Nat) : (f.geng e).key ≠ (g.geng e).key := by
  rw [geng_key, geng_key]
  omega

/-- An engine's field stands apart from those below the engines' blocks. -/
theorem geng_key_ne_low (f : Field) (e : Nat) {g : Field} (h : g.key < 0x34000 * 64) : (f.geng e).key ≠ g.key := by
  rw [geng_key]
  omega

/-- The fetch of an entry touches no engine. -/
theorem after_zget_geng (s : State) (c : Cmd) (f : Field) (e : Nat) : (s.after c).zget (f.geng e) = s.zget (f.geng e) :=
  after_zget s c (geng_key_ne_low f e (by decide))

theorem after_engState (s : State) (c : Cmd) (e : Nat) : (s.after c).engState e = s.engState e := after_zget_geng s c _ e
theorem after_engRole (s : State) (c : Cmd) (e : Nat) : (s.after c).engRole e = s.engRole e := after_zget_geng s c _ e
theorem after_engProg (s : State) (c : Cmd) (e : Nat) : (s.after c).engProg e = s.engProg e := after_zget_geng s c _ e
theorem after_eng (s : State) (c : Cmd) (e : Nat) : (s.after c).eng e = s.eng e :=
  congrArg (fun t => Tab.get ({} : Engine) t e) (after_engines s c)

theorem eng_updEng_other (s : State) {e f : Nat} (h : f ≠ e) (g : Engine → Engine) : (s.updEng e g).eng f = s.eng f :=
  Tab.get_upd_other _ _ _ h

@[simp] theorem eng_zput (s : State) (g : Field) (v f : Nat) : (s.zput g v).eng f = s.eng f := rfl

/-- A mask with one bit names one engine. -/
theorem engMask_of_bit (e : Eng) : engMask (e.val / 24) (2 ^ (e.val % 24)) = [e.val] := by
  have hbit : ∀ k : Fin 24, (List.range 24).filter (fun i => bitAt (2 ^ k.val) i) = [k.val] := by decide
  have hlt : e.val % 24 < 24 := Nat.mod_lt _ (by decide)
  rw [engMask, hbit ⟨e.val % 24, hlt⟩, List.map_singleton, Nat.mod_add_div]

/-! ### The end of a command -/

theorem finish_data_cmds {u : State} {c : Cmd} (hcmds : u.cmds = [c]) (hresult : c.result = none) (hleft : c.left = []) (r : Nat)
    (d : List Byte) : (u.finish c.id r d).cmds = [{ c with result := some r, rdata := d }] := by
  rw [State.finish, State.updCmd]
  simp only [State.updCmds_fields, hcmds, List.map_cons, List.map_nil, if_true, hresult, ← hleft]

theorem finish_cmds {u : State} {c : Cmd} (hcmds : u.cmds = [c]) (hresult : c.result = none) (hrdata : c.rdata = []) (hleft : c.left = [])
    (r : Nat) : (u.finish c.id r []).cmds = [{ c with result := some r }] := by
  rw [finish_data_cmds hcmds hresult hleft, ← hrdata]

@[simp] theorem zget_finish (u : State) (id r : Nat) (d : List Byte) (g : Field) : (u.finish id r d).zget g = u.zget g := rfl
@[simp] theorem eng_finish (u : State) (id r : Nat) (d : List Byte) (e : Nat) : (u.finish id r d).eng e = u.eng e := rfl

/-! ### Tables of listed values -/

theorem get_tabOf {α : Type} [DecidableEq α] (d : α) (l : List α) {k j : Nat} (h : k ≤ j) : Tab.get d (tabOf d k l) j = l.getD (j - k) d := by
  induction l generalizing k with
  | nil => rfl
  | cons v l ih =>
    have hrest : Tab.get d (tabOf d (k + 1) l) j = if j = k then d else (v :: l).getD (j - k) d := by
      split
      next hj => exact Tab.get_above d _ (tabOf_above d l (Nat.lt_succ_self k)) hj.le
      next hj =>
        rw [ih (by omega), show j - k = j - (k + 1) + 1 by omega, List.getD_cons_succ]
    unfold tabOf
    split
    next hv =>
      rw [hrest]
      split
      next hj => rw [hj, Nat.sub_self, List.getD_cons_zero, hv]
      next hj => rfl
    next hv =>
      rw [Tab.get]
      split
      next hk => rw [hk, Nat.sub_self, List.getD_cons_zero]
      next hk => rw [hrest, if_neg (Ne.symm hk)]

/-! ### Images (R286) -/

/-- What the rules of an image bound. -/
theorem parseImage_bounds {role : Nat} {bs : List Byte} {m : EngImage} (h : parseImage role bs = some m) :
    m.role = role ∧ m.wd < 32 ∧ m.extra < 65536 ∧ m.words.length ≤ 8192 := by
  simp only [parseImage, Option.ite_none_right_eq_some, Option.some.injEq] at h
  obtain ⟨⟨-, -, -, -, -, hilen, -, -, -, -, -, -, hwd, -⟩, rfl⟩ := h
  have hslice (i n : Nat) : (slice bs i n).length ≤ n := List.length_take_le _ _
  have hextra : leNat (slice bs 26 2) < 256 ^ 2 :=
    (leNat_lt _).trans_le (Nat.pow_le_pow_right (by decide) (hslice 26 2))
  have hwords : ((leWords (slice bs 32 (leNat (slice bs 8 4)))).map (BitVec.ofNat 32)).length ≤ 8192 := by
    have := hslice 32 (leNat (slice bs 8 4))
    rw [List.length_map, leWords_length]
    omega
  exact ⟨rfl, show byteAt bs 24 < 32 by omega, hextra, hwords⟩

/-! ### ENGINE_LOAD (R287) -/

theorem foldl_updShm {β : Type} (l : List β) (g : Tab Byte → β → Tab Byte) (s : State) :
    l.foldl (fun s x => s.updShm fun t => g t x) s = s.updShm fun t => l.foldl g t := by
  induction l generalizing s with
  | nil => rfl
  | cons x l ih => exact ih _

theorem engLoadAll_sole (s : State) (k prog e : Nat) (m : EngImage) : s.engLoadAll k prog [e] m =
    (s.engLoad e prog m).updShm fun t => Tab.writeList 0 id (k * 2 ^ 20 + m.soff) t m.shared :=
  foldl_updShm m.shared.zipIdx (fun t x => Tab.set 0 t (k * 2 ^ 20 + m.soff + x.2) x.1) _

theorem engLoadAll_cmds (s : State) (k prog e : Nat) (m : EngImage) : (s.engLoadAll k prog [e] m).cmds = s.cmds := by
  rw [engLoadAll_sole]
  rfl

theorem engLoadAll_zget (s : State) (k prog e : Nat) (m : EngImage) (g : Field) :
    (s.engLoadAll k prog [e] m).zget g = (s.engLoad e prog m).zget g := by
  rw [engLoadAll_sole]
  rfl

theorem engLoadAll_eng (s : State) (k prog e : Nat) (m : EngImage) (f : Nat) :
    (s.engLoadAll k prog [e] m).eng f = (s.engLoad e prog m).eng f := by
  rw [engLoadAll_sole]
  rfl

section
variable (s : State) (e prog : Nat) (m : EngImage)

theorem engLoad_state : (s.engLoad e prog m).engState e = 2 := State.zget_zput _ _ _

theorem engLoad_role : (s.engLoad e prog m).engRole e = m.role % 4 := by
  unfold State.engRole State.engLoad
  rw [State.zget_zput_ne _ _ (geng_key_ne (by decide) e), State.zget_zput_ne _ _ (geng_key_ne (by decide) e),
    State.zget_zput_ne _ _ (geng_key_ne (by decide) e), State.zget_zput_ne _ _ (geng_key_ne (by decide) e), State.zget_zput]
  rfl

theorem engLoad_prog : (s.engLoad e prog m).engProg e = prog % 128 := by
  unfold State.engProg State.engLoad
  rw [State.zget_zput_ne _ _ (geng_key_ne (by decide) e), State.zget_zput_ne _ _ (geng_key_ne (by decide) e),
    State.zget_zput_ne _ _ (geng_key_ne (by decide) e), State.zget_zput]
  rfl

theorem engLoad_watchdog : (s.engLoad e prog m).zget (ZE.WD.LOG2.geng e) = m.wd % 32 := by
  unfold State.engLoad
  rw [State.zget_zput_ne _ _ (geng_key_ne (by decide) e), State.zget_zput_ne _ _ (geng_key_ne (by decide) e), State.zget_zput]
  rfl

theorem engLoad_limit : (s.engLoad e prog m).zget (ZE.OUTLIM.EXTRA.geng e) = m.extra % 65536 := by
  unfold State.engLoad
  rw [State.zget_zput_ne _ _ (geng_key_ne (by decide) e), State.zget_zput]
  rfl

theorem engLoad_eng : (s.engLoad e prog m).eng e = { s.eng e with
    imem := tabOf 0 0 (m.words ++ List.replicate (8192 - m.words.length) haltWord), dmem := tabOf 0 0 m.data, cur := none, inq := [],
    out := [], opened := false, ended := false, yielded := false } := by
  simp only [State.engLoad, eng_zput, State.eng_updEng_same]

/-- The instruction memory of a loaded engine: the words of the image, and HALT beyond. -/
theorem engLoad_imem (hlen : m.words.length ≤ 8192) {k : Nat} (hk : k < 8192) :
    Tab.get 0 ((s.engLoad e prog m).eng e).imem k = m.words.getD k haltWord := by
  rw [engLoad_eng]
  dsimp only
  rw [get_tabOf _ _ (Nat.zero_le k), Nat.sub_zero]
  rcases Nat.lt_or_ge k m.words.length with hin | hout
  · rw [List.getD_append _ _ _ _ hin, List.getD_eq_getElem _ _ hin, List.getD_eq_getElem _ _ hin]
  · rw [List.getD_append_right _ _ _ _ hout, List.getD_replicate _ (by omega), List.getD_eq_default _ _ hout]

theorem engLoad_dmem (k : Nat) : Tab.get 0 ((s.engLoad e prog m).eng e).dmem k = m.data.getD k 0 := by
  rw [engLoad_eng]
  dsimp only
  rw [get_tabOf _ _ (Nat.zero_le k), Nat.sub_zero]

theorem engLoad_others {f : Nat} (hf : f ≠ e) : (s.engLoad e prog m).eng f = s.eng f := by
  simp only [State.engLoad, eng_zput, eng_updEng_other s hf]

end

/-- A new command finishes with its result alone. -/
theorem finish_newCmd_cmds {s u : State} {op : Nat} {tag : Word} {arg : List Byte} {data : Option (List Byte)} {c : Cmd}
    (hc : c = s.newCmd op tag 0 arg data) (hcmds : u.cmds = [c]) (r : Nat) : (u.finish c.id r []).cmds = [{ c with result := some r }] :=
  finish_cmds hcmds (hc ▸ rfl) (hc ▸ rfl) (hc ▸ rfl) r

theorem engineLoadGo_of_bad {u : State} {c : Cmd} {img : List Byte} (hbad : parseImage (c.num 2 1) img = none) :
    u.engineLoadGo c img = u.finish c.id 2 [] := by
  simp only [State.engineLoadGo, hbad]
  rfl

section
variable {u : State} {c : Cmd} {e : Eng} (hgcl : c.num 0 1 = e.val / 24) (hmask : c.num 4 4 = 2 ^ (e.val % 24))
include hgcl hmask

theorem engineLoad_of_image {img : List Byte} (himg : c.image = some img) (hraw : c.num 3 1 = 0) (hlow : 0 < c.num 1 1) (hhigh : c.num 1 1 < 128)
    (hrole : c.num 2 1 < 3) (hlen : c.num 16 4 = img.length) : u.engineLoad c = u.engineLoadGo c img := by
  have he := e.isLt
  have hbytes : sourceBytes img (c.num 16 4) = img := by
    rw [sourceBytes, hlen, List.take_left]
  have hbit : bitAt (c.num 3 1) 0 = false := by
    rw [hraw]
    rfl
  rw [State.engineLoad, if_neg (by omega), if_neg (by rw [hmask]; exact (Nat.two_pow_pos _).ne'), if_neg (by omega),
    if_neg (by simp [hbit]), himg]
  simp only [hbytes]

theorem engineLoadGo_of_good {img : List Byte} {m : EngImage} (himg : parseImage (c.num 2 1) img = some m)
    (hroles : ∀ f : Eng, u.engProg f = c.num 1 1 → u.engRole f = c.num 2 1) : u.engineLoadGo c img =
      if u.engState e = 0 ∨ u.engState e = 3 then u.finish c.id 4 [] else
        (u.engLoadAll (e.val / 24) (c.num 1 1) [e.val] m).finish c.id 0 [] := by
  have hfit : ((List.range 96).any fun f => u.engProg f == c.num 1 1 && u.engRole f != c.num 2 1) = false := by
    simp only [List.any_eq_false, List.mem_range, Bool.and_eq_true, beq_iff_eq, bne_iff_ne, not_and, not_not]
    exact fun f hf hprog => hroles ⟨f, hf⟩ hprog
  have hbusy : (u.engState e == engRunning || u.engState e == engOff) = true ↔ u.engState e = 0 ∨ u.engState e = 3 := by
    simp only [Bool.or_eq_true, beq_iff_eq, engRunning, engOff]
    exact or_comm
  simp only [State.engineLoadGo, himg, hgcl, hmask, engMask_of_bit, hfit, Bool.false_eq_true, if_false, List.any_cons, List.any_nil,
    Bool.or_false, hbusy]
  rfl

end

section
variable {s : State} {tag : Word} {arg : List Byte} (hopen : s.ctrlOpen) (harg : arg.length = 24) {c : Cmd} (hwf : c.wellFormed = true) {e : Eng}
  (hgcl : c.num 0 1 = e.val / 24) (hmask : c.num 4 4 = 2 ^ (e.val % 24))
include hopen harg hwf hgcl hmask

section
variable {img : List Byte} (hc : c = s.newCmd 0x10 tag 0 arg (some img)) (hraw : c.num 3 1 = 0) (hlow : 0 < c.num 1 1) (hhigh : c.num 1 1 < 128)
  (hrole : c.num 2 1 < 3) (hlen : c.num 16 4 = img.length)
include hc hraw hlow hhigh hrole hlen

omit hopen harg in
theorem runCmd_engineLoad_image : (s.after c).runCmd c = (s.after c).engineLoadGo c img :=
  (runCmd_engineLoad hwf (hc ▸ rfl)).trans (engineLoad_of_image hgcl hmask (hc ▸ rfl) hraw hlow hhigh hrole hlen)

theorem ctrlEntry_engineLoad_bad (hbad : parseImage (c.num 2 1) img = none) :
    s.ctrlEntry 0x10 tag 0 arg (some img) = s.after { c with result := some 2 } := by
  refine ctrlEntry_finishes hopen harg hc ?_ (by decide) (by decide)
  rw [runCmd_engineLoad_image hwf hgcl hmask hc hraw hlow hhigh hrole hlen, engineLoadGo_of_bad hbad]

section
variable {m : EngImage} (himg : parseImage (c.num 2 1) img = some m) (hroles : ∀ f : Eng, s.engProg f = c.num 1 1 → s.engRole f = c.num 2 1)
include himg hroles

omit hopen harg in
theorem runCmd_engineLoad_good : (s.after c).runCmd c =
    if s.engState e = 0 ∨ s.engState e = 3 then (s.after c).finish c.id 4 [] else
      ((s.after c).engLoadAll (e.val / 24) (c.num 1 1) [e.val] m).finish c.id 0 [] := by
  rw [runCmd_engineLoad_image hwf hgcl hmask hc hraw hlow hhigh hrole hlen, engineLoadGo_of_good hgcl hmask himg, after_engState]
  intro f hprog
  rw [after_engProg] at hprog
  rw [after_engRole, hroles f hprog]

theorem ctrlEntry_engineLoad_busy (hbusy : s.engState e = 0 ∨ s.engState e = 3) :
    s.ctrlEntry 0x10 tag 0 arg (some img) = s.after { c with result := some 4 } := by
  refine ctrlEntry_finishes hopen harg hc ?_ (by decide) (by decide)
  rw [runCmd_engineLoad_good hwf hgcl hmask hc hraw hlow hhigh hrole hlen himg hroles, if_pos hbusy]

theorem ctrlEntry_engineLoad_good (hbusy : ¬(s.engState e = 0 ∨ s.engState e = 3)) : s.ctrlEntry 0x10 tag 0 arg (some img) =
    ((s.after c).engLoadAll (e.val / 24) (c.num 1 1) [e.val] m).finish c.id 0 [] := by
  have hcmds := (engLoadAll_cmds (s.after c) (e.val / 24) (c.num 1 1) e.val m).trans (after_cmds s c)
  refine ctrlEntry_leaves hopen harg hc ?_ (finish_newCmd_cmds hc hcmds 0) (hc ▸ rfl) (by decide) (by decide)
  rw [runCmd_engineLoad_good hwf hgcl hmask hc hraw hlow hhigh hrole hlen himg hroles, if_neg hbusy]

end
end
end

/-- The shared memory after a load: the image's bytes where it places them. -/
theorem engLoadAll_shm (s : State) (k prog e : Nat) (m : EngImage) (a : Nat) : Tab.get 0 (s.engLoadAll k prog [e] m).shm a =
    if k * 2 ^ 20 + m.soff ≤ a ∧ a < k * 2 ^ 20 + m.soff + m.shared.length then m.shared.getD (a - (k * 2 ^ 20 + m.soff)) 0
    else Tab.get 0 s.shm a := by
  have hshm : (s.engLoadAll k prog [e] m).shm = Tab.writeList 0 id (k * 2 ^ 20 + m.soff) s.shm m.shared := by
    rw [engLoadAll_sole]
    rfl
  rw [hshm]
  split
  next hin =>
    obtain ⟨j, rfl⟩ := Nat.exists_eq_add_of_le hin.1
    have hj : j < m.shared.length := by omega
    rw [Tab.get_writeList_inside _ _ _ _ _ hj, Nat.add_sub_cancel_left, List.getD_eq_getElem _ _ hj]
    rfl
  next hout => exact Tab.get_writeList_outside _ _ _ _ _ (by omega)

/-! ### ENGINE_START and ENGINE_STOP (R272, R287) -/

section
variable (s : State) (e : Nat)

theorem engStart_of_running (h : s.engState e = 3) : s.engStart e = s := if_pos h

/-- An engine that starts, with its registers as R272 gives them. -/
theorem engStart_eq (h : s.engState e ≠ 3) : s.engStart e = (s.updEng e fun x => { x with
    pc := 0, regs := Tab.set 0 (Tab.set 0 [] 1 (BitVec.ofNat 32 e)) 2 (BitVec.ofNat 32 (s.engRole e)), cur := none, inq := [], out := [],
    opened := false, ended := false, yielded := false, frame := 0 }).zput (ZE.STAT.STATE.geng e) 3 := if_neg h

theorem engStart_state : (s.engStart e).engState e = 3 := by
  by_cases h : s.engState e = 3
  · rw [engStart_of_running s e h, h]
  · rw [engStart_eq s e h]
    exact State.zget_zput _ _ _

theorem engStart_others {f : Nat} (hf : f ≠ e) : (s.engStart e).eng f = s.eng f := by
  by_cases h : s.engState e = 3
  · rw [engStart_of_running s e h]
  · rw [engStart_eq s e h, eng_zput, eng_updEng_other s hf]

theorem engStart_eng (h : s.engState e ≠ 3) : (s.engStart e).eng e = { s.eng e with
    pc := 0, regs := Tab.set 0 (Tab.set 0 [] 1 (BitVec.ofNat 32 e)) 2 (BitVec.ofNat 32 (s.engRole e)), cur := none, inq := [], out := [],
    opened := false, ended := false, yielded := false, frame := 0 } := by
  rw [engStart_eq s e h, eng_zput, State.eng_updEng_same]

/-- The registers of an engine that starts: its number, its role, and 0. -/
theorem engStart_reg (h : s.engState e ≠ 3) (r : Reg) : ((s.engStart e).eng e).reg r =
    if r = 2 then BitVec.ofNat 32 (s.engRole e) else if r = 1 then BitVec.ofNat 32 e else 0 := by
  have hval (n : Reg) : r.val = n.val ↔ r = n := Fin.val_inj
  rw [engStart_eng s e h, Engine.reg]
  simp only [Tab.get_set, Tab.get_nil, ← hval]
  rfl

theorem engStart_cmds : (s.engStart e).cmds = s.cmds := by
  unfold State.engStart
  split <;> rfl

theorem engStart_shm : (s.engStart e).shm = s.shm := by
  unfold State.engStart
  split <;> rfl

/-- The work of an engine of another role than CARVE, with no section under way, ends with what the engine holds. -/
theorem dropWork_eq (hrole : s.engRole e ≠ 0) (hjob : ∀ m, (s.eng e).cur = some m → m.job = none) : s.dropWork e =
    (s.updEng e fun x => { x with cur := none, inq := [], out := [], opened := false, ended := false, yielded := false }).zput
      (ZE.STAT.MSG_OPEN.geng e) 0 := by
  have hnone : (s.eng e).cur.bind (·.job) = none := Option.bind_eq_none_iff.mpr hjob
  have hkept (g : Engine → Engine) : ((s.updEng e g).zput (ZE.STAT.MSG_OPEN.geng e) 0).engRole e = s.engRole e :=
    State.zget_zput_ne _ _ (geng_key_ne (by decide) e)
  simp only [State.dropWork, hnone]
  exact if_neg ((hkept _).trans_ne hrole)

/-- An engine that halts, of another role than CARVE and with no section under way. -/
theorem engHalt_eq (hrole : s.engRole e ≠ 0) (hjob : ∀ m, (s.eng e).cur = some m → m.job = none) : s.engHalt e =
    ((((s.zput (ZE.STAT.STATE.geng e) 4).zput (ZE.FPC.PC.geng e) (s.eng e).pc).zput (ZE.STAT.FAULT.geng e) 0).updEng e fun x => { x with
      cur := none, inq := [], out := [], opened := false, ended := false, yielded := false }).zput (ZE.STAT.MSG_OPEN.geng e) 0 := by
  refine dropWork_eq _ e (Eq.trans_ne ?_ hrole) hjob
  unfold State.engRole
  rw [State.zget_zput_ne _ _ (geng_key_ne (by decide) e), State.zget_zput_ne _ _ (geng_key_ne (by decide) e),
    State.zget_zput_ne _ _ (geng_key_ne (by decide) e)]

section
variable (hrole : s.engRole e ≠ 0) (hjob : ∀ m, (s.eng e).cur = some m → m.job = none)
include hrole hjob

theorem engHalt_cmds : (s.engHalt e).cmds = s.cmds := by
  rw [engHalt_eq s e hrole hjob]
  rfl

theorem engHalt_state : (s.engHalt e).engState e = 4 := by
  rw [engHalt_eq s e hrole hjob]
  unfold State.engState
  rw [State.zget_zput_ne _ _ (geng_key_ne (by decide) e)]
  refine (State.zget_zput_ne _ _ (geng_key_ne (by decide) e)).trans ?_
  rw [State.zget_zput_ne _ _ (geng_key_ne (by decide) e), State.zget_zput]
  rfl

theorem engHalt_pc : (s.engHalt e).zget (ZE.FPC.PC.geng e) = (s.eng e).pc % 32768 := by
  rw [engHalt_eq s e hrole hjob, State.zget_zput_ne _ _ (geng_key_ne (by decide) e)]
  refine (State.zget_zput_ne _ _ (geng_key_ne (by decide) e)).trans ?_
  rw [State.zget_zput]
  rfl

theorem engHalt_fault : (s.engHalt e).zget (ZE.STAT.FAULT.geng e) = 0 := by
  rw [engHalt_eq s e hrole hjob, State.zget_zput_ne _ _ (geng_key_ne (by decide) e)]
  exact State.zget_zput _ _ _

theorem engHalt_eng : (s.engHalt e).eng e = { s.eng e with
    cur := none, inq := [], out := [], opened := false, ended := false, yielded := false } := by
  rw [engHalt_eq s e hrole hjob, eng_zput, State.eng_updEng_same]
  rfl

end

end

section
variable {u : State} {c : Cmd} {e : Eng} (hgcl : c.num 0 1 = e.val / 24) (hmask : c.num 4 4 = 2 ^ (e.val % 24))
include hgcl hmask

theorem engineStart_sole : u.engineStart c =
    if u.engState e = 0 ∨ u.engState e = 1 then u.finish c.id 4 [] else (u.engStart e).finish c.id 0 [] := by
  have he := e.isLt
  have hidle : (u.engState e == engEmpty || u.engState e == engOff) = true ↔ u.engState e = 0 ∨ u.engState e = 1 := by
    simp only [Bool.or_eq_true, beq_iff_eq, engEmpty, engOff]
    exact or_comm
  rw [State.engineStart, if_neg (by omega)]
  simp only [hgcl, hmask, engMask_of_bit, List.any_cons, List.any_nil, Bool.or_false, hidle]
  rfl

theorem engineStop_sole : u.engineStop c = (if u.engState e = 3 then u.engHalt e else u).finish c.id 0 [] := by
  have he := e.isLt
  rw [State.engineStop, if_neg (by omega), hgcl, hmask, engMask_of_bit]
  rfl

end

section
variable {s : State} {tag : Word} {arg : List Byte} (hopen : s.ctrlOpen) (harg : arg.length = 24) {c : Cmd} (hwf : c.wellFormed = true) {e : Eng}
  (hgcl : c.num 0 1 = e.val / 24) (hmask : c.num 4 4 = 2 ^ (e.val % 24))
include hopen harg hwf hgcl hmask

section
variable (hc : c = s.newCmd 0x11 tag 0 arg none)
include hc

theorem ctrlEntry_engineStart_idle (hidle : s.engState e = 0 ∨ s.engState e = 1) :
    s.ctrlEntry 0x11 tag 0 arg none = s.after { c with result := some 4 } := by
  refine ctrlEntry_finishes hopen harg hc ?_ (by decide) (by decide)
  rw [runCmd_engineStart hwf (hc ▸ rfl), engineStart_sole hgcl hmask, after_engState, if_pos hidle]

theorem ctrlEntry_engineStart_running (hstate : s.engState e = 3) :
    s.ctrlEntry 0x11 tag 0 arg none = s.after { c with result := some 0 } := by
  refine ctrlEntry_finishes hopen harg hc ?_ (by decide) (by decide)
  rw [runCmd_engineStart hwf (hc ▸ rfl), engineStart_sole hgcl hmask, after_engState, if_neg (by omega),
    engStart_of_running _ _ ((after_engState s c e).trans hstate)]

theorem ctrlEntry_engineStart_starts (hstate : s.engState e = 2 ∨ s.engState e = 4 ∨ s.engState e = 5) :
    s.ctrlEntry 0x11 tag 0 arg none = ((s.after c).engStart e).finish c.id 0 [] := by
  refine ctrlEntry_leaves hopen harg hc ?_ (finish_newCmd_cmds hc ((engStart_cmds ..).trans (after_cmds s c)) 0) (hc ▸ rfl) (by decide)
    (by decide)
  rw [runCmd_engineStart hwf (hc ▸ rfl), engineStart_sole hgcl hmask, after_engState, if_neg (by omega)]

end

section
variable (hc : c = s.newCmd 0x12 tag 0 arg none)
include hc

theorem ctrlEntry_engineStop_idle (hstate : s.engState e ≠ 3) :
    s.ctrlEntry 0x12 tag 0 arg none = s.after { c with result := some 0 } := by
  refine ctrlEntry_finishes hopen harg hc ?_ (by decide) (by decide)
  rw [runCmd_engineStop hwf (hc ▸ rfl), engineStop_sole hgcl hmask, after_engState, if_neg hstate]

theorem ctrlEntry_engineStop_running (hstate : s.engState e = 3) (hrole : (s.after c).engRole e ≠ 0)
    (hjob : ∀ m, ((s.after c).eng e).cur = some m → m.job = none) :
    s.ctrlEntry 0x12 tag 0 arg none = ((s.after c).engHalt e).finish c.id 0 [] := by
  refine ctrlEntry_leaves hopen harg hc ?_ (finish_newCmd_cmds hc ((engHalt_cmds _ _ hrole hjob).trans (after_cmds s c)) 0) (hc ▸ rfl)
    (by decide) (by decide)
  rw [runCmd_engineStop hwf (hc ▸ rfl), engineStop_sole hgcl hmask, after_engState, if_pos hstate]

end
end

end Sys2Proof.Machine
end

section
/-!
PROOFS. PIN and UNPIN (R165 to R167), MARK and FENCE (R242), MON_CFG (R369).
-/

namespace Sys2Proof.Machine

theorem updBuf_congr {u : State} {f g : Buffer → Buffer} (h : f u.buf = g u.buf) : u.updBuf f = u.updBuf g :=
  congrArg (fun b => u.updBuf fun _ => b) h

theorem finish_updBuf (u : State) (f : Buffer → Buffer) (id r : Nat) (d : List Byte) :
    (u.updBuf f).finish id r d = (u.finish id r d).updBuf f := rfl

/-! ### PIN (R165, R166) -/

theorem pin_of_no_run {u : State} (hepoch : u.run.epoch = none) (id a b : Nat) : u.pin id a b 0xFFFF = u.finish id 4 [] := by
  have hnone : (if (0xFFFF : Nat) = 0xFFFF then u.currentRun else some 0xFFFF) = none := by
    simp [State.currentRun, hepoch]
  rw [State.pin, hnone]
  rfl

theorem pin_of_backward {u : State} {run : Nat} (hrun : run ≠ 0xFFFF) (id : Nat) {a b : Nat} (hback : b < a) :
    u.pin id a b run = u.finish id 2 [] := by
  rw [State.pin, if_neg hrun]
  exact if_pos hback

/-- Nothing has been written of a run while directory and pinned directory are empty. -/
theorem survivors_of_empty {u : State} (hdir : u.buf.dir = []) (hpdir : u.buf.pdir = []) (id a b : Nat) : u.survivors id a b = [] := by
  simp [State.survivors, State.runEntries, hdir, hpdir]

theorem pinFits_of_no_billets {u : State} (hbillets : u.buf.billets = []) : u.pinFits [] = true := by
  simp [State.pinFits, State.pinned, hbillets, Tab.count]

/-- A range of frames to come of the run in progress waits in slot 0, where no range stands. -/
theorem pin_of_frames_to_come {u : State} {id a b : Nat} (hactive : u.run.active = true) (hid : u.run.id ≠ 0xFFFF) (hab : a ≤ b)
    (hsoon : (u.epochTime : Int) + b * tickUnits ≤ (u.time : Int) + 12800000 * tickUnits) (hepoch : u.run.epoch.isSome = true)
    (hlast : u.run.last = none) (hpins : u.buf.pins = []) (hdir : u.buf.dir = []) (hpdir : u.buf.pdir = []) (hbillets : u.buf.billets = [])
    (hlost : u.buf.pinLost = false) (hm : u.mNext ≤ b / 4096) : u.pin id a b u.run.id = u.updBuf fun x => { x with
      pins := Tab.set none [] 0 (some { first := a / 4096, last := b / 4096, runId := u.run.id, cmd := some id }) } := by
  have hepochOf : u.epochOf u.run.id = u.epochTime := if_pos rfl
  have hon : u.runIsOn u.run.id = true := by simp [State.runIsOn, hactive]
  have hend : u.lastFrame u.run.id = none := (if_pos ⟨hepoch, rfl⟩).trans hlast
  have hslot : ((List.range 64).find? fun k => Tab.get none u.buf.pins k = none) = some 0 := by
    rw [hpins]
    rfl
  rw [State.pin, if_neg hid]
  simp only [hepochOf, if_neg (Nat.not_lt.mpr hab), if_neg (Int.not_lt.mpr hsoon), hon, hend, hslot, survivors_of_empty hdir hpdir, hlost]
  simp only [hm, pinFits_of_no_billets hbillets, State.pinWritten, List.flatMap_nil, List.dedup_nil, List.foldl_nil, Option.elim_none,
    decide_true, Bool.and_self, not_true_eq_false, and_false, Bool.false_eq_true, or_self, if_false, if_true]
  exact updBuf_congr (by rw [hpins])

/-! ### UNPIN (R167) -/

theorem unpin_of_no_slot {u : State} (id : Nat) {slot : Nat} (hslot : 63 < slot) : u.unpin id slot = u.finish id 2 [] := if_pos hslot

theorem unpin_of_free {u : State} (id : Nat) {slot : Nat} (hslot : slot < 64) (hfree : Tab.get none u.buf.pins slot = none) :
    u.unpin id slot = u.finish id 4 [] := by
  rw [State.unpin, if_neg (by omega), if_pos (.inr hfree)]
  rfl

/-- A completed range that holds no billet leaves its slot. -/
theorem unpin_of_range {u : State} (id : Nat) {slot : Nat} {r : PinRange} (hslot : slot < 64) (hlost : u.buf.pinLost = false)
    (hr : Tab.get none u.buf.pins slot = some r) (hcmd : r.cmd = none) (hbillets : r.billets = []) (hpdir : u.buf.pdir = []) :
    u.unpin id slot = (u.updBuf fun b => { b with pins := Tab.set none b.pins slot none }).finish id 0 [] := by
  have hend : u.endPin slot true = u := by simp [State.endPin, hr, hcmd]
  have hfree : u.freeSlot slot = u.updBuf fun b => { b with pins := Tab.set none b.pins slot none } := by
    simp only [State.freeSlot, hr, hbillets, hpdir, List.filter_nil, List.map_nil, List.foldl_nil]
    exact updBuf_congr (by rw [hpdir, List.filter_nil])
  rw [State.unpin, if_neg (by omega), if_neg (by simp [hlost, hr]), hend, hfree]
  rfl

/-! ### MARK (R242) -/

theorem mark_of_zero {u : State} {c : Cmd} (hzero : c.num 0 4 = 0) : u.mark c = u.finish c.id 2 [] := if_pos hzero

theorem mark_of_no_run {u : State} {c : Cmd} (hzero : c.num 0 4 ≠ 0) (hrun : u.run.active = false) : u.mark c = u.finish c.id 4 [] := by
  rw [State.mark, if_neg hzero, if_pos (.inl (by simp [hrun]))]
  rfl

theorem mark_of_run {u : State} {c : Cmd} (hzero : c.num 0 4 ≠ 0) (hrun : u.run.active = true) (hlast : u.run.last = none) :
    u.mark c = u.updCmd c.id fun x => { x with tick := u.mNext } := by
  rw [State.mark, if_neg hzero, if_neg (by simp [hrun, hlast])]

/-! ### FENCE (R242) -/

/-- A FENCE holds back while one request fetched before it is open, where TRIG asks for that. -/
theorem releaseFence_of_fence {u : State} {c : Cmd} (hcmds : u.cmds = [c]) (hop : c.opcode = 0x40) (hrunning : c.running = true) :
    u.releaseFence = if bitAt (c.num 0 1) 0 = true → ¬ u.xtr.ctxs.any (fun x => x.fetched.elim false fun n => decide (n < c.tick)) then
      u.finish c.id 0 [] else u := by
  simp only [State.releaseFence, hcmds, hop, hrunning, true_and]
  rfl

/-! ### MON_CFG (R369) -/

theorem monCfg_of_length {u : State} {c : Cmd} (hlen : c.num 8 4 % 8 ≠ 0 ∨ c.num 8 4 < 8 ∨ 2048 < c.num 8 4) :
    u.monCfg c = u.finish c.id 2 [] := if_pos hlen

theorem monCfg_of_image {u : State} {c : Cmd} {img : List Byte} (himg : c.image = some img) (hlen : c.num 8 4 = img.length)
    (hmod : img.length % 8 = 0) (hlow : 8 ≤ img.length) (hhigh : img.length ≤ 2048) : u.monCfg c =
      if (monEntries img).all monEntryOk = true then u.updCmd c.id fun x => { x with image := some img } else u.finish c.id 2 [] := by
  have hbytes : sourceBytes img img.length = img := by rw [sourceBytes, List.take_left]
  simp only [State.monCfg, hlen, himg, hbytes]
  rw [if_neg (by omega)]
  rfl

/-! ### The commands as they are fetched -/

section
variable {s : State} {tag : Word} {arg : List Byte} (hopen : s.ctrlOpen) (harg : arg.length = 24) {c : Cmd} (hwf : c.wellFormed = true)
include hopen harg hwf

section
variable (hc : c = s.newCmd 0x20 tag 0 arg none)
include hc

theorem ctrlEntry_pin_no_run (hid : c.num 16 2 = 0xFFFF) (hepoch : s.run.epoch = none) :
    s.ctrlEntry 0x20 tag 0 arg none = s.after { c with result := some 4 } := by
  refine ctrlEntry_finishes hopen harg hc ?_ (by decide) (by decide)
  rw [runCmd_pin hwf (hc ▸ rfl), hid, pin_of_no_run (by rw [after_run, hepoch])]

theorem ctrlEntry_pin_backward (hid : c.num 16 2 ≠ 0xFFFF) (hback : c.num 8 8 < c.num 0 8) :
    s.ctrlEntry 0x20 tag 0 arg none = s.after { c with result := some 2 } := by
  refine ctrlEntry_finishes hopen harg hc ?_ (by decide) (by decide)
  rw [runCmd_pin hwf (hc ▸ rfl), pin_of_backward hid _ hback]

theorem ctrlEntry_pin_waits (hactive : s.run.active = true) (hrun : c.num 16 2 = s.run.id) (hid : s.run.id ≠ 0xFFFF)
    (hab : c.num 0 8 ≤ c.num 8 8) (hsoon : (s.epochTime : Int) + c.num 8 8 * tickUnits ≤ (s.time : Int) + 12800000 * tickUnits)
    (hepoch : s.run.epoch.isSome = true) (hlast : s.run.last = none) (hpins : s.buf.pins = []) (hdir : s.buf.dir = [])
    (hpdir : s.buf.pdir = []) (hbillets : s.buf.billets = []) (hlost : s.buf.pinLost = false) (hm : s.mNext ≤ c.num 8 8 / 4096) :
    s.ctrlEntry 0x20 tag 0 arg none = (s.after c).updBuf fun b => { b with pins := Tab.set none [] 0 (some {
      first := c.num 0 8 / 4096, last := c.num 8 8 / 4096, runId := s.run.id, cmd := some c.id }) } := by
  refine ctrlEntry_leaves hopen harg hc (d := c) ?_ (after_cmds s c) (hc ▸ rfl) (by decide) (by decide)
  have hbuf := after_buf s c
  have hrun' := after_run s c
  have hepochTime : (s.after c).epochTime = s.epochTime := congrArg (fun r : RunSt => r.epoch.getD 0) hrun'
  have hnext : (s.after c).mNext = s.mNext := after_zget s c (by decide)
  rw [runCmd_pin hwf (hc ▸ rfl), hrun, ← hrun']
  exact pin_of_frames_to_come (by rwa [hrun']) (by rwa [hrun']) hab (by rwa [hepochTime, after_time]) (by rwa [hrun']) (by rwa [hrun'])
    (by rwa [hbuf]) (by rwa [hbuf]) (by rwa [hbuf]) (by rwa [hbuf]) (by rwa [hbuf]) (by rwa [hnext])

end

section
variable (hc : c = s.newCmd 0x21 tag 0 arg none)
include hc

theorem ctrlEntry_unpin_no_slot (hslot : 63 < c.num 0 1) : s.ctrlEntry 0x21 tag 0 arg none = s.after { c with result := some 2 } := by
  refine ctrlEntry_finishes hopen harg hc ?_ (by decide) (by decide)
  rw [runCmd_unpin hwf (hc ▸ rfl), unpin_of_no_slot _ hslot]

theorem ctrlEntry_unpin_free (hslot : c.num 0 1 < 64) (hfree : Tab.get none s.buf.pins (c.num 0 1) = none) :
    s.ctrlEntry 0x21 tag 0 arg none = s.after { c with result := some 4 } := by
  refine ctrlEntry_finishes hopen harg hc ?_ (by decide) (by decide)
  rw [runCmd_unpin hwf (hc ▸ rfl), unpin_of_free _ hslot (by rwa [after_buf])]

theorem ctrlEntry_unpin_range {r : PinRange} (hslot : c.num 0 1 < 64) (hlost : s.buf.pinLost = false)
    (hr : Tab.get none s.buf.pins (c.num 0 1) = some r) (hcmd : r.cmd = none) (hbillets : r.billets = []) (hpdir : s.buf.pdir = []) :
    s.ctrlEntry 0x21 tag 0 arg none = (s.after { c with result := some 0 }).updBuf fun b => { b with
      pins := Tab.set none b.pins (c.num 0 1) none } := by
  have hbuf := after_buf s c
  refine ctrlEntry_leaves hopen harg hc ?_ (after_cmds s { c with result := some 0 }) (hc ▸ rfl) (by decide) (by decide)
  rw [runCmd_unpin hwf (hc ▸ rfl), unpin_of_range _ hslot (by rwa [hbuf]) (by rwa [hbuf]) hcmd hbillets (by rwa [hbuf]),
    finish_updBuf, finish_after s (hc ▸ rfl) (hc ▸ rfl) (hc ▸ rfl) 0]

end

section
variable (hc : c = s.newCmd 0x30 tag 0 arg none)
include hc

theorem ctrlEntry_mark_zero (hzero : c.num 0 4 = 0) : s.ctrlEntry 0x30 tag 0 arg none = s.after { c with result := some 2 } := by
  refine ctrlEntry_finishes hopen harg hc ?_ (by decide) (by decide)
  rw [runCmd_mark hwf (hc ▸ rfl), mark_of_zero hzero]

theorem ctrlEntry_mark_no_run (hzero : c.num 0 4 ≠ 0) (hrun : s.run.active = false) :
    s.ctrlEntry 0x30 tag 0 arg none = s.after { c with result := some 4 } := by
  refine ctrlEntry_finishes hopen harg hc ?_ (by decide) (by decide)
  rw [runCmd_mark hwf (hc ▸ rfl), mark_of_no_run hzero (by rwa [after_run])]

theorem ctrlEntry_mark_run (hzero : c.num 0 4 ≠ 0) (hrun : s.run.active = true) (hlast : s.run.last = none) :
    s.ctrlEntry 0x30 tag 0 arg none = s.after { c with tick := s.mNext } := by
  have hnext : (s.after c).mNext = s.mNext := after_zget s c (by decide)
  refine ctrlEntry_after hopen harg hc ?_ (hc ▸ rfl) (by decide) (by decide)
  rw [runCmd_mark hwf (hc ▸ rfl), mark_of_run hzero (by rwa [after_run]) (by rwa [after_run]), updCmd_after, hnext]

end

section
variable (hc : c = s.newCmd 0x40 tag 0 arg none)
include hc

/-- A FENCE counts the requests before it, and holds back where one that TRIG asks for is open. -/
theorem ctrlEntry_fence : s.ctrlEntry 0x40 tag 0 arg none =
    if bitAt (c.num 0 1) 0 = true → ¬ s.xtr.ctxs.any (fun x => x.fetched.elim false fun n => decide (n < s.xtr.fetched)) then
      s.after { c with tick := s.xtr.fetched, result := some 0 } else s.after { c with tick := s.xtr.fetched } := by
  rw [ctrlEntry_runs hopen harg hc (by decide) (by decide) (by decide), runCmd_fence hwf (hc ▸ rfl), updCmd_after, after_xtr,
    releaseFence_of_fence (after_cmds s { c with tick := s.xtr.fetched }) (hc ▸ rfl) (hc ▸ rfl), after_xtr,
    finish_after s (c := { c with tick := s.xtr.fetched }) (hc ▸ rfl) (hc ▸ rfl) (hc ▸ rfl) 0]
  rfl

theorem ctrlEntry_fence_alone (htrig : c.num 0 1 = 0) :
    s.ctrlEntry 0x40 tag 0 arg none = s.after { c with tick := s.xtr.fetched, result := some 0 } := by
  rw [ctrlEntry_fence hopen harg hwf hc, if_pos]
  rw [htrig]
  exact fun h => absurd h (by decide)

theorem ctrlEntry_fence_waits {x : Ctx} (htrig : c.num 0 1 = 1) (hone : s.oneCtx x) (hx : ∃ n, x.fetched = some n ∧ n < s.xtr.fetched) :
    s.ctrlEntry 0x40 tag 0 arg none = s.after { c with tick := s.xtr.fetched } := by
  obtain ⟨n, hn, hlt⟩ := hx
  have hopenCtx : s.xtr.ctxs.any (fun x => x.fetched.elim false fun n => decide (n < s.xtr.fetched)) = true := by
    simp [show s.xtr.ctxs = [x] from hone, hn, hlt]
  rw [ctrlEntry_fence hopen harg hwf hc, if_neg]
  rw [htrig]
  exact fun h => h rfl hopenCtx

end

section
variable {data : Option (List Byte)} (hc : c = s.newCmd 0x50 tag 0 arg data)
include hc

theorem ctrlEntry_monCfg_length (hlen : c.num 8 4 % 8 ≠ 0 ∨ c.num 8 4 < 8 ∨ 2048 < c.num 8 4) :
    s.ctrlEntry 0x50 tag 0 arg data = s.after { c with result := some 2 } := by
  refine ctrlEntry_finishes hopen harg hc ?_ (by decide) (by decide)
  rw [runCmd_monCfg hwf (hc ▸ rfl), monCfg_of_length hlen]

theorem ctrlEntry_monCfg_image {img : List Byte} (himg : data = some img) (hlen : c.num 8 4 = img.length) (hmod : img.length % 8 = 0)
    (hlow : 8 ≤ img.length) (hhigh : img.length ≤ 2048) : s.ctrlEntry 0x50 tag 0 arg data =
      s.after (if (monEntries img).all monEntryOk = true then c else { c with result := some 2 }) := by
  have himg' : c.image = some img := hc ▸ himg
  have hsame : { c with image := some img } = c := by rw [← himg']
  have hrun : (s.after c).runCmd c = if (monEntries img).all monEntryOk = true then (s.after c).updCmd c.id fun x => { x with
      image := some img } else (s.after c).finish c.id 2 [] :=
    (runCmd_monCfg hwf (hc ▸ rfl)).trans (monCfg_of_image himg' hlen hmod hlow hhigh)
  split
  next hok =>
    refine ctrlEntry_after hopen harg hc ?_ (hc ▸ rfl) (by decide) (by decide)
    rw [hrun, if_pos hok, updCmd_after, hsame]
  next hbad => exact ctrlEntry_finishes hopen harg hc (hrun.trans (if_neg hbad)) (by decide) (by decide)

end
end

end Sys2Proof.Machine
end

section
/-!
PROOFS. RUN_START and RUN_STOP (R11, R242), and what settles O41.
-/

namespace Sys2Proof.Machine

/-! ### The beginning of a run (R144) -/

theorem ringEn_ne_state (p : Port) : Z.RING_CFG.EN.key ≠ (ZP.STAT.STATE.port p).key := by
  simp only [Field.key, Field.at, Field.port, Z.RING_CFG.EN, ZP.STAT.STATE]
  omega

section
variable (s : State) (e m : Nat)

/-- The run's numbers are set, M is its first frame, and the ports are on their way to SYNC. -/
def State.runSet : State := ports16.foldl (fun s p => (s.clearPort p).syncPort p) ((s.updRun fun r =>
  { active := true, epoch := some e, id := nextRunId r.id, rests := r.rests.filter (·.2.isNone), warns := r.warns.filter (·.2.isNone) }).setM m)

/-- The directory entry of the run before is closed. -/
def State.entryClosed (s : State) : State :=
  if s.buf.runOpen then s.updBuf fun b => { b with dir := Tab.upd {} b.dir s.openSlot fun x => { x with open_ := false }, runOpen := false }
  else s

theorem beginRun_eq : s.beginRun e m = ((((s.runSet e m).entryClosed).showEpoch e).zput Z.TIME_STAT.RUN_ACTIVE 1).runStarted e := rfl

theorem entryClosed_view : s.entryClosed.view = s.view := by simp [State.entryClosed]

theorem entryClosed_zget (g : Field) : s.entryClosed.zget g = s.zget g := by
  unfold State.entryClosed
  split <;> rfl

theorem beginRun_view : (s.beginRun e m).view = (s.runSet e m).view := by
  rw [beginRun_eq, State.runStarted, raise_view, zput_view, State.showEpoch, zput_view, zput_view, zput_view, entryClosed_view]

theorem beginRun_run : (s.beginRun e m).run.active = true ∧ (s.beginRun e m).run.epoch = some e ∧ (s.beginRun e m).run.last = none ∧
    (s.beginRun e m).run.id = nextRunId s.run.id := by
  rw [← State.view_run, beginRun_view, State.view_run, State.runSet, foldl_clearSync_run]
  exact ⟨rfl, rfl, rfl, rfl⟩

/-- The beginning of a run leaves commands, contents and chips. -/
theorem beginRun_rest : (s.beginRun e m).view.rest = s.view.rest := by
  rw [beginRun_view, State.runSet, foldl_rest _ _ _ clearSync_rest]
  rfl

/-- What the beginning of a run shows beside M and the states of the ports: RUN_ACTIVE, the epoch, and what its event touches. -/
def startFields : List Field :=
  [Z.TIME_STAT.RUN_ACTIVE, Z.TIME_EPOCHk.VALUE, Z.TIME_EPOCHk.VALUE.at 4, Z.TIME_EPOCHk.VALUE.at 8, (evBits 521).1, Z.EVT_STAT.FILTERED]

section
variable {g : Field}

theorem clearSync_zget (p : Port) (hg : g.key ≠ (ZP.STAT.STATE.port p).key) : ((s.clearPort p).syncPort p).zget g = s.zget g := by
  unfold State.syncPort
  split
  · rfl
  · exact State.zget_zput_ne _ _ hg

theorem runSet_zget (hg : ∀ p : Port, g.key ≠ (ZP.STAT.STATE.port p).key) : (s.runSet e m).zget g = (s.zput Z.MERGE_NEXT.NEXT m).zget g :=
  foldl_zget _ _ _ _ fun s p _ => clearSync_zget s p (hg p)

theorem beginRun_zget (hg : ∀ f ∈ startFields, g.key ≠ f.key) : (s.beginRun e m).zget g = (s.runSet e m).zget g := by
  rw [beginRun_eq, State.runStarted, State.raise, raiseSev_zget _ _ _ _ (hg _ (by simp [startFields])) (hg _ (by simp [startFields])),
    State.zget_zput_ne _ _ (hg _ (by simp [startFields])), State.showEpoch, State.zget_zput_ne _ _ (hg _ (by simp [startFields])),
    State.zget_zput_ne _ _ (hg _ (by simp [startFields])), State.zget_zput_ne _ _ (hg _ (by simp [startFields])), entryClosed_zget]

end

theorem beginRun_mNext : (s.beginRun e m).mNext = m % 2 ^ 40 := by
  unfold State.mNext
  rw [beginRun_zget s e m (by decide), runSet_zget s e m fun p => (state_ne_next p).symm]
  exact State.zget_zput _ _ _

theorem beginRun_ringEn : (s.beginRun e m).ringEn = s.ringEn := by
  unfold State.ringEn
  rw [beginRun_zget s e m (by decide), runSet_zget s e m ringEn_ne_state, State.zget_zput_ne _ _ (by decide)]

theorem beginRun_runActive : (s.beginRun e m).zget Z.TIME_STAT.RUN_ACTIVE = 1 := by
  rw [beginRun_eq, State.runStarted, State.raise, raiseSev_zget _ _ _ _ (by decide) (by decide)]
  exact State.zget_zput _ _ _

end

/-! ### RUN_START (R242) -/

theorem runStart_refused {u : State} {c : Cmd} (h : u.startAllowed = false) : u.runStart c = u.finish c.id 4 [] := if_pos (by simp [h])

theorem runStart_of_ns {u : State} {c : Cmd} (h : u.startAllowed = true) (hns : 1000000000 ≤ c.num 6 4) :
    u.runStart c = u.finish c.id 2 [] := by
  rw [State.runStart, if_neg (not_not.mpr h), if_pos (.inl hns)]
  rfl

/-- The first whole millisecond from two milliseconds on. -/
theorem autoEpoch_eq {t e : Nat} (hmod : e % (1000000 * nsUnits) = 0) (hlow : t + 2000000 * nsUnits ≤ e)
    (hhigh : e < t + 3000000 * nsUnits) :
    (t + 2 * (1000000 * nsUnits) + 1000000 * nsUnits - 1) / (1000000 * nsUnits) * (1000000 * nsUnits) = e := by
  unfold nsUnits at *
  omega

/-- A start begins the run with the epoch it names, or with the first whole millisecond from two on. -/
theorem runStart_begins {u : State} {c : Cmd} {e : Nat} (h : u.startAllowed = true) (hring : u.ringEn = false) (hns : c.num 6 4 < 1000000000)
    (hfar : u.time + 1000000 * nsUnits ≤ e)
    (hgiven : c.num 0 6 ≠ 0 ∨ c.num 6 4 ≠ 0 → e = (c.num 0 6 * 1000000000 + c.num 6 4) * nsUnits)
    (hauto : c.num 0 6 = 0 → c.num 6 4 = 0 → e % (1000000 * nsUnits) = 0 ∧ u.time + 2000000 * nsUnits ≤ e ∧ e < u.time + 3000000 * nsUnits) :
    u.runStart c = (u.beginRun e 0).finish c.id 0 (leBytes (u.beginRun e 0).run.id 2 ++ [0, 0] ++
      leBytes (e / nsUnits % 1000000000) 4 ++ leBytes (e / nsUnits / 1000000000) 6) := by
  have hepoch : (if (c.num 0 6 == 0 && c.num 6 4 == 0) = true then
      (u.time + 2 * (1000000 * nsUnits) + 1000000 * nsUnits - 1) / (1000000 * nsUnits) * (1000000 * nsUnits)
      else (c.num 0 6 * 1000000000 + c.num 6 4) * nsUnits) = e := by
    split
    next hzero =>
      rw [Bool.and_eq_true, beq_iff_eq, beq_iff_eq] at hzero
      obtain ⟨hmod, hlow, hhigh⟩ := hauto hzero.1 hzero.2
      exact autoEpoch_eq hmod hlow hhigh
    next hzero =>
      rw [Bool.and_eq_true, beq_iff_eq, beq_iff_eq] at hzero
      exact (hgiven (by omega)).symm
  simp only [State.runStart, hepoch, h, hring, not_true_eq_false, if_false, Bool.false_eq_true]
  rw [if_neg (by omega), beginRun_ringEn, hring]
  rfl

/-! ### RUN_STOP (R242) -/

theorem runStop_of_no_run {u : State} {c : Cmd} (h : u.run.active = false) : u.runStop c = u.finish c.id 4 [] := if_pos (.inl (by simp [h]))

/-- A stop at a frame to come sets the run's last frame. -/
theorem runStop_of_frame_to_come {u : State} {c : Cmd} (h : u.run.active = true) (hring : u.ringEn = false) (hstop : c.num 8 8 ≠ 0)
    (hm : u.mNext ≤ c.num 8 8 / 4096) (hctxs : u.xtr.ctxs = []) :
    u.runStop c = u.updRun fun r => { r with pasr := bitAt (c.num 0 1) 0, last := some (c.num 8 8 / 4096) } := by
  rw [State.runStop, if_neg (by simp [h, State.runsHere, hring])]
  simp only [hring, Bool.false_eq_true, if_false, if_neg hstop]
  exact (if_neg (Nat.not_lt.mpr hm)).trans (wakeWaiting_of_no_contexts hctxs)

/-! ### The commands as they are fetched -/

section
variable (s : State) (x : Cmd)

theorem after_ringEn : (s.after x).ringEn = s.ringEn := congrArg (· == 1) (after_zget s x (by decide))

theorem after_pasr : (s.after x).pasr = s.pasr := by
  unfold State.pasr
  rw [after_zget s x (by decide), after_zget s x (by decide)]

theorem after_canRun : (s.after x).canRun = s.canRun := by
  have hserve (n : Nat) : (s.after x).inService n = s.inService n :=
    congrArg (· == 1) (after_zget s x (stack_key_ne_low _ n (by decide)))
  unfold State.canRun
  rw [after_zget s x (by decide)]
  simp only [hserve]

end

theorem startAllowed_of_run {u : State} (h : u.run.active = true) : u.startAllowed = false := by simp [State.startAllowed, h]

theorem after_startAllowed {s : State} (hrun : s.run.active = false) (hring : s.ringEn = false) (hcan : s.canRun = true) (x : Cmd) :
    (s.after x).startAllowed = true := by
  simp [State.startAllowed, State.runsHere, after_run, after_ringEn, after_canRun, hrun, hring, hcan]

section
variable {s : State} {tag : Word} {arg : List Byte} (hopen : s.ctrlOpen) (harg : arg.length = 24) {c : Cmd} (hwf : c.wellFormed = true)
include hopen harg hwf

section
variable (hc : c = s.newCmd 0x60 tag 0 arg none)
include hc

/-- A RUN_START waits for the end of self-refresh alone. -/
theorem ctrlEntry_runStart {u : State} {d : Cmd} (hfree : (s.after c.queued).startAllowed = false ∨ s.pasr = false)
    (hrun : (s.after c).runStart c = u) (hcmds : u.cmds = [d]) (hd : d.opcode = 0x60) : s.ctrlEntry 0x60 tag 0 arg none = u := by
  have hop : c.queued.opcode = 0x60 := hc ▸ rfl
  have hheld : c.queued.held = false := hc ▸ rfl
  have hgo : (s.after c.queued).waits c.queued = false := by
    rw [waits_of_sole s (by rw [hop]; decide), after_pasr]
    rcases hfree with hno | hno
    · simp [hno]
    · simp [hno, hheld]
  rw [ctrlEntry_starts hopen harg hc (by decide) hgo, runCmd_runStart hwf (hc ▸ rfl), hrun, releaseFence_of_other hcmds (by rw [hd]; decide)]

theorem ctrlEntry_runStart_finishes {r : Nat} (hfree : (s.after c.queued).startAllowed = false ∨ s.pasr = false)
    (hrun : (s.after c).runStart c = (s.after c).finish c.id r []) : s.ctrlEntry 0x60 tag 0 arg none = s.after { c with result := some r } :=
  ctrlEntry_runStart hopen harg hwf hc hfree (hrun.trans (finish_after s (hc ▸ rfl) (hc ▸ rfl) (hc ▸ rfl) r)) (after_cmds _ _) (hc ▸ rfl)

theorem ctrlEntry_runStart_active (hrun : s.run.active = true) : s.ctrlEntry 0x60 tag 0 arg none = s.after { c with result := some 4 } :=
  ctrlEntry_runStart_finishes hopen harg hwf hc (.inl (startAllowed_of_run (by rwa [after_run])))
    (runStart_refused (startAllowed_of_run (by rwa [after_run])))

section
variable (hrun : s.run.active = false) (hring : s.ringEn = false) (hcan : s.canRun = true) (hpasr : s.pasr = false)
include hrun hring hcan hpasr

theorem ctrlEntry_runStart_ns (hns : 1000000000 ≤ c.num 6 4) : s.ctrlEntry 0x60 tag 0 arg none = s.after { c with result := some 2 } :=
  ctrlEntry_runStart_finishes hopen harg hwf hc (.inr hpasr) (runStart_of_ns (after_startAllowed hrun hring hcan c) hns)

theorem ctrlEntry_runStart_begins {e : Nat} (hns : c.num 6 4 < 1000000000) (hfar : s.time + 1000000 * nsUnits ≤ e)
    (hgiven : c.num 0 6 ≠ 0 ∨ c.num 6 4 ≠ 0 → e = (c.num 0 6 * 1000000000 + c.num 6 4) * nsUnits)
    (hauto : c.num 0 6 = 0 → c.num 6 4 = 0 → e % (1000000 * nsUnits) = 0 ∧ s.time + 2000000 * nsUnits ≤ e ∧ e < s.time + 3000000 * nsUnits) :
    ∃ t, s.ctrlEntry 0x60 tag 0 arg none = t ∧ t.run.active = true ∧ t.run.epoch = some e ∧ t.run.last = none ∧
      t.run.id = nextRunId s.run.id ∧ t.mNext = 0 ∧ t.zget Z.TIME_STAT.RUN_ACTIVE = 1 ∧
      t.cmds = [{ c with
        result := some 0, rdata := leBytes t.run.id 2 ++ [0, 0] ++ leBytes (e / nsUnits % 1000000000) 4 ++
          leBytes (e / nsUnits / 1000000000) 6 }] ∧ t.buf.mem = s.buf.mem ∧ t.chips = s.chips := by
  have hbegin : (s.after c).runStart c = _ := runStart_begins (after_startAllowed hrun hring hcan c) ((after_ringEn s c).trans hring) hns
    (by rwa [after_time]) hgiven (by rwa [after_time])
  obtain ⟨hactive, hepoch, hlast, hid⟩ := beginRun_run (s.after c) e 0
  obtain ⟨-, -, hchips, hcmds, -, hmem, -⟩ := rest_eq (beginRun_rest (s.after c) e 0)
  have hdone := finish_data_cmds (u := (s.after c).beginRun e 0) (hcmds.trans (after_cmds s c)) (hc ▸ rfl) (hc ▸ rfl) 0
    (leBytes ((s.after c).beginRun e 0).run.id 2 ++ [0, 0] ++ leBytes (e / nsUnits % 1000000000) 4 ++ leBytes (e / nsUnits / 1000000000) 6)
  exact ⟨_, ctrlEntry_runStart hopen harg hwf hc (.inr hpasr) hbegin hdone (hc ▸ rfl), hactive, hepoch, hlast,
    hid.trans (congrArg (fun r : RunSt => nextRunId r.id) (after_run s c)), beginRun_mNext .., beginRun_runActive .., hdone,
    hmem.trans (congrArg Buffer.mem (after_buf s c)), hchips.trans (after_chips s c)⟩

end
end

section
variable (hc : c = s.newCmd 0x61 tag 0 arg none)
include hc

theorem ctrlEntry_runStop_no_run (hrun : s.run.active = false) : s.ctrlEntry 0x61 tag 0 arg none = s.after { c with result := some 4 } := by
  refine ctrlEntry_finishes hopen harg hc ?_ (by decide) (by decide)
  rw [runCmd_runStop hwf (hc ▸ rfl), runStop_of_no_run (by rwa [after_run])]

theorem ctrlEntry_runStop_frame_to_come (hrun : s.run.active = true) (hring : s.ringEn = false) (hstop : c.num 8 8 ≠ 0)
    (hm : s.mNext ≤ c.num 8 8 / 4096) (hctxs : s.xtr.ctxs = []) : s.ctrlEntry 0x61 tag 0 arg none = (s.after c).updRun fun r => { r with
      pasr := bitAt (c.num 0 1) 0, last := some (c.num 8 8 / 4096) } := by
  have hnext : (s.after c).mNext = s.mNext := after_zget s c (by decide)
  refine ctrlEntry_leaves hopen harg hc (d := c) ?_ (after_cmds s c) (hc ▸ rfl) (by decide) (by decide)
  rw [runCmd_runStop hwf (hc ▸ rfl), runStop_of_frame_to_come (by rwa [after_run]) (by rwa [after_ringEn]) hstop (by rwa [hnext])
    (by rwa [after_xtr])]

end
end

/-! ### The commands settled -/

section
variable {s : State} {tag : Word} {arg : List Byte} (hopen : s.ctrlOpen) (harg : arg.length = 24) {c : Cmd} (hwf : c.wellFormed = true) {e : Eng}
  (hgcl : c.num 0 1 = e.val / 24) (hmask : c.num 4 4 = 2 ^ (e.val % 24))
include hopen harg hwf hgcl hmask

/-- What an engine holds after a load. -/
theorem ctrlEntry_engineLoad_loads {m : EngImage} {img : List Byte} (hc : c = s.newCmd 0x10 tag 0 arg (some img)) (hraw : c.num 3 1 = 0)
    (hlow : 0 < c.num 1 1) (hhigh : c.num 1 1 < 128) (hrole : c.num 2 1 < 3) (hlen : c.num 16 4 = img.length)
    (himg : parseImage (c.num 2 1) img = some m) (hroles : ∀ f : Eng, s.engProg f = c.num 1 1 → s.engRole f = c.num 2 1)
    (hoff : s.engState e ≠ 0) (hrunning : s.engState e ≠ 3) :
    ∃ t, s.ctrlEntry 0x10 tag 0 arg (some img) = t ∧ t.cmds = [{ c with result := some 0 }] ∧ t.engState e = 2 ∧
      t.engRole e = c.num 2 1 ∧ t.engProg e = c.num 1 1 ∧ t.zget (ZE.WD.LOG2.geng e) = m.wd ∧ t.zget (ZE.OUTLIM.EXTRA.geng e) = m.extra ∧
      (∀ k, k < 8192 → Tab.get 0 (t.eng e).imem k = m.words.getD k haltWord) ∧
      (∀ k, k < 131072 → Tab.get 0 (t.eng e).dmem k = m.data.getD k 0) ∧ (∀ f : Eng, f ≠ e → t.eng f = s.eng f) ∧
      ∀ k, Tab.get 0 t.shm k = if e.val / 24 * 2 ^ 20 + m.soff ≤ k ∧ k < e.val / 24 * 2 ^ 20 + m.soff + m.shared.length
        then m.shared.getD (k - (e.val / 24 * 2 ^ 20 + m.soff)) 0 else Tab.get 0 s.shm k := by
  obtain ⟨hmrole, hwd, hextra, hwords⟩ := parseImage_bounds himg
  have hload := ctrlEntry_engineLoad_good hopen harg hwf hgcl hmask hc hraw hlow hhigh hrole hlen himg hroles (not_or.mpr ⟨hoff, hrunning⟩)
  have hshm := engLoadAll_shm (s.after c) (e.val / 24) (c.num 1 1) e.val m
  rw [after_shm] at hshm
  refine ⟨_, hload, finish_newCmd_cmds hc ((engLoadAll_cmds ..).trans (after_cmds s c)) 0, ?_, ?_, ?_, ?_, ?_, fun k hk => ?_, fun k _ => ?_,
    fun f hf => ?_, hshm⟩
  all_goals simp only [State.engState, State.engRole, State.engProg, zget_finish, eng_finish, engLoadAll_zget, engLoadAll_eng]
  · exact engLoad_state ..
  · exact (engLoad_role ..).trans (by rw [hmrole, Nat.mod_eq_of_lt (by omega)])
  · exact (engLoad_prog ..).trans (Nat.mod_eq_of_lt hhigh)
  · exact (engLoad_watchdog ..).trans (Nat.mod_eq_of_lt hwd)
  · exact (engLoad_limit ..).trans (Nat.mod_eq_of_lt hextra)
  · exact engLoad_imem _ _ _ _ hwords hk
  · exact engLoad_dmem ..
  · exact (engLoad_others _ _ _ _ fun h => hf (Fin.ext h)).trans (after_eng s c f)

/-- What an engine holds after a start. -/
theorem ctrlEntry_engineStart_begins (hc : c = s.newCmd 0x11 tag 0 arg none) (hstate : s.engState e = 2 ∨ s.engState e = 4 ∨ s.engState e = 5) :
    ∃ t, s.ctrlEntry 0x11 tag 0 arg none = t ∧ t.cmds = [{ c with result := some 0 }] ∧ t.engState e = 3 ∧ (t.eng e).pc = 0 ∧
      (t.eng e).reg 1 = BitVec.ofNat 32 e ∧ (t.eng e).reg 2 = BitVec.ofNat 32 (s.engRole e) ∧
      (∀ r : Reg, r ≠ 1 → r ≠ 2 → (t.eng e).reg r = 0) ∧ (t.eng e).dmem = (s.eng e).dmem ∧ (t.eng e).imem = (s.eng e).imem ∧
      t.shm = s.shm ∧ ∀ f : Eng, f ≠ e → t.eng f = s.eng f := by
  have hidle : (s.after c).engState e ≠ 3 := by
    rw [after_engState]
    omega
  have heng := engStart_eng (s.after c) e hidle
  have hreg := engStart_reg (s.after c) e hidle
  rw [after_eng] at heng
  simp only [after_engRole] at hreg
  refine ⟨_, ctrlEntry_engineStart_starts hopen harg hwf hgcl hmask hc hstate,
    finish_newCmd_cmds hc ((engStart_cmds ..).trans (after_cmds s c)) 0, engStart_state .., ?_⟩
  simp only [eng_finish, hreg]
  rw [heng]
  refine ⟨rfl, rfl, rfl, fun r h1 h2 => ?_, rfl, rfl, (engStart_shm ..).trans (after_shm s c), fun f hf => ?_⟩
  · rw [if_neg h2, if_neg h1]
  · exact (engStart_others _ _ fun h => hf (Fin.ext h)).trans (after_eng s c f)

/-- What an engine holds after a stop. -/
theorem ctrlEntry_engineStop_stops (hc : c = s.newCmd 0x12 tag 0 arg none) (hstate : s.engState e = 3) (hrole : s.engRole e ≠ 0)
    (hjob : ∀ m, (s.eng e).cur = some m → m.job = none) (hpc : (s.eng e).pc < 32768) :
    ∃ t, s.ctrlEntry 0x12 tag 0 arg none = t ∧ t.cmds = [{ c with result := some 0 }] ∧ t.engState e = 4 ∧
      t.zget (ZE.FPC.PC.geng e) = (s.eng e).pc ∧ t.zget (ZE.STAT.FAULT.geng e) = 0 ∧ (t.eng e).cur = none ∧ (t.eng e).inq = [] ∧
      (t.eng e).dmem = (s.eng e).dmem := by
  rw [← after_engRole s c] at hrole
  rw [← after_eng s c] at hjob hpc ⊢
  refine ⟨_, ctrlEntry_engineStop_running hopen harg hwf hgcl hmask hc hstate hrole hjob,
    finish_newCmd_cmds hc ((engHalt_cmds _ _ hrole hjob).trans (after_cmds s c)) 0, engHalt_state _ _ hrole hjob,
    (engHalt_pc _ _ hrole hjob).trans (Nat.mod_eq_of_lt hpc), engHalt_fault _ _ hrole hjob, ?_⟩
  rw [eng_finish, engHalt_eng _ _ hrole hjob]
  exact ⟨rfl, rfl, rfl⟩

end

/-- Settles O41: each command by what its entry, once fetched, starts. -/
theorem ctrlRunsAndEngines : Obligations.CtrlRunsAndEngines := by
  unfold Obligations.CtrlRunsAndEngines
  intro s tag arg c hopen harg hwf
  have next {t u : State} (h : t = u) : (.next t : Result) = .next u := congrArg _ h
  refine ⟨fun e hgcl hmask => ⟨fun m img hc hraw hlow hhigh hrole hlen => ⟨fun hbad => next ?_, fun himg hroles => ⟨fun hbusy => next ?_,
      fun hoff hrunning => ?_⟩⟩, fun hc => ⟨fun hidle => next ?_, fun hstate => next ?_, fun hstate => ?_⟩,
      fun hc => ⟨fun hstate => next ?_, fun hstate hrole hjob hpc => ?_⟩⟩,
    fun hc => ⟨fun hid hepoch => next ?_, fun hid hback => next ?_,
      fun hactive hrun hid hab hsoon hepoch hlast hpins hdir hpdir hbillets hlost hm => next ?_⟩,
    fun hc => ⟨fun hslot => next ?_, fun hslot hfree => next ?_, fun r hslot hlost hr hcmd hbillets hpdir => next ?_⟩,
    fun hc => ⟨fun hzero => next ?_, fun hzero hrun => next ?_, fun hzero hrun hlast => next ?_⟩,
    fun hc => ⟨fun htrig => next ?_, fun x htrig hone hx => next ?_⟩,
    fun data hc => ⟨fun hlen => next ?_, fun img himg hlen hmod hlow hhigh => next ?_⟩,
    fun hc => ⟨fun hrun => next ?_, fun hrun hring hcan hpasr => ⟨fun hns => next ?_, fun e hns hfar hgiven hauto => ?_⟩⟩,
    fun hc => ⟨fun hrun => next ?_, fun hrun hring hstop hm hctxs => next ?_⟩⟩
  · exact ctrlEntry_engineLoad_bad hopen harg hwf hgcl hmask hc hraw hlow hhigh hrole hlen hbad
  · exact ctrlEntry_engineLoad_busy hopen harg hwf hgcl hmask hc hraw hlow hhigh hrole hlen himg hroles hbusy
  · obtain ⟨t, ht, h⟩ := ctrlEntry_engineLoad_loads hopen harg hwf hgcl hmask hc hraw hlow hhigh hrole hlen himg hroles hoff hrunning
    exact ⟨t, next ht, h⟩
  · exact ctrlEntry_engineStart_idle hopen harg hwf hgcl hmask hc hidle
  · exact ctrlEntry_engineStart_running hopen harg hwf hgcl hmask hc hstate
  · obtain ⟨t, ht, h⟩ := ctrlEntry_engineStart_begins hopen harg hwf hgcl hmask hc hstate
    exact ⟨t, next ht, h⟩
  · exact ctrlEntry_engineStop_idle hopen harg hwf hgcl hmask hc hstate
  · obtain ⟨t, ht, h⟩ := ctrlEntry_engineStop_stops hopen harg hwf hgcl hmask hc hstate hrole hjob hpc
    exact ⟨t, next ht, h⟩
  · exact ctrlEntry_pin_no_run hopen harg hwf hc hid hepoch
  · exact ctrlEntry_pin_backward hopen harg hwf hc hid hback
  · exact ctrlEntry_pin_waits hopen harg hwf hc hactive hrun hid hab hsoon hepoch hlast hpins hdir hpdir hbillets hlost hm
  · exact ctrlEntry_unpin_no_slot hopen harg hwf hc hslot
  · exact ctrlEntry_unpin_free hopen harg hwf hc hslot hfree
  · exact ctrlEntry_unpin_range hopen harg hwf hc hslot hlost hr hcmd hbillets hpdir
  · exact ctrlEntry_mark_zero hopen harg hwf hc hzero
  · exact ctrlEntry_mark_no_run hopen harg hwf hc hzero hrun
  · exact ctrlEntry_mark_run hopen harg hwf hc hzero hrun hlast
  · exact ctrlEntry_fence_alone hopen harg hwf hc htrig
  · exact ctrlEntry_fence_waits hopen harg hwf hc htrig hone hx
  · exact ctrlEntry_monCfg_length hopen harg hwf hc hlen
  · exact ctrlEntry_monCfg_image hopen harg hwf hc himg hlen hmod hlow hhigh
  · exact ctrlEntry_runStart_active hopen harg hwf hc hrun
  · exact ctrlEntry_runStart_ns hopen harg hwf hc hrun hring hcan hpasr hns
  · obtain ⟨t, ht, h⟩ := ctrlEntry_runStart_begins hopen harg hwf hc hrun hring hcan hpasr hns hfar hgiven hauto
    exact ⟨t, next ht, h⟩
  · exact ctrlEntry_runStop_no_run hopen harg hwf hc hrun
  · exact ctrlEntry_runStop_frame_to_come hopen harg hwf hc hrun hring hstop hm hctxs

end Sys2Proof.Machine
end

section
/-!
PROOFS. The loss and the retirement of a rank of a stack (R192 to R195): which registers they write, and what of the buffer they leave.
-/

namespace Sys2Proof.Machine

/-! ### Fields of stacks -/

/-- The fields of two stacks lie apart. -/
theorem stack_key_ne_other {f g : Field} (hf : f.key < 0x1000 * 64) (hg : g.key < 0x1000 * 64) {n m : Nat} (h : n ≠ m) :
    (f.stack n).key ≠ (g.stack m).key := by
  rw [stack_key, stack_key]
  omega

theorem regsBut.zget {fs : List Field} {s t : State} (h : regsBut fs s t) {g : Field} (hg : g.key ∉ fs.map Field.key) :
    t.zget g = s.zget g := congrArg (· ^^^ g.reset) (h _ hg)

theorem regsBut.zbit {fs : List Field} {s t : State} (h : regsBut fs s t) {f : Field} (hf : f ∈ fs) (i : Nat) (v : Bool) :
    regsBut fs s (t.zbit f i v) := h.zput hf _

/-- An event of a stack leaves the fields below the stacks' blocks, beside FILTERED. -/
theorem raiseStack_zget_low {g : Field} (hlow : g.key < 0x20000 * 64) (hfilt : g.key ≠ Z.EVT_STAT.FILTERED.key) (s : State) (n : Fin 8)
    {j : Nat} (hj : j < 12) (d : List Byte) : (s.raiseStack n j d).zget g = s.zget g :=
  raiseSev_zget s _ _ d (evBits_stack n hj ▸ (stack_key_ne_low _ n hlow).symm) hfilt

/-! ### Scrubbing pauses while a rank migrates (R187) -/

theorem scrubPause_zget_stack (s : State) (f : Field) (n : Nat) : s.scrubPause.zget (f.stack n) = s.zget (f.stack n) :=
  zput_low_zget_stack s (by decide) _ f n

theorem scrubPause_paused {s : State} {n : Fin 8} (hmig : s.zget (ZS.MIG.ACTIVE.stack n) = 1) :
    s.scrubPause.zget Z.SCRUB_POS.PAUSED = 1 := by
  have hany : ((List.range 8).any fun n => s.zget (ZS.MIG.ACTIVE.stack n) == 1) = true :=
    List.any_eq_true.mpr ⟨n, List.mem_range.mpr n.isLt, by simp [hmig]⟩
  rw [State.scrubPause, hany]
  exact State.zget_zput ..

/-! ### A stack leaves service (R195) -/

theorem closeRun_keeps (s : State) : s.closeRun.zreg = s.zreg ∧ s.closeRun.buf.stks = s.buf.stks ∧ s.closeRun.buf.rce = s.buf.rce := by
  unfold State.closeRun
  split
  · exact ⟨rfl, rfl, rfl⟩
  · exact ⟨rfl, rfl, rfl⟩

/-- Stack `n` is out of service: its migration has ended, and no retirement of it waits. -/
def State.outOfService (s : State) (n : Nat) : State :=
  ((((s.zput (ZS.CTL.SERVICE.stack n) 0).zbit Z.BUF_STAT.IN_SERVICE n false).zput (ZS.MIG.ACTIVE.stack n) 0).scrubPause).updStack n
    fun x => { x with due := [] }

/-- The loss of a stack in service: the open run closes if it is being filled there, and an event tells. -/
theorem stackLoss_cases {s : State} {n : Nat} (hin : s.inService n = true) (cause rank : Nat) : ∃ t : State,
    (t = s.outOfService n ∨ t = (s.outOfService n).closeRun) ∧ s.stackLoss n cause rank = t.raiseStack n 4 [b8 cause, b8 rank] := by
  have hguard : ¬ ¬ s.inService n = true := not_not.mpr hin
  unfold State.stackLoss
  rw [if_neg hguard]
  dsimp only
  refine ⟨_, ?_, rfl⟩
  split
  · split
    · exact .inr rfl
    · exact .inl rfl
  · exact .inl rfl

/-- The fields that the loss of stack `n` writes. -/
def lossFields (n : Nat) : List Field :=
  [ZS.CTL.SERVICE.stack n, Z.BUF_STAT.IN_SERVICE, ZS.MIG.ACTIVE.stack n, Z.SCRUB_POS.PAUSED, ZS.EVSTAT.PEND.stack n, Z.EVT_STAT.FILTERED]

/-- Beside the event, the loss leaves the registers and the stack's record as `outOfService` has them. -/
theorem stackLoss_rest {s : State} {n : Nat} (hin : s.inService n = true) (cause rank : Nat) : ∃ t : State,
    s.stackLoss n cause rank = t.raiseStack n 4 [b8 cause, b8 rank] ∧
    t.zreg = (s.outOfService n).zreg ∧ t.buf.stks = (s.outOfService n).buf.stks ∧ t.buf.rce = s.buf.rce := by
  obtain ⟨t, rfl | rfl, h⟩ := stackLoss_cases hin cause rank
  · exact ⟨_, h, rfl, rfl, rfl⟩
  · obtain ⟨hreg, hstks, hrce⟩ := closeRun_keeps (s.outOfService n)
    exact ⟨_, h, hreg, hstks, hrce⟩

section
variable {s : State} {n : Fin 8} (hin : s.inService n = true) (cause rank : Nat)
include hin

/-- A field of the stack after its loss. -/
theorem stackLoss_zget_stack {f : Field} (hpend : f.key ≠ ZS.EVSTAT.PEND.key) :
    (s.stackLoss n cause rank).zget (f.stack n) = (s.outOfService n).zget (f.stack n) := by
  obtain ⟨t, h, hreg, -, -⟩ := stackLoss_rest hin cause rank
  rw [h, raiseStack_zget hpend _ n (by decide)]
  exact congrArg (fun r => fget r (f.stack n)) hreg

theorem stackLoss_inService : (s.stackLoss n cause rank).inService n = false := by
  have hservice : (s.stackLoss n cause rank).zget (ZS.CTL.SERVICE.stack n) = 0 := by
    rw [stackLoss_zget_stack hin cause rank (by decide), State.outOfService, zget_updStack, scrubPause_zget_stack,
      State.zget_zput_ne _ _ (stack_key_ne (by decide) n), State.zbit, zput_low_zget_stack _ (by decide), State.zget_zput, Nat.zero_mod]
  rw [State.inService, hservice]
  rfl

theorem stackLoss_active : (s.stackLoss n cause rank).zget (ZS.MIG.ACTIVE.stack n) = 0 := by
  rw [stackLoss_zget_stack hin cause rank (by decide), State.outOfService, zget_updStack, scrubPause_zget_stack, State.zget_zput,
    Nat.zero_mod]

theorem stackLoss_due : ((s.stackLoss n cause rank).stack n).due = [] := by
  obtain ⟨t, h, -, hstks, -⟩ := stackLoss_rest hin cause rank
  rw [h, stack_raiseStack]
  refine (congrArg (fun k => (Tab.get ({} : StackSt) k n).due) hstks).trans ?_
  exact congrArg StackSt.due (stack_updStack _ n _)

theorem stackLoss_regsBut : regsBut (lossFields n) s (s.stackLoss n cause rank) := by
  obtain ⟨t, h, hreg, -, -⟩ := stackLoss_rest hin cause rank
  have hservice : regsBut (lossFields n) s (s.zput (ZS.CTL.SERVICE.stack n) 0) := .zput (fun _ _ => rfl) (by simp [lossFields]) 0
  have hmask := hservice.zbit (f := Z.BUF_STAT.IN_SERVICE) (by simp [lossFields]) n false
  have hactive := hmask.zput (f := ZS.MIG.ACTIVE.stack n) (by simp [lossFields]) 0
  have hout : regsBut (lossFields n) s (s.outOfService n) := hactive.zput (f := Z.SCRUB_POS.PAUSED) (by simp [lossFields]) _
  have ht : regsBut (lossFields n) s t := fun k hk => (congrArg (fun r => Tab.get 0 r k) hreg).trans (hout k hk)
  rw [h]
  refine ht.trans ((raiseStack_onlyEvent t n 4 _).2.mono ?_)
  rw [evBits_stack n (by decide)]
  simp [lossFields]

/-- The other stacks serve as before. -/
theorem stackLoss_inService_other {m : Fin 8} (hm : m ≠ n) : (s.stackLoss n cause rank).inService m = s.inService m := by
  have hne : m.val ≠ n.val := fun h => hm (Fin.ext h)
  refine congrArg (· == 1) ((stackLoss_regsBut hin cause rank).zget ?_)
  simp only [lossFields, List.map_cons, List.map_nil, List.mem_cons, List.not_mem_nil, or_false, not_or]
  exact ⟨stack_key_ne_other (by decide) (by decide) hne, stack_key_ne_low _ _ (by decide), stack_key_ne_other (by decide) (by decide) hne,
    stack_key_ne_low _ _ (by decide), stack_key_ne_other (by decide) (by decide) hne, stack_key_ne_low _ _ (by decide)⟩

end

theorem stackLoss_rce (s : State) (n : Nat) (cause rank : Nat) : (s.stackLoss n cause rank).buf.rce = s.buf.rce := by
  cases hin : s.inService n
  · rw [State.stackLoss, if_pos (by simp [hin])]
  · obtain ⟨t, h, -, -, hrce⟩ := stackLoss_rest hin cause rank
    rw [h, raiseStack_buf, hrce]

/-! ### A rank is retired (R192) -/

/-- The spare of stack `n` has begun to take over rank `r`. -/
def State.migrationBegun (s : State) (n r cause : Nat) : State :=
  (((((s.zput (ZS.ICTL.SPARE.stack n) 1).zput (ZS.ICTL.SPARE_RANK.stack n) r).zput (ZS.MIG.PAGES.stack n) 0).zput (ZS.MIG.RANK.stack n) r).zput
    (ZS.MIG.ACTIVE.stack n) 1).scrubPause.updStack n fun x => { x with migStart := s.time, migCause := cause }

/-- With the spare unused the retirement begins at once. -/
theorem retireRank_of_unspared {s : State} {n : Nat} (hin : s.inService n = true) (hidle : s.zget (ZS.MIG.ACTIVE.stack n) = 0)
    (hpasr : s.pasr = false) (hspare : s.zget (ZS.ICTL.SPARE.stack n) = 0) (r cause : Nat) :
    s.retireRank n r cause = (s.migrationBegun n r cause).raiseStack n 2 [b8 r, b8 cause] := by
  unfold State.retireRank
  rw [if_neg (by simp [hin]), if_neg (by simp [hidle]), if_neg (by simp [hpasr]), if_pos hspare]
  rfl

theorem retireRank_rce (s : State) (n r cause : Nat) : (s.retireRank n r cause).buf.rce = s.buf.rce := by
  unfold State.retireRank
  split
  · rfl
  split
  · rfl
  split
  · rfl
  split
  · rw [raiseStack_buf]
    rfl
  · exact stackLoss_rce s n 0 r

section
variable (s : State) (n : Fin 8) {r : Nat} (hr : r < 8) (cause : Nat)

theorem migrationBegun_spare : (s.migrationBegun n r cause).zget (ZS.ICTL.SPARE.stack n) = 1 := by
  rw [State.migrationBegun, zget_updStack, scrubPause_zget_stack, State.zget_zput_ne _ _ (stack_key_ne (by decide) n),
    State.zget_zput_ne _ _ (stack_key_ne (by decide) n), State.zget_zput_ne _ _ (stack_key_ne (by decide) n),
    State.zget_zput_ne _ _ (stack_key_ne (by decide) n), State.zget_zput]
  rfl

theorem migrationBegun_active : (s.migrationBegun n r cause).zget (ZS.MIG.ACTIVE.stack n) = 1 := by
  rw [State.migrationBegun, zget_updStack, scrubPause_zget_stack, State.zget_zput]
  rfl

theorem migrationBegun_pages : (s.migrationBegun n r cause).zget (ZS.MIG.PAGES.stack n) = 0 := by
  rw [State.migrationBegun, zget_updStack, scrubPause_zget_stack, State.zget_zput_ne _ _ (stack_key_ne (by decide) n),
    State.zget_zput_ne _ _ (stack_key_ne (by decide) n), State.zget_zput, Nat.zero_mod]

theorem migrationBegun_paused : (s.migrationBegun n r cause).zget Z.SCRUB_POS.PAUSED = 1 :=
  scrubPause_paused (n := n) (State.zget_zput ..)

include hr

theorem migrationBegun_ranks : (s.migrationBegun n r cause).zget (ZS.ICTL.SPARE_RANK.stack n) = r ∧
    (s.migrationBegun n r cause).zget (ZS.MIG.RANK.stack n) = r := by
  constructor
  · rw [State.migrationBegun, zget_updStack, scrubPause_zget_stack, State.zget_zput_ne _ _ (stack_key_ne (by decide) n),
      State.zget_zput_ne _ _ (stack_key_ne (by decide) n), State.zget_zput_ne _ _ (stack_key_ne (by decide) n), State.zget_zput]
    exact Nat.mod_eq_of_lt hr
  · rw [State.migrationBegun, zget_updStack, scrubPause_zget_stack, State.zget_zput_ne _ _ (stack_key_ne (by decide) n), State.zget_zput]
    exact Nat.mod_eq_of_lt hr

end

end Sys2Proof.Machine
end

section
/-!
PROOFS. DRAM lines and the scrub (R180, R181, R183, R184, R187 to R190): a page without damage, a page with one flagged byte, the partial
write, and the walk's start.
-/

namespace Sys2Proof.Machine

/-! ### What the operations leave -/

theorem zput_onlyMarks (s : State) (f : Field) (v : Nat) : onlyMarks s (s.zput f v) := ⟨rfl, rfl⟩

theorem upset_onlyMarks (s : State) (ch page : Nat) (u : Upset) : onlyMarks s (s.upset ch page u) := ⟨rfl, rfl⟩

theorem onlyMarks.out {s t : State} (h : onlyMarks s t) : t.out = s.out := congrArg (fun u => u.out) h.1

theorem emit_buf (s : State) (o : Out) : (s.emit o).buf = s.buf := rfl

theorem pageBits_congr {s t : State} (h : t.buf = s.buf) (ch page : Nat) : t.pageBits ch page = s.pageBits ch page :=
  congrArg (fun b : Buffer => Tab.get 0 b.page (pageIdx ch page)) h

theorem setPageBits_pageBits (s : State) (ch page : Nat) (v : BitVec 2) : (s.setPageBits ch page v).pageBits ch page = v :=
  Tab.get_set_same ..

theorem setPageBits_zget_stack (s : State) (ch page : Nat) (v : BitVec 2) (f : Field) (n : Nat) :
    (s.setPageBits ch page v).zget (f.stack n) = s.zget (f.stack n) :=
  zput_low_zget_stack (s.updBuf fun b => { b with page := Tab.set 0 b.page (pageIdx ch page) v }) (by decide) _ f n

/-! ### The page code (R180, R181) -/

theorem gfMulN_zero (b n : Nat) : gfMulN 0 b n = 0 := by
  induction n generalizing b with
  | zero => rfl
  | succ n ih =>
    have hx : gfX 0 = 0 := rfl
    simp only [gfMulN, hx, ih, ite_self, Nat.xor_self]

theorem gfMul_zero (b : Nat) : gfMul 0 b = 0 := gfMulN_zero b 8

theorem freshMask_zero : freshMask 0 0 = 0 := by decide

theorem ne_of_oddMask {m : BitVec 9} (h : oddMask m = true) : 0#9 ≠ m := by
  rintro rfl
  exact absurd h (by decide)

/-- One flagged symbol of a column: S0 is its error. -/
theorem decodeCol_of_flagged {i : Nat} {m : BitVec 9} (hm : oddMask m = true) : decodeCol [(i, m)] = some [(i, m.toNat % 256)] := by
  simp [decodeCol, hm]

theorem decodePage_of_flagged {i c : Nat} {m : BitVec 9} (hm : oddMask m = true) : decodePage [(i, c, m)] = some [(i, c, m.toNat % 256)] := by
  simp [decodePage, decodeCols, decodeCol_of_flagged hm]

theorem pageAddr_of_data {page i : Nat} (hi : i < 32) : pageAddr page i = page * 2048 + 64 * i := if_pos hi

theorem pageAddr_div {page i : Nat} (hi : i < 32) : pageAddr page i / 2048 = page := by
  rw [pageAddr_of_data hi]
  omega

theorem pageAddr_line {page i : Nat} (hi : i < 32) : pageAddr page i % 2048 / 64 = i := by
  rw [pageAddr_of_data hi]
  omega

/-- The check lines of the event pages lie above every data line of them. -/
theorem pageAddr_of_check {page i : Nat} (hpage : page < 1966080) (hi : ¬ i < 32) : 0xF0000000 ≤ pageAddr page i := by
  rw [pageAddr, if_neg hi, if_pos hpage]
  omega

/-! ### Pages without damage -/

section
variable {s : State} {ch : Nat}

theorem lineDamage_of_sound (hsound : s.buf.dmg = []) (page i : Nat) : s.lineDamage ch page i = [] := by
  simp [State.lineDamage, hsound]

theorem pageDamage_of_sound (hsound : s.buf.dmg = []) (page : Nat) : s.pageDamage ch page = [] := by
  simp [State.pageDamage, lineDamage_of_sound hsound]

theorem damage_of_sound (hsound : s.buf.dmg = []) (l : Nat) : s.damage ch l = 0 := by
  simp [State.damage, hsound]

theorem lineBytes_of_sound (hsound : s.buf.dmg = []) (l : Nat) : s.lineBytes ch l [] = (List.range 64).map fun j => s.memByte ch (l + j) := by
  simp [State.lineBytes, lineDamage_of_sound hsound, dmgByte]

/-- Without damage parity flags nothing: the line is read once, and delivered as stored. -/
theorem readLine_of_sound (hsound : s.buf.dmg = []) (l : Nat) : s.readLine ch l =
    (((List.range 64).map fun j => s.memByte ch (l + j), s.poisoned ch (l / 2048)), s.zwrap (ZS.RBYTES.BYTES.stack (ch / 4)) 64) := by
  have hsound' : (s.zwrap (ZS.RBYTES.BYTES.stack (ch / 4)) 64).buf.dmg = [] := hsound
  unfold State.readLine
  dsimp only
  rw [lineDamage_of_sound hsound', lineBytes_of_sound hsound']
  rfl

theorem lineRead_of_sound (hsound : s.buf.dmg = []) {l : Nat} (hpoison : s.poisoned ch (l / 2048) = false)
    (hawake : s.zget Z.BUF_PASR.ACTIVE = 0) : s.lineRead ch l [] =
      (s.zwrap (ZS.RBYTES.BYTES.stack (ch / 4)) 64).emit (.line ch l ((List.range 64).map fun j => s.memByte ch (l + j)) false) := by
  unfold State.lineRead
  dsimp only
  rw [touchKept_of_inactive hawake, State.upsets, List.foldl_nil, readLine_of_sound hsound, lineDamage_of_sound hsound, hpoison,
    if_neg (by simp)]

end

/-! ### A page with one flagged byte (R181, R183) -/

/-- With no entry in the repeat-CE table a correction counts in CE. -/
theorem countCorrection_of_empty {s : State} (hrce : s.buf.rce = []) (ch l e : Nat) :
    s.countCorrection ch l e = s.zbump (ZS.ECNT.CE.stack (ch / 4)) 1 := by
  simp [State.countCorrection, State.rceFind, hrce]

/-- Only one element of the list contributes. -/
theorem flatMap_sole {α : Type} {l : List Nat} {p : Nat} (hnodup : l.Nodup) (hp : p ∈ l) (xs : List α) :
    (l.flatMap fun i => if i = p then xs else []) = xs := by
  induction l with
  | nil => simp at hp
  | cons a l ih =>
    obtain ⟨hfresh, hrest⟩ := List.nodup_cons.mp hnodup
    rw [List.flatMap_cons]
    by_cases ha : a = p
    · have hnone : (l.flatMap fun i => if i = p then xs else []) = [] := List.flatMap_eq_nil_iff.mpr fun i hi =>
        if_neg fun (h : i = p) => hfresh (ha.trans h.symm ▸ hi)
      rw [if_pos ha, hnone, List.append_nil]
    · rw [if_neg ha, List.nil_append, ih hrest ((List.mem_cons.mp hp).resolve_left (Ne.symm ha))]

/-- The only damage in DRAM is upset `u` of a byte of page `page`, on a stack whose spare is unused. -/
structure State.Struck (s : State) (ch page : Nat) (u : Upset) : Prop where
  damage : s.buf.dmg = [(oldKey ch (pageAddr page u.pos + u.col), u.mask)]
  spare : s.zget (ZS.ICTL.SPARE.stack (ch / 4)) = 0

/-- While the spare is unused, a byte lies in its own die. -/
theorem dieKey_of_unspared {s : State} {ch : Nat} (hspare : s.zget (ZS.ICTL.SPARE.stack (ch / 4)) = 0) (l : Nat) :
    s.dieKey ch l = oldKey ch l := by
  simp [State.dieKey, State.onSpare, hspare]

/-- An upset of a byte without damage. -/
theorem upset_struck {s : State} {ch : Nat} (hsound : s.buf.dmg = []) (hspare : s.zget (ZS.ICTL.SPARE.stack (ch / 4)) = 0) (page : Nat)
    {u : Upset} (hodd : oddMask u.mask = true) : (s.upset ch page u).Struck ch page u := by
  refine ⟨?_, hspare⟩
  simp [State.upset, hsound, dieKey_of_unspared hspare, Tab.upd, Tab.set, Tab.insert, Tab.erase, ne_of_oddMask hodd]

/-- A flagged line is read, and the page with its check lines; the correction counts, and the page waits for a scrub. -/
def State.pageCorrected (s : State) (ch page : Nat) : State :=
  (((s.zwrap (ZS.RBYTES.BYTES.stack (ch / 4)) 64).zwrap (ZS.RBYTES.BYTES.stack (ch / 4)) 2176).zbump (ZS.ECNT.CE.stack (ch / 4))
    1).setRescrub ch page

theorem pageCorrected_onlyMarks (s : State) (ch page : Nat) : onlyMarks s (s.pageCorrected ch page) :=
  (((zwrap_onlyMarks s _ _).trans (zwrap_onlyMarks _ _ _)).trans (zput_onlyMarks _ _ _)).trans (setPageBits_onlyMarks _ _ _ _)

theorem pageCorrected_pageBits (s : State) (ch page : Nat) : (s.pageCorrected ch page).pageBits ch page = s.pageBits ch page ||| 2#2 :=
  setPageBits_pageBits ..

theorem pageCorrected_ce (s : State) (ch page : Nat) : (s.pageCorrected ch page).zget (ZS.ECNT.CE.stack (ch / 4)) =
    sat (ZS.ECNT.CE.stack (ch / 4)).wid (s.zget (ZS.ECNT.CE.stack (ch / 4)) + 1) := by
  rw [State.pageCorrected, State.setRescrub, setPageBits_zget_stack, State.zget_zbump, State.zget_zwrap_ne _ _ (stack_key_ne (by decide) _),
    State.zget_zwrap_ne _ _ (stack_key_ne (by decide) _)]

section
variable {s : State} {ch page : Nat} {u : Upset} (hs : s.Struck ch page u)
include hs

theorem State.Struck.zwrap {f : Field} (hf : (ZS.ICTL.SPARE.stack (ch / 4)).key ≠ f.key) (v : Nat) : (s.zwrap f v).Struck ch page u :=
  ⟨hs.damage, (State.zget_zwrap_ne s v hf).trans hs.spare⟩

variable (hpage : page < 1966080) (hpos : u.pos.val < 32)
include hpage hpos

/-- The lines of an event page lie apart: only the line that is struck shows the damage. -/
theorem lineDamage_of_struck (i : Nat) : s.lineDamage ch page i = if i = u.pos.val then [(u.col.val, u.mask)] else [] := by
  have hcol := u.col.isLt
  have hkey : (s.lineDamage ch page i) = if oldKey ch (pageAddr page i) ≤ oldKey ch (pageAddr page u.pos + u.col) ∧
      oldKey ch (pageAddr page u.pos + u.col) < oldKey ch (pageAddr page i) + 64
      then [(oldKey ch (pageAddr page u.pos + u.col) - oldKey ch (pageAddr page i), u.mask)] else [] := by
    rw [State.lineDamage, dieKey_of_unspared hs.spare, hs.damage]
    split
    next h => simp [h]
    next h => simp [h]
  rw [hkey]
  by_cases hi : i = u.pos.val
  · subst hi
    rw [if_pos (by unfold oldKey; omega), if_pos rfl, oldKey_add, Nat.add_sub_cancel_left]
  · rw [if_neg hi, if_neg]
    rw [pageAddr_of_data hpos]
    unfold oldKey
    by_cases hdata : i < 32
    · rw [pageAddr_of_data hdata]
      omega
    · have hcheck := pageAddr_of_check hpage hdata
      omega

theorem pageDamage_of_struck (hclosed : s.openPage ch page = false) : s.pageDamage ch page = [(u.pos.val, u.col.val, u.mask)] := by
  have hline (i : Nat) : ((s.lineDamage ch page i).map fun d => (i, d.1, d.2)) =
      if i = u.pos.val then [(u.pos.val, u.col.val, u.mask)] else [] := by
    rw [lineDamage_of_struck hs hpage hpos]
    split
    next hi => simp [hi]
    next hi => rfl
  simp only [State.pageDamage, hclosed, Bool.false_eq_true, if_false, hline]
  exact flatMap_sole List.nodup_range (List.mem_range.mpr u.pos.isLt) _

/-- The decode of the page finds the byte. -/
theorem decodePage_of_struck (hodd : oddMask u.mask = true) (hclosed : s.openPage ch page = false) :
    decodePage (s.pageDamage ch page) = some [(u.pos.val, u.col.val, u.mask.toNat % 256)] := by
  rw [pageDamage_of_struck hs hpage hpos hclosed, decodePage_of_flagged hodd]

/-- With its error taken out the byte is delivered as stored, and so is the rest of the line. -/
theorem lineBytes_of_struck : s.lineBytes ch (pageAddr page u.pos) [(u.col.val, u.mask.toNat % 256)] =
    (List.range 64).map fun j => s.memByte ch (pageAddr page u.pos + j) := by
  rw [State.lineBytes, pageAddr_div hpos, pageAddr_line hpos, lineDamage_of_struck hs hpage hpos, if_pos rfl]
  refine List.map_congr_left fun j _ => ?_
  by_cases hj : u.col.val = j
  · simp [hj, dmgByte]
  · simp [hj, dmgByte]

theorem readLine_of_struck (hodd : oddMask u.mask = true) (hclosed : s.openPage ch page = false) (hrce : s.buf.rce = []) :
    s.readLine ch (pageAddr page u.pos) =
      (((List.range 64).map fun j => s.memByte ch (pageAddr page u.pos + j), s.poisoned ch page), s.pageCorrected ch page) := by
  have hline := hs.zwrap (f := ZS.RBYTES.BYTES.stack (ch / 4)) (stack_key_ne (by decide) _) 64
  have hfull := hline.zwrap (f := ZS.RBYTES.BYTES.stack (ch / 4)) (stack_key_ne (by decide) _) 2176
  have hclosed' : (s.zwrap (ZS.RBYTES.BYTES.stack (ch / 4)) 64).openPage ch page = false := hclosed
  have hflag : (((s.zwrap (ZS.RBYTES.BYTES.stack (ch / 4)) 64).lineDamage ch page u.pos).any fun d => oddMask d.2) = true := by
    rw [lineDamage_of_struck hline hpage hpos, if_pos rfl]
    simp [hodd]
  unfold State.readLine
  dsimp only
  rw [pageAddr_div hpos, pageAddr_line hpos, hflag, if_neg (by simp), decodePage_of_struck hline hpage hpos hodd hclosed', hclosed']
  simp only [List.filter_cons, beq_self_eq_true, if_true, List.filter_nil, List.map_cons, List.map_nil, List.foldl_cons, List.foldl_nil,
    Bool.false_eq_true, if_false]
  rw [lineBytes_of_struck hfull hpage hpos, countCorrection_of_empty (s := (s.zwrap _ 64).zwrap _ 2176) hrce]
  rfl

end

/-- An event page is not a metadata page: what is read is delivered. -/
theorem lineRead_of_event_page {s : State} {ch l : Nat} (hpage : l / 2048 < 1966080) (hawake : s.zget Z.BUF_PASR.ACTIVE = 0) (us : List Upset) :
    s.lineRead ch l us = ((s.upsets ch (l / 2048) us).readLine ch l).2.emit
      (.line ch l ((s.upsets ch (l / 2048) us).readLine ch l).1.1 ((s.upsets ch (l / 2048) us).readLine ch l).1.2) := by
  have hmeta : ¬ isMetaPage (l / 2048) = true := by
    simp only [isMetaPage, decide_eq_true_eq, not_and]
    omega
  unfold State.lineRead
  dsimp only
  rw [touchKept_of_inactive hawake, if_neg fun h => hmeta h.1]

/-- The flagged byte is corrected on its way out. -/
theorem lineRead_of_upset {s : State} {ch page : Nat} {u : Upset} (hsound : s.buf.dmg = [])
    (hspare : s.zget (ZS.ICTL.SPARE.stack (ch / 4)) = 0) (hpage : page < 1966080) (hpos : u.pos.val < 32) (hodd : oddMask u.mask = true)
    (hpoison : s.poisoned ch page = false) (hclosed : s.openPage ch page = false) (hrce : s.buf.rce = [])
    (hawake : s.zget Z.BUF_PASR.ACTIVE = 0) : s.lineRead ch (pageAddr page u.pos) [u] =
      ((s.upset ch page u).pageCorrected ch page).emit (.line ch (pageAddr page u.pos)
        ((List.range 64).map fun j => s.memByte ch (pageAddr page u.pos + j)) false) := by
  have hpoison' : (s.upset ch page u).poisoned ch page = false := hpoison
  rw [lineRead_of_event_page (by rwa [pageAddr_div hpos]) hawake, pageAddr_div hpos, State.upsets, List.foldl_cons, List.foldl_nil,
    readLine_of_struck (upset_struck hsound hspare page hodd) hpage hpos hodd hclosed hrce, hpoison']
  rfl

/-! ### Partial writes (R184) -/

/-- DRAM holds `m`. -/
def State.putMem (s : State) (m : Tab Byte) : State := s.updBuf fun b => { b with mem := m }

section
variable {s : State} {ch : Nat} (hsound : s.buf.dmg = []) (hspare : s.zget (ZS.ICTL.SPARE.stack (ch / 4)) = 0)
include hsound hspare

/-- Without damage none is to be cleared. -/
theorem setDamage_zero_of_sound (l : Nat) : s.setDamage ch l 0 = s := by
  have hclear (k : Nat) : Tab.set 0 s.buf.dmg k 0 = s.buf.dmg := by
    rw [hsound]
    rfl
  have hset : s.setDamage ch l 0 = s.updBuf fun b => { b with dmg := Tab.set 0 s.buf.dmg (s.dieKey ch l) 0 } := by
    simp [State.setDamage, hspare, State.updBuf]
  rw [hset, hclear]
  rfl

/-- The check lines stay in step with a byte that is written. -/
theorem deltaByte_of_sound (page i : Nat) (x : Nat × Byte) :
    s.deltaByte ch page i x = s.putMem (Tab.set 0 s.buf.mem (oldKey ch (pageAddr page i + x.1)) x.2) := by
  have hzero : (0 : BitVec 9).toNat % 256 = 0 := rfl
  unfold State.deltaByte
  simp only [damage_of_sound hsound, hzero, gfMul_zero, freshMask_zero, setDamage_zero_of_sound hsound hspare]
  exact setDamage_zero_of_sound (s := s.putMem (Tab.set 0 s.buf.mem (oldKey ch (pageAddr page i + x.1)) x.2)) hsound hspare _

end

theorem foldl_deltaByte_of_sound {s : State} {ch : Nat} (hsound : s.buf.dmg = []) (hspare : s.zget (ZS.ICTL.SPARE.stack (ch / 4)) = 0)
    (page i : Nat) (bytes : List Byte) (col : Nat) : (byteCols bytes col).foldl (fun s x => s.deltaByte ch page i x) s =
      s.putMem (Tab.writeList 0 id (oldKey ch (pageAddr page i + col)) s.buf.mem bytes) := by
  induction bytes generalizing s col with
  | nil => rfl
  | cons b bytes ih =>
    have hcols : byteCols (b :: bytes) col = (col, b) :: byteCols bytes (col + 1) := by
      simp only [byteCols, List.zipIdx_cons', List.map_cons, List.map_map, Function.comp_def, Prod.map, id, Nat.add_zero,
        Nat.add_right_comm, ← Nat.add_assoc]
    have hstep := ih (s := s.putMem (Tab.set 0 s.buf.mem (oldKey ch (pageAddr page i + col)) b)) hsound hspare (col + 1)
    rw [hcols, List.foldl_cons, deltaByte_of_sound hsound hspare, hstep, Tab.writeList_cons, ← Nat.add_assoc, oldKey_add ch _ 1]
    rfl

/-- A partial write of a line without damage: 192 bytes are read, 192 written. -/
theorem partialWrite_of_sound {s : State} {ch l : Nat} {bytes : List Byte} (hsound : s.buf.dmg = [])
    (hspare : s.zget (ZS.ICTL.SPARE.stack (ch / 4)) = 0) (hfit : bytes.length ≤ 64 - l % 64) : s.partialWrite ch l bytes =
      ((s.putMem (Tab.writeList 0 id (oldKey ch l) s.buf.mem bytes)).zwrap (ZS.RBYTES.BYTES.stack (ch / 4)) 192).zwrap
        (ZS.WBYTES.BYTES.stack (ch / 4)) 192 := by
  have hline : l % 2048 / 64 < 32 := by omega
  have haddr : pageAddr (l / 2048) (l % 2048 / 64) + l % 64 = l := by
    rw [pageAddr_of_data hline]
    omega
  unfold State.partialWrite
  dsimp only
  rw [lineDamage_of_sound hsound, List.take_of_length_le hfit, foldl_deltaByte_of_sound hsound hspare, haddr, if_pos (by simp)]

/-! ### Scrubbing (R187 to R190) -/

/-- A page is read whole, and its RESCRUB is cleared. -/
def State.visited (s : State) (ch page : Nat) : State :=
  (s.zwrap (ZS.RBYTES.BYTES.stack (ch / 4)) 2176).setPageBits ch page (s.pageBits ch page &&& 1#2)

/-- Corrected lines of a page, `n` bytes, are written back and read again. -/
def State.rewritten (s : State) (ch n : Nat) : State :=
  (s.zwrap (ZS.WBYTES.BYTES.stack (ch / 4)) n).zwrap (ZS.RBYTES.BYTES.stack (ch / 4)) n

theorem scrubPage_of_decoded {s : State} {ch page : Nat} {cs : List (Nat × Nat × Nat)} (hcs : decodePage (s.pageDamage ch page) = some cs)
    (again : List Upset) : s.scrubPage ch page again = ((((((s.visited ch page).countAll ch page cs).correct ch page cs).rewritten ch
      (64 * (cs.map fun c => c.1).dedup.length)).upsets ch page again).verify ch page cs again) := by
  unfold State.scrubPage
  dsimp only
  rw [hcs]
  rfl

theorem scrubPage_of_sound {s : State} {ch : Nat} (hsound : s.buf.dmg = []) (page : Nat) :
    s.scrubPage ch page [] = (s.visited ch page).rewritten ch 0 := by
  have hnone : decodePage (s.pageDamage ch page) = some [] := by
    rw [pageDamage_of_sound hsound]
    rfl
  rw [scrubPage_of_decoded hnone]
  rfl

theorem visited_onlyMarks (s : State) (ch page : Nat) : onlyMarks s (s.visited ch page) :=
  (zwrap_onlyMarks _ _ _).trans (setPageBits_onlyMarks _ _ _ _)

theorem rewritten_onlyMarks (s : State) (ch n : Nat) : onlyMarks s (s.rewritten ch n) :=
  (zwrap_onlyMarks _ _ _).trans (zwrap_onlyMarks _ _ _)

theorem rewritten_zput_buf (s : State) (ch n : Nat) (f : Field) (v : Nat) : ((s.rewritten ch n).zput f v).buf = s.buf := rfl

/-- Beside RESCRUB the visit leaves the page's state. -/
theorem visited_pageBits (s : State) (ch page : Nat) : (s.visited ch page).pageBits ch page = s.pageBits ch page &&& 1#2 :=
  setPageBits_pageBits ..

theorem exec_scrubPageVisit (ch : Fin 32) (page : Fin 2097152) (prio : Bool) (pos : Byte) (us again : List Upset) {s : State}
    (hscrubs : (s.upsets ch page us).scrubs ch page = true) : exec (.scrubPageVisit ch page prio false pos us again) s =
      .next (((s.upsets ch page us).scrubPage ch page again).zput (if prio then Z.SCRUB_POS.PRIO_POS else Z.SCRUB_POS.FULL_POS) pos.toNat) :=
  congrArg Host.Outcome.next (if_pos hscrubs)

section
variable {s : State} {ch page : Nat} {u : Upset}

theorem verify_of_sole (e : Nat) : s.verify ch page [(u.pos.val, u.col.val, e)] [u] = s.makeHard ch (pageAddr page u.pos + u.col) e := by
  simp [State.verify]

/-- The first location that proves hard takes entry 0 of the table, whatever becomes of its rank. -/
theorem makeHard_rce_of_empty (hrce : s.buf.rce = []) (l e : Nat) : Tab.get none (s.makeHard ch l e).buf.rce 0 =
    some ⟨ch, l, e, 0, s.buf.fullLap % 65536, s.buf.fullLap % 65536⟩ := by
  have hfind : s.rceFind ch l = none := by simp [State.rceFind, hrce]
  have hfree (v : Nat) : ((List.range 64).find? fun k => Tab.get none (s.setHard (ch / 4) (rankOf ch l) v).buf.rce k = none) = some 0 := by
    have hrce' : (s.setHard (ch / 4) (rankOf ch l) v).buf.rce = [] := hrce
    rw [hrce']
    rfl
  have hent (ent : RceEnt) : Tab.get none (Tab.set none s.buf.rce 0 (some ent)) 0 = some ent := Tab.get_set_same ..
  unfold State.makeHard
  rw [hfind, if_neg (by simp)]
  dsimp only
  rw [hfree]
  dsimp only
  split
  · rw [retireRank_rce, raiseStack_buf]
    exact hent _
  · rw [raiseStack_buf]
    exact hent _

theorem setDamage_keeps (s : State) (ch l : Nat) (m : BitVec 9) :
    (s.setDamage ch l m).buf.rce = s.buf.rce ∧ (s.setDamage ch l m).buf.fullLap = s.buf.fullLap := by
  unfold State.setDamage
  dsimp only [State.updBuf]
  split
  · exact ⟨rfl, rfl⟩
  · exact ⟨rfl, rfl⟩

theorem rewritten_upset_fullLap (s : State) (n : Nat) : ((s.rewritten ch n).upsets ch page [u]).buf.fullLap = s.buf.fullLap := rfl

/-- A byte that the scrub corrects, and that is wrong again at the verify read, enters the table. -/
theorem scrubPage_rce_of_struck (hs : s.Struck ch page u) (hpage : page < 1966080) (hpos : u.pos.val < 32) (hodd : oddMask u.mask = true)
    (hclosed : s.openPage ch page = false) (hrce : s.buf.rce = []) : Tab.get none (s.scrubPage ch page [u]).buf.rce 0 =
      some ⟨ch, pageAddr page u.pos + u.col, u.mask.toNat % 256, 0, s.buf.fullLap % 65536, s.buf.fullLap % 65536⟩ := by
  have hcounted (e : Nat) : (s.visited ch page).countAll ch page [(u.pos.val, u.col.val, e)] =
      (s.visited ch page).zbump (ZS.ECNT.CE.stack (ch / 4)) 1 := countCorrection_of_empty (s := s.visited ch page) hrce ch _ e
  rw [scrubPage_of_decoded (decodePage_of_struck hs hpage hpos hodd hclosed), verify_of_sole, hcounted]
  have hcorrect (t : State) (e : Nat) : (t.correct ch page [(u.pos.val, u.col.val, e)]).buf.rce = t.buf.rce ∧
      (t.correct ch page [(u.pos.val, u.col.val, e)]).buf.fullLap = t.buf.fullLap := setDamage_keeps ..
  obtain ⟨hrce', hlap⟩ := hcorrect ((s.visited ch page).zbump (ZS.ECNT.CE.stack (ch / 4)) 1) (u.mask.toNat % 256)
  rw [makeHard_rce_of_empty]
  · rw [rewritten_upset_fullLap, hlap]
    rfl
  · exact hrce'.trans hrce

end

theorem exec_dramLineRead (ch : Fin 32) (line : Fin 67108864) (us : List Upset) (s : State) :
    exec (.dramLineRead ch line us) s = .next (s.lineRead ch (64 * line) us) := rfl

theorem exec_sealedPageWrite (ch : Fin 32) (addr : Word) (bytes : List Byte) (s : State) :
    exec (.sealedPageWrite ch addr bytes []) s = .next (s.partialWrite ch addr.toNat bytes) := rfl

theorem exec_priorityWalkStart_of_due {s : State} (hdue : s.buf.prioStart = 0) (hrate : s.zget Z.SCRUB_CFG.MBPS ≠ 0)
    (hruns : s.zget Z.SCRUB_POS.PAUSED = 0) (hpasr : s.zget Z.BUF_STAT.PASR = 0) : exec .priorityWalkStart s =
      .next ((s.updBuf fun b => { b with prioStart := s.time }).zput Z.SCRUB_POS.PRIO_POS 0) :=
  congrArg Host.Outcome.next (if_neg (by simp [hdue, hrate, hruns, hpasr]))

/-- Settles O28: a line without damage (`lineRead_of_sound`) and one with a flagged byte (`lineRead_of_upset`), a partial write
(`partialWrite_of_sound`), the scrub of a sound page and of one with a hard bit (`scrubPage_rce_of_struck`), and the walk's start. -/
theorem dramLinesAndScrub : Obligations.DramLinesAndScrub := by
  unfold Obligations.DramLinesAndScrub
  intro s ch hsound hspare
  refine ⟨fun line hpoison hawake => ?_, fun page u hpos hodd hpoison hclosed hrce hawake line hline => ?_, fun addr bytes hfit => ?_,
    fun page prio pos hscrubs => ?_, fun page u prio pos hpos hodd hscrubs hrce hclosed => ?_,
    fun hdue hrate hruns hpasr => exec_priorityWalkStart_of_due hdue hrate hruns hpasr⟩
  · rw [exec_dramLineRead, lineRead_of_sound hsound hpoison hawake]
  · have haddr : 64 * line.val = pageAddr page u.pos := by
      rw [pageAddr_of_data hpos]
      omega
    have hmarks := (upset_onlyMarks s ch page u).trans (pageCorrected_onlyMarks _ ch page)
    rw [exec_dramLineRead, haddr, lineRead_of_upset hsound hspare page.isLt hpos hodd hpoison hclosed hrce hawake]
    refine ⟨_, rfl, hmarks.2, congrArg (· ++ _) hmarks.out,
      (State.zget_updOut _ _ _).trans (pageCorrected_ce (s.upset ch page u) ch page), ?_⟩
    exact (pageBits_congr (emit_buf _ _) ch page).trans (pageCorrected_pageBits (s.upset ch page u) ch page)
  · rw [exec_sealedPageWrite, partialWrite_of_sound hsound hspare hfit]
    refine ⟨_, rfl, hsound, fun j hj => ?_, fun ch' l' hout => Tab.get_writeList_outside 0 id _ _ _ hout, rfl⟩
    rw [List.getD_eq_getElem _ _ hj]
    exact (congrArg (Tab.get 0 _) (oldKey_add ch addr.toNat j)).trans (Tab.get_writeList_inside 0 id _ _ _ hj)
  · rw [exec_scrubPageVisit ch page prio pos [] [] hscrubs]
    have hpos : pos.toNat % 2 ^ 8 = pos.toNat := Nat.mod_eq_of_lt pos.isLt
    have hmarks := ((visited_onlyMarks s ch page).trans (rewritten_onlyMarks _ ch 0)).trans
      (zput_onlyMarks _ (if prio then Z.SCRUB_POS.PRIO_POS else Z.SCRUB_POS.FULL_POS) pos.toNat)
    rw [State.upsets, List.foldl_nil, scrubPage_of_sound hsound]
    refine ⟨_, rfl, hmarks.2, hsound, ?_, ?_, hmarks.out⟩
    · exact (pageBits_congr (rewritten_zput_buf (s.visited ch page) ch 0 _ _) ch page).trans (visited_pageBits s ch page)
    cases prio
    · exact (State.zget_zput ..).trans hpos
    · exact (State.zget_zput ..).trans hpos
  · rw [exec_scrubPageVisit ch (Fin.castLE (by decide) page) prio pos [u] [u] hscrubs]
    exact ⟨_, rfl, congrArg Kept.mem (scrubPage_kept _ _ _ _),
      scrubPage_rce_of_struck (upset_struck hsound hspare page hodd) page.isLt hpos hodd hclosed hrce⟩

end Sys2Proof.Machine
end

section
/-!
PROOFS. Retirement and loss (R192 to R196, R199, R200): the order, the copy of a page and the end of a migration, its lag, the power-down
of a stack, the release of a frozen channel.
-/

namespace Sys2Proof.Machine

/-! ### Migration (R193) -/

/-- Without damage the copy of a block carries none over. -/
theorem copyBlock_of_sound {s : State} (hsound : s.buf.dmg = []) (ch page : Nat) : s.copyBlock ch page [] = s := by
  have hcopy : s.copyBlock ch page [] = s.updBuf fun b => { b with dmg := s.buf.dmg } := by
    simp [State.copyBlock, hsound]
  exact hcopy

/-- A page that parity does not flag is copied as it is. -/
theorem migrateOne_of_sound {s : State} (hsound : s.buf.dmg = []) (n : Nat) : s.migrateOne n [] =
    ((s.zwrap (ZS.RBYTES.BYTES.stack n) 2048).zwrap (ZS.WBYTES.BYTES.stack n) 2048).zput (ZS.MIG.PAGES.stack n)
      (s.zget (ZS.MIG.PAGES.stack n) + 1) := by
  have hsound' : ((s.zwrap (ZS.RBYTES.BYTES.stack n) 2048).zwrap (ZS.WBYTES.BYTES.stack n) 2048).buf.dmg = [] := hsound
  have hpages : ((s.zwrap (ZS.RBYTES.BYTES.stack n) 2048).zwrap (ZS.WBYTES.BYTES.stack n) 2048).zget (ZS.MIG.PAGES.stack n) =
      s.zget (ZS.MIG.PAGES.stack n) :=
    (State.zget_zwrap_ne _ _ (stack_key_ne (by decide) n)).trans (State.zget_zwrap_ne _ _ (stack_key_ne (by decide) n))
  unfold State.migrateOne
  simp only [State.upsets, List.foldl_nil, ite_self, pageDamage_of_sound hsound', List.any_nil, Bool.false_eq_true, and_false, if_false,
    copyBlock_of_sound hsound', hpages]

section
variable {s : State} {n : Fin 8} (hactive : s.zget (ZS.MIG.ACTIVE.stack n) = 1)
include hactive

theorem exec_migrationPageCopy (hmore : s.zget (ZS.MIG.PAGES.stack n) < 1048576) (bad : Bool) (us : List Upset) :
    exec (.migrationPageCopy n bad us) s =
      .next (if bad then s.stackLoss n 2 (s.zget (ZS.MIG.RANK.stack n)) else s.migrateOne n us) :=
  congrArg Host.Outcome.next (if_pos ⟨hactive, hmore⟩)

theorem exec_migrationComplete (hall : s.zget (ZS.MIG.PAGES.stack n) = 1048576) : exec (.migrationComplete n) s = .next (s.migrated n) :=
  congrArg Host.Outcome.next (if_pos ⟨hactive, hall⟩)

theorem exec_migrationLag : exec (.migrationLag n) s = .next ((s.bgLag 2).raiseStack n 6
    ([2, b8 (4 * n + s.zget (ZS.MIG.RANK.stack n) / 2)] ++ leBytes ((s.time - (s.stack n).migStart) / (1000000 * nsUnits)) 4)) :=
  congrArg Host.Outcome.next (if_pos hactive)

end

/-- The hard counts of a stack stand apart from a field that both words of them stand apart from. -/
theorem hardF_key_ne {g : Field} (h0 : g.key ≠ ZS.HARD0.COUNT.key) (h1 : g.key ≠ ZS.HARD1.COUNT.key) (n r : Nat) :
    (g.stack n).key ≠ (hardF n r).key := by
  unfold hardF
  split
  · exact stack_key_ne h0 n
  · exact stack_key_ne h1 n

/-- A field of the stack at the end of its migration. -/
theorem migrated_zget (s : State) (n : Fin 8) {g : Field} (hpend : g.key ≠ ZS.EVSTAT.PEND.key) (h0 : g.key ≠ ZS.HARD0.COUNT.key)
    (h1 : g.key ≠ ZS.HARD1.COUNT.key) : (s.migrated n).zget (g.stack n) =
      ((s.zput (ZS.ICTL.SPARE.stack n) 2).zput (ZS.MIG.ACTIVE.stack n) 0).zget (g.stack n) := by
  unfold State.migrated
  dsimp only
  rw [raiseStack_zget hpend _ n (by decide), State.setHard, State.zget_zput_ne _ _ (hardF_key_ne h0 h1 n _), scrubPause_zget_stack]
  rfl

theorem migrated_served (s : State) (n : Fin 8) :
    (s.migrated n).zget (ZS.ICTL.SPARE.stack n) = 2 ∧ (s.migrated n).zget (ZS.MIG.ACTIVE.stack n) = 0 := by
  constructor
  · rw [migrated_zget s n (by decide) (by decide) (by decide), State.zget_zput_ne _ _ (stack_key_ne (by decide) n), State.zget_zput]
    rfl
  · rw [migrated_zget s n (by decide) (by decide) (by decide), State.zget_zput, Nat.zero_mod]

/-! ### Orders (R192, R195, R199, R200) -/

section
variable {s : State} (hopen : s.bar0Open)
include hopen

theorem exec_retireOrder (n : Fin 8) : exec (.retireOrder n) s = .next (s.retireRank n (s.zget (ZS.ICTL.RANK_SEL.stack n)) 2) :=
  congrArg Host.Outcome.next (bar0_of_open hopen _)

theorem exec_stackOut (n : Fin 8) : exec (.stackOut n) s = .next (s.stackLoss n 1 0xFF) :=
  congrArg Host.Outcome.next (bar0_of_open hopen _)

theorem exec_rceClear : exec .rceClear s = .next (s.updBuf fun b => { b with rce := Tab.set none b.rce (s.zget Z.RCE_IDX.ENTRY) none }) :=
  congrArg Host.Outcome.next (bar0_of_open hopen _)

end

/-! ### The power-down (R195) -/

/-- A channel that is not frozen goes to OFF. -/
def State.channelOff (s : State) (n c : Nat) : State := if s.chState n c = chFrozen then s else s.setChState n c chOff

theorem channelOff_onlyRegs (s : State) (n : Nat) {c : Nat} (hc : c ∈ [0, 1, 2, 3]) : onlyRegs (stateFields n) s (s.channelOff n c) := by
  unfold State.channelOff
  split
  · exact .refl _ s
  · exact onlyRegs_zput s (mem_stateFields hc) chOff

theorem channelOff_chState (s : State) (n : Nat) {c d : Nat} (hc : c < 4) (hd : d < 4) : (s.channelOff n c).chState n d =
    if d = c ∧ s.chState n d ≠ 4 then 0 else s.chState n d := by
  unfold State.channelOff
  split
  next hfrozen =>
    refine (if_neg ?_).symm
    rintro ⟨rfl, hother⟩
    exact hother hfrozen
  next hother =>
    rw [chState_setChState s n chOff n hc hd]
    by_cases h : d = c
    · subst h
      exact (if_pos ⟨rfl, rfl⟩).trans (if_pos ⟨rfl, hother⟩).symm
    · simp only [h, and_false, false_and, if_false]

theorem foldl_channelOff_chState (s : State) (n : Nat) {cs : List Nat} (hcs : ∀ c ∈ cs, c < 4) {d : Nat} (hd : d < 4) :
    (cs.foldl (fun s c => s.channelOff n c) s).chState n d = if d ∈ cs ∧ s.chState n d ≠ 4 then 0 else s.chState n d := by
  induction cs generalizing s with
  | nil => simp
  | cons c cs ih =>
    rw [List.foldl_cons, ih _ fun x hx => hcs x (List.mem_cons_of_mem c hx), channelOff_chState s n (hcs c List.mem_cons_self) hd]
    grind

/-- The channels of stack `n` go to OFF, and its record says that it is. -/
def State.poweredDown (s : State) (n : Nat) : State :=
  (s.chans fun s c => s.channelOff n c).updStack n fun x => { x with off := true }

theorem poweredDown_chState {s : State} {n : Nat} {c : Fin 4} (hrun : s.chState n c = 2) : (s.poweredDown n).chState n c = 0 := by
  have hmem : ∀ c : Fin 4, c.val ∈ [0, 1, 2, 3] := by decide
  refine (foldl_channelOff_chState s n (cs := [0, 1, 2, 3]) (by simp) c.isLt).trans (if_pos ⟨hmem c, ?_⟩)
  rw [hrun]
  decide

theorem chans_channelOff_onlyRegs (s : State) (n : Nat) : onlyRegs (stateFields n) s (s.chans fun s c => s.channelOff n c) :=
  foldl_onlyRegs _ _ _ fun s _ hc => channelOff_onlyRegs s n hc

theorem poweredDown_off (s : State) (n : Nat) : ((s.poweredDown n).stack n).off = true :=
  congrArg StackSt.off (stack_updStack _ n _)

theorem exec_stackPowerDown_of_empty {s : State} {n : Fin 8} (hout : s.inService n = false) (hready : (s.stack n).ready = true)
    (hbillets : s.buf.billets = []) (hdir : s.buf.dir = []) : exec (.stackPowerDown n) s = .next (s.poweredDown n) := by
  have hempty : s.stackEmpty n = true := by simp [State.stackEmpty, Tab.any, hbillets, hdir]
  exact congrArg Host.Outcome.next (if_pos ⟨by simp [hout], hready, hempty⟩)

/-! ### The release of a frozen channel (R196) -/

theorem testBit_sub_two_pow {v i : Nat} (h : v.testBit i = true) : (v - 2 ^ i).testBit i = false := by
  obtain ⟨c, rfl⟩ := Nat.exists_eq_add_of_le (Nat.ge_two_pow_of_testBit h)
  rw [Nat.add_sub_cancel_left]
  simpa [Nat.testBit_two_pow_add_eq] using h

/-- A bit that is cleared in a register field reads 0. -/
theorem bitAt_zbit_clear (s : State) (f : Field) (i : Nat) : bitAt ((s.zbit f i false).zget f) i = false := by
  rw [State.zbit, State.zget_zput, bitAt_eq_testBit, Nat.testBit_mod_two_pow, bitAt_eq_testBit]
  simp only [Bool.false_eq_true, if_false]
  split
  next h => simp [testBit_sub_two_pow h]
  next h => simp [h]

/-- Channel `c` of stack `n` has lost its record and is OFF. -/
def State.released (s : State) (n c : Nat) : State :=
  ((s.updStack n fun x => { x with freeze := Tab.set none x.freeze c none }).zbit (ZS.FRZ.FROZEN.stack n) c false).setChState n c chOff

theorem exec_freezeRelease_of_frozen {s : State} {n : Fin 8} (hopen : s.bar0Open) {f : Freeze}
    (hfrozen : Tab.get none (s.stack n).freeze (s.zget (ZS.FRZ.SEL.stack n)) = some f) :
    exec (.freezeRelease n) s = .next (s.released n (s.zget (ZS.FRZ.SEL.stack n))) := by
  have hstage : ¬ (s.zget Z.BOOT_STAT.STAGE = 5 ∧ s.zget Z.CLK_SRC.SAFE ≠ 1) := by simp [hopen.2]
  have hsome : (Tab.get none (s.stack n).freeze (s.zget (ZS.FRZ.SEL.stack n))).isSome = true := by simp [hfrozen]
  exact congrArg Host.Outcome.next ((if_neg hstage).trans ((bar0_of_open hopen _).trans (if_pos hsome)))

section
variable (s : State) (n : Fin 8) (c : Fin 4)

theorem released_freeze : Tab.get none ((s.released n c).stack n).freeze c = none := by
  have hstack : (s.released n c).stack n = (s.updStack n fun x => { x with freeze := Tab.set none x.freeze c none }).stack n := rfl
  rw [hstack, stack_updStack, Tab.get_set_same]

theorem released_chState : (s.released n c).chState n c = 0 := (State.zget_zput ..).trans (Nat.zero_mod _)

theorem released_unfrozen : bitAt ((s.released n c).zget (ZS.FRZ.FROZEN.stack n)) c = false := by
  have hkey : (ZS.FRZ.FROZEN.stack n).key ≠ (chanF ZS.CHSTATc.STATE n c).key := (chanF_key_ne_stack (by decide) n c).symm
  rw [State.released, State.setChState, State.zget_zput_ne _ _ hkey]
  exact bitAt_zbit_clear ..

end

/-- Settles O29: the order that starts a migration (`retireRank_of_unspared`), its pages (`migrateOne_of_sound`), its end, its lag, the loss
of a stack (`stackLoss_rest`), its power-down, the release of a channel, and CLEAR. -/
theorem retirementAndLoss : Obligations.RetirementAndLoss := by
  unfold Obligations.RetirementAndLoss
  intro s n
  refine ⟨fun hopen hin hidle hpasr hspare hrank => ?_, fun hactive hmore hrank hsound => ?_, fun hactive hmore hin => ?_,
    fun hactive hall hrank => ?_, fun hactive => exec_migrationLag hactive, fun hopen hin => ?_, fun hout hready hbillets hdir hrun => ?_,
    fun c f hopen hsel hfrozen => ?_, fun hopen => exec_rceClear hopen⟩
  · refine ⟨_, exec_retireOrder hopen n, ?_⟩
    rw [retireRank_of_unspared hin hidle hpasr hspare]
    obtain ⟨hsparerank, hmigrank⟩ := migrationBegun_ranks s n hrank 2
    refine ⟨(raiseStack_zget (by decide) _ n (by decide) _).trans (migrationBegun_spare ..),
      (raiseStack_zget (by decide) _ n (by decide) _).trans hsparerank,
      (raiseStack_zget (by decide) _ n (by decide) _).trans (migrationBegun_active ..),
      (raiseStack_zget (by decide) _ n (by decide) _).trans hmigrank,
      (raiseStack_zget (by decide) _ n (by decide) _).trans (migrationBegun_pages ..),
      (raiseStack_zget_low (by decide) (by decide) _ n (by decide) _).trans (migrationBegun_paused ..), ?_⟩
    rw [stack_raiseStack, raiseStack_buf, State.migrationBegun, stack_updStack]
    exact ⟨rfl, rfl, rfl⟩
  · refine ⟨_, exec_migrationPageCopy hactive hmore false [], ?_⟩
    rw [if_neg (by decide), migrateOne_of_sound hsound]
    have hnext : (s.zget (ZS.MIG.PAGES.stack n) + 1) % 2 ^ 21 = s.zget (ZS.MIG.PAGES.stack n) + 1 := Nat.mod_eq_of_lt (by omega)
    exact ⟨(State.zget_zput ..).trans hnext, rfl, hsound, rfl⟩
  · refine ⟨_, exec_migrationPageCopy hactive hmore true [], ?_⟩
    rw [if_pos rfl]
    exact ⟨stackLoss_inService hin .., stackLoss_active hin .., congrArg Kept.mem (stackLoss_kept ..)⟩
  · obtain ⟨hspare, hidle⟩ := migrated_served s n
    exact ⟨_, exec_migrationComplete hactive hall, hspare, hidle, congrArg Kept.mem (migrated_kept ..)⟩
  · exact ⟨_, exec_stackOut hopen n, stackLoss_inService hin .., stackLoss_active hin .., stackLoss_due hin ..,
      congrArg Kept.mem (stackLoss_kept ..), fun m hm => stackLoss_inService_other hin _ _ hm⟩
  · have hregs := chans_channelOff_onlyRegs s n
    exact ⟨_, exec_stackPowerDown_of_empty hout hready hbillets hdir, fun c => poweredDown_chState (hrun c), poweredDown_off s n,
      (congrArg Buffer.mem hregs.buf :), hregs.out⟩
  · refine ⟨_, exec_freezeRelease_of_frozen hopen (hsel.symm ▸ hfrozen), ?_⟩
    rw [hsel]
    exact ⟨released_freeze .., released_chState .., released_unfrozen .., rfl, rfl⟩

end Sys2Proof.Machine
end

section
/-!
PROOFS. What the statements on extraction share (R206, R216): the one context in use, its place once it is up to date, and what events and
entries of host rings leave of the extraction path.
-/

namespace Sys2Proof.Machine

/-! ### The one context -/

section
variable {s : State} {c : Ctx} (hone : s.oneCtx c)
include hone

theorem ctx?_of_oneCtx : s.ctx? c.num = some c := by
  rw [State.ctx?, show s.xtr.ctxs = [c] from hone, List.find?_singleton, if_pos (beq_self_eq_true _)]

theorem updCtx_of_oneCtx (f : Ctx → Ctx) : s.updCtx c.num f = s.setCtx (f c) := by
  have hctxs : s.xtr.ctxs.map (fun d : Ctx => if d.num = c.num then f d else d) = [f c] := by
    rw [show s.xtr.ctxs = [c] from hone, List.map_singleton, if_pos rfl]
  exact congrArg (fun l => s.updXtr fun x => { x with ctxs := l }) hctxs

end

/-! ### The context up to date -/

/-- The context with its stream and its state (R206) up to date. -/
def Ctx.settled (c : Ctx) : Ctx := (c.assemble (c.secs.length + 1)).place

theorem settleCtx_of_oneCtx {s : State} {c : Ctx} (hone : s.oneCtx c) : s.settleCtx c.num = s.setCtx c.settled :=
  updCtx_of_oneCtx hone _

/-- A change of the one context, brought up to date. -/
theorem settleCtx_updCtx {s : State} {c : Ctx} (hone : s.oneCtx c) (f : Ctx → Ctx) (hnum : (f c).num = c.num) :
    (s.updCtx c.num f).settleCtx c.num = s.setCtx (f c).settled := by
  rw [updCtx_of_oneCtx hone, ← hnum]
  exact settleCtx_of_oneCtx rfl

/-- Only the state of the context is found anew. -/
theorem place_eq (c : Ctx) : c.place = { c with phase := c.place.phase } := by
  unfold Ctx.place
  repeat' split
  all_goals rfl

/-- A context that reads goes on while frames of it are to be read. -/
theorem place_of_unread {c : Ctx} (hst : c.status = none) (hread : c.phase = .read) (hmore : c.next + c.secs.length ≠ c.last + 1) :
    c.place = c := by
  obtain ⟨⟩ := c
  subst hst hread
  simp [Ctx.place, Ctx.allRead, hmore]

theorem assemble_of_no_secs {c : Ctx} (hsecs : c.secs = []) (n : Nat) : c.assemble n = c := by
  cases n with
  | zero => rfl
  | succ n => rw [Ctx.assemble, hsecs]

/-- Without a section to enter the stream nothing but the state of the context changes. -/
theorem settled_of_no_secs {c : Ctx} (hsecs : c.secs = []) : c.settled = { c with phase := c.settled.phase } := by
  have h : c.settled = c.place := congrArg Ctx.place (assemble_of_no_secs hsecs _)
  rw [h]
  exact place_eq c

/-- A section of a later frame waits. -/
theorem settled_of_later {c : Ctx} {x : Section} (hsecs : c.secs = [x]) (hlater : x.frame ≠ c.next) : c.settled = c.place := by
  have h : c.assemble (c.secs.length + 1) = c := by
    rw [Ctx.assemble, hsecs]
    exact if_neg fun h => hlater h.1
  rw [Ctx.settled, h]

/-! ### Events and the shadow area -/

/-- An event leaves the extraction path. -/
theorem raiseSev_xtr (s : State) (src sev : Nat) (d : List Byte) : (s.raiseSev src sev d).xtr = s.xtr :=
  (congrArg (fun u : State => u.xtr) (raiseSev_onlyEvent s src sev d).1 :)

/-- The write of the shadow area is given off; the registers stay. -/
theorem shadow_zreg (s : State) : s.shadow.zreg = s.zreg := (congrArg (fun u : State => u.zreg) (shadow_eq s) :)

end Sys2Proof.Machine
end

section
/-!
PROOFS. Requests (R202 to R205, R207, R208, R210): how a request enters its context, the fetch of an entry, a ring TRIG, and the look-up.
-/

namespace Sys2Proof.Machine

theorem byteAt_lt (pl : List Byte) (i : Nat) : byteAt pl i < 256 := BitVec.isLt _

/-! ### A request enters its context (R203) -/

/-- The contexts in use, and `c` behind them. -/
def State.addCtx (s : State) (c : Ctx) : State := s.updXtr fun x => { x with ctxs := x.ctxs ++ [c] }

/-- The request breaks R203; `bad`: a reserved bit of it is set. -/
def Ctx.breaksRules (c : Ctx) (bad : Bool) : Prop :=
  bad = true ∨ c.len = 0 ∨ 1048576 < c.len ∨ c.ports = 0 ∨ ¬ c.comp = true ∧ c.level ≠ 0

/-- The request refused with STATUS `st`. -/
def Ctx.refused (c : Ctx) (st : Nat) : Ctx := { c with status := some st, phase := .held }

/-- The run that the request names. -/
def State.askedRun (s : State) (c : Ctx) : Option Nat := if c.runId = 0xFFFF then s.currentRun else some c.runId

/-- The context that request `c` takes. -/
def State.entered (s : State) (c : Ctx) (bad : Bool) : Ctx := (s.startCtx c bad).xtr.ctxs.getLastD c

section
variable (s : State) (c : Ctx) (bad : Bool)

theorem startCtx_eq : s.startCtx c bad = s.addCtx (s.entered c bad) := by
  simp [State.entered, State.startCtx, State.addCtx]

variable {s c bad}

theorem entered_of_startCtx {d : Ctx} (h : s.startCtx c bad = s.addCtx d) : s.entered c bad = d := by
  rw [State.entered, h]
  exact List.getLastD_concat

theorem entered_of_breaksRules (h : c.breaksRules bad) : s.entered c bad = c.refused 3 :=
  entered_of_startCtx (congrArg s.addCtx (if_pos h))

theorem entered_of_keepsRules (hkeeps : ¬ c.breaksRules bad) : s.entered c bad =
    (s.askedRun c).elim (c.refused 1) fun id => if s.runKnown id then { c with runId := id } else c.refused 1 := by
  refine entered_of_startCtx (congrArg s.addCtx ((if_neg hkeeps).trans ?_))
  unfold State.askedRun
  generalize (if c.runId = 0xFFFF then s.currentRun else some c.runId) = run
  cases run with
  | none => rfl
  | some id => rfl

variable (s c bad)

/-- What a request asks for stands in its context; only the run, STATUS and the state are found. -/
theorem entered_eq : s.entered c bad =
    { c with status := (s.entered c bad).status, phase := (s.entered c bad).phase, runId := (s.entered c bad).runId } := by
  by_cases hbreaks : c.breaksRules bad
  · rw [entered_of_breaksRules hbreaks]
    rfl
  rw [entered_of_keepsRules hbreaks]
  cases s.askedRun c with
  | none => rfl
  | some id =>
    rw [Option.elim_some]
    split
    · rfl
    · rfl

end

/-! ### The fetch of a TRIG entry (R202, R208) -/

theorem exec_trigFetch (r : Fin 4) (es : List (Fin 65536 × List Byte)) (s : State) : exec (.trigFetch r es) s = .next (s.trigFetch r es) := rfl

section
variable {s : State} {r : Fin 4} {n : Fin 65536} {e : List Byte}

theorem trigFetch_of_full (hfull : s.mayTake r = false) (es : List (Fin 65536 × List Byte)) : s.trigFetch r es = s := by
  simp [State.trigFetch, hfull]

/-- The fetch of one entry by the first ring that has one. -/
theorem trigFetch_single (hup : s.ringUp (r + 1) = true) (hposted : s.unfetched (r + 1) ≠ 0)
    (hfirst : ∀ k, k < r.val → s.unfetched (k + 1) = 0) (hfree : s.ctx? n = none) (hmay : s.mayTake r = true) :
    s.trigFetch r [(n, e)] = (((s.consume (r + 1)).startCtx (trigCtx n r e s.xtr.fetched).1 (trigCtx n r e s.xtr.fetched).2).updXtr
      fun x => { x with fetched := x.fetched + 1 }).shadow := by
  have hopen : (s.ringUp (r + 1) && s.unfetched (r + 1) != 0 && s.mayTake r) = true := by simp [hup, hposted, hmay]
  have hbefore : (List.range r).any (fun k => s.ringUp (k + 1) && s.unfetched (k + 1) != 0 && s.mayTake k) = false := by
    rw [List.any_eq_false]
    intro k hk
    simp [hfirst k (List.mem_range.mp hk)]
  have htake : s.unfetched (r + 1) ≠ 0 ∧ s.mayTake r = true ∧ (s.ctx? n).isNone = true := ⟨hposted, hmay, by simp [hfree]⟩
  refine (if_pos ⟨hopen, by simp [hbefore]⟩).trans (congrArg State.shadow ?_)
  exact if_pos htake

/-- What a fetched entry asks for: R203 is broken where one of these rules is. -/
theorem trigCtx_breaksRules {f : Nat} (h : leNat (slice e 8 4) = 0 ∨ 1048576 < leNat (slice e 8 4) ∨ leNat (slice e 12 2) = 0 ∨
    128 ≤ byteAt e 14 ∨ 16 ≤ byteAt e 15 ∨ 4 ≤ byteAt e 22 ∨ (0 < byteAt e 15 ∧ byteAt e 15 < 8)) :
    (trigCtx n r e f).1.breaksRules (trigCtx n r e f).2 := by
  have hcv := byteAt_lt e 14
  simp only [Ctx.breaksRules, trigCtx, Bool.or_eq_true, decide_eq_true_eq, bitAt, beq_iff_eq]
  omega

theorem trigCtx_keepsRules {f : Nat} (hlen : 0 < leNat (slice e 8 4)) (hmax : leNat (slice e 8 4) ≤ 1048576) (hports : leNat (slice e 12 2) ≠ 0)
    (hcv : byteAt e 14 < 128) (hcp : byteAt e 15 < 16) (hcomp : byteAt e 15 = 0 ∨ 8 ≤ byteAt e 15) (hopt : byteAt e 22 < 4)
    (hzero : slice e 23 9 = List.replicate 9 0) : ¬ (trigCtx n r e f).1.breaksRules (trigCtx n r e f).2 := by
  have hrest : (slice e 23 9).any (· != 0) = false := by
    rw [hzero]
    decide
  simp only [Ctx.breaksRules, trigCtx, hrest, Bool.or_eq_true, decide_eq_true_eq, bitAt, beq_iff_eq, Bool.false_eq_true, Nat.reducePow, or_false]
  omega

/-- An entry that keeps the rules and names run `id`. -/
theorem entered_of_named_run {id f : Nat} (hid : leNat (slice e 20 2) = id) (hnamed : id ≠ 0xFFFF)
    (hkeeps : ¬ (trigCtx n r e f).1.breaksRules (trigCtx n r e f).2) :
    (s.consume (r + 1)).entered (trigCtx n r e f).1 (trigCtx n r e f).2 =
      if s.runKnown id then { (trigCtx n r e f).1 with runId := id } else (trigCtx n r e f).1.refused 1 := by
  have hrun : (s.consume (r + 1)).askedRun (trigCtx n r e f).1 = some id :=
    (if_neg fun h => hnamed (hid.symm.trans h)).trans (congrArg some hid)
  rw [entered_of_keepsRules hkeeps, hrun]
  rfl

end

/-- What the fetch of an entry that takes context `c` changes beside it: the index, the count of fetched entries and the shadow area. -/
theorem fetched_state (s : State) (r : Fin 4) (c : Ctx) :
    let t := (((s.consume (r + 1)).addCtx c).updXtr fun x => { x with fetched := x.fetched + 1 }).shadow
    t = ((s.updXtr fun x => { x with ctxs := x.ctxs ++ [c], fetched := x.fetched + 1 }).updZreg (fun _ => t.zreg)).updOut (fun _ => t.out) ∧
      regsBut [ZR.CIDX.INDEX.hring (r + 1)] s t ∧
      t.zget (ZR.CIDX.INDEX.hring (r + 1)) = (s.zget (ZR.CIDX.INDEX.hring (r + 1)) + 1) % 2 ^ 32 := by
  intro t
  have hregs : t.zreg = (s.consume (r + 1)).zreg := shadow_zreg _
  refine ⟨(shadow_eq _).trans ?_, fun k hk => ?_, ?_⟩
  · rw [hregs]
    rfl
  · rw [hregs]
    exact regsBut.zput (fun _ _ => rfl) (List.mem_singleton.mpr rfl) _ k hk
  · rw [State.zget, hregs]
    exact State.zget_zput ..

/-! ### A ring TRIG (R204, R205, R308) -/

theorem restore48_mod (now t : Nat) : restore48 now t % 2 ^ 48 = t % 2 ^ 48 := by
  unfold restore48
  dsimp only
  split
  · omega
  · split
    · omega
    · omega

/-- WSTART lies at most 2⁴⁷ ticks before the current tick. -/
theorem le_restore48 (now t : Nat) : now ≤ restore48 now t + 2 ^ 47 := by
  unfold restore48
  dsimp only
  split
  · omega
  · split
    · omega
    · omega

theorem prbsCheck_of_off {s : State} {k : Link} (hoff : (s.prbsCfg k).1 = false) (b : Block) : s.prbsCheck k b = s :=
  if_neg (by simp [hoff])

/-- What the node does with a ring TRIG that it hears, and the message goes on. -/
theorem exec_ringTrigReceive_of_heard {s : State} {d : Side} {b : RxBlock} {pl : List Byte} (hhears : s.ringHears d b pl)
    (hkind : byteAt pl 0 = 2) (num : Fin 65536) : exec (.ringTrigReceive d b num) s = .next ((s.ringTrig num pl).ringEast pl) := by
  obtain ⟨hintact, hdata, rfl, hserves, hbad, hoff, heast, hsrc, hstrips⟩ := hhears
  have hreceive : s.receive (.ring d) b = (s, some b.blk) := by
    rw [State.receive, if_pos hintact, State.goodBlock, if_pos hbad, prbsCheck_of_off hoff]
  have htake : s.ringTake d b = (s, some b.blk.payload) := by simp [State.ringTake, hserves, hreceive, hdata]
  have hcomes : ¬ (d = .east ∧ s.ringServes .west = true) := fun h => by simp [heast h.1] at h
  have harrive : s.ringArrive d b.blk.payload (fun u => u.ringTrig num b.blk.payload) =
      (s.ringTrig num b.blk.payload).ringEast b.blk.payload := by
    simp [State.ringArrive, hcomes, hsrc, hstrips]
  show execRingTrigReceive d b num s = _
  simp [execRingTrigReceive, State.onMessage, htake, hkind, harrive]

/-- The registers that record a refused ring TRIG (R205). -/
def State.recordRefused (s : State) (w lp sc : Nat) : State :=
  ((((s.zbump Z.XTR_REFUSED.COUNT 1).zput Z.XTR_LASTREF.WSTART w).zput Z.XTR_LASTREF2.LENM1 lp).zput Z.XTR_LASTREF2.SRC (sc % 64)).zput
    Z.XTR_LASTREF2.CLASS (sc / 64 % 2)

/-- The tick at which the window of a ring TRIG begins. -/
def State.trigStart (s : State) (pl : List Byte) : Nat := restore48 s.nowTick (beNat (slice pl 2 6))

/-- The request of a ring TRIG, with what its profile says (R204). -/
def State.ringCtx (s : State) (num : Fin 65536) (pl : List Byte) : Ctx :=
  let prof (f : Field) : Nat := s.zget (f.at (4 * (beNat (slice pl 8 3) / 2 ^ 20)))
  { num := num, order := 4, cls := byteAt pl 1 / 64 % 2, ring := true, tag := beNat (slice pl 13 3), wstart := s.trigStart pl,
    len := beNat (slice pl 8 3) % 2 ^ 20 + 1, ports := beNat (slice pl 11 2), carve := prof Z.XTR_PROFk.CARVE,
    comp := prof Z.XTR_PROFk.COMP_EN == 1, level := prof Z.XTR_PROFk.LEVEL, aux := prof Z.XTR_PROFk.AUX == 1, nowait := false,
    runId := 0xFFFF, phase := .lookup }

/-- The fields that record a refused ring TRIG. -/
def refusalFields : List Field :=
  [Z.XTR_REFUSED.COUNT, Z.XTR_LASTREF.WSTART, Z.XTR_LASTREF2.LENM1, Z.XTR_LASTREF2.SRC, Z.XTR_LASTREF2.CLASS]

section
variable (s : State) (w lp sc : Nat)

theorem recordRefused_onlyRegs : onlyRegs refusalFields s (s.recordRefused w lp sc) :=
  ⟨rfl, ((((regsBut.zbump (fun _ _ => rfl) (by simp [refusalFields]) 1).zput (by simp [refusalFields]) w).zput (by simp [refusalFields]) lp).zput
    (by simp [refusalFields]) (sc % 64)).zput (by simp [refusalFields]) (sc / 64 % 2)⟩

theorem recordRefused_values : (s.recordRefused w lp sc).zget Z.XTR_REFUSED.COUNT = sat 32 (s.zget Z.XTR_REFUSED.COUNT + 1) ∧
    (s.recordRefused w lp sc).zget Z.XTR_LASTREF2.LENM1 = lp % 2 ^ 20 ∧ (s.recordRefused w lp sc).zget Z.XTR_LASTREF2.SRC = sc % 64 ∧
    (s.recordRefused w lp sc).zget Z.XTR_LASTREF2.CLASS = sc / 64 % 2 ∧
    (s.recordRefused w lp sc).zget Z.XTR_LASTREF.WSTART = w % 2 ^ 64 := by
  unfold State.recordRefused
  refine ⟨?_, ?_, ?_, ?_, ?_⟩
  · rw [State.zget_zput_ne _ _ (by decide), State.zget_zput_ne _ _ (by decide), State.zget_zput_ne _ _ (by decide),
      State.zget_zput_ne _ _ (by decide), State.zget_zbump]
    rfl
  · rw [State.zget_zput_ne _ _ (by decide), State.zget_zput_ne _ _ (by decide), State.zget_zput]
    rfl
  · rw [State.zget_zput_ne _ _ (by decide), State.zget_zput]
    exact Nat.mod_mod _ 64
  · rw [State.zget_zput]
    exact Nat.mod_mod _ 2
  · rw [State.zget_zput_ne _ _ (by decide), State.zget_zput_ne _ _ (by decide), State.zget_zput_ne _ _ (by decide), State.zget_zput]
    rfl

end

section
variable {s : State} {num : Fin 65536} {pl : List Byte}

theorem ringTrig_of_disabled (hen : s.zget Z.XTR_CFG.RING_EN = 0) : s.ringTrig num pl = s := if_pos hen

theorem ringTrig_of_refused (hen : s.zget Z.XTR_CFG.RING_EN ≠ 0)
    (hfull : s.zget (ZR.CFG.EN.hring 6) = 0 ∨ s.mayTake (byteAt pl 1 / 64 % 2) = false) : ∃ detail, s.ringTrig num pl =
      (s.recordRefused (s.trigStart pl) (beNat (slice pl 8 3)) (byteAt pl 1)).raise 516 detail := by
  have hrefuse : s.zget (ZR.CFG.EN.hring 6) = 0 ∨ ¬ s.mayTake (byteAt pl 1 / 64 % 2) = true ∨ (s.ctx? num.val).isSome = true :=
    hfull.imp_right fun h => .inl (by simp [h])
  exact ⟨_, (if_neg hen).trans (if_pos hrefuse)⟩

/-- LENM1 has 20 bits: no window is too long. -/
theorem ringCtx_keepsRules (hports : beNat (slice pl 11 2) ≠ 0) (hgood : bitAt (byteAt pl 1) 7 = false)
    (hcomp : (s.ringCtx num pl).comp = true) : ¬ (s.ringCtx num pl).breaksRules (bitAt (byteAt pl 1) 7) := by
  have hmax : beNat (slice pl 8 3) % 2 ^ 20 < 2 ^ 20 := Nat.mod_lt _ (by decide)
  rintro (hbad | hzero | hlong | hnone | ⟨hplain, -⟩)
  · simp [hgood] at hbad
  · exact absurd hzero (Nat.succ_ne_zero _)
  · exact absurd hlong (Nat.not_lt.mpr hmax)
  · exact hports hnone
  · exact hplain hcomp

theorem askedRun_of_ring (hrun : s.run.epoch = none) : s.askedRun (s.ringCtx num pl) = none :=
  (if_pos rfl).trans (by simp [State.currentRun, hrun])

/-- Without an enabled gate none gates. -/
theorem gated_of_no_gate (hgates : ∀ k : Fin 8, s.zget (Z.RING_GATEk_1.EN.at (16 * k)) = 0) (w cls : Nat) : s.gated w cls = false := by
  have hon : (List.range 8).filter (fun k => s.zget (Z.RING_GATEk_1.EN.at (16 * k)) == 1) = [] := by
    rw [List.filter_eq_nil_iff]
    intro k hk
    simp [hgates ⟨k, List.mem_range.mp hk⟩]
  unfold State.gated
  dsimp only
  rw [hon]
  rfl

theorem ringTrig_of_taken (hen : s.zget Z.XTR_CFG.RING_EN ≠ 0) (hctrl : s.zget (ZR.CFG.EN.hring 6) ≠ 0)
    (hmay : s.mayTake (byteAt pl 1 / 64 % 2) = true) (hfree : s.ctx? num = none)
    (hgates : ∀ k : Fin 8, s.zget (Z.RING_GATEk_1.EN.at (16 * k)) = 0) :
    s.ringTrig num pl = s.addCtx (s.entered (s.ringCtx num pl) (bitAt (byteAt pl 1) 7)) := by
  have htake : ¬ (s.zget (ZR.CFG.EN.hring 6) = 0 ∨ ¬ s.mayTake (byteAt pl 1 / 64 % 2) = true ∨ (s.ctx? num.val).isSome = true) := by
    simp [hctrl, hmay, hfree]
  have hgate : ¬ s.gated (s.trigStart pl) (byteAt pl 1 / 64 % 2) = true := by simp [gated_of_no_gate hgates]
  rw [← startCtx_eq]
  exact (if_neg hen).trans ((if_neg htake).trans (if_neg hgate))

end

theorem onlyEvent_of_raise {fs : List Field} {s t : State} (h : onlyRegs fs s t) (src : Nat) (d : List Byte) :
    onlyEvent (fs ++ [(evBits src).1, Z.EVT_STAT.FILTERED]) s (t.raise src d) := by
  obtain ⟨hstate, hregs⟩ := raiseSev_onlyEvent t src (sevOf src) d
  refine ⟨?_, (h.2.mono (List.subset_append_left ..)).trans (hregs.mono (List.subset_append_right ..))⟩
  refine hstate.trans ?_
  rw [h.1]
  rfl

theorem raise_zget {s : State} {src : Nat} {d : List Byte} {g : Field} (hpend : g.key ≠ (evBits src).1.key)
    (hfilt : g.key ≠ Z.EVT_STAT.FILTERED.key) : (s.raise src d).zget g = s.zget g := raiseSev_zget s src (sevOf src) d hpend hfilt

/-- An event shows in its bit of PEND. -/
theorem raise_pend (s : State) (src : Nat) (d : List Byte) (hfilt : (evBits src).1.key ≠ Z.EVT_STAT.FILTERED.key)
    (hwid : (evBits src).2.2 < (evBits src).1.wid) : bitAt ((s.raise src d).zget (evBits src).1) (evBits src).2.2 = true := by
  have hpend : (s.raise src d).zget (evBits src).1 = (s.zget (evBits src).1 ||| 2 ^ (evBits src).2.2) % 2 ^ (evBits src).1.wid := by
    rw [← State.zget_zput]
    unfold State.raise State.raiseSev
    dsimp only
    repeat' split
    · rfl
    · exact State.zget_zbump_ne _ _ hfilt
    · rfl
    · exact message_zget _ _ _
    · rfl
  rw [hpend, bitAt_eq_testBit, Nat.testBit_mod_two_pow, Nat.testBit_or, Nat.testBit_two_pow_self]
  simp [hwid]

/-! ### Look-up and waiting (R210) -/

theorem exec_contextLookup (n : Fin 65536) (s : State) : exec (.contextLookup n) s = .next (s.lookup n) := rfl

theorem mem_frames (c : Ctx) (f : Nat) : f ∈ c.frames ↔ c.first ≤ f ∧ f ≤ c.last := by
  unfold Ctx.frames
  rw [List.mem_map]
  constructor
  · rintro ⟨k, hk, rfl⟩
    have hlt := List.mem_range.mp hk
    omega
  · rintro ⟨hfirst, hlast⟩
    exact ⟨f - c.first, List.mem_range.mpr (by omega), by omega⟩

theorem first_le_last {c : Ctx} (hlen : 0 < c.len) : c.first ≤ c.last := by
  unfold Ctx.first Ctx.last Ctx.lastTick
  omega

/-- The frame stands in the buffer. -/
def FramePlace.stored : FramePlace → Bool
  | .at_ _ _ => true
  | _ => false

theorem FramePlace.stored_iff (p : FramePlace) : p.stored = true ↔ ∃ x pinned, p = .at_ x pinned := by
  cases p with
  | expired => simp [FramePlace.stored]
  | beyond => simp [FramePlace.stored]
  | at_ x pinned => simp [FramePlace.stored]

/-- Context `c` as it begins to read, with the frames that the look-up finds. -/
def State.reading (s : State) (c : Ctx) : Ctx :=
  { c with phase := .read, since := s.time, live := c.frames.filter fun f => (s.framePlace c.runId f).stored, next := c.first,
           epoch := s.epochOf c.runId, ready := { c with epoch := s.epochOf c.runId }.header }

section
variable {s : State} {c : Ctx} (hone : s.oneCtx c) (hphase : c.phase = .lookup)
include hone

theorem toRead_of_oneCtx (hst : c.status = none) (hsecs : c.secs = []) (hlen : 0 < c.len) : s.toRead c.num = s.setCtx (s.reading c) := by
  have hread : s.toRead c.num = s.setCtx (s.reading c).settled := settleCtx_updCtx hone _ rfl
  have hsettled : (s.reading c).settled = (s.reading c).place := congrArg Ctx.place (assemble_of_no_secs (c := s.reading c) hsecs _)
  have hmore : (s.reading c).next + (s.reading c).secs.length ≠ (s.reading c).last + 1 := by
    have hle : c.first ≤ c.last := first_le_last hlen
    show c.first + c.secs.length ≠ c.last + 1
    rw [hsecs, List.length_nil]
    omega
  rw [hread, hsettled, place_of_unread (c := s.reading c) hst rfl hmore]

include hphase

theorem lookup_of_oneCtx : s.lookup c.num =
    if ¬ s.runIsOn c.runId ∨ s.needed c < s.mNext then s.toRead c.num
    else if ¬ c.nowait ∧ (s.epochTime : Int) + ((c.lastTick : Int) - 12800000) * tickUnits ≤ s.time then
      s.setCtx { c with phase := .wait, waited := true }
    else s.setCtx { c with phase := .held, status := some 2 } := by
  simp only [State.lookup, ctx?_of_oneCtx hone, hphase, updCtx_of_oneCtx hone, ne_eq, not_true, if_false]

theorem lookup_of_merged (h : s.runIsOn c.runId = false ∨ s.needed c < s.mNext) : s.lookup c.num = s.toRead c.num :=
  (lookup_of_oneCtx hone hphase).trans (if_pos (h.imp_left fun hoff => by simp [hoff]))

theorem lookup_of_ahead (hon : s.runIsOn c.runId = true) (hahead : s.mNext ≤ s.needed c) : s.lookup c.num =
    if ¬ c.nowait ∧ (s.epochTime : Int) + ((c.lastTick : Int) - 12800000) * tickUnits ≤ s.time then
      s.setCtx { c with phase := .wait, waited := true }
    else s.setCtx { c with phase := .held, status := some 2 } :=
  (lookup_of_oneCtx hone hphase).trans (if_neg (by simp [hon, hahead]))

end

/-- Settles O30: a fetched entry and a ring TRIG enter their contexts by `startCtx_eq`, a refused TRIG is recorded by
`State.recordRefused`, and the look-up is `lookup_of_merged` or `lookup_of_ahead`. -/
theorem extractionRequests : Obligations.ExtractionRequests := by
  unfold Obligations.ExtractionRequests
  intro s
  refine ⟨fun r n e hup hposted hfirst hfree => ⟨fun hfull => ?_, fun hmay => ?_⟩, fun d b num pl hhears hkind =>
    ⟨fun hen => ?_, fun hen hfull => ?_, fun hen hctrl hmay hfree hgates => ?_⟩, ?_⟩
  · rw [exec_trigFetch, trigFetch_of_full hfull]
  · rw [exec_trigFetch, trigFetch_single hup hposted hfirst hfree hmay, startCtx_eq]
    have hasks := entered_eq (s.consume (r + 1)) (trigCtx n r e s.xtr.fetched).1 (trigCtx n r e s.xtr.fetched).2
    obtain ⟨hstate, hregs, hindex⟩ := fetched_state s r
      ((s.consume (r + 1)).entered (trigCtx n r e s.xtr.fetched).1 (trigCtx n r e s.xtr.fetched).2)
    refine ⟨_, _, rfl, hstate, hregs, hindex, congrArg Ctx.num hasks, congrArg Ctx.order hasks, congrArg Ctx.cls hasks,
      congrArg Ctx.ring hasks, congrArg Ctx.wstart hasks, congrArg Ctx.ports hasks, congrArg Ctx.tag hasks, congrArg Ctx.carve hasks,
      congrArg Ctx.level hasks, congrArg Ctx.comp hasks, congrArg Ctx.aux hasks, congrArg Ctx.nowait hasks, fun hbad => ?_,
      fun id hid hnamed hlen hmax hports hcv hcp hcomp hopt hzero => ?_⟩
    · rw [entered_of_breaksRules (trigCtx_breaksRules hbad)]
      exact ⟨rfl, rfl⟩
    · have hlen' : leNat (slice e 8 4) % 2 ^ 21 = leNat (slice e 8 4) := Nat.mod_eq_of_lt (by omega)
      rw [entered_of_named_run hid hnamed (trigCtx_keepsRules hlen hmax hports hcv hcp hcomp hopt hzero)]
      refine ⟨fun hknown => ?_, fun hunknown => ?_⟩
      · rw [if_pos hknown]
        exact ⟨rfl, rfl, rfl, hlen'⟩
      · rw [if_neg (by simp [hunknown])]
        exact ⟨rfl, rfl⟩
  · rw [exec_ringTrigReceive_of_heard hhears hkind, ringTrig_of_disabled hen]
  · obtain ⟨detail, hrefused⟩ := ringTrig_of_refused (num := num) hen hfull
    refine ⟨s.ringTrig num pl, exec_ringTrigReceive_of_heard hhears hkind num, ?_⟩
    rw [hrefused]
    obtain ⟨hcount, hlen, hsrc, hclass, hstart⟩ := recordRefused_values s (s.trigStart pl) (beNat (slice pl 8 3)) (byteAt pl 1)
    refine ⟨onlyEvent_of_raise (recordRefused_onlyRegs s _ _ _) 516 detail, (raise_zget (by decide) (by decide)).trans hcount,
      (raise_zget (by decide) (by decide)).trans hlen, (raise_zget (by decide) (by decide)).trans hsrc,
      (raise_zget (by decide) (by decide)).trans hclass, ?_, raise_pend _ 516 detail (by decide) (by decide)⟩
    rw [raise_zget (by decide) (by decide), hstart, Nat.mod_mod_of_dvd _ (Nat.pow_dvd_pow 2 (by decide : 48 ≤ 64))]
    exact restore48_mod ..
  · rw [exec_ringTrigReceive_of_heard hhears hkind, ringTrig_of_taken hen hctrl hmay hfree hgates]
    have hasks := entered_eq s (s.ringCtx num pl) (bitAt (byteAt pl 1) 7)
    refine ⟨_, rfl, congrArg Ctx.num hasks, congrArg Ctx.order hasks, congrArg Ctx.cls hasks, congrArg Ctx.ring hasks, congrArg Ctx.tag hasks,
      congrArg Ctx.len hasks, congrArg Ctx.ports hasks, congrArg Ctx.nowait hasks, ?_, ?_, congrArg Ctx.carve hasks, fun hbad => ?_,
      fun hrun hports hgood hcomp => ?_⟩
    · rw [show Ctx.wstart _ = _ from congrArg Ctx.wstart hasks]
      exact restore48_mod ..
    · rw [show Ctx.wstart _ = _ from congrArg Ctx.wstart hasks]
      exact le_restore48 ..
    · rw [entered_of_breaksRules (.inl hbad)]
      rfl
    · have hcomp' : (s.ringCtx num pl).comp = true := (congrArg Ctx.comp hasks).symm.trans hcomp
      rw [entered_of_keepsRules (ringCtx_keepsRules hports hgood hcomp'), askedRun_of_ring hrun]
      rfl
  · rintro n c hone hnum hphase hst hsecs hlen
    simp only [exec_contextLookup, ← hnum]
    refine ⟨fun hon hahead hwait hnear => ?_, fun hon hahead hfar => ?_, fun hmerged => ?_⟩
    · rw [lookup_of_ahead hone hphase hon hahead, if_pos ⟨by simp [hwait], hnear⟩]
    · rw [lookup_of_ahead hone hphase hon hahead, if_neg]
      rintro ⟨hwait, hnear⟩
      rcases hfar with h | h
      · exact hwait h
      · omega
    · rw [lookup_of_merged hone hphase hmerged, toRead_of_oneCtx hone hst hsecs hlen]
      refine ⟨_, rfl, fun f => ?_⟩
      rw [List.mem_filter, mem_frames, FramePlace.stored_iff, and_assoc]

end Sys2Proof.Machine
end

section
/-!
PROOFS. Reads and carving (R211 to R217, R225, R282): the read of a frame of a buffer without damage, the section that the next frame gives,
and the way of a section through a carving engine.
-/

namespace Sys2Proof.Machine

/-! ### Reads of a buffer without damage (R183, R213) -/

/-- A line's place follows from the buffer alone. -/
theorem stepLines_updXtr (s : State) (f : Extract → Extract) (b l k : Nat) : (s.updXtr f).stepLines b l k = s.stepLines b l k := by
  induction k generalizing b l with
  | zero => rfl
  | succ k ih =>
    simp only [State.stepLines, ih]
    rfl

/-- What a line holds follows from the buffer and the registers. -/
theorem readLine_fst_updXtr (s : State) (f : Extract → Extract) (ch l : Nat) : ((s.updXtr f).readLine ch l).1 = (s.readLine ch l).1 := by
  have hread : (s.updXtr f).zwrap (ZS.RBYTES.BYTES.stack (ch / 4)) 64 = (s.zwrap (ZS.RBYTES.BYTES.stack (ch / 4)) 64).updXtr f := rfl
  have hdamage (u : State) (page i : Nat) : (u.updXtr f).lineDamage ch page i = u.lineDamage ch page i := rfl
  have hpage (u : State) (page : Nat) : (u.updXtr f).pageDamage ch page = u.pageDamage ch page := rfl
  unfold State.readLine
  dsimp only
  rw [hread, hdamage, hpage]
  split
  · rfl
  · generalize decodePage _ = r
    cases r with
    | some cs => rfl
    | none => rfl

theorem readEvent_fst_updXtr (s : State) (f : Extract → Extract) (a : Nat) : ((s.updXtr f).readEvent a).1 = (s.readEvent a).1 := by
  have hbuf : (s.updXtr f).buf = s.buf := rfl
  unfold State.readEvent
  rw [hbuf]
  cases s.buf.wbuf.find? fun w => w.addr == a with
  | some w => rfl
  | none => exact readLine_fst_updXtr ..

theorem frameAt_updXtr (s : State) (f : Extract → Extract) (x : Nat × Nat) (n : Nat) : (s.updXtr f).frameAt x n = s.frameAt x n := by
  induction n generalizing x with
  | zero => rfl
  | succ n ih => simp only [State.frameAt, readEvent_fst_updXtr, stepLines_updXtr, ih]

/-- Where a frame stands follows from the run, the directory and the buffer. -/
theorem framePlace_updXtr (s : State) (f : Extract → Extract) (id m : Nat) : (s.updXtr f).framePlace id m = s.framePlace id m := by
  have hlast : (s.updXtr f).lastFrame id = s.lastFrame id := rfl
  have hpinned : (s.updXtr f).findPinned id m = s.findPinned id m := rfl
  have hfound : (s.updXtr f).findFrame id m = s.findFrame id m := rfl
  simp only [State.framePlace, hlast, hpinned, hfound, frameAt_updXtr]

section
variable {s : State} (hsound : s.buf.dmg = [])
include hsound

/-- A read damages nothing. -/
theorem readEvent_sound (a : Nat) : (s.readEvent a).2.buf.dmg = [] := by
  unfold State.readEvent
  split
  · exact hsound
  · rw [readLine_of_sound hsound]
    exact hsound

theorem readEvent_updXtr (f : Extract → Extract) (a : Nat) :
    (s.updXtr f).readEvent a = ((s.readEvent a).1, (s.readEvent a).2.updXtr f) := by
  have hline (ch l : Nat) : (s.updXtr f).readLine ch l = ((s.readLine ch l).1, (s.readLine ch l).2.updXtr f) := by
    rw [readLine_of_sound hsound, readLine_of_sound (s := s.updXtr f) hsound]
    rfl
  have hbuf : (s.updXtr f).buf = s.buf := rfl
  unfold State.readEvent
  rw [hbuf]
  cases s.buf.wbuf.find? fun w => w.addr == a with
  | some w => rfl
  | none => exact hline _ _

theorem readRun_sound (x : Nat × Nat) (n : Nat) : (s.readRun x n).2.buf.dmg = [] := by
  induction n generalizing s x with
  | zero => exact hsound
  | succ n ih => exact ih (readEvent_sound hsound (lineAddr x)) _

theorem readRun_updXtr (f : Extract → Extract) (x : Nat × Nat) (n : Nat) :
    (s.updXtr f).readRun x n = ((s.readRun x n).1, (s.readRun x n).2.updXtr f) := by
  induction n generalizing s x with
  | zero => rfl
  | succ n ih =>
    unfold State.readRun
    simp only [readEvent_updXtr hsound, stepLines_updXtr, ih (readEvent_sound hsound (lineAddr x))]

/-- The segment of port `p` is read behind those in `a`, where the header `hdr` at `x` has it. -/
def readSegment (hdr : List Byte) (x : Nat × Nat) (a : List (Nat × List Byte × Bool) × State) (p : Nat) :
    List (Nat × List Byte × Bool) × State :=
  let q := a.2.readRun (a.2.stepLines x.1 x.2 (2 + leNat (slice hdr (64 + 4 * p) 2))) (leNat (slice hdr (66 + 4 * p) 2))
  (a.1 ++ [(p, q.1)], q.2)

omit hsound in
theorem readFrame_eq (x : Nat × Nat) (ports : Nat) : s.readFrame x ports =
    let hd := s.readRun x 2
    let r := ((List.range 16).filter fun p => bitAt (leNat (slice hd.1.1 20 2) &&& ports) p).foldl (readSegment hd.1.1 x) ([], hd.2)
    ((hd.1, r.1), r.2.zwrap Z.XTR_RBYTES.BYTES (64 * (2 + r.1.foldl (fun a y => a + y.2.1.length / 64) 0))) := rfl

theorem readSegments_updXtr (f : Extract → Extract) (hdr : List Byte) (x : Nat × Nat) (ps : List Nat) (a : List (Nat × List Byte × Bool)) :
    ps.foldl (readSegment hdr x) (a, s.updXtr f) =
      ((ps.foldl (readSegment hdr x) (a, s)).1, (ps.foldl (readSegment hdr x) (a, s)).2.updXtr f) := by
  induction ps generalizing s a with
  | nil => rfl
  | cons p ps ih =>
    simp only [List.foldl_cons, readSegment, stepLines_updXtr, readRun_updXtr hsound]
    exact ih (readRun_sound hsound ..) _

/-- The extraction path has no part in what is read. -/
theorem readFrame_updXtr (f : Extract → Extract) (x : Nat × Nat) (ports : Nat) :
    (s.updXtr f).readFrame x ports = ((s.readFrame x ports).1, (s.readFrame x ports).2.updXtr f) := by
  simp only [readFrame_eq, readRun_updXtr hsound, readSegments_updXtr (readRun_sound hsound x 2)]
  rfl

end

/-! ### What reads leave of the extraction path -/

@[simp] theorem ite_xtr (p : Prop) [Decidable p] (s t : State) : (if p then s else t).xtr = if p then s.xtr else t.xtr := apply_ite ..

@[simp] theorem raiseStack_xtr (s : State) (n j : Nat) (d : List Byte) : (s.raiseStack n j d).xtr = s.xtr := raiseSev_xtr ..

@[simp] theorem stackLoss_xtr (s : State) (n cause rank : Nat) : (s.stackLoss n cause rank).xtr = s.xtr := by
  cases hin : s.inService n with
  | false => simp [State.stackLoss, hin]
  | true =>
    obtain ⟨t, ht, h⟩ := stackLoss_cases hin cause rank
    rw [h, raiseStack_xtr]
    rcases ht with rfl | rfl
    · rfl
    · simp [State.closeRun, State.outOfService, State.scrubPause, State.updStack, State.zbit]

@[simp] theorem retireRank_xtr (s : State) (n r cause : Nat) : (s.retireRank n r cause).xtr = s.xtr := by
  simp [State.retireRank, State.updStack, State.scrubPause]

@[simp] theorem freeze_xtr (s : State) (n k cause l : Nat) (ds : List (Nat × Nat × BitVec 9)) : (s.freeze n k cause l ds).xtr = s.xtr := by
  simp [State.freeze, State.updStack, State.zbit]

@[simp] theorem uncorrectable_xtr (s : State) (ch l finder : Nat) (ds : List (Nat × Nat × BitVec 9)) :
    (s.uncorrectable ch l finder ds).xtr = s.xtr := by
  simp [State.uncorrectable, State.setPoison, State.setPageBits]

@[simp] theorem countCorrection_xtr (s : State) (ch l e : Nat) : (s.countCorrection ch l e).xtr = s.xtr := by
  unfold State.countCorrection
  split
  · rfl
  · rfl

theorem readLine_xtr (s : State) (ch l : Nat) : (s.readLine ch l).2.xtr = s.xtr := by
  unfold State.readLine
  dsimp only
  split
  · rfl
  · split
    · exact foldl_keeps (·.xtr) _ _ _ fun s a _ => countCorrection_xtr ..
    · exact uncorrectable_xtr ..

theorem readRun_xtr (s : State) (x : Nat × Nat) (n : Nat) : (s.readRun x n).2.xtr = s.xtr := by
  induction n generalizing s x with
  | zero => rfl
  | succ n ih =>
    refine (ih _ _).trans ?_
    unfold State.readEvent
    split
    · rfl
    · exact readLine_xtr ..

theorem readFrame_xtr (s : State) (x : Nat × Nat) (ports : Nat) : (s.readFrame x ports).2.xtr = s.xtr := by
  have hsegs (hdr : List Byte) (ps : List Nat) (a : List (Nat × List Byte × Bool) × State) : (ps.foldl (readSegment hdr x) a).2.xtr = a.2.xtr := by
    induction ps generalizing a with
    | nil => rfl
    | cons p ps ih => exact (ih _).trans (readRun_xtr ..)
  exact (hsegs _ _ _).trans (readRun_xtr s x 2)

/-! ### The next read (R219, R225) -/

/-- One request that waits is the next one. -/
theorem pickNext_single {cls : Nat} (hcls : cls < 4) (now turn since : Nat) : pickNext now turn [(cls, since)] = some (0, false) := by
  have hlow : min 4 cls = cls := Nat.min_eq_right (Nat.le_of_lt hcls)
  by_cases h3 : cls = 3
  · simp [pickNext, h3]
  · simp [pickNext, h3, hlow]

theorem frames_find_needs {c : Ctx} (hread : c.phase = .read) (hsecs : c.secs = []) (hfirst : c.first ≤ c.next) (hlast : c.next ≤ c.last) :
    c.frames.find? (fun f => c.needs f) = some c.next := by
  have hneeds (f : Nat) : c.needs f = decide (c.next ≤ f ∧ f ≤ c.last) := by simp [Ctx.needs, hread, hsecs]
  have hrange : (List.range (c.last + 1 - c.first)).find? (fun k => c.needs (k + c.first)) = some (c.next - c.first) := by
    rw [List.find?_range_eq_some]
    simp only [hneeds, List.mem_range, Bool.not_eq_true', decide_eq_false_iff_not, decide_eq_true_eq]
    refine ⟨by omega, by omega, fun j hj => by omega⟩
  rw [Ctx.frames, List.find?_map, show ((fun f => c.needs f) ∘ fun k => k + c.first) = fun k => c.needs (k + c.first) from rfl, hrange,
    Option.map_some, Nat.sub_add_cancel hfirst]

/-- The state once the turn of the reads has passed to context `c`. -/
def State.turned (s : State) (c : Ctx) : State :=
  s.updXtr fun x => { x with readTurn := nextTurn s.time x.readTurn c.cls [(c.cls, c.since)] }

/-- A frame that was live at the look-up and has expired since is counted. -/
def State.missed (s : State) (live : Bool) : State := if live then s.zbump Z.BUF_DIRCNT.GENMISS 1 else s

theorem missed_regsBut (s : State) (live : Bool) : regsBut [Z.BUF_DIRCNT.GENMISS] s (s.missed live) := by
  cases live with
  | false => exact fun _ _ => rfl
  | true => exact .zbump (fun _ _ => rfl) (List.mem_singleton.mpr rfl) 1

theorem missed_xtr (s : State) (live : Bool) : (s.missed live).xtr = s.xtr := by
  simp [State.missed]

theorem turned_missed_setCtx (s : State) (c d : Ctx) (live : Bool) : ((s.turned c).missed live).setCtx d =
    (s.updXtr fun _ => (((s.turned c).missed live).setCtx d).xtr).updZreg fun _ => (((s.turned c).missed live).setCtx d).zreg := by
  cases live with
  | false => rfl
  | true => rfl

/-- The state once the next frame of context `c`, which stands at `p`, has been read. -/
def State.readAt (s : State) (c : Ctx) : FramePlace → State
  | .beyond => s
  | .expired => s.missed (c.live.contains c.next)
  | .at_ x _ => (s.readFrame x c.ports).2

/-- The section that this frame gives. -/
def State.sectionAt (s : State) (c : Ctx) : FramePlace → Section
  | .beyond => emptySection c.next sfBeyond false
  | .expired => emptySection c.next sfExpired false
  | .at_ x pinned => c.sectionOf c.next (s.readFrame x c.ports).1.1 (s.readFrame x c.ports).1.2 pinned

theorem readAt_xtr (s : State) (c : Ctx) (p : FramePlace) : (s.readAt c p).xtr = s.xtr := by
  cases p with
  | beyond => rfl
  | expired => exact missed_xtr ..
  | at_ x pinned => exact readFrame_xtr s x c.ports

theorem sectionAt_frame (s : State) (c : Ctx) (p : FramePlace) : (s.sectionAt c p).frame = c.next := by
  cases p with
  | beyond => rfl
  | expired => rfl
  | at_ x pinned => rfl

/-- Without damage the same section, whatever the extraction path holds. -/
theorem sectionAt_updXtr {s : State} (hsound : s.buf.dmg = []) (f : Extract → Extract) (c : Ctx) (p : FramePlace) :
    (s.updXtr f).sectionAt c p = s.sectionAt c p := by
  cases p with
  | beyond => rfl
  | expired => rfl
  | at_ x pinned => simp only [State.sectionAt, readFrame_updXtr hsound]

section
variable {s : State} {c : Ctx} (hone : s.oneCtx c)
include hone

theorem segmentRead_of_no_reader (hphase : c.phase ≠ .read) : s.segmentRead = s := by
  have hreaders : s.readers = [] := by
    rw [State.readers, show s.xtr.ctxs = [c] from hone]
    simp [hphase]
  simp [State.segmentRead, hreaders, pickNext]

/-- The one context that reads is served. -/
theorem segmentRead_of_reader (hcls : c.cls < 4) (hread : c.phase = .read) (hsecs : c.secs = []) (hfirst : c.first ≤ c.next)
    (hlast : c.next ≤ c.last) : s.segmentRead =
      ((s.turned c).readAt c (s.framePlace c.runId c.next)).giveSection c.num ((s.turned c).sectionAt c (s.framePlace c.runId c.next)) := by
  have hreaders : s.readers = [c] := by
    rw [State.readers, show s.xtr.ctxs = [c] from hone]
    simp [hread]
  have hneeds : c.needs c.next = true := by simp [Ctx.needs, hread, hsecs, hlast]
  unfold State.segmentRead
  simp only [hreaders, List.map_singleton, pickNext_single hcls, List.getElem?_cons_zero, frames_find_needs hread hsecs hfirst hlast,
    beq_self_eq_true, Bool.true_and, List.filter_singleton, hneeds, cond_true, framePlace_updXtr]
  cases s.framePlace c.runId c.next with
  | beyond => rfl
  | expired =>
    simp only [List.any_cons, List.any_nil, Bool.or_false]
    rfl
  | at_ x pinned =>
    simp only [List.foldl_cons, List.foldl_nil, Nat.zero_or]
    rfl

end

/-! ### The section that a frame gives (R214 to R216) -/

/-- Context `c` once section `x` has entered its stream. -/
def Ctx.took (c : Ctx) (x : Section) : Ctx :=
  { c.append x with secs := [], next := c.next + 1, complete := decide (c.last < c.next + 1) }

theorem giveSection_of_oneCtx {s : State} {c : Ctx} (hone : s.oneCtx c) (hsecs : c.secs = []) {x : Section} (hframe : x.frame = c.next)
    (hdone : x.stage = .done) : s.giveSection c.num x = s.setCtx (c.took x).place := by
  have hassemble : ({ c with secs := [x] } : Ctx).assemble 2 = c.took x := if_pos ⟨hframe, hdone⟩
  have hgive : s.giveSection c.num x = s.setCtx ({ c with secs := putSection x c.secs } : Ctx).settled := settleCtx_updCtx hone _ rfl
  rw [hgive, hsecs]
  exact congrArg (fun d : Ctx => s.setCtx d.place) hassemble

section
variable {c : Ctx} (x : Section)

/-- What the entry of a section moves on. -/
theorem took_place (hlast : c.next ≤ c.last) : (c.took x).place.next = c.next + 1 ∧ (c.took x).place.nsect = c.nsect + 1 ∧
    (c.took x).place.secs = [] ∧ (c.took x).place.complete = decide (c.next = c.last) := by
  have hplace := place_eq (c.took x)
  refine ⟨congrArg Ctx.next hplace, congrArg Ctx.nsect hplace, congrArg Ctx.secs hplace, (congrArg Ctx.complete hplace).trans ?_⟩
  exact decide_eq_decide.mpr (by omega)

theorem took_reads_on (hread : c.phase = .read) (hst : c.status = none) (hmore : c.next < c.last) : (c.took x).place.phase = .read := by
  have hunread : (c.took x).next + (c.took x).secs.length ≠ (c.took x).last + 1 := by
    show c.next + 1 + 0 ≠ c.last + 1
    omega
  rw [place_of_unread (c := c.took x) hst hread hunread]
  exact hread

/-- What the entry of a section counts and writes. -/
theorem took_place_content : (c.took x).place.nexp = c.nexp + b2n (bitAt x.flags 0) ∧
    (c.took x).place.nbey = c.nbey + b2n (bitAt x.flags 1) ∧ (c.took x).place.ready = c.ready ++ x.bytes c.qmark := by
  have hplace := place_eq (c.took x)
  exact ⟨congrArg Ctx.nexp hplace, congrArg Ctx.nbey hplace, congrArg Ctx.ready hplace⟩

end

/-- A section without content is 16 bytes long. -/
theorem emptySection_bytes (f : Nat) {flags : Nat} (hflags : flags < 1024) (pinned q : Bool) : (emptySection f flags pinned).bytes q =
    leBytes f 5 ++ [0] ++ leBytes (flags + if q then 1024 else 0) 2 ++ List.replicate 8 0 := by
  have hor : (flags ||| if q then 1024 else 0) = flags + if q then 1024 else 0 := by
    cases q with
    | false => exact Nat.or_zero _
    | true => exact (Nat.or_comm ..).trans ((Nat.two_pow_add_eq_or_of_lt (i := 10) hflags 1).symm.trans (Nat.add_comm ..))
  show leBytes f 5 ++ [0] ++ leBytes (flags ||| if q then 1024 else 0) 2 ++ leBytes 0 2 ++ leBytes 0 2 ++ leBytes 0 2 ++ leBytes 0 2 ++ [] = _
  simp only [hor, List.append_assoc]
  rfl

/-- What the entry of a section without content counts and writes. -/
theorem took_place_empty (c : Ctx) {flags : Nat} (hflags : flags < 1024) (pinned : Bool) :
    (c.took (emptySection c.next flags pinned)).place.nexp = c.nexp + b2n (bitAt flags 0) ∧
    (c.took (emptySection c.next flags pinned)).place.nbey = c.nbey + b2n (bitAt flags 1) ∧
    (c.took (emptySection c.next flags pinned)).place.ready =
      c.ready ++ leBytes c.next 5 ++ [0] ++ leBytes (flags + if c.qmark then 1024 else 0) 2 ++ List.replicate 8 0 := by
  obtain ⟨hexp, hbey, hready⟩ := took_place_content (c := c) (emptySection c.next flags pinned)
  refine ⟨hexp, hbey, hready.trans ?_⟩
  rw [emptySection_bytes _ hflags]
  simp only [List.append_assoc]

/-- A section that is read is neither EXPIRED nor BEYOND_END. -/
theorem sectionOf_flags (c : Ctx) (f : Nat) (hdr : List Byte × Bool) (segs : List (Nat × List Byte × Bool)) (pinned : Bool) :
    bitAt (c.sectionOf f hdr segs pinned).flags 0 = false ∧ bitAt (c.sectionOf f hdr segs pinned).flags 1 = false := by
  have hfour : (c.sectionOf f hdr segs pinned).flags % 4 = 0 := by
    unfold Ctx.sectionOf sfPoison
    dsimp only
    omega
  simp only [bitAt, beq_eq_false_iff_ne]
  omega

/-- Without a carving program no section waits. -/
theorem sectionAt_stage (s : State) {c : Ctx} (hcarve : c.carve = 0) (p : FramePlace) : (s.sectionAt c p).stage = .done := by
  cases p with
  | beyond => rfl
  | expired => rfl
  | at_ x pinned => exact if_neg fun h => h.1 hcarve

/-- The one context that reads takes the section of its next frame. -/
theorem segmentRead_takes {s : State} {c : Ctx} (hone : s.oneCtx c) (hcls : c.cls < 4) (hread : c.phase = .read) (hsecs : c.secs = [])
    (hfirst : c.first ≤ c.next) (hlast : c.next ≤ c.last) (hcarve : c.carve = 0) : s.segmentRead =
      ((s.turned c).readAt c (s.framePlace c.runId c.next)).setCtx
        (c.took ((s.turned c).sectionAt c (s.framePlace c.runId c.next))).place := by
  have hone' : ((s.turned c).readAt c (s.framePlace c.runId c.next)).oneCtx c := (congrArg Extract.ctxs (readAt_xtr ..)).trans hone
  rw [segmentRead_of_reader hone hcls hread hsecs hfirst hlast,
    giveSection_of_oneCtx hone' hsecs (sectionAt_frame ..) (sectionAt_stage _ hcarve _)]

/-! ### Carving (R217, R282) -/

theorem exec_segmentRead (s : State) : exec .segmentRead s = .next s.segmentRead := rfl
theorem exec_carveDispatch (n : Fin 65536) (f : Fin 1099511627776) (s : State) : exec (.carveDispatch n f) s = .next (s.carveDispatch n f) := rfl
theorem exec_carveSectionDone (e : Eng) (s : State) : exec (.carveSectionDone e) s = .next (s.carveDone e) := rfl

/-- Engine `e` has been chosen for program `p`. -/
def State.chose (s : State) (p e : Nat) : State := s.updXtr fun y => { y with chosen := Tab.set 0 y.chosen p (e + 1) }

theorem nextEngine_nil (last : Option Nat) : nextEngine [] last = none := by
  cases last with
  | none => rfl
  | some l => rfl

theorem nextEngine_single (e : Nat) (last : Option Nat) : nextEngine [e] last = some e := by
  cases last with
  | none => rfl
  | some l =>
    show ([e].find? fun e => decide (l < e)).or [e].head? = some e
    rw [List.find?_singleton]
    split
    · rfl
    · rfl

theorem carveOut_single (a b u v : Nat) {recs : List Nat} (hrecs : ∀ w ∈ recs, bitAt w 17 = false) (n : Nat) :
    carveOut ([a, b, u, v] ++ recs) (n + 1) = [(a % 256, recs.map (· % 65536))] := by
  have hall : recs.takeWhile (fun w => !bitAt w 17) = recs := by
    rw [List.takeWhile_eq_self_iff]
    intro w hw
    rw [hrecs w hw]
    rfl
  have hnone : carveOut [] n = [] := by
    cases n with
    | zero => rfl
    | succ n => rfl
  show (a % 256, (recs.takeWhile fun w => !bitAt w 17).map (· % 65536)) :: carveOut (recs.drop (recs.takeWhile fun w => !bitAt w 17).length) n = _
  rw [hall, List.drop_length, hnone]

/-- The one sub-section of a section takes the records of the engine's output. -/
theorem carved_single {x : Section} {y : SubSec} {out : List (Nat × List Nat)} {hws : List Nat} (hsubs : x.subs = [y]) (hgood : y.poison = false)
    (hout : out = [(y.port, hws)]) : x.carved out = { x with stage := .done, subs := [{ y with carved := true, hws := hws }] } := by
  simp [Section.carved, hsubs, hgood, hout]

section
variable {s : State} {c : Ctx} {x : Section} (hone : s.oneCtx c) (hsecs : c.secs = [x])
include hone hsecs

/-- A section that waits for its turn changes, and nothing enters the stream. -/
theorem updSection_of_later (hread : c.phase = .read) (hst : c.status = none) (hlater : c.next < x.frame) (hmore : c.next < c.last)
    (g : Section → Section) (hframe : (g x).frame = x.frame) : s.updSection c.num x.frame g = s.setCtx { c with secs := [g x] } := by
  have hmap : c.secs.map (fun y : Section => if y.frame = x.frame then g y else y) = [g x] := by
    rw [hsecs, List.map_singleton, if_pos rfl]
  have hwaits : (g x).frame ≠ ({ c with secs := [g x] } : Ctx).next := by
    rw [hframe]
    exact Nat.ne_of_gt hlater
  have hunread : ({ c with secs := [g x] } : Ctx).next + ({ c with secs := [g x] } : Ctx).secs.length ≠ c.last + 1 := by
    show c.next + 1 ≠ c.last + 1
    omega
  have hchanged : s.updSection c.num x.frame g = s.setCtx ({ c with secs := [g x] } : Ctx).settled := by
    rw [← hmap]
    exact settleCtx_updCtx hone _ rfl
  rw [hchanged, settled_of_later (c := { c with secs := [g x] }) rfl hwaits, place_of_unread (c := { c with secs := [g x] }) hst hread hunread]

/-- A section to be carved passes, waits, or goes to the engine that the program's order names. -/
theorem carveDispatch_of_oneCtx (hcarve : x.stage = .carve) : s.carveDispatch c.num x.frame =
    if s.carvers c.carve = [] then s.updSection c.num x.frame Section.skip
    else (nextEngine (s.idleCarvers c.carve) (if Tab.get 0 s.xtr.chosen c.carve = 0 then none else some (Tab.get 0 s.xtr.chosen c.carve - 1))).elim s
      fun e => ((s.chose c.carve e).updSection c.num x.frame fun y =>
        { y with stage := .engine e }).engDeliver e (carveMsg c.num x) := by
  have hfind : c.secs.find? (fun y => y.frame == x.frame && y.stage == .carve) = some x := by
    rw [hsecs, List.find?_singleton, if_pos (by simp [hcarve])]
  unfold State.carveDispatch
  simp only [ctx?_of_oneCtx hone, hfind]
  split
  · rfl
  · generalize nextEngine _ _ = next
    cases next with
    | none => rfl
    | some e => rfl

end

theorem engDeliver_of_idle {s : State} {e : Nat} (hidle : (s.eng e).cur = none) (m : EngMsg) : s.engDeliver e m =
    ((s.zwrap (ZC.FEED.HALFWORDS.gcl (e / 24)) m.items.length).updEng e fun x => x.open_ m).zput (ZE.STAT.MSG_OPEN.geng e) 1 :=
  if_pos (by rw [show ((s.zwrap _ _).eng e).cur = none from hidle]; rfl)

theorem carveDone_of_ended {s : State} {e : Nat} {m : EngMsg} {j : Job} (hcur : (s.eng e).cur = some m) (hjob : m.job = some j)
    (hended : (s.eng e).ended = true) : s.carveDone e =
      (s.updSection j.ctx j.frame fun y => y.carved (carveOut (s.eng e).out (s.eng e).out.length)).updEng e fun x =>
        { x with cur := some { m with job := none } } := by
  simp [State.carveDone, hcur, hjob, hended]

theorem carveDone_of_running {s : State} {e : Nat} (hended : (s.eng e).ended = false) : s.carveDone e = s := by
  unfold State.carveDone
  dsimp only
  rw [hended]
  split
  · split
    · rfl
    · rfl
  · rfl

/-- Settles O31: the read of the next frame is `segmentRead_of_reader` with the section that enters by `giveSection_of_oneCtx`; a section to
be carved is `carveDispatch_of_oneCtx`, and its return `carveDone_of_ended`. -/
theorem extractionReads : Obligations.ExtractionReads := by
  unfold Obligations.ExtractionReads
  intro s c hone hcls
  refine ⟨fun hphase => ?_, fun hread hst hsecs hfirst hlast _ hcarve => ?_, ?_⟩
  · rw [exec_segmentRead, segmentRead_of_no_reader hone hphase]
  · obtain ⟨hnext, hnsect, hnone, hcomplete⟩ := took_place ((s.turned c).sectionAt c (s.framePlace c.runId c.next)) hlast
    rw [exec_segmentRead, segmentRead_takes hone hcls hread hsecs hfirst hlast hcarve]
    refine ⟨_, _, rfl, rfl, hnext, hnsect, hnone, hcomplete, took_reads_on _ hread hst, fun hplace => ?_, fun hplace => ?_,
      fun x pinned hsound hplace => ?_⟩
    · obtain ⟨hexp, hbey, hready⟩ := took_place_empty c (show sfBeyond < 1024 by decide) false
      rw [hplace]
      exact ⟨rfl, hbey.trans rfl, hexp.trans rfl, hready⟩
    · obtain ⟨hexp, hbey, hready⟩ := took_place_empty c (show sfExpired < 1024 by decide) false
      rw [hplace]
      exact ⟨turned_missed_setCtx .., missed_regsBut (s.turned c) _, hexp.trans rfl, hbey.trans rfl, hready⟩
    · obtain ⟨hexp, hbey, hready⟩ := took_place_content (c := c) ((s.turned c).sectionAt c (.at_ x pinned))
      have hsection : (s.turned c).sectionAt c (.at_ x pinned) = s.sectionAt c (.at_ x pinned) := sectionAt_updXtr hsound ..
      obtain ⟨hplain, hinside⟩ := sectionOf_flags c c.next (s.readFrame x c.ports).1.1 (s.readFrame x c.ports).1.2 pinned
      rw [hplace]
      rw [hsection] at hexp hbey hready ⊢
      exact ⟨hexp.trans (congrArg (c.nexp + b2n ·) hplain), hbey.trans (congrArg (c.nbey + b2n ·) hinside),
        congrArg Kept.mem (readFrame_kept ..), hready⟩
  · intro n f x hnum hread hst hsecs hframe hlater hmore
    simp only [exec_carveDispatch, exec_carveSectionDone, ← hnum, ← hframe] at hlater ⊢
    have hsection := updSection_of_later hone hsecs hread hst hlater hmore
    refine ⟨fun hcarve hnone => ?_, fun hcarve hsome hbusy => ?_, fun e hcarve hidle hcur => ?_,
      fun e m y a b u v recs hstage hcur hjob hsubs hgood hport hout hrecs => ⟨fun hended => ?_, fun hended => ?_⟩⟩
    · rw [carveDispatch_of_oneCtx hone hsecs hcarve, if_pos hnone, hsection Section.skip rfl]
      rfl
    · rw [carveDispatch_of_oneCtx hone hsecs hcarve, if_neg hsome, hbusy, nextEngine_nil]
      rfl
    · have hsome : s.carvers c.carve ≠ [] := fun h => by simp [State.idleCarvers, h] at hidle
      rw [carveDispatch_of_oneCtx hone hsecs hcarve, if_neg hsome, hidle, nextEngine_single, Option.elim_some,
        updSection_of_later (s := s.chose c.carve e) hone hsecs hread hst hlater hmore _ rfl,
        engDeliver_of_idle (s := (s.chose c.carve e).setCtx _) hcur]
      rfl
    · have hlen : ([a, b, u, v] ++ recs).length = (recs.length + 3) + 1 := by simp
      rw [carveDone_of_ended hcur hjob hended, hout, hlen, carveOut_single a b u v hrecs, hsection _ rfl,
        carved_single hsubs hgood (by rw [hport])]
    · rw [carveDone_of_running hended]

end Sys2Proof.Machine
end

section
/-!
PROOFS. Compression (R218, R254, R256 to R258, R262): the grant of a stream, the end of a block, the three ways in which a block is written,
and flushes.
-/

namespace Sys2Proof.Machine

theorem exec_compressionStreamGrant (k : Fin 8) (s : State) : exec (.compressionStreamGrant k) s = .next (s.zgrant k) := rfl
theorem exec_compressBlock (k : Fin 8) (coded : List Bool) (s : State) : exec (.compressBlock k coded) s = .next (s.compressBlock k coded) := rfl
theorem exec_idleFlush (k : Fin 8) (coded : List Bool) (s : State) : exec (.idleFlush k coded) s = .next (s.idleFlush k coded) := rfl

/-! ### The grant (R218, R267) -/

section
variable {s : State} {c : Ctx} (hone : s.oneCtx c)
include hone

theorem zctx_of_held {k : Nat} (hzs : c.zs = some k) : s.zctx k = some c := by
  rw [State.zctx, show s.xtr.ctxs = [c] from hone, List.find?_singleton, if_pos (by simp [hzs])]

theorem zctx_of_free (hzs : c.zs = none) (k : Nat) : s.zctx k = none := by
  rw [State.zctx, show s.xtr.ctxs = [c] from hone, List.find?_singleton, if_neg (by simp [hzs])]

theorem zgrant_of_wanting (hwants : c.wantsStream = true) (hcls : c.cls < 4) (k : Nat) : s.zgrant k = s.setCtx { c with
    zs := some k, zsect := s.zget Z.COMP_CFG.SECT_FLUSH == 1, zcheck := s.zget Z.COMP_CFG.CHECK_EN == 1,
    zidle := s.zget Z.COMP_CFG.IDLE_US } := by
  have hfree : c.zs = none := by
    simp only [Ctx.wantsStream, Bool.and_eq_true, Option.isNone_iff_eq_none] at hwants
    exact hwants.1.1.1.1.2
  have hwaiting : s.xtr.ctxs.filter Ctx.wantsStream = [c] := by
    rw [show s.xtr.ctxs = [c] from hone, List.filter_singleton, hwants, cond_true]
  have hlow : min 4 c.cls = c.cls := Nat.min_eq_right (Nat.le_of_lt hcls)
  simp only [State.zgrant, zctx_of_free hone hfree, hwaiting, List.foldl_cons, List.foldl_nil, hlow, List.find?_singleton,
    beq_self_eq_true, if_true, updCtx_of_oneCtx hone]

theorem zgrant_of_content (hwants : c.wantsStream = false) (k : Nat) : s.zgrant k = s := by
  have hwaiting : s.xtr.ctxs.filter Ctx.wantsStream = [] := by
    rw [show s.xtr.ctxs = [c] from hone, List.filter_singleton, hwants, cond_false]
  unfold State.zgrant
  rw [hwaiting]
  cases s.zctx k with
  | none => rfl
  | some d => rfl

end

/-! ### The end of a block (R256, R258) -/

section
variable {c : Ctx} (hsect : c.zsect = false)
include hsect

/-- The rest of a complete stream ends it. -/
theorem blockEnd_of_complete (hcomplete : c.complete = true) (hlen : c.ready.length ≤ 65535) : c.blockEnd = some (c.ready.length, true, false) := by
  have hfits : c.ready.length ≤ if c.level = 0 then 65535 else 65536 := by
    split
    · exact hlen
    · exact Nat.le_succ_of_le hlen
  simp only [Ctx.blockEnd, hsect, Bool.false_eq_true, if_false, hcomplete, true_and, if_pos hfits]

theorem blockEnd_of_short (hcomplete : c.complete = false) (hlen : c.ready.length < 65535) : c.blockEnd = none := by
  have hshort : ¬ (if c.level = 0 then 65535 else 65536) ≤ c.ready.length := by
    split
    · exact Nat.not_le.mpr hlen
    · exact Nat.not_le.mpr (Nat.lt_succ_of_lt hlen)
  simp only [Ctx.blockEnd, hsect, hcomplete, Bool.false_eq_true, if_false, false_and, if_neg hshort]

end

/-! ### A block is written (R257, R262) -/

theorem storedBlocks_of_short (pos : Nat) (final : Bool) {bs : List Byte} (hlen : bs.length ≤ 65535) (n : Nat) :
    storedBlocks pos final bs (n + 1) = storedBits pos final bs := if_pos hlen

/-- The stored form of the rest of the stream of context `c`, as its last block. -/
def Ctx.storedRest (c : Ctx) : List Bool := storedBits c.zbits.length true c.ready

/-- Context `c` once the rest of its stream has gone into the final block `bits`; `raw`: some block of the stream is stored. -/
def Ctx.ended (c : Ctx) (bits : List Bool) (raw : Bool) : Ctx :=
  { (c.advance c.ready.length) with
    zbits := c.zbits ++ bits, raw := raw, zdone := true, zoff := c.zoff + c.ready.length, hist := (c.ready.reverse ++ c.hist).take 32768 }

section
variable {s : State} {c : Ctx} (hone : s.oneCtx c) (hlen : c.ready.length ≤ 65535) (k : Nat) {coded : List Bool}
include hone hlen

theorem zblock_of_level_zero (hlevel : c.level = 0) : s.zblock c k c.ready.length true coded =
    (s.zwrap Z.COMP_IN.BYTES c.ready.length).setCtx (c.ended c.storedRest true) := by
  unfold State.zblock
  simp only [List.take_length, storedBlocks_of_short _ _ hlen, hlevel, beq_self_eq_true, Bool.true_or, Bool.not_true, Bool.false_and,
    Bool.false_eq_true, if_false, ne_eq, not_true, and_false, or_false, if_true, Bool.or_true, Bool.or_false]
  exact updCtx_of_oneCtx (s := s.zwrap Z.COMP_IN.BYTES c.ready.length) hone _

variable (hlevel : c.level ≠ 0) (hfixed : c.level ≤ 3) (hsmall : coded.length < c.storedRest.length)
include hlevel hfixed hsmall

theorem zblock_of_decoded (hdecodes : blockDecodes coded c.hist c.ready true 1 = true) : s.zblock c k c.ready.length true coded =
    (s.zwrap Z.COMP_IN.BYTES c.ready.length).setCtx (c.ended coded c.raw) := by
  have hcoded : (c.level == 0 || decide (c.storedRest.length ≤ coded.length)) = false := by simp [hlevel, hsmall]
  unfold Ctx.storedRest at hcoded
  unfold State.zblock
  simp only [List.take_length, storedBlocks_of_short _ _ hlen, hcoded, if_pos hfixed, hdecodes, Bool.not_true, Bool.and_false,
    Bool.false_eq_true, if_false, or_false, false_and, Bool.or_false]
  exact updCtx_of_oneCtx (s := s.zwrap Z.COMP_IN.BYTES c.ready.length) hone _

/-- The self-check has failed on the block at hand: COMP_CHECK. -/
def State.checkFailed (s : State) (c : Ctx) (k : Nat) : State :=
  (s.zbump Z.COMP_CHK.MISMATCH 1).raise 542 ([b8 k] ++ leBytes c.num 2 ++ leBytes c.zoff 4)

theorem zblock_of_mismatch (hdecodes : blockDecodes coded c.hist c.ready true 1 = false) (hcheck : c.zcheck = true) :
    s.zblock c k c.ready.length true coded =
      (((s.checkFailed c k).zbump Z.COMP_BLK.STORED 1).zwrap Z.COMP_IN.BYTES c.ready.length).setCtx (c.ended c.storedRest true) := by
  have hcoded : (c.level == 0 || decide (c.storedRest.length ≤ coded.length)) = false := by simp [hlevel, hsmall]
  have hone' : (((s.checkFailed c k).zbump Z.COMP_BLK.STORED 1).zwrap Z.COMP_IN.BYTES c.ready.length).oneCtx c :=
    (congrArg Extract.ctxs (raiseSev_xtr ..)).trans hone
  unfold Ctx.storedRest at hcoded
  unfold State.zblock
  simp only [List.take_length, storedBlocks_of_short _ _ hlen, hcoded, if_pos hfixed, hdecodes, hcheck, Bool.not_false, Bool.and_true,
    if_true, or_true, hlevel, ne_eq, not_false_eq_true, and_true, Bool.or_true, if_true]
  exact updCtx_of_oneCtx hone' _

end

/-! ### COMPRESS_BLOCK and IDLE_FLUSH -/

section
variable {s : State} {c : Ctx} {k : Nat} (hone : s.oneCtx c) (hzs : c.zs = some k) (coded : List Bool)
include hone hzs

theorem compressBlock_of_end (hdone : c.zdone = false) (hend : c.blockEnd = some (0, true, false)) : s.compressBlock k coded =
    s.setCtx ({ c with zbits := c.zbits ++ endBlock, zdone := true } : Ctx).settled := by
  unfold State.compressBlock
  simp only [zctx_of_held hone hzs, hdone, Bool.false_eq_true, if_false, hend, and_self, if_true]
  exact settleCtx_updCtx hone _ rfl

theorem compressBlock_of_block (hdone : c.zdone = false) {n : Nat} (hend : c.blockEnd = some (n, true, false)) (hsome : 0 < n) {t : State}
    {d : Ctx} (hblock : s.zblock c k n true coded = t.setCtx d) (hnum : d.num = c.num) : s.compressBlock k coded = t.setCtx d.settled := by
  unfold State.compressBlock
  simp only [zctx_of_held hone hzs, hdone, Bool.false_eq_true, if_false, hend, Nat.ne_of_gt hsome, false_and, hblock]
  rw [← hnum]
  exact settleCtx_of_oneCtx rfl

theorem compressBlock_of_short (hend : c.blockEnd = none) : s.compressBlock k coded = s := by
  simp [State.compressBlock, zctx_of_held hone hzs, hend]

theorem idleFlush_of_no_timeout (hidle : c.zidle = 0) : s.idleFlush k coded = s := by
  simp [State.idleFlush, zctx_of_held hone hzs, hidle]

/-- Output that waits for more input leaves with an empty stored block. -/
theorem idleFlush_of_pending (hidle : c.zidle ≠ 0) (hcomplete : c.complete = false) (hdone : c.zdone = false) (hfed : c.starved = false)
    (hend : c.blockEnd = none) (hready : c.ready = []) (hbits : c.zbits ≠ []) (hflush : c.zflush = false) : s.idleFlush k coded =
      (s.zbump Z.COMP_BLK.FLUSH 1).setCtx ({ c with zbits := c.zbits ++ flushBits c.zbits.length, zflush := true } : Ctx).settled := by
  have hpending : ¬ (c.zidle = 0 ∨ c.complete = true ∨ c.zdone = true ∨ c.starved = true ∨ c.blockEnd.isSome = true ∨
      (c.ready = [] ∧ (c.zbits = [] ∨ c.zflush = true))) := by simp [hidle, hcomplete, hdone, hfed, hend, hbits, hflush]
  unfold State.idleFlush
  simp only [zctx_of_held hone hzs, if_neg hpending, if_pos hready, State.zflushNow]
  exact settleCtx_updCtx (s := s.zbump Z.COMP_BLK.FLUSH 1) hone (fun c => { c with zbits := c.zbits ++ flushBits c.zbits.length, zflush := true }) rfl

end

/-- What the end of the stream leaves, brought up to date. -/
theorem ended_settled {c : Ctx} (hsecs : c.secs = []) (bits : List Bool) (raw : Bool) : (c.ended bits raw).settled.zdone = true ∧
    (c.ended bits raw).settled.raw = raw ∧ (c.ended bits raw).settled.ready = [] ∧ (c.ended bits raw).settled.zbits = c.zbits ++ bits ∧
    (c.ended bits raw).settled.hist = (c.ready.reverse ++ c.hist).take 32768 := by
  have h := settled_of_no_secs (c := c.ended bits raw) hsecs
  exact ⟨congrArg Ctx.zdone h, congrArg Ctx.raw h, (congrArg Ctx.ready h).trans List.drop_length, congrArg Ctx.zbits h, congrArg Ctx.hist h⟩

/-- Settles O32: the grant, the empty block that ends a stream, the three ways in which its last block is written (`zblock_of_level_zero`,
`zblock_of_decoded`, `zblock_of_mismatch`), and the flushes. -/
theorem compression : Obligations.Compression := by
  unfold Obligations.Compression
  intro s c k hone hcls
  simp only [exec_compressionStreamGrant, exec_compressBlock, exec_idleFlush]
  refine ⟨fun hwants => ?_, fun hwants => ?_, fun hzs hdone hsect hsecs => ⟨fun coded hcomplete hready => ?_,
    fun coded hcomplete hlevel hsome hlen => ?_, fun coded hcomplete hlevel hsome hlen hfixed hsmall => ⟨fun hdecodes => ?_,
      fun hdecodes hcheck => ?_⟩, fun coded hcomplete hlen => ?_, fun coded hidle hcomplete hfed hready hbits hflush => ?_,
    fun coded hidle => ?_⟩⟩
  · rw [zgrant_of_wanting hone hwants hcls]
  · rw [zgrant_of_content hone hwants]
  · have hend : c.blockEnd = some (0, true, false) := by rw [blockEnd_of_complete hsect hcomplete (by simp [hready]), hready]; rfl
    have hsettled := settled_of_no_secs (c := { c with zbits := c.zbits ++ endBlock, zdone := true }) hsecs
    rw [compressBlock_of_end hone hzs coded hdone hend]
    exact ⟨_, rfl, congrArg Ctx.zdone hsettled, congrArg Ctx.zbits hsettled⟩
  · obtain ⟨hended, hraw, hempty, hbits, -⟩ := ended_settled hsecs c.storedRest true
    rw [compressBlock_of_block hone hzs coded hdone (blockEnd_of_complete hsect hcomplete hlen) hsome
      (zblock_of_level_zero hone hlen k hlevel) rfl]
    exact ⟨_, rfl, hended, hraw, hempty, hbits⟩
  · obtain ⟨hended, hraw, hempty, hbits, hhist⟩ := ended_settled hsecs coded c.raw
    rw [compressBlock_of_block hone hzs coded hdone (blockEnd_of_complete hsect hcomplete hlen) hsome
      (zblock_of_decoded hone hlen k hlevel hfixed hsmall hdecodes) rfl]
    exact ⟨_, rfl, hended, hraw, hempty, hbits, hhist⟩
  · obtain ⟨hended, hraw, -, hbits, -⟩ := ended_settled hsecs c.storedRest true
    rw [compressBlock_of_block hone hzs coded hdone (blockEnd_of_complete hsect hcomplete hlen) hsome
      (zblock_of_mismatch hone hlen k hlevel hfixed hsmall hdecodes hcheck) rfl]
    exact ⟨_, rfl, hended, hraw, hbits⟩
  · rw [compressBlock_of_short hone hzs coded (blockEnd_of_short hsect hcomplete hlen)]
  · have hend : c.blockEnd = none := blockEnd_of_short hsect hcomplete (by simp [hready])
    have hsettled := settled_of_no_secs (c := { c with zbits := c.zbits ++ flushBits c.zbits.length, zflush := true }) hsecs
    rw [idleFlush_of_pending hone hzs coded hidle hcomplete hdone hfed hend hready hbits hflush]
    exact ⟨_, rfl, congrArg Ctx.zflush hsettled, congrArg Ctx.zbits hsettled, (congrArg Ctx.ready hsettled).trans hready,
      (congrArg Ctx.zdone hsettled).trans hdone⟩
  · rw [idleFlush_of_no_timeout hone hzs coded hidle]

end Sys2Proof.Machine
end

section
/-!
PROOFS. The output queue, buffers and completions (R219 to R224, R239 to R241): the chunks of a stream, the grant, what a context loses with
the queue, the buffers that a stream takes, and the entries written to CMPL.
-/

namespace Sys2Proof.Machine

theorem exec_outputChunkPush (n : Fin 65536) (s : State) : exec (.outputChunkPush n) s = .next (s.chunkPush n) := rfl
theorem exec_outputChunkGrant (s : State) : exec .outputChunkGrant s = .next s.chunkGrant := rfl
theorem exec_outputQueuePtrReset (s : State) : exec .outputQueuePtrReset s = .next s.outqReset := rfl
theorem exec_bufqTake (n : Fin 65536) (e : List Byte) (s : State) : exec (.bufqTake n e) s = .next (s.bufqTake n e) := rfl
theorem exec_bufEntryWrite (n : Fin 65536) (s : State) : exec (.bufEntryWrite n) s = .next (s.bufEntryWrite n) := rfl
theorem exec_xtrCompletionWrite (o : Fin 5) (s : State) : exec (.xtrCompletionWrite o) s = .next (s.xtrComplete o) := rfl

/-! ### Chunks (R219) -/

section
variable {s : State} {c : Ctx}

theorem nextChunk_of_more (hcomp : c.comp = false) (hpushed : c.pushed = false) (hst : c.status = none) (hlen : 4096 < c.ready.length) :
    c.nextChunk = some (c.ready.take 4096, false, c.advance 4096) := by
  simp [Ctx.nextChunk, hcomp, hpushed, hst, hlen]

theorem nextChunk_of_rest (hcomp : c.comp = false) (hpushed : c.pushed = false) (hst : c.status = none) (hcomplete : c.complete = true)
    (hlen : c.ready.length ≤ 4096) :
    c.nextChunk = some (c.ready, true, { (c.advance c.ready.length) with pushed := true, endBits := 8 }) := by
  simp [Ctx.nextChunk, hcomp, hpushed, hst, hcomplete, Nat.not_lt.mpr hlen]

/-- A chunk enters the queue, and `d` is the context behind it. -/
theorem chunkPush_of_chunk (hone : s.oneCtx c) (hcomp : c.comp = false) {bs : List Byte} {last : Bool} {d : Ctx}
    (hchunk : c.nextChunk = some (bs, last, d)) (hnum : d.num = c.num) (hroom : s.xtr.queue.length < 2048) : s.chunkPush c.num =
      (s.updXtr fun x => { x with queue := x.queue ++ [⟨c.num, bs, s.time, last⟩] }).setCtx d.settled := by
  simp only [State.chunkPush, ctx?_of_oneCtx hone, hchunk, if_pos hroom, hcomp, Bool.false_eq_true, if_false]
  rw [updCtx_of_oneCtx hone, ← hnum]
  exact settleCtx_of_oneCtx rfl

theorem chunkPush_of_full (hfull : 2048 ≤ s.xtr.queue.length) (n : Nat) : s.chunkPush n = s := by
  unfold State.chunkPush
  split
  · split
    · exact if_neg (Nat.not_lt.mpr hfull)
    · rfl
  · rfl

end

/-! ### DMA (R219, R241) -/

section
variable {s : State}

theorem pour_of_no_buffer {c : Ctx} {n : Nat} (hctx : s.ctx? n = some c) (hbuf : c.buf = none) : s.pour n = s := by
  simp [State.pour, hctx, hbuf]

/-- The context whose bytes DMA has written into buffer `b`. -/
def Ctx.poured (c : Ctx) (b : HostBuf) : Ctx :=
  { c with dma := [], bytes := c.bytes + c.dma.length, buf := some { b with used := b.used + c.dma.length } }

/-- What DMA holds goes into the buffer, which has room for more. -/
theorem pour_of_room {c : Ctx} (hone : s.oneCtx c) {b : HostBuf} (hbuf : c.buf = some b) (hsome : c.dma ≠ [])
    (hroom : b.used + c.dma.length < b.size) (hmore : c.granted = false) : s.pour c.num =
      ((s.emit (.hostWrite (b.addr + b.used) c.dma)).zwrap Z.XTR_DBYTES.BYTES c.dma.length).setCtx (c.poured b).settled := by
  have hall : min c.dma.length (b.size - b.used) = c.dma.length := Nat.min_eq_left (by omega)
  have hwrites : c.dma.length ≠ 0 := fun h => hsome (List.length_eq_zero_iff.mp h)
  have hroom' : b.used + c.dma.length ≠ b.size := by omega
  simp only [State.pour, ctx?_of_oneCtx hone, hbuf, hall, if_neg hwrites, List.take_length, List.drop_length, hmore, Bool.false_and,
    Bool.false_eq_true, or_false, if_neg hroom']
  exact settleCtx_updCtx (s := (s.emit (.hostWrite (b.addr + b.used) c.dma)).zwrap Z.XTR_DBYTES.BYTES c.dma.length) hone
    (fun d => { d with dma := [], bytes := d.bytes + c.dma.length, buf := some { b with used := b.used + c.dma.length } }) rfl

/-- The bytes written, brought up to date. -/
theorem poured_settled {c : Ctx} (hsecs : c.secs = []) (b : HostBuf) : (c.poured b).settled.bytes = c.bytes + c.dma.length ∧
    (c.poured b).settled.dma = [] ∧ (c.poured b).settled.buf = some { b with used := b.used + c.dma.length } ∧
    (c.poured b).settled.seq = c.seq := by
  have h := settled_of_no_secs (c := c.poured b) hsecs
  exact ⟨congrArg Ctx.bytes h, congrArg Ctx.dma h, congrArg Ctx.buf h, (congrArg Ctx.seq h :)⟩

/-- DMA moves no index and tells no one. -/
theorem pour_keeps (s : State) (n : Nat) : (∀ g : Field, g.key ≠ Z.XTR_DBYTES.BYTES.key → (s.pour n).zget g = s.zget g) ∧
    (s.pour n).host = s.host := by
  unfold State.pour
  split
  · split
    · dsimp only
      split
      · exact ⟨fun _ _ => rfl, rfl⟩
      · exact ⟨fun g hg => State.zget_zwrap_ne (s.emit _) _ hg, rfl⟩
    · exact ⟨fun _ _ => rfl, rfl⟩
  · exact ⟨fun _ _ => rfl, rfl⟩

end

/-! ### The grant (R219) -/

/-- Chunk `k` leaves the queue for its context, the first of them behind the others by class. -/
def State.grantTo (s : State) (k : Chunk) (turn : Nat) : State :=
  (s.updXtr fun x => { x with queue := dropChunk k.ctx x.queue, turn := turn }).updCtx k.ctx fun c =>
    { c with dma := k.bytes, granted := k.last }

section
variable {s : State}

theorem chunkGrant_of_down (hdown : s.dmaOk = false) : s.chunkGrant = s := if_pos (by simp [hdown])

theorem chunkGrant_of_next (hok : s.dmaOk = true) {ks : List Chunk} (hks : s.grantable = ks) {i : Nat} {k : Chunk}
    (hpick : pickNext s.time s.xtr.turn (ks.map fun k => ((s.ctx? k.ctx).elim 0 (·.cls), k.time)) = some (i, false)) (hk : ks[i]? = some k) :
    ∃ turn, s.chunkGrant = (s.grantTo k turn).pour k.ctx := by
  unfold State.chunkGrant
  simp only [hok, not_true, if_false, hks, hpick, hk, Bool.false_eq_true]
  exact ⟨_, rfl⟩

/-- A lower class goes before a class other than 3. -/
theorem pickNext_lower {a b : Nat} (hba : b < a) (ha : a < 4) (ha3 : a ≠ 3) (now turn ta tb : Nat) :
    pickNext now turn [(a, ta), (b, tb)] = some (1, false) := by
  have hlow : min (min 4 a) b = b := by omega
  have hb3 : b ≠ 3 := by omega
  have hne : a ≠ b := by omega
  simp [pickNext, List.findIdx?_cons, ha3, hb3, hlow, hne]

end

/-! ### A grant to one context -/

section
variable {s : State} {c : Ctx} {k : Chunk}

theorem dropChunk_same (n : Nat) {k : Chunk} (ks : List Chunk) (hk : k.ctx = n) : dropChunk n (k :: ks) = ks := if_pos hk
theorem dropChunk_other {n : Nat} {k : Chunk} (ks : List Chunk) (hk : k.ctx ≠ n) : dropChunk n (k :: ks) = k :: dropChunk n ks := if_neg hk

theorem grantable_of_oneCtx (hone : s.oneCtx c) (hqueue : s.xtr.queue = [k]) (hk : k.ctx = c.num) (hdma : c.dma = []) (hsep : c.sep = false) :
    s.grantable = [k] := by
  simp [State.grantable, hqueue, hk, ctx?_of_oneCtx hone, hdma, hsep]

theorem grantTo_of_oneCtx (hone : s.oneCtx c) (hk : k.ctx = c.num) (turn : Nat) : s.grantTo k turn =
    (s.updXtr fun x => { x with queue := dropChunk c.num x.queue, turn := turn }).setCtx { c with dma := k.bytes, granted := k.last } := by
  rw [State.grantTo, hk]
  exact updCtx_of_oneCtx (s := s.updXtr fun x => { x with queue := dropChunk c.num x.queue, turn := turn }) hone _

/-- The one context gets its chunk, and DMA writes it. -/
theorem chunkGrant_of_oneCtx (hone : s.oneCtx c) (hcls : c.cls < 4) (hok : s.dmaOk = true) (hqueue : s.xtr.queue = [k]) (hk : k.ctx = c.num)
    (hdma : c.dma = []) (hsep : c.sep = false) : ∃ turn, s.chunkGrant =
      ((s.updXtr fun x => { x with queue := [], turn := turn }).setCtx { c with dma := k.bytes, granted := k.last }).pour c.num := by
  have hpick : pickNext s.time s.xtr.turn ([k].map fun k => ((s.ctx? k.ctx).elim 0 (·.cls), k.time)) = some (0, false) := by
    rw [List.map_singleton, hk, ctx?_of_oneCtx hone]
    exact pickNext_single hcls ..
  obtain ⟨turn, h⟩ := chunkGrant_of_next hok (grantable_of_oneCtx hone hqueue hk hdma hsep) hpick rfl
  refine ⟨turn, ?_⟩
  rw [h, grantTo_of_oneCtx hone hk, hk]
  simp only [State.setCtx, State.updXtr, hqueue, dropChunk_same _ [] hk]

end

/-! ### A grant between two contexts -/

section
variable {s : State} {c d : Ctx} (htwo : s.xtr.ctxs = [c, d]) (hnum : d.num ≠ c.num)
include htwo

theorem ctx?_fst : s.ctx? c.num = some c := by
  rw [State.ctx?, htwo]
  exact List.find?_cons_of_pos (beq_self_eq_true _)

include hnum

theorem ctx?_snd : s.ctx? d.num = some d := by
  simp [State.ctx?, htwo, hnum.symm]

theorem updCtx_snd (f : Ctx → Ctx) : s.updCtx d.num f = s.updXtr fun x => { x with ctxs := [c, f d] } := by
  have hctxs : s.xtr.ctxs.map (fun e : Ctx => if e.num = d.num then f e else e) = [c, f d] := by
    simp [htwo, hnum.symm]
  exact congrArg (fun l => s.updXtr fun x => { x with ctxs := l }) hctxs

/-- The chunk of the second goes first where its class is lower. -/
theorem chunkGrant_lower {x y : Chunk} (hok : s.dmaOk = true) (hqueue : s.xtr.queue = [x, y]) (hx : x.ctx = c.num) (hy : y.ctx = d.num)
    (hlow : d.cls < c.cls) (hcls : c.cls < 4) (hcls3 : c.cls ≠ 3) (hcdma : c.dma = []) (hcsep : c.sep = false) (hddma : d.dma = [])
    (hdsep : d.sep = false) : ∃ turn, s.chunkGrant =
      (s.updXtr fun z => { z with queue := [x], turn := turn, ctxs := [c, { d with dma := y.bytes, granted := y.last }] }).pour d.num := by
  have hc := ctx?_fst htwo
  have hd := ctx?_snd htwo hnum
  have hks : s.grantable = [x, y] := by simp [State.grantable, hqueue, hx, hy, hc, hd, hcdma, hcsep, hddma, hdsep]
  have hpick : pickNext s.time s.xtr.turn ([x, y].map fun k => ((s.ctx? k.ctx).elim 0 (·.cls), k.time)) = some (1, false) := by
    simp only [List.map_cons, List.map_nil, hx, hy, hc, hd, Option.elim_some]
    exact pickNext_lower hlow hcls hcls3 ..
  obtain ⟨turn, h⟩ := chunkGrant_of_next hok hks hpick rfl
  have hqueue' : dropChunk d.num s.xtr.queue = [x] := by
    rw [hqueue, dropChunk_other _ (hx ▸ hnum.symm), dropChunk_same _ _ hy]
  have hgrant : s.grantTo y turn =
      s.updXtr fun z => { z with queue := [x], turn := turn, ctxs := [c, { d with dma := y.bytes, granted := y.last }] } := by
    rw [State.grantTo, hy, updCtx_snd (s := s.updXtr fun z => { z with queue := dropChunk d.num z.queue, turn := turn }) htwo hnum]
    simp only [State.updXtr, hqueue']
  exact ⟨turn, by rw [h, hgrant, hy]⟩

end

/-! ### A reset of the queue (R220) -/

section
variable {s : State} {c : Ctx}

theorem outqReset_of_empty (hqueue : s.xtr.queue = []) : s.outqReset = (s.zbump Z.XTR_QRESET.COUNT 1).raise 529 [0, 0, 0] := by
  have hsame : (s.updXtr fun x => { x with queue := [] }) = s := congrArg (fun q => s.updXtr fun x => { x with queue := q }) hqueue.symm
  unfold State.outqReset
  rw [hqueue, hsame]
  rfl

/-- The marker goes before what an uncompressed stream still holds, which begins no section. -/
theorem lost_of_plain (hcomp : c.comp = false) (hhdrs : c.hdrs = []) : c.lost = { c with
    qmark := true, qreset := true, shaved := true, pushed := false, granted := false, ready := qresetMarker ++ c.ready,
    ends := c.ends.map (· + 8) } := by
  simp [Ctx.lost, hcomp, hhdrs]

theorem outqReset_of_chunk (hone : s.oneCtx c) {x : Chunk} (hqueue : s.xtr.queue = [x]) (hx : x.ctx = c.num) (hnum : c.lost.num = c.num) :
    s.outqReset =
      (((s.updXtr fun x => { x with queue := [] }).zbump Z.XTR_QRESET.COUNT 1).setCtx c.lost.settled).raise 529 [1, 0, 0] := by
  unfold State.outqReset
  rw [hqueue, List.map_singleton, hx, (List.nodup_singleton c.num).dedup]
  exact congrArg (State.raise · 529 (leBytes 1 3))
    (settleCtx_updCtx (s := (s.updXtr fun x => { x with queue := [] }).zbump Z.XTR_QRESET.COUNT 1) hone Ctx.lost hnum)

end

/-! ### Buffers (R239 to R241) -/

/-- A stream that needs a buffer for bytes has bytes. -/
theorem dma_of_starved {c : Ctx} (hstarved : c.starved = true) (hsep : c.sep = false) : c.dma ≠ [] := by
  simp only [Ctx.starved, hsep, Bool.or_false, Bool.and_eq_true, bne_iff_ne] at hstarved
  exact hstarved.2

/-- The entry at the stream's turn is fetched from BUFQ. -/
def State.tookEntry (s : State) : State := ((s.updHost fun h => { h with starved := false }).consume 5).shadow

section
variable {s : State} {c : Ctx}

theorem tookEntry_xtr (s : State) : s.tookEntry.xtr = s.xtr := (congrArg (fun u : State => u.xtr) (shadow_eq _) :)
theorem tookEntry_host (s : State) : s.tookEntry.host.starved = false := (congrArg (fun u : State => u.host.starved) (shadow_eq _) :)
theorem tookEntry_index (s : State) :
    s.tookEntry.zget (ZR.CIDX.INDEX.hring 5) = (s.zget (ZR.CIDX.INDEX.hring 5) + 1) % 2 ^ 32 :=
  (congrArg (fun z => fget z (ZR.CIDX.INDEX.hring 5)) (shadow_zreg _)).trans (State.zget_zput ..)

theorem tookEntry_oneCtx (hone : s.oneCtx c) : s.tookEntry.oneCtx c := (congrArg Extract.ctxs (tookEntry_xtr s)).trans hone

/-- The empty buffer that entry `e` names, number `seq` of its stream. -/
def bufOf (e : List Byte) (seq : Nat) : HostBuf := ⟨leNat (slice e 0 8), leNat (slice e 8 4), leNat (slice e 12 4), 0, seq⟩

/-- The buffer of entry `e` becomes the one in use. -/
def Ctx.tookBuf (c : Ctx) (e : List Byte) : Ctx := { c with seq := c.seq + 1, buf := some (bufOf e c.seq) }

theorem bufqTake_of_fed (hone : s.oneCtx c) (hfed : c.starved = false) (e : List Byte) : s.bufqTake c.num e = s := by
  simp [State.bufqTake, ctx?_of_oneCtx hone, hfed]

variable {e : List Byte} (hone : s.oneCtx c) (hstarved : c.starved = true) (hup : s.ringUp 5 = true) (hposted : s.unfetched 5 ≠ 0)
include hone hstarved hup hposted

theorem bufqTake_of_bad (hbad : bufqOk e = false) : s.bufqTake c.num e =
    s.tookEntry.setCtx { c with rets := c.rets ++ [⟨leNat (slice e 12 4), 0, c.seq, false, true⟩] } := by
  simp only [State.bufqTake, ctx?_of_oneCtx hone, hstarved, hup, hposted, hbad, ne_eq, not_false_eq_true, and_self, if_true, Bool.false_eq_true]
  exact updCtx_of_oneCtx (tookEntry_oneCtx hone) _

/-- The bytes that waited for the buffer are written to its start. -/
theorem bufqTake_of_good (hgood : bufqOk e = true) (hsep : c.sep = false) (hroom : c.dma.length < leNat (slice e 8 4))
    (hmore : c.granted = false) : s.bufqTake c.num e =
      ((s.tookEntry.setCtx (c.tookBuf e)).emit (.hostWrite (leNat (slice e 0 8)) c.dma)
        |>.zwrap Z.XTR_DBYTES.BYTES c.dma.length).setCtx ((c.tookBuf e).poured (bufOf e c.seq)).settled := by
  have hsome : c.dma ≠ [] := dma_of_starved hstarved hsep
  simp only [State.bufqTake, ctx?_of_oneCtx hone, hstarved, hup, hposted, hgood, hsep, ne_eq, not_false_eq_true, and_self, if_true, not_true,
    if_false, Bool.false_eq_true]
  calc _ = (s.tookEntry.setCtx (c.tookBuf e)).pour c.num :=
        congrArg (State.pour · c.num) (updCtx_of_oneCtx (tookEntry_oneCtx hone) _)
    _ = _ := pour_of_room (s := s.tookEntry.setCtx (c.tookBuf e)) (c := c.tookBuf e) rfl rfl hsome ((Nat.zero_add _).trans_lt hroom) hmore

/-- Whatever the entry is, it is consumed. -/
theorem bufqTake_consumes (e : List Byte) : (s.bufqTake c.num e).zget (ZR.CIDX.INDEX.hring 5) = s.tookEntry.zget (ZR.CIDX.INDEX.hring 5) ∧
    (s.bufqTake c.num e).host = s.tookEntry.host := by
  simp only [State.bufqTake, ctx?_of_oneCtx hone, hstarved, hup, hposted, ne_eq, not_false_eq_true, and_self, if_true]
  split
  · exact ⟨rfl, rfl⟩
  · split
    · exact ⟨rfl, rfl⟩
    · exact ⟨(pour_keeps _ _).1 _ (by decide), (pour_keeps _ _).2⟩

end

theorem bufEntry_eq (c : Ctx) (r : BufRet) : c.bufEntry r = leBytes c.tag 4 ++ leBytes r.id 4 ++ leBytes r.used 4 ++
    leBytes r.seq 2 ++ [b8 ((if r.last then 1 else 0) + if r.bad then 2 else 0), 0] ++ leBytes c.num 2 ++ List.replicate 12 0 ++
    [b8 (1 + 16 * c.order)] := by
  have hflags : b2n r.last + 2 * b2n r.bad = (if r.last then 1 else 0) + if r.bad then 2 else 0 := by
    cases r.last <;> cases r.bad <;> rfl
  rw [Ctx.bufEntry, hflags]

section
variable {s : State} {c : Ctx}

theorem bufEntryWrite_of_room (hone : s.oneCtx c) {r : BufRet} {rest : List BufRet} (hrets : c.rets = r :: rest)
    (hroom : s.ringRoom 6 = true) : s.bufEntryWrite c.num = (s.setCtx ({ c with rets := rest } : Ctx).settled).cmplPut (c.bufEntry r) := by
  simp only [State.bufEntryWrite, ctx?_of_oneCtx hone, hrets, if_pos hroom]
  exact congrArg (State.cmplPut · (c.bufEntry r)) (settleCtx_updCtx hone (fun c => { c with rets := rest }) rfl)

theorem bufEntryWrite_of_no_room (hroom : s.ringRoom 6 = false) (n : Nat) : s.bufEntryWrite n = s := by
  unfold State.bufEntryWrite
  split
  · split
    · exact if_neg (by simp [hroom])
    · rfl
  · rfl

/-! ### Completions (R221 to R224) -/

/-- An entry of CMPL leaves the contexts. -/
theorem cmplPut_ctxs (s : State) (bytes : List Byte) : (s.cmplPut bytes).xtr.ctxs = s.xtr.ctxs := by
  have h : (s.cmplPut bytes).view = s.view := by simp [State.cmplPut, State.ringPut, State.shadow, State.clearSince]
  exact congrArg (fun v => v.rest.ctxs) h

/-- The one context is reported, freed and counted in its class. -/
def State.completed (s : State) (c : Ctx) : State :=
  ((s.cmplPut c.xtrEntry).updXtr fun x => { x with ctxs := [] }).zbump (Z.XTR_CNTc.COUNT.at (4 * c.cls)) 1

theorem xtrComplete_of_finished (hone : s.oneCtx c) (hfin : c.finished = true) (hroom : s.ringRoom 6 = true) : s.xtrComplete c.order =
    if c.finalStatus = 1 ∨ c.finalStatus = 4 then (s.completed c).zbump Z.XTR_STATUSCNT.EXPIRED 1
    else if c.finalStatus = 2 ∨ c.finalStatus = 3 then (s.completed c).zbump Z.XTR_STATUSCNT.REJECTED 1 else s.completed c := by
  have hfind : s.xtr.ctxs.find? (fun d => d.order == c.order) = some c := by
    rw [show s.xtr.ctxs = [c] from hone]
    exact List.find?_cons_of_pos (beq_self_eq_true _)
  have hfree : ((s.cmplPut c.xtrEntry).xtr.ctxs.filter fun d => d.num != c.num) = [] := by
    rw [cmplPut_ctxs, show s.xtr.ctxs = [c] from hone]
    simp
  have hput : ((s.cmplPut c.xtrEntry).updXtr fun x => { x with ctxs := x.ctxs.filter fun d => d.num != c.num }) =
      (s.cmplPut c.xtrEntry).updXtr fun x => { x with ctxs := [] } :=
    congrArg (fun l => (s.cmplPut c.xtrEntry).updXtr fun x => { x with ctxs := l }) hfree
  unfold State.xtrComplete
  rw [hfind]
  simp only [hfin, hroom, and_self, if_true, hput]
  rfl

theorem xtrComplete_of_unfinished (hone : s.oneCtx c) (hfin : c.finished = false) (o : Nat) (ho : c.order = o) : s.xtrComplete o = s := by
  have hfind : s.xtr.ctxs.find? (fun d => d.order == o) = some c := by
    rw [show s.xtr.ctxs = [c] from hone]
    exact List.find?_cons_of_pos (by simp [ho])
  simp [State.xtrComplete, hfind, hfin]

theorem finalStatus_of_some {v : Nat} (hst : c.status = some v) : c.finalStatus = v := by
  rw [Ctx.finalStatus, hst, Option.getD_some]

theorem finalStatus_of_content (hst : c.status = none) (hsome : c.nexp + c.nbey < c.nsect) : c.finalStatus = 0 := by
  rw [Ctx.finalStatus, hst, Option.getD_none, if_pos hsome]

end

/-- Settles O33: each clause is the lemma of its case above, and what the settled context keeps of it (`settled_of_no_secs`). -/
theorem outputAndCompletions : Obligations.OutputAndCompletions := by
  unfold Obligations.OutputAndCompletions
  intro s c n hnum hcls hsecs
  simp only [exec_outputChunkPush, exec_outputChunkGrant, exec_outputQueuePtrReset, exec_bufqTake, exec_bufEntryWrite,
    exec_xtrCompletionWrite, ← hnum]
  refine ⟨fun hone hcomp hpushed hst => ⟨fun hlen hroom => ?_, fun hcomplete hlen hroom => ?_, fun hfull => ?_⟩,
    fun b bytes hone hok hqueue hdma hsep hbuf hsome hroom hmore => ?_,
    fun d x y htwo hok hqueue hx hy hne hlow hcls3 hcdma hcsep hddma hdsep _ hdbuf => ?_, fun hdown => ?_, fun hqueue => ?_,
    fun x hone hqueue hx hcomp hhdrs => ?_, fun e hone hstarved hup hposted => ?_, fun hone hfed e => ?_,
    fun r rest hone hrets => ⟨fun hroom => ?_, fun hroom => ?_⟩,
    fun o hone ho => ⟨fun hfin hroom hst => ?_, fun hfin hroom hst hsome => ?_, fun hfin => ?_⟩⟩
  · have hsettled := settled_of_no_secs (c := c.advance 4096) hsecs
    rw [chunkPush_of_chunk hone hcomp (nextChunk_of_more hcomp hpushed hst hlen) rfl hroom]
    exact ⟨_, rfl, rfl, rfl, _, rfl, congrArg Ctx.ready hsettled, (congrArg Ctx.pushed hsettled).trans hpushed⟩
  · have hsettled := settled_of_no_secs (c := { (c.advance c.ready.length) with pushed := true, endBits := 8 }) hsecs
    rw [chunkPush_of_chunk hone hcomp (nextChunk_of_rest hcomp hpushed hst hcomplete hlen) rfl hroom]
    exact ⟨_, rfl, rfl, rfl, _, rfl, (congrArg Ctx.ready hsettled).trans List.drop_length, congrArg Ctx.pushed hsettled,
      congrArg Ctx.endBits hsettled⟩
  · rw [chunkPush_of_full hfull]
  · obtain ⟨turn, h⟩ := chunkGrant_of_oneCtx hone hcls hok hqueue rfl hdma hsep
    obtain ⟨hbytes, hdma', hbuf', -⟩ := poured_settled (c := { c with dma := bytes, granted := false }) hsecs b
    rw [h, pour_of_room (s := (s.updXtr fun x => { x with queue := [], turn := turn }).setCtx { c with dma := bytes, granted := false })
      (c := { c with dma := bytes, granted := false }) rfl hbuf hsome hroom rfl]
    exact ⟨_, rfl, rfl, rfl, _, rfl, hbytes, hdma', hbuf'⟩
  · obtain ⟨turn, h⟩ := chunkGrant_lower htwo hne hok hqueue hx hy hlow hcls hcls3 hcdma hcsep hddma hdsep
    have hctx := ctx?_snd (s := s.updXtr fun z => { z with
      queue := [x], turn := turn, ctxs := [c, { d with dma := y.bytes, granted := y.last }] }) rfl hne
    rw [h, pour_of_no_buffer hctx hdbuf]
    exact ⟨_, rfl, rfl, rfl, _, hctx, rfl, rfl⟩
  · rw [chunkGrant_of_down hdown]
  · rw [outqReset_of_empty hqueue]
  · have hlost := lost_of_plain hcomp hhdrs
    have hsettled := settled_of_no_secs ((congrArg Ctx.secs hlost).trans hsecs)
    rw [outqReset_of_chunk hone hqueue hx (congrArg Ctx.num hlost :)]
    exact ⟨_, _, rfl, rfl, rfl, rfl, (congrArg Ctx.qreset hsettled).trans (congrArg Ctx.qreset hlost),
      (congrArg Ctx.qmark hsettled).trans (congrArg Ctx.qmark hlost), (congrArg Ctx.pushed hsettled).trans (congrArg Ctx.pushed hlost),
      (congrArg Ctx.ready hsettled).trans (congrArg Ctx.ready hlost)⟩
  · obtain ⟨hindex, hhost⟩ := bufqTake_consumes hone hstarved hup hposted e
    refine ⟨_, rfl, hindex.trans (tookEntry_index s), (congrArg HostIf.starved hhost).trans (tookEntry_host s), fun hbad => ?_,
      fun hgood hsep hroom hmore => ?_⟩
    · rw [bufqTake_of_bad hone hstarved hup hposted hbad]
      exact ⟨_, rfl, rfl⟩
    · obtain ⟨hbytes, hdma, hbuf, hseq⟩ := poured_settled (c := c.tookBuf e) hsecs (bufOf e c.seq)
      rw [bufqTake_of_good hone hstarved hup hposted hgood hsep hroom hmore]
      exact ⟨_, rfl, hseq, hdma, hbytes, hbuf.trans (by rw [bufOf, Nat.zero_add]; rfl), List.getLast?_concat⟩
  · rw [bufqTake_of_fed hone hfed]
  · have hsettled := settled_of_no_secs (c := { c with rets := rest }) hsecs
    rw [bufEntryWrite_of_room hone hrets hroom, bufEntry_eq]
    exact ⟨_, rfl, congrArg Ctx.rets hsettled, (congrArg Ctx.num hsettled :)⟩
  · rw [bufEntryWrite_of_no_room hroom]
  · have hrejected : c.finalStatus = 2 ∨ c.finalStatus = 3 := hst.imp finalStatus_of_some finalStatus_of_some
    rw [← ho, xtrComplete_of_finished hone hfin hroom, if_neg (by omega), if_pos hrejected]
    rfl
  · have hcontent := finalStatus_of_content hst hsome
    rw [← ho, xtrComplete_of_finished hone hfin hroom, if_neg (by omega), if_neg (by omega)]
    rfl
  · rw [xtrComplete_of_unfinished hone hfin o ho]

end Sys2Proof.Machine
end

section
/-!
PROOFS. Commands on the downlink (R245, R395): a block that Pelnos hears, its answer, and what each command applies.
-/

namespace Sys2Proof.Machine

/-! ### Fields of a Pelnos -/

section
variable (c : Pelnos) {f g : Field} (v : Nat)

@[simp] theorem Pelnos.get_put_same : (c.put f v).get f = v % 2 ^ f.wid := fget_fset_same _ _ _

theorem Pelnos.get_put_ne (h : g.key ≠ f.key) : (c.put f v).get g = c.get g := fget_fset_ne _ _ h

theorem Pelnos.get_withPulse (fp : BitVec 16) : (c.withPulse fp).get f = c.get f := rfl

end

/-- A field that lies apart from those written reads as it did. -/
theorem chipRegsBut.get {fs : List Field} {c d : Pelnos} (h : chipRegsBut fs c d) {g : Field} (hg : g.key ∉ fs.map Field.key) :
    d.get g = c.get g := fget_congr (h _ hg)

theorem chipRegsBut_put (c : Pelnos) (f : Field) (v : Nat) : chipRegsBut [f] c (c.put f v) := fun _ hk =>
  get_fset_ne _ _ (by simpa using hk)

theorem chipRegsBut.trans {fs : List Field} {c d e : Pelnos} (h : chipRegsBut fs c d) (k : chipRegsBut fs d e) : chipRegsBut fs c e :=
  fun x hx => (k x hx).trans (h x hx)

theorem chipRegsBut.mono {fs gs : List Field} {c d : Pelnos} (h : chipRegsBut fs c d) (hsub : fs ⊆ gs) : chipRegsBut gs c d :=
  fun k hk => h k fun hmem => hk (List.map_subset _ hsub hmem)

/-! ### A block that Pelnos hears -/

section
variable {s : State} {p : Port} {b : RxBlock} {pl : List Byte}

@[simp] theorem setChip_self (s : State) (p : Port) : s.setChip p (s.chip p) = s :=
  congrArg (fun v => s.updChips fun _ => v) (Vector.set_getElem_self _)

@[simp] theorem setChip_setChip (s : State) (p : Port) (c d : Pelnos) : (s.setChip p c).setChip p d = s.setChip p d :=
  congrArg (fun v => s.updChips fun _ => v) (vupd_vupd s.chips p (fun _ => c) fun _ => d)

theorem dlReceive_of_hears {k : BlkKind} (h : s.pelnosHears p b k pl) : s.dlReceive p b = (s, some b.blk) := by
  obtain ⟨hintact, -, -, hlive, hbad, hchk, hloop, hst, hdl⟩ := h
  have hreceive : s.receive (.down p) b = (s, some b.blk) := by
    simp [State.receive, hintact, State.goodBlock, hbad, State.prbsCheck, hchk]
  simp [State.dlReceive, hlive, hreceive, hloop, hst, hdl]

theorem onCommand_of_hears (h : s.pelnosHears p b .data pl) {ops : Nat → Bool} (hop : ops (byteAt pl 0) = true)
    (f : State → List Byte → State) : s.onCommand p b ops f = f s pl := by
  obtain ⟨-, hkind, hpayload, -⟩ := id h
  simp [State.onCommand, dlReceive_of_hears h, hkind, hpayload, hop]

section
variable (h : s.pelnosHears p b .data pl)
include h

theorem exec_regWr_of_hears (hop : byteAt pl 0 = 1) : exec (.regWr p b) s = .next (s.doRegWr p pl) :=
  congrArg Host.Outcome.next (onCommand_of_hears h (by simp [hop]) _)

theorem exec_regRd_of_hears (hop : byteAt pl 0 = 2) : exec (.regRd p b) s = .next (s.doRegRd p pl) :=
  congrArg Host.Outcome.next (onCommand_of_hears h (by simp [hop]) _)

theorem exec_pixWr_of_hears (hop : byteAt pl 0 = 3) : exec (.pixWr p b) s = .next (s.doPixWr p pl) :=
  congrArg Host.Outcome.next (onCommand_of_hears h (by simp [hop]) _)

theorem exec_pixRd_of_hears (hop : byteAt pl 0 = 4) : exec (.pixRd p b) s = .next (s.doPixRd p pl) :=
  congrArg Host.Outcome.next (onCommand_of_hears h (by simp [hop]) _)

theorem exec_pixStream_of_hears (hop : byteAt pl 0 = 5) : exec (.pixStream p b) s = .next (s.doPixStream p pl) :=
  congrArg Host.Outcome.next (onCommand_of_hears h (by simp [hop]) _)

theorem exec_commit_of_hears (hop : byteAt pl 0 = 6) : exec (.commit p b) s = .next (s.doCommit p pl) :=
  congrArg Host.Outcome.next (onCommand_of_hears h (by simp [hop]) _)

theorem exec_unknownDownlinkOp_of_hears (hop : byteAt pl 0 = 0 ∨ 6 < byteAt pl 0) :
    exec (.unknownDownlinkOp p b) s = .next (s.reply p pl false false 0 0 true) := by
  have hother : (!downlinkOps.contains (byteAt pl 0)) = true := by
    simp [downlinkOps]
    omega
  exact congrArg Host.Outcome.next (onCommand_of_hears h hother _)

end

/-! ### Answers (R81, R245) -/

theorem reply_eq (s : State) (p : Port) (pl : List Byte) (pix staged : Bool) (addr data : Nat) (err : Bool) :
    s.reply p pl pix staged addr data err = s.setChip p ((s.chip p).answers pix staged addr data (byteAt pl 1) err) := rfl

theorem reply_setChip (s : State) (p : Port) (c : Pelnos) (pl : List Byte) (pix staged : Bool) (addr data : Nat) (err : Bool) :
    (s.setChip p c).reply p pl pix staged addr data err = s.setChip p (c.answers pix staged addr data (byteAt pl 1) err) := by
  rw [reply_eq, chip_setChip, setChip_setChip]

/-- The answer goes into a frame; P_STORE_STAT.PEAK follows the store. -/
theorem answers_regsBut (c : Pelnos) (pix staged : Bool) (addr data tag : Nat) (err : Bool) :
    chipRegsBut [P.STORE_STAT.PEAK] c (c.answers pix staged addr data tag err) := chipRegsBut_put _ _ _

/-! ### Register writes (R9, R245) -/

theorem regPairs_one (h : byteAt pl 2 = 1) : regPairs pl = [(half pl 4, half pl 6)] := by
  simp [regPairs, h]

theorem doRegWr_one (h : byteAt pl 2 = 1) : s.doRegWr p pl =
    ((if pDecodes (half pl 4) then s.pWrite p (half pl 4) (half pl 6) else s).reply p pl false false (half pl 4)
      (if pDecodes (half pl 4) then half pl 6 else 0) (!pDecodes (half pl 4))) := by
  simp [State.doRegWr, regPairs_one h]

theorem doRegWr_badCount (h : byteAt pl 2 = 0 ∨ 3 < byteAt pl 2) : s.doRegWr p pl = s.reply p pl false false 0 0 true := by
  refine if_pos ?_
  simpa [regPairs] using h

/-- P_THR: its one field is staged. -/
theorem thr_fields : fieldsAt 1 P.rows 0x11 = [P.THR.THR] := by decide

theorem pDecodes_thr : pDecodes 0x11 = true := by decide

theorem writeReg_thr (c : Pelnos) (w : Nat) : ∃ fp, c.writeReg 0x11 w = (c.stage P.THR.THR (w % 1024)).withPulse fp := by
  have hplain : c.writeReg 0x11 w = forAfter c (c.stage P.THR.THR (bits w 0 10)) := by
    simp [Pelnos.writeReg, writePlain_eq_foldl, thr_fields, Pelnos.writeField, P.THR.THR]
  have hbits : bits w 0 10 = w % 1024 := by simp [bits]
  rw [hplain, hbits]
  exact forAfter_eq_withPulse c _

/-- A write of a word that no loop or generator hangs on stays in the chip. -/
theorem pWrite_of_chip (s : State) (p : Port) {a : Nat} (w : Nat) (hloop : a ≠ 0x200) (hprbs : a ≠ 0x202) :
    s.pWrite p a w = s.setChip p ((s.chip p).writeReg a w) := by
  rw [State.pWrite, if_neg hloop, if_neg hprbs]
  rfl

/-- R9, R395: a write of P_THR stages the value; the committed one stands. -/
theorem doRegWr_thr (hcount : byteAt pl 2 = 1) (haddr : half pl 4 = 0x11) : ∃ d : Pelnos, s.doRegWr p pl = s.setChip p d ∧
    d.get P.THR.THR = (s.chip p).get P.THR.THR ∧ Tab.get none d.staged P.THR.THR.key =
      if half pl 6 % 1024 = (s.chip p).get P.THR.THR then none else some (half pl 6 % 1024) := by
  obtain ⟨fp, hfp⟩ := writeReg_thr (s.chip p) (half pl 6)
  refine ⟨(((s.chip p).stage P.THR.THR (half pl 6 % 1024)).withPulse fp).answers false false 0x11 (half pl 6) (byteAt pl 1) false, ?_,
    (answers_regsBut _ false false _ _ (byteAt pl 1) false).get (by decide), Tab.get_set_same ..⟩
  rw [doRegWr_one hcount, haddr, if_pos pDecodes_thr, if_pos pDecodes_thr, pDecodes_thr, pWrite_of_chip s p _ (by decide) (by decide), hfp,
    reply_setChip]
  rfl

/-! ### Reads, pixel words and streams -/

theorem doRegRd_of_decoded (h : pDecodes (half pl 4) = true) : s.doRegRd p pl =
    s.setChip p (((s.chip p).afterRead (half pl 4)).answers false (byteAt pl 2 % 2 == 1) (half pl 4)
      (if byteAt pl 2 % 2 = 1 then (s.chip p).stagedWord (half pl 4) else (s.chip p).word (half pl 4)) (byteAt pl 1) false) := by
  simp only [State.doRegRd, h, if_true, updChip_eq_setChip, reply_setChip, beq_iff_eq]

theorem doRegRd_of_undecoded (h : pDecodes (half pl 4) = false) : s.doRegRd p pl =
    s.reply p pl false (byteAt pl 2 % 2 == 1) (half pl 4) 0 true := if_neg (by simp [h])

theorem doPixWr_of_pixel (hcol : half pl 4 < 512) (hrow : half pl 6 < 512) : s.doPixWr p pl =
    s.setChip p (((s.chip p).writePix (pixIdx (half pl 4) (half pl 6)) (BitVec.ofNat 16 (half pl 8))).answers true false
      (pixIdx (half pl 4) (half pl 6)) (half pl 8) (byteAt pl 1) false) := by
  rw [State.doPixWr, if_pos ⟨hcol, hrow⟩, updChip_eq_setChip, reply_setChip]

theorem doPixWr_outside (h : 512 ≤ half pl 4 ∨ 512 ≤ half pl 6) : s.doPixWr p pl = s.reply p pl true false 0 0 true := if_neg (by omega)

theorem doPixRd_one (hcount : byteAt pl 2 = 1) (hcol : half pl 4 < 512) (hrow : half pl 6 < 512) : s.doPixRd p pl =
    s.reply p pl true false (pixIdx (half pl 4) (half pl 6)) ((s.chip p).pixWord (pixIdx (half pl 4) (half pl 6))).toNat false := by
  simp [State.doPixRd, hcount, hcol, hrow, pixRun]

theorem doPixRd_badCount (h : byteAt pl 2 = 0 ∨ 16 < byteAt pl 2) : s.doPixRd p pl = s.reply p pl true false 0 0 true := if_neg (by omega)

theorem doPixStream_two (hcount : byteAt pl 2 = 2) : s.doPixStream p pl =
    s.setChip p ((((s.chip p).writePixdata (BitVec.ofNat 16 (half pl 4))).writePixdata (BitVec.ofNat 16 (half pl 6))).answers false false 0x22
      (half pl 6) (byteAt pl 1) false) := by
  have hwords : (List.range 2).map (fun i => half pl (4 + 2 * i)) = [half pl 4, half pl 6] := rfl
  rw [State.doPixStream, hcount, hwords, if_pos (by decide), updChip_eq_setChip, reply_setChip]
  rfl

/-! ### COMMIT (R395) -/

theorem doCommit_cancel (h : bitAt (half pl 8) 15 = true) : s.doCommit p pl =
    s.setChip p ({ s.chip p with commit := none }.answers false false 0 0x8000 (byteAt pl 1) false) := by
  rw [State.doCommit, if_pos h, updChip_eq_setChip, reply_setChip]

section
variable (hkeep : bitAt (half pl 8) 15 = false) {ahead : Nat}
  (hahead : ahead = ticksSince (beNat (slice pl 4 4) * 4096 + half pl 8 % 4096) (s.chip p).now)
include hkeep hahead

theorem doCommit_passed (h : ahead = 0 ∨ 2 ^ 43 ≤ ahead) : s.doCommit p pl = s.reply p pl false false 0 0 true := by
  subst hahead
  rw [State.doCommit, if_neg (by simp [hkeep]), if_pos h]

theorem doCommit_ahead (hpos : 0 < ahead) (hlt : ahead < 2 ^ 43) : s.doCommit p pl =
    s.setChip p ({ s.chip p with commit := some (beNat (slice pl 4 4), half pl 8 % 4096) }.answers false false 0 0 (byteAt pl 1) false) := by
  subst hahead
  rw [State.doCommit, if_neg (by simp [hkeep]), if_neg (by omega), updChip_eq_setChip, reply_setChip]

end

end

/-! ### SYNC and ECHO (R323, R324) -/

section
variable {s : State} {p : Port} {b : RxBlock} {pl : List Byte}

theorem exec_downlinkSyncReceive_of_hears (h : s.pelnosHears p b .sync pl) :
    exec (.downlinkSyncReceive p b) s = .next (s.setChip p ((s.chip p).sync (beNat (slice pl 0 4)) (half pl 4))) := by
  obtain ⟨-, hkind, hpayload, -⟩ := id h
  refine congrArg Host.Outcome.next ?_
  simp [dlReceive_of_hears h, hkind, hpayload, updChip_eq_setChip]

theorem exec_pelnosEchoAnswer_of_hears (h : s.pelnosHears p b .echo pl) (hreq : byteAt pl 0 = 1) (fine : Byte) (turn : Fin 16777216) :
    exec (.pelnosEchoAnswer p b fine turn) s = .next (s.setChip p { s.chip p with
      echo := (s.chip p).echo ++ [(s.chip p).echoAnswer (pl.getD 1 0) fine.toNat turn.val] }) := by
  obtain ⟨-, hkind, hpayload, -⟩ := id h
  refine congrArg Host.Outcome.next ?_
  simp [dlReceive_of_hears h, hkind, hpayload, hreq, updChip_eq_setChip]

end

section
variable (c : Pelnos)

theorem sync_of_equal {frame half : Nat} (hload : bitAt half 15 = false)
    (heq : c.now % tickMod = (frame * 4096 + half % 4096 + tickMod - 64) % tickMod) : c.sync frame half = c := by
  rw [Pelnos.sync, if_neg (by simp [hload]), if_pos heq]

theorem sync_of_slip {frame half : Nat} (hload : bitAt half 15 = false)
    (hne : c.now % tickMod ≠ (frame * 4096 + half % 4096 + tickMod - 64) % tickMod) :
    c.sync frame half = (c.put P.SYNC_STAT.SLIP 1).bump P.SYNC_STAT.SLIPS 1 := by
  rw [Pelnos.sync, if_neg (by simp [hload]), if_neg hne]

theorem sync_of_load {frame half : Nat} (hload : bitAt half 15 = true) :
    c.sync frame half = c.load ((frame * 4096 + half % 4096 + tickMod - 64) % tickMod) (bitAt half 14) := by
  rw [Pelnos.sync, if_pos hload]

/-- The counter as a load of `t` sets it (R323). -/
def Pelnos.loaded (c : Pelnos) (t : Nat) : Pelnos :=
  let shift (x : Nat) : Nat := (x + tickMod + t - c.now % tickMod) % tickMod
  if t = c.now % tickMod ∧ c.get P.SYNC_STAT.LOADED = 1 then c
  else { c.closeAll with
    frame := t / 4096, coarse := t % 4096, era := c.closeAll.era + 1, nextClose := t / 4096,
    settle := c.closeAll.settle.map fun w => (shift w.1, shift w.1 + (w.2 - w.1)),
    csu := c.closeAll.csu.map fun r => { r with pulse := r.pulse.map shift } }

theorem loaded_now {t : Nat} (ht : t < tickMod) : (c.loaded t).now % tickMod = t := by
  unfold Pelnos.loaded
  split
  · rename_i h
    exact h.1.symm
  · have hnow : t / 4096 * 4096 + t % 4096 = t := by omega
    exact (congrArg (· % tickMod) hnow).trans (Nat.mod_eq_of_lt ht)

theorem load_eq (t : Nat) (epoch : Bool) : c.load t epoch =
    (if c.get P.SYNC_STAT.LOADED == 0 then Pelnos.carryRecs else id)
      (if epoch then ((c.loaded (t % tickMod)).put P.SYNC_STAT.LOADED 1).put P.SYNC_STAT.HOLD 1
        else (c.loaded (t % tickMod)).put P.SYNC_STAT.LOADED 1) := by
  unfold Pelnos.load Pelnos.loaded
  dsimp only
  split <;> rfl

/-- R323: after a load the counter reads `t` and shows LOADED, and HOLD for an epoch. -/
theorem load_shows {t : Nat} (ht : t < tickMod) (epoch : Bool) : (c.load t epoch).now % tickMod = t ∧
    (c.load t epoch).get P.SYNC_STAT.LOADED = 1 ∧ (epoch = true → (c.load t epoch).get P.SYNC_STAT.HOLD = 1) := by
  have hnow := loaded_now c ht
  rw [load_eq, Nat.mod_eq_of_lt ht]
  generalize c.loaded t = d at hnow ⊢
  have hshown : (if epoch then (d.put P.SYNC_STAT.LOADED 1).put P.SYNC_STAT.HOLD 1 else d.put P.SYNC_STAT.LOADED 1).now % tickMod = t ∧
      (if epoch then (d.put P.SYNC_STAT.LOADED 1).put P.SYNC_STAT.HOLD 1 else d.put P.SYNC_STAT.LOADED 1).get P.SYNC_STAT.LOADED = 1 ∧
      (epoch = true → (if epoch then (d.put P.SYNC_STAT.LOADED 1).put P.SYNC_STAT.HOLD 1 else d.put P.SYNC_STAT.LOADED 1).get
        P.SYNC_STAT.HOLD = 1) := by
    cases epoch with
    | false => exact ⟨hnow, Pelnos.get_put_same _ _, nofun⟩
    | true => exact ⟨hnow, (Pelnos.get_put_ne _ _ (by decide)).trans (Pelnos.get_put_same _ _), fun _ => Pelnos.get_put_same _ _⟩
  split
  · exact hshown
  · exact hshown

end

/-! ### Commits and snapshots at Pelnos (R391, R395) -/

/-- A port with no command waiting sends nothing. -/
theorem dlSend_nil {s : State} {p : Port} (hwait : (s.port p).dlWait = []) : s.dlSend p [] = s := by
  have hsame : s.updPort p (fun q => { q with dlWait := q.dlWait ++ [] }) = s := by
    rw [updPort_eq_setPort, List.append_nil]
    exact setPort_self s p
  rw [State.dlSend, hsame, hwait]
  rfl

/-- Opening a window of a class touches the window and the blanking alone. -/
theorem settleBy_eq {c : Pelnos} {len : Nat} (hlen : len ≠ 0) : ∃ fp, c.settleBy len =
    { c with settle := openSettle c.settle c.now len, settleBlank := true }.withPulse fp := by
  rw [Pelnos.settleBy, if_neg hlen]
  exact forAfter_eq_withPulse c _

theorem openSettle_ne_nil (ws : List (Nat × Nat)) (now len : Nat) : openSettle ws now len ≠ [] := by
  unfold openSettle
  split
  · split
    · simp
    · simp
  · simp

/-- P_THR stands apart from the other words with staged copies. -/
theorem thr_key_ne : P.THR.THR.key ≠ P.FE_CFG.FE_EN.key ∧ P.THR.THR.key ≠ P.FE_CFG.POL.key ∧ P.THR.THR.key ≠ P.FE_CFG.LEAK_COMP.key ∧
    P.THR.THR.key ≠ P.TRIM_CFG.STEP.key ∧ P.THR.THR.key ≠ P.IFB.IFB.key := by decide

section
variable {c : Pelnos} {v : Nat} (hstaged : c.staged = [(P.THR.THR.key, some v)])
include hstaged

theorem commitClass_thr (hne : v ≠ c.get P.THR.THR) : c.commitClass = threshClass := by
  obtain ⟨hen, hpol, hleak, hstep, hifb⟩ := thr_key_ne
  simp only [Pelnos.commitClass, shFields, List.foldl_cons, List.foldl_nil, hstaged, Tab.get, if_neg hen, if_neg hpol, if_neg hleak,
    if_neg hstep, if_neg hifb, if_true, if_neg hne]
  rfl

/-- R395: a commit of a staged threshold applies it and opens a window of its class. -/
theorem applyStaged_thr (hne : v ≠ c.get P.THR.THR) : ∃ fp, c.applyStaged = { c.put P.THR.THR v with
    staged := [], commit := none, settle := openSettle c.settle c.now threshClass, settleBlank := true }.withPulse fp := by
  obtain ⟨hen, hpol, hleak, hstep, hifb⟩ := thr_key_ne
  have hclass := commitClass_thr hstaged hne
  simp only [Pelnos.applyStaged, shFields, List.foldl_cons, List.foldl_nil, hstaged, Tab.get, if_neg hen, if_neg hpol, if_neg hleak,
    if_neg hstep, if_neg hifb, if_true, hclass]
  obtain ⟨fp, hfp⟩ := settleBy_eq (c := { c.put P.THR.THR v with staged := [], commit := none }) (len := threshClass) (by decide)
  rw [hfp]
  exact forAfter_eq_withPulse c _

end

section
variable {s : State} {p : Port} {f k : Nat} (hwait : (s.port p).dlWait = []) (hcommit : (s.chip p).commit = some (f, k))
include hwait hcommit

theorem exec_commitApply_due (hdue : ticksSince ((s.chip p).now + 3) (f * 4096 + k) < 2 ^ 43) :
    exec (.commitApply p) s = .next (s.setChip p (s.chip p).applyStaged) := by
  refine congrArg Host.Outcome.next ?_
  rw [updChip_eq_setChip]
  simp only [hcommit, if_pos hdue]
  exact dlSend_nil hwait

theorem exec_commitApply_early (hearly : 2 ^ 43 ≤ ticksSince ((s.chip p).now + 3) (f * 4096 + k)) :
    exec (.commitApply p) s = .next s := by
  refine congrArg Host.Outcome.next ?_
  rw [updChip_eq_setChip]
  simp only [hcommit, if_neg (Nat.not_lt.mpr hearly), setChip_self]
  exact dlSend_nil hwait

end

/-- P_SNAP_CTL as a word. -/
theorem snapCtl_fields : fieldsAt 1 P.rows 0x60 = [P.SNAP_CTL.ARM, P.SNAP_CTL.TAKEN] := by decide

/-- Arming sets ARM and clears TAKEN (R391). -/
theorem writeReg_arm (c : Pelnos) : ∃ fp, c.writeReg 0x60 1 = ((c.put P.SNAP_CTL.ARM 1).put P.SNAP_CTL.TAKEN 0).withPulse fp := by
  have harm : c.writeField 0x60 1 P.SNAP_CTL.ARM = c.put P.SNAP_CTL.ARM 1 := writeField_of_rw rfl rfl (by decide) 1
  have hplain : c.writePlain 0x60 1 = c.put P.SNAP_CTL.ARM 1 := by
    rw [writePlain_eq_foldl, snapCtl_fields]
    exact congrArg (fun d : Pelnos => d.writeField 0x60 1 P.SNAP_CTL.TAKEN) harm
  obtain ⟨fp, hfp⟩ := forAfter_eq_withPulse c (c.put P.SNAP_CTL.ARM 1)
  have hwrite : c.writeReg 0x60 1 = (forAfter c (c.writePlain 0x60 1)).put P.SNAP_CTL.TAKEN 0 := rfl
  exact ⟨fp, by rw [hwrite, hplain, hfp]; rfl⟩

/-! ### The snapshot latch (R391) -/

/-- Write each field of `l` with its value, in order. -/
def Pelnos.putAll (c : Pelnos) (l : List (Field × Nat)) : Pelnos := l.foldl (fun d x => d.put x.1 x.2) c

theorem putAll_eq (c : Pelnos) (l : List (Field × Nat)) : c.putAll l = { c with regs := (c.putAll l).regs } := by
  induction l generalizing c with
  | nil => rfl
  | cons x l ih => exact ih (c.put x.1 x.2)

theorem putAll_append (c : Pelnos) (l m : List (Field × Nat)) : c.putAll (l ++ m) = (c.putAll l).putAll m := List.foldl_append

theorem putAll_get_of_apart (c : Pelnos) {l : List (Field × Nat)} {g : Field} (h : ∀ x ∈ l, g.key ≠ x.1.key) :
    (c.putAll l).get g = c.get g := by
  induction l generalizing c with
  | nil => rfl
  | cons x l ih =>
    exact (ih _ fun y hy => h y (List.mem_cons_of_mem x hy)).trans (Pelnos.get_put_ne _ _ (h x List.mem_cons_self))

/-- The last write of a field is the one that it shows. -/
theorem putAll_get (c : Pelnos) (l : List (Field × Nat)) {m : List (Field × Nat)} {g : Field} (v : Nat) (h : ∀ x ∈ m, g.key ≠ x.1.key) :
    (c.putAll (l ++ (g, v) :: m)).get g = v % 2 ^ g.wid := by
  rw [putAll_append]
  exact (putAll_get_of_apart ((c.putAll l).put g v) h).trans (Pelnos.get_put_same _ _)

section
variable (c : Pelnos)

/-- The copies of the words that P_SNAP_COPYk images, from the `k`-th on. -/
def Pelnos.copyImages (ws : List Nat) (k : Nat) : List (Field × Nat) :=
  (ws.zipIdx k).map fun x => (P.SNAP_COPYk.IMAGE.at x.2, c.word x.1)

/-- The copies of the words of the double-columns. -/
def Pelnos.columnImages : List (Field × Nat) := (List.range 256).flatMap fun n =>
  [(P.SNAP_DCn_1.IMAGE.at (4 * n), c.word (0x401 + 4 * n)), (P.SNAP_DCn_2.IMAGE.at (4 * n), c.word (0x402 + 4 * n)),
    (P.SNAP_DCn_3.IMAGE.at (4 * n), c.word (0x403 + 4 * n))]

/-- The copies of the monitor's results. -/
def Pelnos.monImages : List (Field × Nat) := (List.range 24).map fun k => (P.SNAP_MONk.IMAGE.at k, c.word (0x310 + k))

/-- What the latch writes besides the sums and the copied words. -/
def Pelnos.latchTail : List (Field × Nat) := c.columnImages ++ (c.monImages ++ [(P.SNAP_CTL.ARM, 0), (P.SNAP_CTL.TAKEN, 1)])

/-- The two halves of a sum. -/
def sumHalves (f : Field) (v : Nat) : List (Field × Nat) := [(f, v), (f.at 1, v / 65536)]

theorem snapLatch_eq_putAll : c.snapLatch = c.putAll (sumHalves P.SNAP_PILEUP.HALF (c.dcSum P.DCn_PILEUP.COUNT) ++
    (sumHalves P.SNAP_DROP.HALF (c.dcSum P.DCn_DROP.COUNT) ++ (c.copyImages snapWords 0 ++ c.latchTail))) := by
  simp only [Pelnos.latchTail, putAll_append]
  simp only [Pelnos.putAll, Pelnos.copyImages, Pelnos.columnImages, Pelnos.monImages, List.foldl_map, List.foldl_flatMap, List.foldl_cons,
    List.foldl_nil]
  rfl

theorem mem_copyImages {ws : List Nat} {k : Nat} {x : Field × Nat} (hx : x ∈ c.copyImages ws k) : (0x68 + k) * 64 ≤ x.1.key := by
  obtain ⟨y, hy, rfl⟩ := List.mem_map.mp hx
  have hk := List.le_snd_of_mem_zipIdx hy
  simp only [Field.key, Field.at, P.SNAP_COPYk.IMAGE]
  omega

theorem mem_latchTail {x : Field × Nat} (hx : x ∈ c.latchTail) : 0x330 * 64 ≤ x.1.key ∨ x.1.key ≤ 0x60 * 64 + 1 := by
  simp only [Pelnos.latchTail, Pelnos.columnImages, Pelnos.monImages, List.mem_append, List.mem_flatMap, List.mem_map, List.mem_cons,
    List.not_mem_nil, or_false] at hx
  rcases hx with ⟨n, -, rfl | rfl | rfl⟩ | ⟨k, -, rfl⟩ | rfl | rfl
  all_goals
    simp only [Field.key, Field.at, P.SNAP_DCn_1.IMAGE, P.SNAP_DCn_2.IMAGE, P.SNAP_DCn_3.IMAGE, P.SNAP_MONk.IMAGE, P.SNAP_CTL.ARM,
      P.SNAP_CTL.TAKEN]
    omega

/-- A field between P_SNAP_CTL and the copies stands apart from what is copied. -/
theorem copies_apart {g : Field} (hlo : 0x60 * 64 + 1 < g.key) (hhi : g.key < 0x68 * 64) {x : Field × Nat}
    (hx : x ∈ c.copyImages snapWords 0 ++ c.latchTail) : g.key ≠ x.1.key := by
  rcases List.mem_append.mp hx with hx | hx
  · have hkey := mem_copyImages c hx
    omega
  · have hkey := mem_latchTail c hx
    omega

theorem sum_map_range (g : Nat → Nat) (n : Nat) : ((List.range n).map g).sum = ∑ k : Fin n, g k := Finset.sum_range g

theorem dcSum_eq_sum (f : Field) : c.dcSum f = ∑ n : Fin 256, c.get (f.at (4 * n)) := sum_map_range (fun n => c.get (f.at (4 * n))) 256

/-- The halves of PILEUP stand apart from each other and from those of DROP. -/
theorem sumHalves_key_ne : P.SNAP_PILEUP.HALF.key ≠ (P.SNAP_PILEUP.HALF.at 1).key ∧ P.SNAP_PILEUP.HALF.key ≠ P.SNAP_DROP.HALF.key ∧
    P.SNAP_PILEUP.HALF.key ≠ (P.SNAP_DROP.HALF.at 1).key ∧ (P.SNAP_PILEUP.HALF.at 1).key ≠ P.SNAP_DROP.HALF.key ∧
    (P.SNAP_PILEUP.HALF.at 1).key ≠ (P.SNAP_DROP.HALF.at 1).key := by decide

theorem drop_apart {g : Field} (hlo : 0x60 * 64 + 1 < g.key) (hhi : g.key < 0x68 * 64) (hlow : g.key ≠ P.SNAP_DROP.HALF.key)
    (hhigh : g.key ≠ (P.SNAP_DROP.HALF.at 1).key) (v : Nat) {x : Field × Nat}
    (hx : x ∈ sumHalves P.SNAP_DROP.HALF v ++ (c.copyImages snapWords 0 ++ c.latchTail)) : g.key ≠ x.1.key := by
  rcases List.mem_append.mp hx with hx | hx
  · simp only [sumHalves, List.mem_cons, List.not_mem_nil, or_false] at hx
    rcases hx with rfl | rfl
    · exact hlow
    · exact hhigh
  · exact copies_apart c hlo hhi hx

theorem snapLatch_pileup : c.snapLatch.get P.SNAP_PILEUP.HALF + 65536 * c.snapLatch.get (P.SNAP_PILEUP.HALF.at 1) =
    c.dcSum P.DCn_PILEUP.COUNT % 2 ^ 32 := by
  obtain ⟨hhalves, hlowLow, hlowHigh, hhighLow, hhighHigh⟩ := sumHalves_key_ne
  generalize hsum : c.dcSum P.DCn_PILEUP.COUNT = v
  have hlow : c.snapLatch.get P.SNAP_PILEUP.HALF = v % 65536 := by
    rw [snapLatch_eq_putAll, hsum]
    refine putAll_get c [] v fun x hx => ?_
    rcases List.mem_cons.mp hx with rfl | hx
    · exact hhalves
    · exact drop_apart c (by decide) (by decide) hlowLow hlowHigh _ hx
  have hhigh : c.snapLatch.get (P.SNAP_PILEUP.HALF.at 1) = v / 65536 % 65536 := by
    rw [snapLatch_eq_putAll, hsum]
    exact putAll_get c [(P.SNAP_PILEUP.HALF, v)] (v / 65536) fun x hx =>
      drop_apart c (by decide) (by decide) hhighLow hhighHigh _ hx
  rw [hlow, hhigh]
  omega

/-- The first copy is that of the first imaged word. -/
theorem snapLatch_copy : c.snapLatch.get P.SNAP_COPYk.IMAGE = c.word 0x34 % 65536 := by
  rw [snapLatch_eq_putAll, ← List.append_assoc]
  have hcopy : P.SNAP_COPYk.IMAGE.key = 0x68 * 64 := rfl
  refine putAll_get c _ (g := P.SNAP_COPYk.IMAGE) (c.word 0x34) fun x hx => ?_
  rcases List.mem_append.mp hx with hx | hx
  · have hkey := mem_copyImages c (ws := snapWords.tail) (k := 1) hx
    omega
  · have hkey := mem_latchTail c hx
    omega

theorem snapLatch_ctl : c.snapLatch.get P.SNAP_CTL.ARM = 0 ∧ c.snapLatch.get P.SNAP_CTL.TAKEN = 1 :=
  ⟨(Pelnos.get_put_ne _ _ (by decide)).trans (Pelnos.get_put_same _ _), Pelnos.get_put_same _ _⟩

end

theorem exec_pelnosSnapshotLatch_of_met {s : State} {p : Port} (harm : (s.chip p).get P.SNAP_CTL.ARM = 1)
    (hframe : (s.chip p).frame % 65536 = (s.chip p).get P.SNAP_FRAME.FRAME)
    (hcoarse : (s.chip p).coarse / 4 = (s.chip p).get P.SNAP_COARSE.COARSE / 4) :
    exec (.pelnosSnapshotLatch p) s = .next (s.setChip p (s.chip p).snapLatch) := by
  refine congrArg Host.Outcome.next ?_
  rw [updChip_eq_setChip, if_pos ⟨harm, hframe, hcoarse⟩]

theorem exec_pelnosSnapshotLatch_of_unarmed {s : State} {p : Port} (harm : (s.chip p).get P.SNAP_CTL.ARM = 0) :
    exec (.pelnosSnapshotLatch p) s = .next s := by
  refine congrArg Host.Outcome.next ?_
  rw [updChip_eq_setChip, if_neg (by simp [harm])]
  exact setChip_self s p

theorem exec_epochHoldEnd (p : Port) (s : State) : exec (.epochHoldEnd p) s = .next (s.setChip p
    (if (s.chip p).frame % 2 ^ 32 < 2 ^ 31 then (s.chip p).put P.SYNC_STAT.HOLD 0 else s.chip p)) := rfl

theorem exec_snapshotArm (p : Port) (s : State) : exec (.snapshotArm p) s = .next (s.setChip p ((s.chip p).writeReg 0x60 1)) :=
  congrArg Host.Outcome.next (pWrite_of_chip s p 1 (by decide) (by decide))

/-- Settles O43: the block is heard, so each command does what its operation does; a commit applies the staged threshold, and the latch writes
its fields in order, each apart from the next. -/
theorem pelnosDownlink : Obligations.PelnosDownlink := by
  unfold Obligations.PelnosDownlink
  intro s p c hc
  subst hc
  refine ⟨fun b pl tag h htag => ?_, fun b pl t h ht => ⟨fun hload hnow => ?_, fun hload hnow => ?_, fun hload _ => ?_⟩,
    fun b pl fine turn h hreq => ?_, fun hframe => ?_, fun hframe => ?_,
    fun f k v hwait hcommit hv hne hstaged => ⟨fun hdue => ?_, fun hearly => ?_⟩, ?_, fun harm hframe hcoarse => ?_, fun harm => ?_⟩
  · subst htag
    refine ⟨fun hop hcount => ⟨fun hdec => ?_, fun hdec => ?_, fun haddr => ?_⟩, fun hop hcount => ?_, fun hop hdec => ?_, fun hop hdec => ?_,
      fun hop hcol hrow => ?_, fun hop hout => ?_, fun hop hcount hcol hrow => ?_, fun hop hcount => ?_, fun hop hcount => ?_,
      fun hop => ⟨fun hcancel => ?_, fun ahead hkeep hahead => ⟨fun hpast => ?_, fun hpos hlt => ?_⟩⟩, fun hop => ?_⟩
    · rw [exec_regWr_of_hears h hop, doRegWr_one hcount, if_pos hdec, if_pos hdec, hdec]
      rfl
    · rw [exec_regWr_of_hears h hop, doRegWr_one hcount, if_neg (by simp [hdec]), if_neg (by simp [hdec]), hdec]
      rfl
    · obtain ⟨d, hd, hthr, hstaged⟩ := doRegWr_thr (s := s) (p := p) hcount haddr
      refine ⟨_, exec_regWr_of_hears h hop, ?_⟩
      rw [hd, chip_setChip]
      exact ⟨rfl, hthr, hstaged⟩
    · rw [exec_regWr_of_hears h hop, doRegWr_badCount hcount]
      rfl
    · rw [exec_regRd_of_hears h hop, doRegRd_of_decoded hdec]
    · rw [exec_regRd_of_hears h hop, doRegRd_of_undecoded hdec]
      rfl
    · rw [exec_pixWr_of_hears h hop, doPixWr_of_pixel hcol hrow]
      rfl
    · rw [exec_pixWr_of_hears h hop, doPixWr_outside hout]
      rfl
    · rw [exec_pixRd_of_hears h hop, doPixRd_one hcount hcol hrow]
      rfl
    · rw [exec_pixRd_of_hears h hop, doPixRd_badCount hcount]
      rfl
    · rw [exec_pixStream_of_hears h hop, doPixStream_two hcount]
    · rw [exec_commit_of_hears h hop, doCommit_cancel hcancel]
    · rw [exec_commit_of_hears h hop, doCommit_passed hkeep hahead hpast]
      rfl
    · rw [exec_commit_of_hears h hop, doCommit_ahead hkeep hahead hpos hlt]
    · rw [exec_unknownDownlinkOp_of_hears h hop]
      rfl
  · rw [exec_downlinkSyncReceive_of_hears h, sync_of_equal _ hload (hnow.trans ht), setChip_self]
  · rw [exec_downlinkSyncReceive_of_hears h, sync_of_slip _ hload fun heq => hnow (heq.trans ht.symm)]
  · obtain ⟨hnow, hloaded, hhold⟩ := load_shows (s.chip p) (Nat.mod_lt (beNat (slice pl 0 4) * 4096 + half pl 4 % 4096 + tickMod - 64)
      (by decide : 0 < tickMod)) (bitAt (half pl 4) 14)
    refine ⟨_, exec_downlinkSyncReceive_of_hears h, ?_⟩
    rw [sync_of_load _ hload]
    exact ⟨hnow.trans ht.symm, hloaded, hhold⟩
  · rw [exec_pelnosEchoAnswer_of_hears h hreq]
    rfl
  · rw [exec_epochHoldEnd, if_pos (Nat.lt_of_le_of_lt (Nat.mod_le _ _) hframe)]
  · rw [exec_epochHoldEnd, if_neg (Nat.not_lt.mpr hframe), setChip_self]
  · obtain ⟨fp, hfp⟩ := applyStaged_thr hstaged hne
    refine ⟨_, exec_commitApply_due hwait hcommit hdue, ?_⟩
    rw [hfp]
    exact ⟨(Pelnos.get_put_same _ _).trans (Nat.mod_eq_of_lt hv), rfl, rfl, rfl, openSettle_ne_nil _ _ _, chipRegsBut_put _ _ _⟩
  · exact exec_commitApply_early hwait hcommit hearly
  · obtain ⟨fp, hfp⟩ := writeReg_arm (s.chip p)
    refine ⟨_, exec_snapshotArm p s, ?_⟩
    rw [hfp]
    exact ⟨by rw [Pelnos.get_withPulse, Pelnos.get_put_ne _ _ (by decide), Pelnos.get_put_same]; rfl,
      by rw [Pelnos.get_withPulse, Pelnos.get_put_same]; rfl,
      ((chipRegsBut_put (s.chip p) P.SNAP_CTL.ARM 1).mono (by simp)).trans ((chipRegsBut_put _ P.SNAP_CTL.TAKEN 0).mono (by simp))⟩
  · obtain ⟨hctl, htaken⟩ := snapLatch_ctl (s.chip p)
    refine ⟨_, exec_pelnosSnapshotLatch_of_met harm hframe hcoarse, hctl, htaken, ?_, snapLatch_copy _, ?_⟩
    · rw [snapLatch_pileup, dcSum_eq_sum]
    · rw [snapLatch_eq_putAll]
      exact putAll_eq _ _
  · exact exec_pelnosSnapshotLatch_of_unarmed harm

end Sys2Proof.Machine
end

section
/-!
PROOFS. The endpoint: its link, its resets and received TLP errors (R249 to R251, R402, R411; O47).
-/

namespace Sys2Proof.Machine

/-! ### The link of the endpoint -/

/-- Source 524 is bit 0 of the host's events. -/
theorem evBits_link : evBits 524 = (Z.HOST_EVSTAT.PEND, Z.HOST_EVEN.EN, 0) := by simp [evBits]

/-- The fields in which a link change shows, with those of its event. -/
def linkFields : List Field := [Z.HOST_LINK.SPEED, Z.HOST_LINK.WIDTH, Z.HOST_LINK.FLIT, Z.HOST_EVSTAT.PEND, Z.EVT_STAT.FILTERED]

/-- A new link state shows in SPEED, WIDTH and FLIT and raises LINK, and nothing else changes. -/
theorem pcieLink_shows (s : State) {speed width : Nat} (flit : Bool) (hspeed : speed < 8) (hwidth : width < 32) :
    onlyEvent linkFields s (s.pcieLink speed width flit) ∧ (s.pcieLink speed width flit).zget Z.HOST_LINK.SPEED = speed ∧
      (s.pcieLink speed width flit).zget Z.HOST_LINK.WIDTH = width ∧ (s.pcieLink speed width flit).zget Z.HOST_LINK.FLIT = flit.toNat ∧
      bitAt ((s.pcieLink speed width flit).zget Z.HOST_EVSTAT.PEND) 0 = true := by
  have hregs : onlyRegs [Z.HOST_LINK.SPEED, Z.HOST_LINK.WIDTH, Z.HOST_LINK.FLIT] s
      (((s.zput Z.HOST_LINK.SPEED speed).zput Z.HOST_LINK.WIDTH width).zput Z.HOST_LINK.FLIT (b2n flit)) :=
    ((onlyRegs_zput s (by simp) _).trans (onlyRegs_zput _ (by simp) _)).trans (onlyRegs_zput _ (by simp) _)
  have honly := onlyEvent_of_raise hregs 524 [b8 speed, b8 width, b8 (b2n (speed != 0) + 2 * b2n flit)]
  rw [evBits_link] at honly
  refine ⟨honly, ?_, ?_, ?_, ?_⟩
  · rw [State.pcieLink, raise_zget (by rw [evBits_link]; decide) (by decide), State.zget_zput_ne _ _ (by decide),
      State.zget_zput_ne _ _ (by decide), State.zget_zput]
    exact Nat.mod_eq_of_lt hspeed
  · rw [State.pcieLink, raise_zget (by rw [evBits_link]; decide) (by decide), State.zget_zput_ne _ _ (by decide), State.zget_zput]
    exact Nat.mod_eq_of_lt hwidth
  · rw [State.pcieLink, raise_zget (by rw [evBits_link]; decide) (by decide), State.zget_zput]
    cases flit <;> rfl
  · have hpend := raise_pend (((s.zput Z.HOST_LINK.SPEED speed).zput Z.HOST_LINK.WIDTH width).zput Z.HOST_LINK.FLIT (b2n flit)) 524
      [b8 speed, b8 width, b8 (b2n (speed != 0) + 2 * b2n flit)] (by rw [evBits_link]; decide) (by rw [evBits_link]; decide)
    rwa [evBits_link] at hpend

/-- R411: after training has started, at a speed that MAX_SPEED allows, the link takes a state that is new. -/
theorem linkChange_up {s : State} {speed width : Nat} {flit : Bool} (hup : speed ≠ 0) (htrain : s.pwr.training = true)
    (hmax : speed ≤ s.zget Z.HOST_LINK.MAX_SPEED)
    (hnew : s.zget Z.HOST_LINK.SPEED ≠ speed ∨ s.zget Z.HOST_LINK.WIDTH ≠ width ∨ s.zget Z.HOST_LINK.FLIT ≠ flit.toNat) :
    s.linkChange speed width flit = s.pcieLink speed width flit := by
  have hb : b2n flit = flit.toNat := by cases flit <;> rfl
  have hsame : (s.zget Z.HOST_LINK.SPEED == speed && s.zget Z.HOST_LINK.WIDTH == width && s.zget Z.HOST_LINK.FLIT == b2n flit) = false := by
    rw [hb]
    simp only [Bool.and_eq_false_iff, beq_eq_false_iff_ne]
    tauto
  rw [State.linkChange, if_neg (by simp [hsame, htrain, Nat.not_lt.mpr hmax]), if_neg hup]

theorem linkChange_refused {s : State} {speed width : Nat} {flit : Bool} (hup : speed ≠ 0)
    (hno : s.pwr.training = false ∨ s.zget Z.HOST_LINK.MAX_SPEED < speed) : s.linkChange speed width flit = s :=
  if_pos (.inr ⟨hup, hno.imp (fun h => by simp [h]) id⟩)

theorem linkChange_down {s : State} {width : Nat} {flit : Bool} (hwas : s.zget Z.HOST_LINK.SPEED ≠ 0) :
    s.linkChange 0 width flit = s.pcieLink 0 0 false := by
  rw [State.linkChange, if_neg (by simp [hwas]), if_pos rfl]

/-! ### Registers that a reset clears -/

/-- The fields of `fs` are cleared. -/
def State.clearAll (s : State) (fs : List Field) : State := s.updZreg fun z => fs.foldl (fun z f => fset z f 0) z

theorem clearAll_cons (s : State) (f : Field) (fs : List Field) : s.clearAll (f :: fs) = (s.zput f 0).clearAll fs := rfl

theorem clearAll_nil (s : State) : s.clearAll [] = s := rfl

theorem clearAll_append (s : State) (fs gs : List Field) : s.clearAll (fs ++ gs) = (s.clearAll fs).clearAll gs := by
  unfold State.clearAll
  rw [State.updZreg, List.foldl_append]
  rfl

/-- A field that is cleared reads zero, where no other field of the list shares its key. -/
theorem clearAll_zget {f : Field} (fs : List Field) (s : State) (hsole : ∀ g ∈ fs, g.key = f.key → g = f)
    (hf : f ∈ fs ∨ s.zget f = 0) : (s.clearAll fs).zget f = 0 := by
  induction fs generalizing s with
  | nil => exact hf.resolve_left List.not_mem_nil
  | cons g fs ih =>
    rw [clearAll_cons]
    refine ih _ (fun g hg => hsole g (List.mem_cons_of_mem _ hg)) ?_
    by_cases hkey : f.key = g.key
    · rw [hsole g List.mem_cons_self hkey.symm, State.zget_zput]
      exact .inr (Nat.zero_mod _)
    · refine hf.imp (fun h => ?_) fun h => (State.zget_zput_ne _ _ hkey).trans h
      exact (List.mem_cons.mp h).resolve_left fun heq => hkey (congrArg Field.key heq)

theorem clearAll_regsBut (fs : List Field) (s : State) : regsBut fs s (s.clearAll fs) := by
  induction fs generalizing s with
  | nil => exact fun _ _ => rfl
  | cons f fs ih =>
    exact (regsBut.zput (t := s) (fun _ _ => rfl) List.mem_cons_self 0).trans ((ih (s.zput f 0)).mono (List.subset_cons_self f fs))

/-! ### The effects of R251 -/

/-- What R251 clears of a ring's configuration. -/
def ringResetFields (r : Nat) : List Field := [ZR.CFG.EN.hring r, ZR.CFG.ERR.hring r, ZR.CFG.VECTOR.hring r]

/-- What R251 clears of the registers: EN, ERR and VECTOR of every ring, and the shadow area's settings. -/
def resetFields : List Field := (List.range 8).flatMap ringResetFields ++ [Z.HOST_SHADOW.EN, Z.HOST_SHADOW.ADDR]

/-- What R251 does to ring `r`. -/
def State.clearRing (s : State) (r : Nat) : State := (s.clearAll (ringResetFields r)).freshCount r

theorem clearRings_eq (rs : List Nat) (s : State) : rs.foldl State.clearRing s =
    (s.clearAll (rs.flatMap ringResetFields)).updHost (fun _ => (rs.foldl State.clearRing s).host) := by
  induction rs generalizing s with
  | nil => rfl
  | cons r rs ih =>
    have hhost : ((r :: rs).foldl State.clearRing s).host = (rs.foldl State.clearRing (s.clearRing r)).host := rfl
    rw [hhost, List.foldl_cons, ih (s.clearRing r), List.flatMap_cons, clearAll_append]
    rfl

/-- The rings keep what the configuration space holds. -/
theorem clearRings_aer (rs : List Nat) (s : State) : (rs.foldl State.clearRing s).host.aerUnc = s.host.aerUnc ∧
    (rs.foldl State.clearRing s).host.aerCor = s.host.aerCor :=
  ⟨foldl_keeps (fun u => u.host.aerUnc) rs _ s fun _ _ _ => rfl, foldl_keeps (fun u => u.host.aerCor) rs _ s fun _ _ _ => rfl⟩

theorem foldl_updPort_eq (f : PortIn → PortIn) (ps : List Port) (s : State) :
    ps.foldl (fun s p => s.updPort p f) s = s.updPorts fun _ => (ps.foldl (fun s p => s.updPort p f) s).ports := by
  induction ps generalizing s with
  | nil => rfl
  | cons p ps ih =>
    rw [List.foldl_cons, ih]
    rfl

/-- One change of the listed ports, each named once. -/
theorem port_foldl_updPort (f : PortIn → PortIn) (ps : List Port) (hps : ps.Nodup) (s : State) (q : Port) :
    (ps.foldl (fun s p => s.updPort p f) s).port q = if q ∈ ps then f (s.port q) else s.port q := by
  induction ps generalizing s with
  | nil => rfl
  | cons p ps ih =>
    obtain ⟨hp, hps⟩ := List.nodup_cons.mp hps
    rw [List.foldl_cons, ih hps, State.port_updPort]
    by_cases hq : q = p
    · subst hq
      simp [hp]
    · simp [hq]

theorem mem_ports16 (p : Port) : p ∈ ports16 := by
  revert p
  decide

/-- A downlink's waiting blocks without those of the commands `ids`; no held commit waits. -/
def PortIn.without (ids : List Nat) (q : PortIn) : PortIn :=
  { q with dlWait := q.dlWait.filter fun i => !ids.any fun n => i.purpose == .cmd n, commitPend := false }

/-- The ports without what waits for the commands `ids`. -/
def State.portsWithout (s : State) (ids : List Nat) : State := ports16.foldl (fun s p => s.updPort p (PortIn.without ids)) s

theorem portsWithout_eq (s : State) (ids : List Nat) : s.portsWithout ids = s.updPorts fun _ => (s.portsWithout ids).ports :=
  foldl_updPort_eq _ _ _

/-- The pins without what waits for the commands `ids`. -/
def pinsWithout (ids : List Nat) (pins : Tab (Option PinRange)) : Tab (Option PinRange) :=
  Tab.mapVals none (fun _ (r : Option PinRange) =>
    r.map fun x => if x.cmd.elim false fun i => ids.contains i then { x with cmd := none } else x) pins

theorem dropWaiting_def (s : State) (ids : List Nat) : s.dropWaiting ids =
    ((s.portsWithout ids).updSnaps fun l => l.filter fun x => !(x.cmd.elim false fun i => ids.contains i)).updBuf fun b =>
      { b with pins := pinsWithout ids b.pins } := rfl

/-- What waits for commands is in the ports, the snapshots and the pins. -/
theorem dropWaiting_eq (s : State) (ids : List Nat) : s.dropWaiting ids = { s with
    ports := (s.portsWithout ids).ports, snaps := s.snaps.filter fun x => !(x.cmd.elim false fun i => ids.contains i),
    buf := { s.buf with pins := pinsWithout ids s.buf.pins } } := by
  rw [dropWaiting_def, portsWithout_eq]
  generalize (s.portsWithout ids).ports = ports
  rfl

theorem portsWithout_port (s : State) (ids : List Nat) (p : Port) : (s.portsWithout ids).port p = (s.port p).without ids :=
  (port_foldl_updPort _ ports16 (by decide) s p).trans (if_pos (mem_ports16 p))

/-- The state when R251 comes to the rings: what was under way for the host is discarded. -/
def State.hostDropped (s : State) : State :=
  ((s.dropWaiting (s.cmds.map (·.id))).discardContexts.updCmds fun _ => []).updSnaps fun l => l.filter fun x => x.cmd.isNone

theorem hostDropped_eq (s : State) : s.hostDropped = { s with
    cmds := [], xtr := { s.xtr with ctxs := [], queue := [] }, ports := (s.portsWithout (s.cmds.map (·.id))).ports,
    snaps := (s.snaps.filter fun x => !(x.cmd.elim false fun i => (s.cmds.map (·.id)).contains i)).filter fun x => x.cmd.isNone,
    buf := { s.buf with pins := pinsWithout (s.cmds.map (·.id)) s.buf.pins } } := by
  rw [State.hostDropped, dropWaiting_eq]
  generalize (s.portsWithout _).ports = ports
  rfl

theorem hostReset_def (s : State) : s.hostReset = (((List.range 8).foldl State.clearRing s.hostDropped).clearAll
    [Z.HOST_SHADOW.EN, Z.HOST_SHADOW.ADDR]).updHost fun h => { h with msix := [], pba := 0, starved := false } := by
  have hring : (fun (s : State) (r : Nat) => (((s.zput (ZR.CFG.EN.hring r) 0).zput (ZR.CFG.ERR.hring r) 0).zput
      (ZR.CFG.VECTOR.hring r) 0).freshCount r) = State.clearRing := rfl
  rw [clearAll_cons, clearAll_cons, clearAll_nil, ← hring]
  rfl

/-- R251 discards what was under way, clears registers and settings of the host's part, and does nothing else. -/
theorem hostReset_eq (s : State) : s.hostReset = (s.hostDropped.clearAll resetFields).updHost fun _ =>
    { ((List.range 8).foldl State.clearRing s.hostDropped).host with msix := [], pba := 0, starved := false } := by
  have hrings := clearRings_eq (List.range 8) s.hostDropped
  rw [hostReset_def, resetFields, clearAll_append]
  revert hrings
  generalize (List.range 8).foldl State.clearRing s.hostDropped = u
  generalize (List.range 8).flatMap ringResetFields = fs
  generalize s.hostDropped = d
  intro hrings
  rw [hrings]
  rfl

theorem hostDropped_zreg (s : State) : s.hostDropped.zreg = s.zreg := by
  rw [hostDropped_eq]

theorem hostReset_zreg (s : State) : s.hostReset.zreg = (s.clearAll resetFields).zreg := by
  have hzreg := hostDropped_zreg s
  rw [hostReset_eq]
  generalize s.hostDropped = d at *
  generalize resetFields = fs
  exact congrArg (fun z => fs.foldl (fun z f => fset z f 0) z) hzreg

theorem hostReset_zget_zero (s : State) {f : Field} (hf : f ∈ resetFields) : s.hostReset.zget f = 0 := by
  have hsole : ∀ f ∈ resetFields, ∀ g ∈ resetFields, g.key = f.key → g = f := by decide
  exact (congrArg (fget · f) (hostReset_zreg s)).trans (clearAll_zget resetFields s (hsole f hf) (.inl hf))

theorem hostReset_regsBut (s : State) : regsBut resetFields s s.hostReset := fun k hk =>
  (congrArg (Tab.get 0 · k) (hostReset_zreg s)).trans (clearAll_regsBut resetFields s k hk)

theorem hostReset_zget (s : State) {f : Field} (hf : f.key ∉ resetFields.map Field.key) : s.hostReset.zget f = s.zget f :=
  fget_congr (hostReset_regsBut s _ hf)

/-- All that R251 reaches. -/
theorem hostReset_frame (s : State) : s.hostReset = { s.hostDropped with zreg := s.hostReset.zreg, host := s.hostReset.host } := by
  rw [hostReset_eq]
  generalize s.hostDropped = d
  generalize (List.range 8).foldl State.clearRing d = u
  generalize resetFields = fs
  rfl

theorem hostReset_host (s : State) : s.hostReset.host.msix = [] ∧ s.hostReset.host.pba = 0 ∧
    s.hostReset.host.aerUnc = s.host.aerUnc ∧ s.hostReset.host.aerCor = s.host.aerCor := by
  obtain ⟨hunc, hcor⟩ := clearRings_aer (List.range 8) s.hostDropped
  have hhost : s.hostDropped.host = s.host := by
    rw [hostDropped_eq]
  rw [hhost] at hunc hcor
  rw [hostReset_eq]
  generalize (List.range 8).foldl State.clearRing s.hostDropped = u at hunc hcor
  exact ⟨rfl, rfl, hunc, hcor⟩

theorem hostReset_port (s : State) (p : Port) : s.hostReset.port p = (s.port p).without (s.cmds.map (·.id)) := by
  have hports : s.hostReset.ports = (s.portsWithout (s.cmds.map (·.id))).ports := by
    rw [hostReset_frame, hostDropped_eq]
  rw [State.port, hports]
  exact portsWithout_port s _ p

theorem hostReset_snaps {s : State} {x : Snap} (hx : x ∈ s.hostReset.snaps) : x ∈ s.snaps ∧ x.cmd = none := by
  rw [hostReset_frame, hostDropped_eq] at hx
  obtain ⟨hold, hnone⟩ := List.mem_filter.mp hx
  exact ⟨List.mem_of_mem_filter hold, Option.isNone_iff_eq_none.mp hnone⟩

theorem mem_resetFields_of_ring (r : Fin 8) {f : Field} (hf : f ∈ ringResetFields r) : f ∈ resetFields :=
  List.mem_append_left _ (List.mem_flatMap.mpr ⟨r, List.mem_range.mpr r.isLt, hf⟩)

/-! ### The fundamental reset -/

/-- The state of the endpoint when the effects of R251 begin (R402). -/
def State.linkGone (s : State) : State := if s.zget Z.HOST_LINK.SPEED = 0 then s else s.pcieLink 0 0 false

theorem perst_eq (s : State) : s.perst = ((s.linkGone.updHost fun h => { h with aerUnc := 0, aerCor := 0 }).updPwr fun p =>
    { p with perst := true, training := false }).hostReset := rfl

theorem linkGone_onlyEvent (s : State) : onlyEvent linkFields s s.linkGone := by
  unfold State.linkGone
  split
  · exact ⟨rfl, fun _ _ => rfl⟩
  · exact (pcieLink_shows s false (by decide) (by decide)).1

theorem linkGone_speed (s : State) : s.linkGone.zget Z.HOST_LINK.SPEED = 0 := by
  unfold State.linkGone
  split
  case isTrue h => exact h
  case isFalse => exact (pcieLink_shows s false (by decide) (by decide)).2.1

theorem linkGone_pend {s : State} (hwas : s.zget Z.HOST_LINK.SPEED ≠ 0) : bitAt (s.linkGone.zget Z.HOST_EVSTAT.PEND) 0 = true := by
  rw [State.linkGone, if_neg hwas]
  exact (pcieLink_shows s false (by decide) (by decide)).2.2.2.2

/-- R402: the fundamental reset of the endpoint. -/
theorem perst_shows (s : State) : s.perst.pwr = { s.pwr with perst := true, training := false } ∧ s.perst.zget Z.HOST_LINK.SPEED = 0 ∧
    (s.zget Z.HOST_LINK.SPEED ≠ 0 → bitAt (s.perst.zget Z.HOST_EVSTAT.PEND) 0 = true) := by
  obtain ⟨hgone, -⟩ := linkGone_onlyEvent s
  refine ⟨?_, (hostReset_zget _ (by decide)).trans (linkGone_speed s), fun hwas => ?_⟩
  · rw [perst_eq, hostReset_frame, hostDropped_eq, hgone]
    rfl
  · rw [perst_eq, hostReset_zget _ (by decide)]
    exact linkGone_pend hwas

/-- Settles O47: a link change is three register writes and the LINK event; R251 clears a list of fields and reaches little besides. -/
theorem endpointLinkAndResets : Obligations.EndpointLinkAndResets := by
  unfold Obligations.EndpointLinkAndResets
  refine fun s => ⟨fun speed width flit => ⟨fun hup htrain hmax hnew => ?_, fun hup hno => ?_, fun hwas => ?_⟩, ?_, ?_, rfl, ?_⟩
  · obtain ⟨honly, hspeed, hwidth, hflit, hpend⟩ := pcieLink_shows s flit (Nat.lt_succ_of_lt speed.isLt) width.isLt
    exact ⟨_, congrArg Host.Outcome.next (linkChange_up (fun h => hup (Fin.ext h)) htrain hmax hnew), honly, hspeed, hwidth, hflit, hpend⟩
  · exact congrArg Host.Outcome.next (linkChange_refused (fun h => hup (Fin.ext h)) hno)
  · obtain ⟨honly, hspeed, hwidth, -, hpend⟩ := pcieLink_shows s (speed := 0) (width := 0) false (by decide) (by decide)
    exact ⟨_, congrArg Host.Outcome.next (linkChange_down hwas), honly, hspeed, hwidth, hpend⟩
  · obtain ⟨hmsix, hpba, -⟩ := hostReset_host s
    refine ⟨_, rfl, ?_, ?_, ?_, fun r => ⟨hostReset_zget_zero s (mem_resetFields_of_ring r (by simp [ringResetFields])),
        hostReset_zget_zero s (mem_resetFields_of_ring r (by simp [ringResetFields])),
        hostReset_zget_zero s (mem_resetFields_of_ring r (by simp [ringResetFields]))⟩,
      hostReset_zget_zero s (by decide), hostReset_zget_zero s (by decide), hmsix, hpba, hostReset_regsBut s, ?_, ?_, ?_, ?_, ?_, ?_, ?_,
      ?_, ?_, ?_, ?_, ?_, fun p => by rw [hostReset_port]; rfl, fun x hx => hostReset_snaps hx⟩
    all_goals
      rw [hostReset_frame, hostDropped_eq]
  · obtain ⟨hpwr, hspeed, hpend⟩ := perst_shows s
    obtain ⟨hgone, -⟩ := linkGone_onlyEvent s
    obtain ⟨hmsix, hpba, hunc, hcor⟩ := hostReset_host ((s.linkGone.updHost fun h => { h with aerUnc := 0, aerCor := 0 }).updPwr fun p =>
      { p with perst := true, training := false })
    refine ⟨_, rfl, ?_, ?_, ?_, hpwr, hspeed, fun r => hostReset_zget_zero _ (mem_resetFields_of_ring r (by simp [ringResetFields])),
      hostReset_zget_zero _ (by decide), hunc, hcor, hmsix, hpba, hpend, ?_⟩
    all_goals
      rw [perst_eq, hostReset_frame, hostDropped_eq]
    rw [hgone]
    exact ⟨rfl, rfl, rfl, rfl, rfl, rfl, rfl, rfl, rfl⟩
  · rintro e b rfl
    cases e <;> rfl

end Sys2Proof.Machine
end

section
/-!
PROOFS. What a send on a downlink can touch (R97, R115, R245, R396), and a command unit with nothing left to start.
-/

namespace Sys2Proof.Machine

/-! ### Sends on a downlink -/

/-- The port with the downlink of `d`: its SEQ, the commands that wait and those outstanding. -/
def PortIn.withDownlink (q d : PortIn) : PortIn := { q with dlSeq := d.dlSeq, dlWait := d.dlWait, outst := d.outst }

/-- Between `s` and `t` nothing changes but what a send on the downlink of port `p` may touch: the downlink, QUIET and the output. -/
def sendsOn (p : Port) (s t : State) : Prop :=
  t = ((s.updZreg fun _ => t.zreg).updOut fun _ => t.out).setPort p ((s.port p).withDownlink (t.port p)) ∧
    regsBut [ZP.DLSTAT.QUIET.port p] s t

theorem sendsOn.refl (p : Port) (s : State) : sendsOn p s s := ⟨(setPort_self s p).symm, fun _ _ => rfl⟩

theorem sendsOn.port_same {p : Port} {s t : State} (h : sendsOn p s t) : t.port p = (s.port p).withDownlink (t.port p) :=
  (congrArg (State.port · p) h.1).trans (port_setPort _ p _)

theorem sendsOn.trans {p : Port} {s t u : State} (h : sendsOn p s t) (k : sendsOn p t u) : sendsOn p s u := by
  refine ⟨?_, h.2.trans k.2⟩
  have hport : (t.port p).withDownlink (u.port p) = (s.port p).withDownlink (u.port p) :=
    (congrArg (PortIn.withDownlink · (u.port p)) h.port_same :)
  calc u = ((t.updZreg fun _ => u.zreg).updOut fun _ => u.out).setPort p ((s.port p).withDownlink (u.port p)) := hport ▸ k.1
    _ = _ := by
      rw [h.1]
      exact setPort_setPort ((s.updZreg fun _ => u.zreg).updOut fun _ => u.out) p _ _

theorem sendsOn.zget {p : Port} {s t : State} (h : sendsOn p s t) {g : Field} (hg : g.key ≠ (ZP.DLSTAT.QUIET.port p).key) :
    t.zget g = s.zget g := fget_congr (h.2 _ (by simpa using hg))

theorem sendsOn.port_ne {p q : Port} {s t : State} (h : sendsOn p s t) (hq : q ≠ p) : t.port q = s.port q :=
  (congrArg (State.port · q) h.1).trans ((State.port_updPort _ p q _).trans (if_neg hq))

theorem sendsOn.cmds {p : Port} {s t : State} (h : sendsOn p s t) : t.cmds = s.cmds := (congrArg State.cmds h.1 :)
theorem sendsOn.snaps {p : Port} {s t : State} (h : sendsOn p s t) : t.snaps = s.snaps := (congrArg State.snaps h.1 :)
theorem sendsOn.mirror {p : Port} {s t : State} (h : sendsOn p s t) : t.mirror = s.mirror := (congrArg State.mirror h.1 :)
theorem sendsOn.time {p : Port} {s t : State} (h : sendsOn p s t) : t.time = s.time := (congrArg State.time h.1 :)
theorem sendsOn.chips {p : Port} {s t : State} (h : sendsOn p s t) : t.chips = s.chips := (congrArg State.chips h.1 :)
theorem sendsOn.buf {p : Port} {s t : State} (h : sendsOn p s t) : t.buf = s.buf := (congrArg State.buf h.1 :)

theorem sendsOn_emit (p : Port) (s : State) (o : Out) : sendsOn p s (s.emit o) :=
  ⟨(setPort_self (s.emit o) p).symm, fun _ _ => rfl⟩

theorem sendsOn_updPort (p : Port) (s : State) {f : PortIn → PortIn} (hf : ∀ q, f q = q.withDownlink (f q)) :
    sendsOn p s (s.updPort p f) := by
  refine ⟨?_, fun _ _ => rfl⟩
  rw [updPort_eq_setPort, port_setPort, ← hf]
  rfl

theorem sendsOn_leaveQuiet (p : Port) (s : State) : sendsOn p s (s.dlLeaveQuiet p) := by
  unfold State.dlLeaveQuiet
  split
  · exact ⟨(setPort_self ((s.zput (ZP.DLSTAT.QUIET.port p) 0).emit (.orderedSet p false true 0xA5)) p).symm,
      regsBut.zput (fun _ _ => rfl) (by simp) 0⟩
  · exact .refl p s

theorem sendsOn_dlBlock (p : Port) (s : State) (kind : BlkKind) (payload : List Byte) : sendsOn p s (s.dlBlock p kind payload) := by
  refine (sendsOn_leaveQuiet p s).trans ?_
  unfold State.dlBlock
  dsimp only
  split
  · exact (sendsOn_updPort p _ fun _ => rfl).trans (sendsOn_emit p _ _)
  · exact sendsOn_emit p _ _

theorem sendsOn_dlPump (p : Port) (fuel : Nat) (s : State) : sendsOn p s (s.dlPump p fuel) := by
  induction fuel generalizing s with
  | zero => exact .refl p s
  | succ fuel ih =>
    unfold State.dlPump
    split
    · split
      · exact ((sendsOn_updPort p s fun _ => rfl).trans (sendsOn_dlBlock p _ _ _)).trans (ih _)
      · exact .refl p s
    · exact .refl p s

theorem sendsOn_dlSend (p : Port) (s : State) (items : List DlItem) : sendsOn p s (s.dlSend p items) :=
  (sendsOn_updPort p s (f := fun q => { q with dlWait := q.dlWait ++ items }) fun _ => rfl).trans (sendsOn_dlPump p _ _)

theorem sendsOn_dlUrgent (p : Port) (s : State) (items : List DlItem) : sendsOn p s (s.dlUrgent p items) :=
  (sendsOn_updPort p s (f := fun q => { q with
    dlWait := q.dlWait.takeWhile (fun i => !i.sh) ++ items ++ q.dlWait.dropWhile (fun i => !i.sh) }) fun _ => rfl).trans (sendsOn_dlSend p _ [])

/-- The port with the commands `items` waiting. -/
def PortIn.withQueue (q : PortIn) (items : List DlItem) : PortIn := { q with dlWait := items }

theorem dlSend_of_empty {s : State} {p : Port} (hwait : (s.port p).dlWait = []) (items : List DlItem) :
    s.dlSend p items = (s.setPort p ((s.port p).withQueue items)).dlPump p items.length := by
  have hsend : s.updPort p (fun q => { q with dlWait := q.dlWait ++ items }) = s.setPort p ((s.port p).withQueue items) := by
    rw [updPort_eq_setPort, hwait]
    rfl
  rw [State.dlSend, hsend, port_setPort]
  rfl

/-- On an empty queue an urgent command stands where any other does. -/
theorem dlUrgent_eq_dlSend {s : State} {p : Port} (hwait : (s.port p).dlWait = []) (items : List DlItem) :
    s.dlUrgent p items = s.dlSend p items := by
  have hurgent : s.updPort p (fun q => { q with
      dlWait := q.dlWait.takeWhile (fun i => !i.sh) ++ items ++ q.dlWait.dropWhile (fun i => !i.sh) }) =
      s.setPort p ((s.port p).withQueue items) := by
    rw [updPort_eq_setPort, hwait, List.takeWhile_nil, List.dropWhile_nil, List.nil_append, List.append_nil]
    rfl
  have hnone : ((s.port p).withQueue items).withQueue (((s.port p).withQueue items).dlWait ++ []) = (s.port p).withQueue items := by
    rw [List.append_nil]
    rfl
  have hsame : (s.setPort p ((s.port p).withQueue items)).updPort p (fun q => { q with dlWait := q.dlWait ++ [] }) =
      s.setPort p ((s.port p).withQueue items) := by
    rw [updPort_eq_setPort, port_setPort, setPort_setPort]
    exact congrArg (s.setPort p) hnone
  rw [dlSend_of_empty hwait, State.dlUrgent, hurgent, State.dlSend, hsame, port_setPort]
  rfl

/-! ### A command unit with nothing to start -/

theorem ctrlAdvance_of_none {s : State} (hcmds : s.cmds = []) : s.ctrlAdvance = s := by
  simp [State.ctrlAdvance, State.startCmds, State.releaseFence, hcmds]

/-- One command that has started, and is no running FENCE, stays as it is. -/
theorem ctrlAdvance_of_started {s : State} {c : Cmd} (hcmds : s.cmds = [c]) (hstarted : c.started = true)
    (hfence : c.opcode ≠ 0x40 ∨ c.result ≠ none) : s.ctrlAdvance = s := by
  have hrelease : s.releaseFence = s := by
    rcases hfence with hop | hdone
    · exact releaseFence_of_other hcmds hop
    · obtain ⟨r, hr⟩ := Option.ne_none_iff_exists'.mp hdone
      simp [State.releaseFence, hcmds, Cmd.running, hr]
  simp [State.ctrlAdvance, State.startCmds, hcmds, hrelease, hstarted]

/-- The sole command changes. -/
theorem updCmd_of_sole {s : State} {c : Cmd} (hcmds : s.cmds = [c]) (f : Cmd → Cmd) : s.updCmd c.id f = s.updCmds fun _ => [f c] := by
  simp [State.updCmd, State.updCmds, hcmds]

/-- The sole command finishes. -/
theorem finish_of_sole {s : State} {c : Cmd} (hcmds : s.cmds = [c]) (hrun : c.result = none) (r : Nat) (d : List Byte) :
    s.finish c.id r d = s.updCmds fun _ => [{ c with result := some r, rdata := d, left := [] }] := by
  rw [State.finish, updCmd_of_sole hcmds, if_pos hrun]

end Sys2Proof.Machine
end

section
/-!
PROOFS. Events to the host (R235, R246, R382, R383; O56).
-/

namespace Sys2Proof.Machine

/-! ### The fields of a source (R382, R383) -/

/-- Every PEND field lies outside the event unit's own registers, at bit 0. -/
theorem evBits_pend_apart (src : Nat) :
    ((evBits src).1.off < 0xA000 ∨ 0x10000 ≤ (evBits src).1.off) ∧ (evBits src).1.lsb = 0 := by
  unfold evBits
  repeat' split
  all_goals
    refine ⟨?_, rfl⟩
    simp only [Field.port, Field.stack, Field.gcl, Field.at, Z.RING_EVSTAT.PEND, Z.TIME_EVSTAT.PEND, Z.HOST_EVSTAT.PEND,
      Z.MON_EVSTAT.PEND, Z.PWR_EVSTAT.PEND, Z.COMP_EVSTAT.PEND]
    omega

theorem evBits_pend_key_ne (src : Nat) {g : Field} (hlow : 0xA000 ≤ g.off) (hhigh : g.off < 0x10000) (hlsb : g.lsb < 64) :
    g.key ≠ (evBits src).1.key := by
  obtain ⟨hoff, hzero⟩ := evBits_pend_apart src
  rw [Field.key, Field.key, hzero]
  omega

/-- The enable of a source lies in the word behind its PEND. -/
theorem evBits_en_key_ne (src : Nat) : (evBits src).2.1.key ≠ (evBits src).1.key := by
  unfold evBits
  repeat' split
  all_goals
    simp only [Field.key, Field.port, Field.stack, Field.gcl, Field.at, Z.RING_EVSTAT.PEND, Z.TIME_EVSTAT.PEND, Z.HOST_EVSTAT.PEND,
      Z.MON_EVSTAT.PEND, Z.PWR_EVSTAT.PEND, Z.COMP_EVSTAT.PEND, Z.RING_EVEN.EN, Z.TIME_EVEN.EN, Z.HOST_EVEN.EN, Z.MON_EVEN.EN,
      Z.PWR_EVEN.EN, Z.COMP_EVEN.EN, ZP.EVSTAT.PEND, ZP.EVEN.EN, ZS.EVSTAT.PEND, ZS.EVEN.EN, ZC.EVSTAT.PEND, ZC.EVEN.EN]
    omega

/-- PEND is wide enough for every source of its register. -/
theorem evBits_bit_lt {src : Nat} (hsrc : src < 544) : (evBits src).2.2 < (evBits src).1.wid := by
  unfold evBits
  repeat' split
  all_goals
    simp only [Field.port, Field.stack, Field.gcl, Field.at, Z.RING_EVSTAT.PEND, Z.TIME_EVSTAT.PEND, Z.HOST_EVSTAT.PEND,
      Z.MON_EVSTAT.PEND, Z.PWR_EVSTAT.PEND, Z.COMP_EVSTAT.PEND, ZP.EVSTAT.PEND, ZS.EVSTAT.PEND, ZC.EVSTAT.PEND]
    omega

/-- The fields of the vector map, at its first word (R383). -/
def evtMapFields : List Field := [Z.EVT_MAPk.VECTOR0, Z.EVT_MAPk.DIRECT0, Z.EVT_MAPk.VECTOR1, Z.EVT_MAPk.DIRECT1, Z.EVT_MAPk.VECTOR2,
  Z.EVT_MAPk.DIRECT2, Z.EVT_MAPk.VECTOR3, Z.EVT_MAPk.DIRECT3]

theorem evtMapFields_place {f : Field} (hf : f ∈ evtMapFields) : f.off = 0xA100 ∧ f.lsb < 64 := by
  have hall : ∀ f ∈ evtMapFields, f.off = 0xA100 ∧ f.lsb < 64 := by decide
  exact hall f hf

/-- The vector and the DIRECT bit of a source stand in the map's word of that source. -/
theorem evMap_congr {s t : State} {src : Nat} (h : ∀ f ∈ evtMapFields, ∀ n ≤ src, t.zget (f.at n) = s.zget (f.at n)) :
    t.evMap src = s.evMap src := by
  unfold State.evMap
  dsimp only
  split
  all_goals
    rw [h _ (by simp [evtMapFields]) _ (Nat.mul_div_le src 4), h _ (by simp [evtMapFields]) _ (Nat.mul_div_le src 4)]

/-! ### An event (R382) -/

section
variable (s : State) {src : Nat} (hsrc : src < 544) (sev : Nat) (d : List Byte)

/-- The PEND bit of source `src` set. -/
def State.pend (s : State) (src : Nat) : State := s.zput (evBits src).1 (s.zget (evBits src).1 ||| 2 ^ (evBits src).2.2)

theorem pend_zget_en : (s.pend src).zget (evBits src).2.1 = s.zget (evBits src).2.1 := State.zget_zput_ne _ _ (evBits_en_key_ne src)

theorem pend_zget {g : Field} (hlow : 0xA000 ≤ g.off) (hhigh : g.off < 0x10000) (hlsb : g.lsb < 64) : (s.pend src).zget g = s.zget g :=
  State.zget_zput_ne _ _ (evBits_pend_key_ne src hlow hhigh hlsb)

theorem raiseSev_disabled (hen : bitAt (s.zget (evBits src).2.1) (evBits src).2.2 = false) : s.raiseSev src sev d = s.pend src :=
  if_pos (show ¬ bitAt ((s.pend src).zget (evBits src).2.1) (evBits src).2.2 = true by rw [pend_zget_en, hen]; decide)

theorem raiseSev_zget_pend : (s.raiseSev src sev d).zget (evBits src).1 = (s.pend src).zget (evBits src).1 := by
  have hfilt : (evBits src).1.key ≠ Z.EVT_STAT.FILTERED.key := (evBits_pend_key_ne src (by decide) (by decide) (by decide)).symm
  unfold State.raiseSev
  dsimp only
  repeat' split
  · rfl
  · exact State.zget_zbump_ne _ _ hfilt
  · rfl
  · exact message_zget _ _ _
  · rfl

/-- The other bits of PEND stand. -/
theorem raiseSev_pend_keeps {j : Nat} (hj : j < (evBits src).1.wid) (hset : bitAt (s.zget (evBits src).1) j = true) :
    bitAt ((s.raiseSev src sev d).zget (evBits src).1) j = true := by
  rw [bitAt_eq_testBit] at hset
  rw [raiseSev_zget_pend, State.pend, State.zget_zput, bitAt_eq_testBit, Nat.testBit_mod_two_pow, Nat.testBit_or, hset]
  simp [hj]

include hsrc

theorem pend_evMap : (s.pend src).evMap src = s.evMap src :=
  evMap_congr fun f hf n hn => by
    obtain ⟨hoff, hlsb⟩ := evtMapFields_place hf
    exact pend_zget s (by simp only [Field.at]; omega) (by simp only [Field.at]; omega) hlsb

theorem pend_bit : bitAt ((s.pend src).zget (evBits src).1) (evBits src).2.2 = true := by
  rw [State.pend, State.zget_zput, bitAt_eq_testBit, Nat.testBit_mod_two_pow, Nat.testBit_or, Nat.testBit_two_pow_self]
  simp [evBits_bit_lt hsrc]

/-- R382: the PEND bit is set whatever becomes of the event. -/
theorem raiseSev_pend : bitAt ((s.raiseSev src sev d).zget (evBits src).1) (evBits src).2.2 = true := by
  rw [raiseSev_zget_pend]
  exact pend_bit s hsrc

/-- What becomes of an event that is enabled: filtered, queued, or lost with its direct message. -/
theorem raiseSev_enabled (hen : bitAt (s.zget (evBits src).2.1) (evBits src).2.2 = true) {u : State}
    (hu : u = (s.pend src).updEv fun e => { e with lost := min 65535 (e.lost + 1) }) :
    s.raiseSev src sev d =
      if sev < s.zget Z.EVT_CFG.MIN_SEV then (s.pend src).zbump Z.EVT_STAT.FILTERED 1
      else if s.ev.queue.length < 256 then (s.pend src).updEv fun e => { e with
        queue := e.queue ++ [⟨src, sev, s.time, (d ++ List.replicate 12 0).take 12⟩] }
      else if (s.evMap src).2 = true then u.message (s.evMap src).1 else u := by
  have hlost : (s.pend src).updEv (fun e => { e with lost := sat 16 (e.lost + 1) }) = u := by
    rw [hu]
    exact congrArg (fun n => (s.pend src).updEv fun e => { e with lost := n }) (min_comm (s.ev.lost + 1) 65535)
  have hmap : u.evMap src = s.evMap src := by
    rw [hu]
    exact pend_evMap s hsrc
  refine (if_neg (show ¬ ¬ bitAt ((s.pend src).zget (evBits src).2.1) (evBits src).2.2 = true by rw [pend_zget_en, hen]; decide)).trans ?_
  rw [← hmap, ← hlost, ← pend_zget s (src := src) (g := Z.EVT_CFG.MIN_SEV) (by decide) (by decide) (by decide)]
  rfl
end

/-! ### Entries and messages for the host (R234, R235, R246, R247) -/

/-- Between `s` and `t` something was told to the host: its part changed, and the output went on. -/
def tells (s t : State) : Prop := t = (s.updHost fun _ => t.host).updOut (fun _ => t.out) ∧ s.out <+: t.out

theorem tells.refl (s : State) : tells s s := ⟨rfl, List.prefix_refl _⟩

theorem tells.trans {s t u : State} (h : tells s t) (k : tells t u) : tells s u := by
  refine ⟨k.1.trans ?_, h.2.trans k.2⟩
  rw [h.1]
  rfl

theorem tells.updEv {s t : State} (h : tells s t) (f : EventUnit → EventUnit) : tells (s.updEv f) (t.updEv f) := by
  refine ⟨?_, h.2⟩
  rw [h.1]
  rfl

theorem tells_shadow (s : State) : tells s s.shadow := by
  unfold State.shadow
  split
  · exact ⟨rfl, List.prefix_append ..⟩
  · exact .refl s

theorem tells_message (s : State) (v : Nat) : tells s (s.message v) := by
  unfold State.message
  dsimp only
  split
  · exact ⟨rfl, List.prefix_refl _⟩
  · exact ⟨rfl, List.prefix_append ..⟩

theorem tells_messages (s : State) (vs : List Nat) : tells s (s.messages vs) := by
  unfold State.messages
  induction vs.dedup generalizing s with
  | nil => exact .refl s
  | cons v vs ih => exact (tells_message s v).trans (ih _)

/-- The write of one entry of a ring, as the host sees it (R235). -/
def State.ringEntry (s : State) (r : Nat) (bytes : List Byte) : Out :=
  .hostWrite (s.ringAddr r (s.zget (ZR.PIDX.INDEX.hring r))) ((bytes ++ List.replicate 31 0).take 31 ++
    [b8 (128 * s.phase r (s.zget (ZR.PIDX.INDEX.hring r)))])

/-- The state when an entry of ring `r` has been written and its index has moved, and the shadow area has not been written. -/
def State.entryWritten (s : State) (r : Nat) (bytes : List Byte) : State :=
  ((s.emit (s.ringEntry r bytes)).zput (ZR.PIDX.INDEX.hring r) (s.zget (ZR.PIDX.INDEX.hring r) + 1)).updHost fun h => { h with
    since := Tab.upd 0 h.since r (· + 1)
    waitAt := if Tab.get 0 s.host.since r = 0 then Tab.set 0 s.host.waitAt r s.time else s.host.waitAt }

theorem ringPut_eq (s : State) (r : Nat) (bytes : List Byte) : s.ringPut r bytes = (s.entryWritten r bytes).shadow := rfl

/-- What follows the entry of event `e`: the queue moves on, and the messages that are due are sent together (R246, R247). -/
def State.eventTold (s : State) (e : EvRec) (rest : List EvRec) : State :=
  let s := s.updEv fun e => { e with queue := rest, lost := 0 }
  let due := s.countDue 7
  let s := if due then s.clearSince 7 else s
  s.messages ((if due then [s.zget (ZR.CFG.VECTOR.hring 7)] else []) ++ (if (s.evMap e.src).2 then [(s.evMap e.src).1] else []))

/-- What follows an entry of EVT reaches the host alone. -/
theorem tells_eventTold (s : State) (e : EvRec) (rest : List EvRec) :
    tells (s.updEv fun e => { e with queue := rest, lost := 0 }) (s.eventTold e rest) := by
  unfold State.eventTold
  dsimp only
  refine tells.trans ?_ (tells_messages _ _)
  split
  · exact ⟨rfl, List.prefix_refl _⟩
  · exact .refl _

theorem eventTold_quiet {s : State} {e : EvRec} {rest : List EvRec} (hdue : s.countDue 7 = false) (hdirect : (s.evMap e.src).2 = false) :
    s.eventTold e rest = s.updEv fun e => { e with queue := rest, lost := 0 } := by
  have hdue' : (s.updEv fun e => { e with queue := rest, lost := 0 }).countDue 7 = false := hdue
  have hdirect' : ((s.updEv fun e => { e with queue := rest, lost := 0 }).evMap e.src).2 = false := hdirect
  unfold State.eventTold
  simp [hdue', hdirect', State.messages]

theorem eventWrite_cons {s : State} {e : EvRec} {rest : List EvRec} (hqueue : s.ev.queue = e :: rest) (hroom : s.ringRoom 7 = true) :
    s.eventWrite = (s.ringPut 7 (evtBytes e s.ev.lost)).eventTold e rest := by
  unfold State.eventWrite
  rw [hqueue]
  exact if_neg (by simp [hroom])

theorem eventWrite_waits {s : State} (h : s.ev.queue = [] ∨ s.ringRoom 7 = false) : s.eventWrite = s := by
  unfold State.eventWrite
  split
  case h_1 => rfl
  case h_2 e rest hqueue => exact if_pos (by rw [h.resolve_left (by simp [hqueue])]; decide)

theorem pidx_key_ne_evtMap {f : Field} (hf : f ∈ evtMapFields) (n : Nat) : (f.at n).key ≠ (ZR.PIDX.INDEX.hring 7).key := by
  obtain ⟨hoff, -⟩ := evtMapFields_place hf
  simp only [Field.key, Field.hring, Field.at, ZR.PIDX.INDEX, hoff]
  omega

/-- R247: an entry that does not reach COUNT is followed by no message. -/
theorem entryWritten_countDue {s : State} {bytes : List Byte}
    (hcount : Tab.get 0 s.host.since 7 + 1 < max 1 (s.zget (ZR.COAL.COUNT.hring 7))) : (s.entryWritten 7 bytes).countDue 7 = false := by
  have hlimit : (s.entryWritten 7 bytes).zget (ZR.COAL.COUNT.hring 7) = s.zget (ZR.COAL.COUNT.hring 7) := State.zget_zput_ne _ _ (by decide)
  have hsince : Tab.get 0 (s.entryWritten 7 bytes).host.since 7 = Tab.get 0 s.host.since 7 + 1 :=
    Tab.get_upd_same 0 s.host.since 7 (· + 1)
  rw [State.countDue, hlimit, hsince]
  exact decide_eq_false (Nat.not_le.mpr hcount)

/-- R246: one write of 32 bytes, and then the shadow area and the messages. -/
theorem eventWrite_shows {s : State} {e : EvRec} {rest : List EvRec} (hqueue : s.ev.queue = e :: rest) (hroom : s.ringRoom 7 = true) :
    ∃ more, s.eventWrite.out = s.out ++ s.ringEntry 7 (evtBytes e s.ev.lost) :: more ∧
      (s.zget Z.HOST_SHADOW.EN = 0 → (s.evMap e.src).2 = false →
        Tab.get 0 s.host.since 7 + 1 < max 1 (s.zget (ZR.COAL.COUNT.hring 7)) → more = []) ∧
      tells ((s.entryWritten 7 (evtBytes e s.ev.lost)).updEv fun e => { e with queue := rest, lost := 0 }) s.eventWrite := by
  have htells : tells ((s.entryWritten 7 (evtBytes e s.ev.lost)).updEv fun e => { e with queue := rest, lost := 0 }) s.eventWrite := by
    rw [eventWrite_cons hqueue hroom, ringPut_eq]
    exact ((tells_shadow _).updEv _).trans (tells_eventTold _ e rest)
  obtain ⟨more, hmore⟩ := htells.2
  have hout : s.eventWrite.out = s.out ++ s.ringEntry 7 (evtBytes e s.ev.lost) :: more := by
    rw [← hmore]
    exact List.append_assoc ..
  refine ⟨more, hout, fun hshadow hdirect hcount => ?_, htells⟩
  have hen : (s.entryWritten 7 (evtBytes e s.ev.lost)).zget Z.HOST_SHADOW.EN = 0 := (State.zget_zput_ne _ _ (by decide)).trans hshadow
  have hmap : (s.entryWritten 7 (evtBytes e s.ev.lost)).evMap e.src = s.evMap e.src :=
    evMap_congr fun f hf n _ => State.zget_zput_ne _ _ (pidx_key_ne_evtMap hf n)
  have hquiet : s.eventWrite = (s.entryWritten 7 (evtBytes e s.ev.lost)).updEv fun e => { e with queue := rest, lost := 0 } := by
    rw [eventWrite_cons hqueue hroom, ringPut_eq, State.shadow, if_neg (by simp [hen]),
      eventTold_quiet (entryWritten_countDue hcount) (by rw [hmap, hdirect])]
  rw [hquiet] at hmore
  exact List.append_right_eq_self.mp hmore

end Sys2Proof.Machine
end

section
/-!
PROOFS. Trued snapshots and the configuration scrub (R389 to R394, R399; O56).
-/

namespace Sys2Proof.Machine

/-! ### The latch (R389 to R391) -/

/-- The mask of the listed ports has their bits. -/
theorem bitAt_mask (f : Port → Bool) (p : Port) : bitAt ((ports16.filter f).map fun p => 2 ^ p.val).sum p.val = f p := by
  have hsorted : ((ports16.filter f).map Fin.val).SortedLT :=
    ((by decide : (ports16.map Fin.val).Pairwise (· < ·)).sublist (List.filter_sublist.map Fin.val)).sortedLT
  have hmap : (ports16.filter f).map (fun p => 2 ^ p.val) = ((ports16.filter f).map Fin.val).map (2 ^ ·) := (List.map_map ..).symm
  rw [bitAt_eq_testBit, Bool.eq_iff_iff, ← Nat.mem_bitIndices, hmap, Nat.bitIndices_sum_map_two_pow hsorted,
    List.mem_map_of_injective Fin.val_injective, List.mem_filter]
  exact and_iff_right (mem_ports16 p)

/-- The snapshot `x` once latched. -/
def State.latchedSnap (s : State) (x : Snap) : Snap :=
  { x with latched := true, active := ((ports16.filter fun p => s.linkUp p).map fun p => 2 ^ p.val).sum, flags := s.snapFlags x }

/-- The state when `x`, the one snapshot, has been latched and no port has been asked yet; the mirror holds `m`. -/
def State.snapTaken (s : State) (x : Snap) (m : Tab Nat) : State :=
  ((((s.updMirror fun _ => m).updSnaps fun _ => [s.latchedSnap x]).zput Z.TRUE_SEQ.SEQ x.seq).zput Z.TRUE_TICK.TICK x.tick)

/-- FLAGS do not look at the mirror. -/
theorem snapFlags_updMirror (s : State) (x : Snap) (m : Tab Nat) : (s.updMirror fun _ => m).snapFlags x = s.snapFlags x := rfl

theorem snapLatch_sole {s : State} {x : Snap} (hsnaps : s.snaps = [x]) (hnew : x.latched = false) (hdue : x.instant ≤ s.time) :
    s.snapLatch = ((ports16.filter fun p => s.linkUp p).filter fun p => bitAt x.armed p.val).foldl
      (fun s p => s.dlUrgent p (snapReads x.seq)) (s.snapTaken x s.image) := by
  have hfind : s.snaps.find? (fun x => !x.latched && decide (x.instant ≤ s.time)) = some x := by simp [hsnaps, hnew, hdue]
  unfold State.snapLatch
  rw [hfind]
  dsimp only
  rw [snapFlags_updMirror]
  congr 1
  generalize s.image = m
  simp only [State.snapTaken, State.latchedSnap, State.updSnap, State.updSnaps, State.updMirror, hsnaps, List.map_cons, List.map_nil, if_pos]

theorem snapLatch_none {s : State} (h : ∀ x ∈ s.snaps, x.latched = true ∨ s.time < x.instant) : s.snapLatch = s := by
  have hfind : s.snaps.find? (fun x => !x.latched && decide (x.instant ≤ s.time)) = none := by
    simp only [List.find?_eq_none, Bool.and_eq_true, Bool.not_eq_true', decide_eq_true_eq, not_and, Nat.not_le]
    intro x hx hnew
    exact (h x hx).resolve_left (by simp [hnew])
  unfold State.snapLatch
  rw [hfind]

/-- Asking the ports for their copies leaves the rest. -/
theorem foldl_dlUrgent_keeps {β : Type} (v : State → β) (items : List DlItem) (ps : List Port)
    (hv : ∀ {p s t}, sendsOn p s t → v t = v s) (s : State) : v (ps.foldl (fun s p => s.dlUrgent p items) s) = v s :=
  foldl_keeps v ps _ s fun s p _ => hv (sendsOn_dlUrgent p s items)

theorem foldl_dlUrgent_port (items : List DlItem) (ps : List Port) (s : State) {q : Port} (hq : q ∉ ps) :
    (ps.foldl (fun s p => s.dlUrgent p items) s).port q = s.port q :=
  foldl_keeps (fun s => s.port q) ps _ s fun s p hp => (sendsOn_dlUrgent p s items).port_ne fun heq => hq (heq ▸ hp)

theorem quiet_key_ne (p : Port) {g : Field} (hg : g.off < 0x10000) (hlsb : g.lsb < 64) : g.key ≠ (ZP.DLSTAT.QUIET.port p).key := by
  simp only [Field.key, Field.port, Field.at, ZP.DLSTAT.QUIET]
  omega

/-! ### The block (R392, R393) -/

theorem portWords_length (x : Snap) (valid p : Nat) : (x.portWords valid p).length = 9 := by
  unfold Snap.portWords
  split
  · rfl
  · rfl

theorem flatMap_length_const {α β : Type} (l : List α) (f : α → List β) {n : Nat} (h : ∀ a ∈ l, (f a).length = n) :
    (l.flatMap f).length = l.length * n := by
  rw [List.length_flatMap, List.map_congr_left h, List.map_const', List.sum_replicate, smul_eq_mul]

/-- The block of R392 has 4 KiB: 64 bytes and 1008 words. -/
theorem snapBlock_length (s : State) (x : Snap) : (s.snapBlock x).length = 4096 := by
  unfold State.snapBlock
  dsimp only
  rw [List.length_append, flatMap_length_const _ _ fun w _ => leBytes_length w 4]
  simp only [List.length_append, List.length_replicate, List.length_map, leBytes_length]
  rw [flatMap_length_const (n := 40) (List.range 16) _ fun p _ => by
      rw [List.length_append, List.length_map, portWords_length]
      rfl,
    flatMap_length_const (n := 12) (List.range 8) _ fun n _ => List.length_map _,
    flatMap_length_const (n := 2) (List.range 96) _ fun e _ => rfl]
  simp only [List.length_range]
  rfl

/-- The snapshot with its block. -/
def Snap.withBlock (x : Snap) (blk : List Byte) : Snap := { x with built := some blk }

/-- The state when the one snapshot has left its slot and its block `blk` has been written at `dest`. -/
def State.blockWritten (s : State) (dest : Nat) (blk : List Byte) : State := (s.updSnaps fun _ => []).emit (.hostWrite dest blk)

/-- What the written block of `x` completes: its command, or the step of TEL_IDX. -/
def State.blockDone (s : State) (x : Snap) : State :=
  match x.cmd with
  | none => s.zwrap Z.TEL_IDX.COUNT 1
  | some id => (s.updCmd id fun c => { c with fail := x.active - x.valid }).finish id
      (if x.active - x.valid = 0 then resOk else resPortFail) (leBytes x.tick 8)

/-- A block that is built is written, and the snapshot leaves its slot. -/
theorem snapWrite_sole {s : State} {x : Snap} {blk : List Byte} (hsnaps : s.snaps = [x.withBlock blk]) (hdma : s.dmaOk = true) :
    s.snapWrite = (s.blockWritten (s.snapDest x) blk).blockDone x := by
  have hfind : s.snaps.find? (fun x => x.built.isSome) = some (x.withBlock blk) := by simp [hsnaps, Snap.withBlock]
  have hleave : (s.emit (.hostWrite (s.snapDest x) blk)).updSnaps (fun l => l.filter fun y => y.seq != x.seq) =
      s.blockWritten (s.snapDest x) blk := by
    simp [State.blockWritten, State.updSnaps, State.emit, State.updOut, hsnaps, Snap.withBlock]
  unfold State.snapWrite
  rw [hfind, ← hleave]
  dsimp only
  exact if_neg (by simp [hdma])

theorem snapBuild_sole {s : State} {x : Snap} (hsnaps : s.snaps = [x]) (hlatched : x.latched = true)
    (hquiet : ∀ p : Port, s.snapTraffic x.seq p = false) :
    s.snapBuild = s.updSnaps fun _ => [x.withBlock (x.built.getD (s.snapBlock x))] := by
  unfold State.snapBuild
  cases hbuilt : x.built with
  | none =>
    have hfind : s.snaps.find? (fun x => x.latched && x.built.isNone) = some x := by simp [hsnaps, hlatched, hbuilt]
    rw [hfind]
    dsimp only
    rw [if_neg (by simp [hquiet])]
    simp [State.updSnap, State.updSnaps, hsnaps, Snap.withBlock]
  | some b =>
    have hfind : s.snaps.find? (fun x => x.latched && x.built.isNone) = none := by simp [hsnaps, hbuilt]
    have hsame : x.withBlock b = x := by rw [Snap.withBlock, ← hbuilt]
    rw [hfind]
    simp only [Option.getD_some, hsame, ← hsnaps]
    rfl

theorem touchKept_of_off {s : State} (hpasr : s.zget Z.BUF_PASR.ACTIVE = 0) : s.touchKept = s := if_neg (by simp [hpasr])

section
variable {s : State} {x : Snap} {blk : List Byte} (hsnaps : s.snaps = [x]) (hlatched : x.latched = true)
  (hquiet : ∀ p : Port, s.snapTraffic x.seq p = false) (hdma : s.dmaOk = true) (hpasr : s.zget Z.BUF_PASR.ACTIVE = 0)
  (hblk : blk = x.built.getD (s.snapBlock x))
include hsnaps hlatched hquiet hdma hpasr hblk

/-- R393: the one latched snapshot, with every image arrived, is built if it has not been, and written. -/
theorem snapFinish_sole : s.snapFinish = ((s.blockWritten (s.snapDest x) blk).blockDone x).ctrlAdvance := by
  rw [State.snapFinish, if_pos (by simp [hsnaps, hlatched]), touchKept_of_off hpasr, snapBuild_sole hsnaps hlatched hquiet, ← hblk,
    snapWrite_sole (s := s.updSnaps fun _ => [x.withBlock blk]) rfl hdma]
  rfl

/-- A periodic snapshot goes to the next place of its area (R394). -/
theorem snapFinish_periodic (hcmd : x.cmd = none) (hcmds : s.cmds = []) :
    s.snapFinish = ((s.updSnaps fun _ => []).emit (.hostWrite (s.zget Z.TEL_BASE.BASE * 4096 +
      4096 * (s.zget Z.TEL_IDX.COUNT % 2 ^ min 10 (s.zget Z.TEL_CFG.LOG2N))) blk)).zwrap Z.TEL_IDX.COUNT 1 := by
  have hdone : (s.blockWritten (s.snapDest x) blk).blockDone x = (s.blockWritten (s.snapDest x) blk).zwrap Z.TEL_IDX.COUNT 1 := by
    rw [State.blockDone, hcmd]
  rw [snapFinish_sole hsnaps hlatched hquiet hdma hpasr hblk, hdone]
  refine (ctrlAdvance_of_none (s := (s.blockWritten (s.snapDest x) blk).zwrap Z.TEL_IDX.COUNT 1) hcmds).trans ?_
  rw [State.snapDest, if_neg (by simp [hcmd])]
  rfl

/-- A TRUE command finishes with the ports that failed (R393). -/
theorem snapFinish_commanded {c : Cmd} (hcmd : x.cmd = some c.id) (hcmds : s.cmds = [c]) (hstarted : c.started = true)
    (hrun : c.result = none) :
    s.snapFinish = ((s.updSnaps fun _ => []).emit (.hostWrite x.dest blk)).updCmds fun _ => [{ c with
      fail := x.active - x.valid, result := some (if x.active - x.valid = 0 then 0 else 1), left := [], rdata := leBytes x.tick 8 }] := by
  have hdone : (s.blockWritten (s.snapDest x) blk).blockDone x = (s.blockWritten x.dest blk).updCmds fun _ => [{ c with
      fail := x.active - x.valid, result := some (if x.active - x.valid = 0 then 0 else 1), left := [], rdata := leBytes x.tick 8 }] := by
    rw [State.blockDone, hcmd, State.snapDest, if_pos (by simp [hcmd])]
    dsimp only
    rw [updCmd_of_sole (s := s.blockWritten x.dest blk) hcmds]
    exact finish_of_sole (c := { c with fail := x.active - x.valid }) rfl hrun _ _
  rw [snapFinish_sole hsnaps hlatched hquiet hdma hpasr hblk, hdone]
  exact ctrlAdvance_of_started rfl hstarted (.inr (by simp))

end

theorem snapFinish_none {s : State} (h : ∀ x ∈ s.snaps, x.latched = false) : s.snapFinish = s :=
  if_neg (by simpa using h)

/-! ### Periodic snapshots (R394) -/

section
variable {s : State} (hon : s.zget Z.TEL_CFG.EN ≠ 0) {period : Nat} (hperiod : period = max 1 (s.zget Z.TEL_CFG.PERIOD_MS) * 1000000 * nsUnits)

theorem periodic_waits (h : s.zget Z.TEL_CFG.EN = 0 ∨ s.time < s.ev.telAt) : s.periodic = s := if_pos h

include hon hperiod

theorem periodic_skips (hlate : s.ev.telAt + period ≤ s.time) :
    s.periodic = (s.updEv fun e => { e with telAt := e.telAt + period }).zbump Z.TEL_SKIP.COUNT 1 := by
  subst hperiod
  exact (if_neg (by omega)).trans (if_pos hlate)

variable (hdue : s.ev.telAt ≤ s.time) (hin : s.time < s.ev.telAt + period)
include hdue hin

theorem periodic_full (hfull : s.snapUnbuilt = true ∨ s.buf.stageLost = true ∨ 256 ≤ s.snaps.length) : s.periodic = s := by
  subst hperiod
  exact (if_neg (by omega)).trans ((if_neg (by omega)).trans (if_pos hfull))

theorem periodic_begins (hroom : ¬ (s.snapUnbuilt = true ∨ s.buf.stageLost = true ∨ 256 ≤ s.snaps.length)) :
    s.periodic = (s.updEv fun e => { e with telAt := e.telAt + period }).beginSnap s.earliestTick none 0 0 := by
  subst hperiod
  exact (if_neg (by omega)).trans ((if_neg (by omega)).trans (if_neg hroom))

end

theorem snapUnbuilt_iff (s : State) : s.snapUnbuilt = true ↔ ∃ x ∈ s.snaps, x.built = none := by
  simp [State.snapUnbuilt]

/-! ### The configuration scrub (R399) -/

/-- The read of 16 pixel words from pixel `i` on. -/
def scrubItem (i : Nat) : DlItem :=
  { purpose := .scrub i 16, op := 4, sh := false, bytes := [16, 0] ++ beBytes (i / 512) 2 ++ beBytes (i % 512) 2 }

theorem configScrub_off {s : State} {p : Port} (h : bitAt (s.zget Z.CSCRUB_CFG.PORTS) p.val = false ∨ s.linkUp p = false ∨ s.pasr = true) :
    s.configScrub p = s := by
  refine if_pos ?_
  rcases h with h | h | h <;> simp [h]

/-- A lap of the scrub ends after `ms` milliseconds, and the next begins. -/
def State.lapEnds (s : State) (p : Port) (ms : Nat) : State :=
  (s.updPort p fun q => { q with scrubPos := 0, scrubStart := s.time }).zput (Z.CSCRUB_LAPp.LAP_MS.at (4 * p.val)) ms

/-- A step of the scrub: the read goes out, and the position moves or the lap ends. -/
theorem configScrub_on {s : State} {p : Port} {q : PortIn} {u : State} {ms : Nat} (hq : s.port p = q)
    (hport : bitAt (s.zget Z.CSCRUB_CFG.PORTS) p.val = true) (hup : s.linkUp p = true) (hawake : s.pasr = false)
    (hu : u = s.dlUrgent p [scrubItem q.scrubPos]) (hms : ms = min 65535 ((s.time - q.scrubStart) / (1000000 * nsUnits))) :
    s.configScrub p = if q.scrubPos + 16 < 262144 then u.updPort p fun r => { r with scrubPos := q.scrubPos + 16 }
      else if 60 < ms then ((u.lapEnds p ms).bgLag 3).raisePort p 19 ([1] ++ leBytes ms 2) else u.lapEnds p ms := by
  have hsends : sendsOn p s u := hu ▸ sendsOn_dlUrgent p s _
  have hstart : (u.port p).scrubStart = q.scrubStart := 
    (congrArg PortIn.scrubStart hsends.port_same).trans (congrArg PortIn.scrubStart hq :)
  have hlap : sat 16 ((u.time - (u.port p).scrubStart) / (1000000 * nsUnits)) = ms := by
    rw [hsends.time, hstart, hms]
    exact min_comm ..
  rw [← hlap, hu, ← hq]
  exact if_neg (by simp [hport, hup, hawake])

/-- The scrub's event is bit 19 of its port. -/
theorem evBits_scrub (p : Port) : evBits (p * 20 + 19) = (ZP.EVSTAT.PEND.port p, ZP.EVEN.EN.port p, 19) := by
  have hp := p.isLt
  have hport : (p.val * 20 + 19) / 20 = p := by omega
  have hbit : (p.val * 20 + 19) % 20 = 19 := by omega
  rw [evBits, if_pos (by omega), hport, hbit]

/-- A lap that took too long latches its lag and raises the port's event. -/
theorem lapEnds_late {u : State} {p : Port} {ms : Nat} (hms : ms < 65536) {t : State}
    (ht : t = ((u.lapEnds p ms).bgLag 3).raisePort p 19 ([1] ++ leBytes ms 2)) :
    (t.port p).scrubPos = 0 ∧ t.zget (Z.CSCRUB_LAPp.LAP_MS.at (4 * p.val)) = ms ∧ bitAt (t.zget Z.BG_LAG.LAG) 3 = true ∧
      bitAt (t.zget (ZP.EVSTAT.PEND.port p)) 19 = true := by
  have hkey {g : Field} (hlow : 0xA000 ≤ g.off) (hhigh : g.off < 0x10000) (hlsb : g.lsb < 64) : g.key ≠ (evBits (p * 20 + 19)).1.key :=
    evBits_pend_key_ne _ hlow hhigh hlsb
  have hplace : (Z.CSCRUB_LAPp.LAP_MS.at (4 * p.val)).off = 0xA040 + 4 * p.val := rfl
  have hp := p.isLt
  subst ht
  refine ⟨?_, ?_, ?_, ?_⟩
  · have hports := congrArg (fun v : State => (v.port p).scrubPos)
      (raiseSev_onlyEvent ((u.lapEnds p ms).bgLag 3) (p * 20 + 19) (sevOf (p * 20 + 19)) ([1] ++ leBytes ms 2)).1
    refine hports.trans ?_
    exact congrArg PortIn.scrubPos (State.port_updPort_same u p fun q => { q with scrubPos := 0, scrubStart := u.time })
  · rw [State.raisePort, raise_zget (hkey (by omega) (by omega) (Nat.zero_lt_succ 63))
      (by simp only [Field.key, Field.at, Z.CSCRUB_LAPp.LAP_MS, Z.EVT_STAT.FILTERED]; omega), State.bgLag,
      State.zget_zput_ne _ _ (by simp only [Field.key, Field.at, Z.CSCRUB_LAPp.LAP_MS, Z.BG_LAG.LAG]; omega), State.lapEnds, State.zget_zput]
    exact Nat.mod_eq_of_lt hms
  · rw [State.raisePort, raise_zget (hkey (by decide) (by decide) (by decide)) (by decide), State.bgLag, State.zget_zput, bitAt_eq_testBit,
      Nat.testBit_mod_two_pow, Nat.testBit_or, Nat.testBit_two_pow_self,
      Bool.or_true]
    rfl
  · have hpend := raise_pend ((u.lapEnds p ms).bgLag 3) (p * 20 + 19) ([1] ++ leBytes ms 2)
      (evBits_pend_key_ne _ (by decide) (by decide) (by decide)).symm (evBits_bit_lt (by omega))
    rwa [evBits_scrub] at hpend

/-- Settles O56, by one equation per case of the event unit, the snapshots and the scrub. -/
theorem eventsAndSnapshots : Obligations.EventsAndSnapshots := by
  unfold Obligations.EventsAndSnapshots
  refine fun s => ⟨fun src sev d pend en i hsrc hbits => ?_, fun h => congrArg Host.Outcome.next (eventWrite_waits h),
    fun e rest i hqueue hroom hi => ?_, fun h => congrArg Host.Outcome.next (snapLatch_none h), fun x hsnaps hnew hdue => ?_,
    fun h => congrArg Host.Outcome.next (snapFinish_none h), snapBlock_length s,
    fun x blk hsnaps hlatched hquiet hdma hpasr hblk => ⟨fun hcmd hcmds => ?_, fun c hcmd hcmds hstarted hrun => ?_⟩,
    fun period hperiod => ⟨fun h => congrArg Host.Outcome.next (periodic_waits h), fun hon hlate => ?_,
      fun hon hdue hin => ⟨fun hfull => ?_, ?_⟩⟩,
    fun p q hq => ⟨fun h => congrArg Host.Outcome.next (configScrub_off h),
      fun hport hup hawake u hu => ⟨fun hmore => ?_, fun ms hend hms => ?_⟩⟩⟩
  · obtain ⟨rfl, rfl, rfl⟩ : pend = (evBits src).1 ∧ en = (evBits src).2.1 ∧ i = (evBits src).2.2 := by
      rw [← hbits]
      exact ⟨rfl, rfl, rfl⟩
    refine ⟨raiseSev_pend s hsrc sev d, raiseSev_disabled s sev d, fun hen => ?_⟩
    have henabled {u : State} (hu) := raiseSev_enabled s hsrc sev d hen (u := u) hu
    refine ⟨fun hsev => ?_, fun hsev hroom => ?_, fun hsev hfull u hu => ?_⟩
    · rw [henabled rfl, if_pos hsev]
      rfl
    · rw [henabled rfl, if_neg (Nat.not_lt.mpr hsev), if_pos hroom]
      rfl
    · rw [henabled hu, if_neg (Nat.not_lt.mpr hsev), if_neg (Nat.not_lt.mpr hfull)]
  · obtain ⟨more, hout, hquiet, htells, -⟩ := eventWrite_shows hqueue hroom
    refine ⟨s.eventWrite, more, rfl, ?_, fun hshadow hdirect _ => hquiet hshadow hdirect, ?_, ?_, ?_, ?_⟩
    · rw [hout, hi]
      rfl
    · rw [htells, hi]
      exact State.zget_zput s _ _
    · rw [htells]
      exact regsBut.zput (t := s) (fun _ _ => rfl) (by simp) _
    · rw [htells]
      rfl
    · refine htells.trans ?_
      rw [htells]
      rfl
  · have hlatch := snapLatch_sole hsnaps hnew hdue
    refine ⟨_, congrArg Host.Outcome.next hlatch, ?_, ?_, ?_, ?_, ?_, ?_,
      ⟨(s.latchedSnap x).active, ?_, fun p => bitAt_mask _ p⟩, fun p hp => ?_⟩
    · exact foldl_dlUrgent_keeps State.mirror _ _ sendsOn.mirror _
    · rw [foldl_zget _ _ _ _ fun s p _ => (sendsOn_dlUrgent p s _).zget (quiet_key_ne p (by decide) (by decide)), State.snapTaken,
        State.zget_zput_ne _ _ (by decide), State.zget_zput]
      rfl
    · rw [foldl_zget _ _ _ _ fun s p _ => (sendsOn_dlUrgent p s _).zget (quiet_key_ne p (by decide) (by decide)), State.snapTaken,
        State.zget_zput]
      rfl
    · exact foldl_dlUrgent_keeps State.time _ _ sendsOn.time _
    · exact foldl_dlUrgent_keeps State.chips _ _ sendsOn.chips _
    · exact foldl_dlUrgent_keeps State.buf _ _ sendsOn.buf _
    · exact foldl_dlUrgent_keeps State.snaps _ _ sendsOn.snaps _
    · refine foldl_dlUrgent_port _ _ _ fun hmem => ?_
      obtain ⟨hup, harmed⟩ := List.mem_filter.mp hmem
      rcases hp with hdown | hnot
      · simp [hdown] at hup
      · simp [hnot] at harmed
  · exact congrArg Host.Outcome.next (snapFinish_periodic hsnaps hlatched hquiet hdma hpasr hblk hcmd hcmds)
  · exact congrArg Host.Outcome.next (snapFinish_commanded hsnaps hlatched hquiet hdma hpasr hblk hcmd hcmds hstarted hrun)
  · exact congrArg Host.Outcome.next (periodic_skips hon hperiod hlate)
  · refine congrArg Host.Outcome.next (periodic_full hon hperiod hdue hin ?_)
    rwa [snapUnbuilt_iff]
  · rintro hbuilt hstage hroom x rfl
    refine congrArg Host.Outcome.next (periodic_begins hon hperiod hdue hin ?_)
    rw [snapUnbuilt_iff]
    rintro (⟨x, hx, hnone⟩ | hlost | hfull)
    · exact hbuilt x hx hnone
    · simp [hstage] at hlost
    · omega
  · refine congrArg Host.Outcome.next ((configScrub_on hq hport hup hawake hu rfl).trans ?_)
    rw [if_pos hmore, updPort_eq_setPort]
  · have hstep := configScrub_on hq hport hup hawake hu hms
    rw [if_neg (Nat.not_lt.mpr hend)] at hstep
    refine ⟨fun hsoon => congrArg Host.Outcome.next (hstep.trans ?_), fun hlate => ?_⟩
    · have htime : u.time = s.time := (hu ▸ sendsOn_dlUrgent p s _ : sendsOn p s u).time
      rw [if_neg (Nat.not_lt.mpr hsoon), State.lapEnds, updPort_eq_setPort, htime]
    · rw [if_pos hlate] at hstep
      exact ⟨_, congrArg Host.Outcome.next hstep, lapEnds_late (by omega) rfl⟩

end Sys2Proof.Machine
end

section
/-!
PROOFS. Doorbells, and the enabling and disabling of rings (R232, R236, R237; O42).
-/

namespace Sys2Proof.Machine

/-! ### Doorbells (R232) -/

theorem doorbell_safe {s : State} (hsafe : s.safe = true) (r v : Nat) : s.doorbell r v = s := if_pos hsafe

section
variable {s : State} (hopen : s.bar0Open) {r : Nat} (v : Nat)
include hopen

theorem doorbell_open : s.doorbell r v =
    if s.zget (ZR.CFG.EN.hring r) = 1 then (if r < 6 then s.bellIn r v else s.bellOut r v)
    else if r < 6 then s.updHost fun h => { h with bell := Tab.set none h.bell r (some v) } else s :=
  (if_neg (by simp [State.safe_of_bar0Open hopen])).trans (if_neg (by simp [State.isReady_of_bar0Open hopen]))

theorem doorbell_recorded (hoff : s.zget (ZR.CFG.EN.hring r) = 0) (hr : r < 6) :
    s.doorbell r v = s.updHost fun h => { h with bell := Tab.set none h.bell r (some v) } := by
  rw [doorbell_open hopen, if_neg (by simp [hoff]), if_pos hr]

theorem doorbell_ignored (hoff : s.zget (ZR.CFG.EN.hring r) = 0) (hr : 6 ≤ r) : s.doorbell r v = s := by
  rw [doorbell_open hopen, if_neg (by simp [hoff]), if_neg (Nat.not_lt.mpr hr)]

theorem doorbell_in (hon : s.zget (ZR.CFG.EN.hring r) = 1) (hr : r < 6) : s.doorbell r v = s.bellIn r v := by
  rw [doorbell_open hopen, if_pos hon, if_pos hr]

theorem doorbell_out (hon : s.zget (ZR.CFG.EN.hring r) = 1) (hr : 6 ≤ r) : s.doorbell r v = s.bellOut r v := by
  rw [doorbell_open hopen, if_pos hon, if_neg (Nat.not_lt.mpr hr)]

end

section
variable {s : State} {r v own : Nat}

theorem bellIn_beyond (hown : own = s.zget (cidxF r)) (hbeyond : s.ringSize r < idxDiff v own) : s.bellIn r v = s.ringErr r 0 v := by
  subst hown
  exact if_pos hbeyond

theorem bellIn_back (hown : own = s.zget (cidxF r)) (hin : idxDiff v own ≤ s.ringSize r)
    (hback : idxDiff v own < idxDiff (s.zget (pidxF r)) own) : s.bellIn r v = s.ringErr r 1 v := by
  subst hown
  exact (if_neg (Nat.not_lt.mpr hin)).trans (if_pos hback)

theorem bellIn_moves (hown : own = s.zget (cidxF r)) (hin : idxDiff v own ≤ s.ringSize r)
    (hahead : idxDiff (s.zget (pidxF r)) own ≤ idxDiff v own) : s.bellIn r v = s.zput (pidxF r) v := by
  subst hown
  exact (if_neg (Nat.not_lt.mpr hin)).trans (if_neg (Nat.not_lt.mpr hahead))

theorem bellOut_moves (hown : own = s.zget (pidxF r)) (hin : idxDiff own v ≤ s.ringSize r)
    (hahead : idxDiff own v ≤ idxDiff own (s.zget (cidxF r))) :
    s.bellOut r v = (s.zput (cidxF r) v).updHost fun h => { h with waitAt := Tab.set 0 h.waitAt r s.time } := by
  subst hown
  exact (if_neg (Nat.not_lt.mpr hin)).trans (if_neg (Nat.not_lt.mpr hahead))

end

/-! ### Fields of a ring -/

theorem hring_key_ne {f g : Field} (h : f.key ≠ g.key) (r : Nat) : (f.hring r).key ≠ (g.hring r).key := by
  simp only [Field.key, Field.hring, Field.at] at h ⊢
  omega

/-- A ring's field stands apart from those behind the rings' words. -/
theorem hring_key_ne_high {f g : Field} (hf : f.off < 32 ∧ f.lsb < 64) (hg : 0x7100 ≤ g.off) {r : Nat} (hr : r < 8) :
    (f.hring r).key ≠ g.key := by
  simp only [Field.key, Field.hring, Field.at]
  omega

/-! ### RING_ERR (R249) -/

theorem evBits_aer : evBits 525 = (Z.HOST_EVSTAT.PEND, Z.HOST_EVEN.EN, 1) := by simp [evBits]
theorem evBits_ringErr : evBits 527 = (Z.HOST_EVSTAT.PEND, Z.HOST_EVEN.EN, 3) := by simp [evBits]

/-- An event changes nothing of the host's part but the pending messages. -/
theorem raise_host (s : State) (src : Nat) (d : List Byte) : (s.raise src d).host = { s.host with pba := (s.raise src d).host.pba } := by
  unfold State.raise State.raiseSev State.message
  dsimp only
  repeat' split
  all_goals rfl

theorem ringErr_onlyEvent (s : State) (r cause idx : Nat) : onlyEvent [Z.HOST_ERR.RING_ERR, Z.HOST_EVSTAT.PEND, Z.EVT_STAT.FILTERED] s
    (s.ringErr r cause idx) := by
  have honly := onlyEvent_of_raise (onlyRegs_zput s (List.mem_singleton_self Z.HOST_ERR.RING_ERR) 1) 527
    ([b8 r, b8 cause, 0, 0] ++ leBytes idx 4)
  rwa [evBits_ringErr] at honly

theorem ringErr_zget {s : State} {r cause idx : Nat} {g : Field}
    (hg : g.key ∉ [Z.HOST_ERR.RING_ERR, Z.HOST_EVSTAT.PEND, Z.EVT_STAT.FILTERED].map Field.key) :
    (s.ringErr r cause idx).zget g = s.zget g := fget_congr ((ringErr_onlyEvent s r cause idx).2 _ hg)

theorem ringErr_shows (s : State) (r cause idx : Nat) : (s.ringErr r cause idx).zget Z.HOST_ERR.RING_ERR = 1 := by
  rw [State.ringErr, raise_zget (by rw [evBits_ringErr]; decide) (by decide), State.zget_zput]
  rfl

theorem ringErr_pend (s : State) (r cause idx : Nat) : bitAt ((s.ringErr r cause idx).zget Z.HOST_EVSTAT.PEND) 3 = true := by
  have hpend := raise_pend (s.zput Z.HOST_ERR.RING_ERR 1) 527 ([b8 r, b8 cause, 0, 0] ++ leBytes idx 4)
    (by rw [evBits_ringErr]; decide) (by rw [evBits_ringErr]; decide)
  rwa [evBits_ringErr] at hpend

theorem ringErr_host (s : State) (r cause idx : Nat) :
    (s.ringErr r cause idx).host = { s.host with pba := (s.ringErr r cause idx).host.pba } := raise_host _ _ _

/-! ### RING_ENABLE and RING_DISABLE (R236, R237) -/

section
variable {s : State} {r w n : Nat}

/-- A write of a host-written ring's CFG that keeps LOG2SIZE and REFUSED changes no field. -/
theorem ringCfg_same (hr : r < 6) (hsize : s.zget (ZR.CFG.LOG2SIZE.hring r) = n) (hkeep : bitAt w 10 = false) (hw : w % 32 = n) :
    s.ringCfg r w = s := by
  simp [State.ringCfg, hkeep, Nat.not_le.mpr hr, hsize, hw]

/-- LOG2SIZE of an enabled ring is refused (R236). -/
theorem ringCfg_enabled (hr : r < 6) (hsize : s.zget (ZR.CFG.LOG2SIZE.hring r) = n) (hkeep : bitAt w 10 = false)
    (hon : s.zget (ZR.CFG.EN.hring r) = 1) : s.ringCfg r w = if w % 32 = n then s else s.zput (ZR.CFG.REFUSED.hring r) 1 := by
  simp [State.ringCfg, hkeep, Nat.not_le.mpr hr, hsize, hon]

/-- The ring enabled, with both indices at zero and nothing counted. -/
def State.ringFresh (s : State) (r : Nat) : State :=
  (((s.zput (ZR.CFG.EN.hring r) 1).zput (cidxF r) 0).zput (pidxF r) 0).freshCount r

theorem hostRingEnable_fresh (hr : r < 6) (hoff : s.zget (ZR.CFG.EN.hring r) = 0) (hsize : s.zget (ZR.CFG.LOG2SIZE.hring r) = n)
    (hkeep : bitAt w 10 = false) (hw : w % 32 = n) (hlow : 6 ≤ n) (hhigh : n ≤ 20) :
    s.hostRingEnable r w = match Tab.get none s.host.bell r with
      | some v => (s.ringFresh r).bellIn r v
      | none => s.ringFresh r := by
  unfold State.hostRingEnable
  rw [ringCfg_same hr hsize hkeep hw]
  dsimp only
  rw [hsize, hoff, if_neg (by decide), if_neg (by omega)]
  cases Tab.get none s.host.bell r with
  | none => rfl
  | some v => exact if_pos hr

theorem hostRingEnable_badSize (hr : r < 6) (hoff : s.zget (ZR.CFG.EN.hring r) = 0) (hsize : s.zget (ZR.CFG.LOG2SIZE.hring r) = n)
    (hkeep : bitAt w 10 = false) (hw : w % 32 = n) (hbad : n < 6 ∨ 20 < n) : s.hostRingEnable r w = s.zput (ZR.CFG.ERR.hring r) 1 := by
  unfold State.hostRingEnable
  rw [ringCfg_same hr hsize hkeep hw]
  dsimp only
  rw [hsize, hoff, if_neg (by decide), if_pos hbad]

theorem hostRingEnable_enabled (hon : s.zget (ZR.CFG.EN.hring r) = 1) : s.hostRingEnable r w = s.ringCfg r w := by
  unfold State.hostRingEnable
  simp only [hon]
  exact if_pos rfl

end

/-! ### A ring that has been enabled -/

section
variable (s : State) {r : Nat} (hr : r < 6)

theorem ringFresh_pidx : (s.ringFresh r).zget (pidxF r) = 0 := (State.zget_zput _ _ _).trans (Nat.zero_mod _)

theorem ringFresh_cidx : (s.ringFresh r).zget (cidxF r) = 0 := by
  refine (State.zget_zput_ne _ _ (hring_key_ne (by decide) r)).trans ?_
  exact (State.zget_zput _ _ _).trans (Nat.zero_mod _)

theorem ringFresh_en : (s.ringFresh r).zget (ZR.CFG.EN.hring r) = 1 := by
  refine (State.zget_zput_ne _ _ (hring_key_ne (by decide) r)).trans ((State.zget_zput_ne _ _ (hring_key_ne (by decide) r)).trans ?_)
  rw [State.zget_zput]
  rfl

theorem ringFresh_size : (s.ringFresh r).ringSize r = s.ringSize r := by
  rw [State.ringSize, State.ringSize]
  refine congrArg (2 ^ ·) ((State.zget_zput_ne _ _ (hring_key_ne (by decide) r)).trans ?_)
  refine (State.zget_zput_ne _ _ (hring_key_ne (by decide) r)).trans ?_
  exact State.zget_zput_ne _ _ (hring_key_ne (by decide) r)

theorem ringFresh_bell : Tab.get none (s.ringFresh r).host.bell r = none := Tab.get_set_same none s.host.bell r none

theorem ringFresh_regsBut : regsBut [ZR.CFG.EN.hring r, ZR.CIDX.INDEX.hring r, ZR.PIDX.INDEX.hring r] s (s.ringFresh r) :=
  ((regsBut.zput (t := s) (fun _ _ => rfl) (by simp) _).zput (by simp [cidxF]) _).zput (by simp [pidxF]) _

/-- What every way of a recorded doorbell leaves of a fresh ring: it is enabled, with nothing consumed and nothing recorded. -/
def State.ringStarts (t : State) (r : Nat) : Prop :=
  t.zget (ZR.CFG.EN.hring r) = 1 ∧ t.zget (cidxF r) = 0 ∧ Tab.get none t.host.bell r = none

theorem ringFresh_starts : (s.ringFresh r).ringStarts r := ⟨ringFresh_en s, ringFresh_cidx s, ringFresh_bell s⟩

theorem hring_key_notMem_errs {f : Field} (hf : f.off < 32 ∧ f.lsb < 64) {r : Nat} (hr : r < 8) :
    (f.hring r).key ∉ [Z.HOST_ERR.RING_ERR, Z.HOST_EVSTAT.PEND, Z.EVT_STAT.FILTERED].map Field.key := by
  simp only [List.map_cons, List.map_nil, List.mem_cons, List.not_mem_nil, or_false, not_or]
  exact ⟨hring_key_ne_high hf (by decide) hr, hring_key_ne_high hf (by decide) hr, hring_key_ne_high hf (by decide) hr⟩

include hr

theorem ringErr_starts {t : State} (ht : t.ringStarts r) (cause idx : Nat) : (t.ringErr r cause idx).ringStarts r := by
  obtain ⟨hen, hcidx, hbell⟩ := ht
  refine ⟨?_, ?_, ?_⟩
  · rwa [ringErr_zget (hring_key_notMem_errs (by decide) (by omega))]
  · rwa [cidxF, ringErr_zget (hring_key_notMem_errs (by decide) (by omega))]
  · rwa [ringErr_host]

omit hr in
theorem zput_pidx_starts {t : State} (ht : t.ringStarts r) (v : Nat) : (t.zput (pidxF r) v).ringStarts r := by
  obtain ⟨hen, hcidx, hbell⟩ := ht
  exact ⟨(State.zget_zput_ne _ _ (hring_key_ne (by decide) r)).trans hen,
    (State.zget_zput_ne _ _ (hring_key_ne (by decide) r)).trans hcidx, hbell⟩

theorem bellIn_starts {t : State} (ht : t.ringStarts r) (v : Nat) : (t.bellIn r v).ringStarts r := by
  unfold State.bellIn
  dsimp only
  split
  · exact ringErr_starts hr ht 0 v
  · split
    · exact ringErr_starts hr ht 1 v
    · exact zput_pidx_starts ht v

omit hr in
/-- A recorded doorbell within SIZE is taken as the producer index (R236). -/
theorem ringFresh_bellIn {v : Nat} (hv : v < 2 ^ 32) (hin : v ≤ s.ringSize r) : (s.ringFresh r).bellIn r v = (s.ringFresh r).zput (pidxF r) v := by
  have hdiff : idxDiff v 0 = v := by
    rw [idxDiff]
    omega
  refine bellIn_moves (ringFresh_cidx s).symm ?_ ?_
  · rwa [hdiff, ringFresh_size]
  · rw [ringFresh_pidx, hdiff]
    exact Nat.zero_le v

omit hr in
theorem ringFresh_bellIn_beyond {v : Nat} (hv : v < 2 ^ 32) (hbeyond : s.ringSize r < v) :
    (s.ringFresh r).bellIn r v = (s.ringFresh r).ringErr r 0 v := by
  have hdiff : idxDiff v 0 = v := by
    rw [idxDiff]
    omega
  exact bellIn_beyond (ringFresh_cidx s).symm (by rwa [hdiff, ringFresh_size])

end

end Sys2Proof.Machine
end

section
/-!
PROOFS. Messages, completions and faults of the host's rings (R240, R243, R244, R247, R249; O42).
-/

namespace Sys2Proof.Machine

/-! ### A ring that is enabled (R236) -/

/-- What RING_ENABLE makes of a disabled host-written ring of a good size, by what its doorbell recorded. -/
theorem hostRingEnable_shows {s : State} {r w n : Nat} (hr : r < 6) (hoff : s.zget (ZR.CFG.EN.hring r) = 0)
    (hsize : s.zget (ZR.CFG.LOG2SIZE.hring r) = n) (hkeep : bitAt w 10 = false) (hw : w % 32 = n) (hlow : 6 ≤ n) (hhigh : n ≤ 20) :
    (s.hostRingEnable r w).ringStarts r ∧
      (Tab.get none s.host.bell r = none → (s.hostRingEnable r w).zget (pidxF r) = 0) ∧
      (∀ v, Tab.get none s.host.bell r = some v → v < 2 ^ 32 →
        (v ≤ 2 ^ n → (s.hostRingEnable r w).zget (pidxF r) = v) ∧
        (2 ^ n < v → (s.hostRingEnable r w).zget (pidxF r) = 0 ∧ (s.hostRingEnable r w).zget Z.HOST_ERR.RING_ERR = 1)) ∧
      ((∀ v, Tab.get none s.host.bell r = some v → v ≤ 2 ^ n) →
        s.hostRingEnable r w = (s.updZreg fun _ => (s.hostRingEnable r w).zreg).updHost (fun _ => (s.hostRingEnable r w).host) ∧
        regsBut [ZR.CFG.EN.hring r, ZR.CIDX.INDEX.hring r, ZR.PIDX.INDEX.hring r] s (s.hostRingEnable r w)) := by
  have hsize' : s.ringSize r = 2 ^ n := congrArg (2 ^ ·) hsize
  have hpow : 2 ^ n < 2 ^ 32 := Nat.pow_lt_pow_right (by decide) (by omega)
  rw [hostRingEnable_fresh hr hoff hsize hkeep hw hlow hhigh]
  cases hbell : Tab.get none s.host.bell r with
  | none => exact ⟨ringFresh_starts s, fun _ => ringFresh_pidx s, fun v hv => absurd hv (by simp), fun _ => ⟨rfl, ringFresh_regsBut s⟩⟩
  | some v =>
    have htaken (hin : v ≤ 2 ^ n) : (s.ringFresh r).bellIn r v = (s.ringFresh r).zput (pidxF r) v :=
      ringFresh_bellIn s (hin.trans_lt hpow) (hsize'.symm ▸ hin)
    refine ⟨bellIn_starts hr (ringFresh_starts s) v, fun h => absurd h (by simp), fun v' hv' hlt => ?_, fun hall => ?_⟩
    · obtain rfl : v = v' := Option.some.inj hv'
      refine ⟨fun hin => ?_, fun hbeyond => ?_⟩
      · dsimp only
        rw [htaken hin, State.zget_zput]
        exact Nat.mod_eq_of_lt hlt
      · dsimp only
        rw [ringFresh_bellIn_beyond s hlt (hsize'.symm ▸ hbeyond)]
        refine ⟨?_, ringErr_shows _ _ _ _⟩
        rw [pidxF, ringErr_zget (hring_key_notMem_errs (by decide) (by omega))]
        exact ringFresh_pidx s
    · dsimp only
      rw [htaken (hall v rfl)]
      exact ⟨rfl, (ringFresh_regsBut s).zput (by simp [pidxF]) v⟩

/-! ### The fetch of an unknown opcode, and completions (R240, R244, R249) -/

theorem ctrlFetch_waits {s : State} (e : List Byte) (d : Option (List Byte)) (h : s.ringUp 0 = false ∨ s.unfetched 0 = 0) :
    s.ctrlFetch e d = s := if_pos (h.imp (by simp [·]) id)

/-- An entry of no listed opcode completes REJECTED_PARAM at once. -/
theorem ctrlFetch_unknown {s : State} {e : List Byte} {d : Option (List Byte)} {c : Cmd} (hup : s.ringUp 0 = true) (hposted : s.unfetched 0 ≠ 0)
    (hnone : s.cmds = [])
    (hc : c = {
      id := s.cmdCount, opcode := leNat (slice e 0 2), ports := leNat (slice e 2 2), tag := leNat (slice e 4 4)
      arg := (slice e 8 24 ++ List.replicate 24 0).take 24, image := d, started := true }) (hop : c.opcode ∉ ctrlOps) :
    s.ctrlFetch e d = s.after { c with result := some 2 } := by
  have hlisted {k : Nat} (hk : k ∈ ctrlOps) : c.opcode ≠ k := fun heq => hop (heq ▸ hk)
  have hfetch : s.ctrlFetch e d = (s.after c.queued).ctrlAdvance := by
    subst hc
    rw [State.ctrlFetch, if_neg (by simp [hup, hposted])]
    simp only [State.after, updCmds_append_of_none hnone, Cmd.queued]
  have hgo : (s.after c.queued).waits c.queued = false := by
    rw [waits_of_sole s (c := c.queued) (hlisted (by decide : 5 ∈ ctrlOps))]
    simp [Cmd.queued, hlisted (by decide : 0x60 ∈ ctrlOps)]
  have hbad : c.wellFormed = false := by simp [Cmd.wellFormed, hop]
  have hrun : (s.after c).runCmd c = s.after { c with result := some 2 } := by
    rw [State.runCmd, if_pos (by simp [hbad])]
    exact finish_after s (hc ▸ rfl) (hc ▸ rfl) (hc ▸ rfl) 2
  rw [hfetch, ctrlAdvance_of_queued (hc ▸ rfl) hgo, hrun]
  exact releaseFence_of_other (after_cmds ..) (hlisted (by decide : 0x40 ∈ ctrlOps))

theorem tells_clearSince (s : State) (r : Nat) : tells s (s.clearSince r) := ⟨rfl, List.prefix_refl _⟩

theorem tells_cmplPut (s : State) (bytes : List Byte) : tells (s.entryWritten 6 bytes) (s.cmplPut bytes) := by
  unfold State.cmplPut
  rw [ringPut_eq]
  dsimp only
  split
  · exact (tells_shadow _).trans ((tells_clearSince _ 6).trans (tells_message _ _))
  · exact tells_shadow _

theorem cmplPut_cmds (s : State) (bytes : List Byte) : (s.cmplPut bytes).cmds = s.cmds :=
  (congrArg State.cmds (tells_cmplPut s bytes).1 :)

section
variable {s : State} {c : Cmd} {r : Nat} (hcmds : s.cmds = [c]) (hstarted : c.started = true) (hdone : c.result = some r)
include hcmds hstarted hdone

theorem ctrlComplete_sole : s.ctrlComplete = if ¬ s.ringRoom 6 ∨ ¬ s.entryDue c r then s
    else (((if c.opcode = 2 ∧ c.num 8 8 ≠ 0 ∧ (r = resOk ∨ r = resPortFail) then s.emit (.hostWrite (c.num 8 8) c.destBytes) else s).updCmds
      fun _ => []).cmplPut (c.entry r)).ctrlAdvance := by
  unfold State.ctrlComplete
  rw [ctrlAdvance_of_started hcmds hstarted (.inr (by simp [hdone]))]
  simp only [hcmds, hdone]

theorem ctrlComplete_waits (hroom : s.ringRoom 6 = false) : s.ctrlComplete = s := by
  rw [ctrlComplete_sole hcmds hstarted hdone, if_pos (by simp [hroom])]

/-- R240: the finished command leaves, and its entry is written. -/
theorem ctrlComplete_writes (hread : c.opcode ≠ 2) (hcommit : c.opcode ≠ 4) (hroom : s.ringRoom 6 = true) :
    s.ctrlComplete = (s.updCmds fun _ => []).cmplPut (leBytes c.tag 4 ++ leBytes c.opcode 2 ++ [b8 r, b8 c.cflags] ++
      leBytes c.fail 2 ++ [0, 0] ++ (c.rdata ++ List.replicate 16 0).take 16 ++ [0, 0, b8 (3 + 16 * 5)]) := by
  rw [ctrlComplete_sole hcmds hstarted hdone, if_neg (by simp [hroom, State.entryDue, hcommit]), if_neg (by simp [hread]),
    ctrlAdvance_of_none (cmplPut_cmds (s.updCmds fun _ => []) _), Cmd.entry, if_neg hread]

end

/-! ### Messages (R247, R422) -/

theorem msixLate_eq (s : State) (r : Nat) (hon : s.zget (ZR.CFG.EN.hring r) = 1) (hsince : Tab.get 0 s.host.since r ≠ 0)
    (hposted : idxDiff (s.zget (ZR.PIDX.INDEX.hring r)) (s.zget (ZR.CIDX.INDEX.hring r)) ≠ 0) :
    s.msixLate r = if s.time < Tab.get 0 s.host.waitAt r + max 1 (s.zget (ZR.COAL.TIMEOUT_US.hring r)) * 1000 * nsUnits then s
      else (s.clearSince r).message (s.zget (ZR.CFG.VECTOR.hring r)) := by
  have hposted' : idxDiff (s.zget (pidxF r)) (s.zget (cidxF r)) ≠ 0 := hposted
  simp only [State.msixLate, hon, hsince, hposted', one_ne_zero, false_or]

/-- The mask of vector `v` is cleared: what was pending for it is sent. -/
theorem msixMask_clear (s : State) (v : Nat) {e : MsixEntry} (he : Tab.get {} s.host.msix v = e) :
    s.msixMask v 0 = if s.host.pba.getLsbD v = true
      then (s.updHost fun h => { h with
        msix := Tab.set {} h.msix v { e with ctrl := 0 }, pba := h.pba &&& ~~~ BitVec.ofNat 64 (2 ^ v) }).emit (.msix v e.addr e.data)
      else s.updHost fun h => { h with msix := Tab.set {} h.msix v { e with ctrl := 0 } } := by
  have hset : Tab.upd {} s.host.msix v (fun e => { e with ctrl := 0 % 2 }) = Tab.set {} s.host.msix v { e with ctrl := 0 } := by
    rw [Tab.upd, he]
  have hentry : Tab.get {} (Tab.set {} s.host.msix v { e with ctrl := 0 }) v = { e with ctrl := 0 } := Tab.get_set_same ..
  have hhost : (s.updHost fun h => { h with msix := Tab.upd {} h.msix v fun e => { e with ctrl := 0 % 2 } }) =
      s.updHost fun h => { h with msix := Tab.set {} h.msix v { e with ctrl := 0 } } :=
    congrArg (fun m => s.updHost fun h => { h with msix := m }) hset
  unfold State.msixMask
  rw [hhost]
  dsimp only
  by_cases hpend : s.host.pba.getLsbD v = true
  · rw [if_pos hpend, if_pos ⟨rfl, hpend⟩]
    unfold State.message
    dsimp only [State.updHost]
    rw [hentry]
    exact if_neg (by simp)
  · rw [if_neg hpend, if_neg fun h => hpend h.2]

/-! ### Replies that do not come (R243) -/

section
variable {s : State} {p : Port} {q : PortIn} {o : Outst} {tag : Nat} (hq : s.port p = q) (hout : q.outst = [o]) (htag : o.tag = tag)
include hq hout

theorem replyTimeout_waits (hearly : s.time < o.sent + s.zget Z.HOST_TMO.FE_US * 1000 * nsUnits) : s.replyTimeout p tag = s := by
  unfold State.replyTimeout
  rw [hq, hout]
  simp [Nat.not_le.mpr hearly]

include htag

theorem replyTimeout_fails {c : Cmd} (hwait : q.dlWait = []) (hcmds : s.cmds = [c]) (hpurpose : o.purpose = .cmd c.id) (hop : c.opcode = 1)
    (hstarted : c.started = true) (hrun : c.result = none) (hfail : c.fail = 0) (hleft : c.left = [(p.val, o.left)])
    (hlate : o.sent + s.zget Z.HOST_TMO.FE_US * 1000 * nsUnits ≤ s.time) :
    s.replyTimeout p tag = (s.setPort p { q with outst := [] }).updCmds fun _ =>
      [{ c with fail := 2 ^ p.val, left := [], result := some 1 }] := by
  have hfind : (s.port p).outst.find? (fun o => o.tag == tag && decide (o.sent + s.zget Z.HOST_TMO.FE_US * 1000 * nsUnits ≤ s.time)) = some o := by
    simp [hq, hout, htag, hlate]
  have hport : s.updPort p (fun q => { q with outst := q.outst.filter fun x => x.tag != tag }) = s.setPort p { q with outst := [] } := by
    rw [updPort_eq_setPort, hq, hout]
    simp [htag]
  have hcmd : c.failPort p.val = { c with fail := 2 ^ p.val, left := [], result := some 1 } := by
    simp [Cmd.failPort, Cmd.settle, hop, hstarted, hrun, hfail, hleft, Tab.set, Tab.erase]
  unfold State.replyTimeout
  rw [hfind]
  dsimp only
  rw [hport, hpurpose]
  dsimp only
  rw [State.failCmd, updCmd_of_sole (s := s.setPort p { q with outst := [] }) hcmds, hcmd]
  refine dlSend_nil ?_
  exact (congrArg PortIn.dlWait (port_setPort s p _)).trans hwait

end

end Sys2Proof.Machine
end

section
/-!
PROOFS. Host memory that fails, and starvation (R249; O42).
-/

namespace Sys2Proof.Machine

/-! ### AER of a failed access -/

/-- The AER bits of a failed access. -/
def aerBits (cause : Nat) : BitVec 32 := if cause = 1 then 0x4000#32 else if cause = 2 then 0x1000#32 else 0#32

/-- The state of which a failed access reports its AER status. -/
def State.dmaLogged (s : State) (cause : Nat) : State :=
  (s.zput Z.HOST_ERR.DMA_ERR 1).updHost fun h => { h with aerUnc := h.aerUnc ||| aerBits cause }

theorem dmaFail_eq (s : State) (cause : Nat) : s.dmaFail cause = (s.dmaLogged cause).raise 525
    (leBytes (s.host.aerUnc ||| aerBits cause).toNat 4 ++ leBytes s.host.aerCor.toNat 4 ++ [b8 cause]) := rfl

theorem dmaFail_onlyEvent (s : State) (cause : Nat) :
    onlyEvent [Z.HOST_ERR.DMA_ERR, Z.HOST_EVSTAT.PEND, Z.EVT_STAT.FILTERED] s (s.dmaFail cause) := by
  have honly := onlyEvent_of_raise (.refl [] (s.dmaLogged cause)) 525
    (leBytes (s.host.aerUnc ||| aerBits cause).toNat 4 ++ leBytes s.host.aerCor.toNat 4 ++ [b8 cause])
  rw [← dmaFail_eq, evBits_aer] at honly
  have hlogged : regsBut [Z.HOST_ERR.DMA_ERR, Z.HOST_EVSTAT.PEND, Z.EVT_STAT.FILTERED] s (s.dmaLogged cause) :=
    regsBut.zput (t := s) (fun _ _ => rfl) List.mem_cons_self 1
  exact ⟨honly.1, hlogged.trans (honly.2.mono (List.subset_cons_self ..))⟩

theorem dmaFail_zget {s : State} {cause : Nat} {g : Field}
    (hg : g.key ∉ [Z.HOST_ERR.DMA_ERR, Z.HOST_EVSTAT.PEND, Z.EVT_STAT.FILTERED].map Field.key) : (s.dmaFail cause).zget g = s.zget g :=
  fget_congr ((dmaFail_onlyEvent s cause).2 _ hg)

theorem dmaFail_shows (s : State) (cause : Nat) : (s.dmaFail cause).zget Z.HOST_ERR.DMA_ERR = 1 := by
  rw [dmaFail_eq, raise_zget (by rw [evBits_aer]; decide) (by decide), State.dmaLogged, State.zget_updHost, State.zget_zput]
  rfl

/-- A failed access raises its event, and what was pending stays pending. -/
theorem dmaFail_pend (s : State) (cause : Nat) : bitAt ((s.dmaFail cause).zget Z.HOST_EVSTAT.PEND) 1 = true ∧
    ∀ j < 6, bitAt (s.zget Z.HOST_EVSTAT.PEND) j = true → bitAt ((s.dmaFail cause).zget Z.HOST_EVSTAT.PEND) j = true := by
  have hnew := raiseSev_pend (s.dmaLogged cause) (src := 525) (by decide) (sevOf 525)
    (leBytes (s.host.aerUnc ||| aerBits cause).toNat 4 ++ leBytes s.host.aerCor.toNat 4 ++ [b8 cause])
  have hkeeps {j : Nat} := raiseSev_pend_keeps (s.dmaLogged cause) (src := 525) (sevOf 525)
    (leBytes (s.host.aerUnc ||| aerBits cause).toNat 4 ++ leBytes s.host.aerCor.toNat 4 ++ [b8 cause]) (j := j)
  rw [evBits_aer] at hnew hkeeps
  refine ⟨hnew, fun j hj hset => hkeeps hj ?_⟩
  rwa [State.dmaLogged, State.zget_updHost, State.zget_zput_ne _ _ (by decide)]

theorem dmaFail_host (s : State) (cause : Nat) :
    (s.dmaFail cause).host = { s.host with aerUnc := s.host.aerUnc ||| aerBits cause, pba := (s.dmaFail cause).host.pba } := raise_host _ _ _

theorem onlyEvent.cmds {fs : List Field} {s t : State} (h : onlyEvent fs s t) : t.cmds = s.cmds := (congrArg State.cmds h.1 :)
theorem onlyEvent.xtr {fs : List Field} {s t : State} (h : onlyEvent fs s t) : t.xtr = s.xtr := (congrArg State.xtr h.1 :)

/-! ### A ring that stops (R249) -/

theorem hring_key_notMem_dma {f : Field} (hf : f.off < 32 ∧ f.lsb < 64) {r : Nat} (hr : r < 8) :
    (f.hring r).key ∉ [Z.HOST_ERR.DMA_ERR, Z.HOST_EVSTAT.PEND, Z.EVT_STAT.FILTERED].map Field.key := by
  simp only [List.map_cons, List.map_nil, List.mem_cons, List.not_mem_nil, or_false, not_or]
  exact ⟨hring_key_ne_high hf (by decide) hr, hring_key_ne_high hf (by decide) hr, hring_key_ne_high hf (by decide) hr⟩

section
variable (s : State) {r : Nat} (hr : r < 8) (cause idx why : Nat)
include hr

/-- A failed access that stops ring `r`: its ERR and the host's errors show, and no index moves. -/
theorem stopRing_dmaFail_shows {t : State} (ht : t = (s.stopRing r cause idx).dmaFail why) :
    t.zget (ZR.CFG.ERR.hring r) = 1 ∧ t.zget Z.HOST_ERR.RING_ERR = 1 ∧ t.zget Z.HOST_ERR.DMA_ERR = 1 ∧
      t.zget (ZR.CIDX.INDEX.hring r) = s.zget (ZR.CIDX.INDEX.hring r) ∧ t.zget (ZR.PIDX.INDEX.hring r) = s.zget (ZR.PIDX.INDEX.hring r) := by
  have hkeeps {f : Field} (hf : f.off < 32 ∧ f.lsb < 64) : t.zget (f.hring r) = (s.zput (ZR.CFG.ERR.hring r) 1).zget (f.hring r) := by
    rw [ht, dmaFail_zget (hring_key_notMem_dma hf hr), State.stopRing, ringErr_zget (hring_key_notMem_errs hf hr)]
  refine ⟨?_, ?_, ht ▸ dmaFail_shows _ _, ?_, ?_⟩
  · rw [hkeeps (by decide), State.zget_zput]
    rfl
  · rw [ht, dmaFail_zget (by decide)]
    exact ringErr_shows _ _ _ _
  · rw [hkeeps (by decide), State.zget_zput_ne _ _ (hring_key_ne (by decide) r)]
  · rw [hkeeps (by decide), State.zget_zput_ne _ _ (hring_key_ne (by decide) r)]

omit hr in
theorem stopRing_dmaFail_events {t : State} (ht : t = (s.stopRing r cause idx).dmaFail why) :
    t.host.aerUnc = s.host.aerUnc ||| aerBits why ∧ bitAt (t.zget Z.HOST_EVSTAT.PEND) 3 = true ∧
      bitAt (t.zget Z.HOST_EVSTAT.PEND) 1 = true ∧ t.xtr = s.xtr ∧ t.cmds = s.cmds := by
  have hring := ringErr_onlyEvent (s.zput (ZR.CFG.ERR.hring r) 1) r cause idx
  have hdma := dmaFail_onlyEvent (s.stopRing r cause idx) why
  obtain ⟨hnew, hold⟩ := dmaFail_pend (s.stopRing r cause idx) why
  subst ht
  refine ⟨?_, hold 3 (by decide) (ringErr_pend _ _ _ _), hnew, hdma.xtr.trans hring.xtr, hdma.cmds.trans hring.cmds⟩
  rw [dmaFail_host, State.stopRing, ringErr_host]
  rfl

end

/-! ### Reads and writes that fail (R249) -/

theorem readFail_ring {s : State} {r : Fin 6} (cause : Nat) (hup : s.ringUp r = true) (hposted : s.unfetched r ≠ 0) :
    s.readFail (.ring r) cause = (s.stopRing r 2 (s.zget (cidxF r))).dmaFail cause := if_neg (by simp [hup, hposted])

theorem cmd?_of_sole {s : State} {c : Cmd} (hcmds : s.cmds = [c]) : s.cmd? c.id = some c := by
  simp [State.cmd?, hcmds]

/-- The source of the sole command cannot be read: the command completes with the DMA error. -/
theorem readFail_cmd {s : State} {c : Cmd} (cause : Nat) (hcmds : s.cmds = [c]) (hstarted : c.started = true) (hrun : c.result = none)
    (himage : c.image = none) (hop : c.opcode = 3 ∨ c.opcode = 0x10) :
    s.readFail (.cmd c.id) cause = (s.updCmds fun _ => [{ c with result := some 5, rdata := [], left := [] }]).dmaFail cause := by
  unfold State.readFail
  dsimp only
  rw [cmd?_of_sole hcmds]
  dsimp only
  rw [if_pos ⟨by simp [hrun], by simp [himage], hop.imp_right .inl⟩, finish_of_sole hcmds hrun]
  exact ctrlAdvance_of_started (c := { c with result := some 5, rdata := [], left := [] }) (dmaFail_onlyEvent _ cause).cmds hstarted
    (.inr (by simp))

theorem writeFail_entry {s : State} {evt : Bool} {r : Nat} (hr : r = if evt then 7 else 6) (hup : s.ringUp r = true) :
    s.writeFail (.entry evt) = (s.stopRing r 3 (s.zget (pidxF r))).dmaFail 5 := by
  subst hr
  exact if_pos hup

theorem writeFail_shadow {s : State} (hon : s.zget Z.HOST_SHADOW.EN = 1) :
    s.writeFail .shadow = ((s.zput Z.HOST_SHADOW.EN 0).ringErr 8 3 0).dmaFail 5 := if_pos hon

theorem writeFail_stream {s : State} {c : Ctx} (hone : s.oneCtx c) {n : Fin 65536} (hnum : c.num = n) :
    s.writeFail (.stream n) = (s.setCtx { c with poison := true }).dmaFail 5 := by
  have hfound : s.ctx? n = some c := hnum ▸ ctx?_of_oneCtx hone
  unfold State.writeFail
  dsimp only
  rw [hfound, ← hnum, updCtx_of_oneCtx hone]
  exact if_pos rfl

theorem starve_eq {s : State} {c : Ctx} (hone : s.oneCtx c) (hstarved : c.starved = true) (hnone : s.unfetched 5 = 0) :
    s.starve = if s.host.starved = true then s
      else ((s.zput Z.HOST_ERR.STARVED 1).updHost fun h => { h with starved := true }).raise 528 [1, 0, 0] := by
  have hcount : (s.xtr.ctxs.filter fun c => c.starved).length = 1 := by
    rw [show s.xtr.ctxs = [c] from hone]
    simp [hstarved]
  unfold State.starve
  rw [hcount]
  simp only [hnone, one_ne_zero, ne_eq, not_true_eq_false, and_false, or_false]
  rfl

/-- Settles O42, by one equation per case of the doorbells, the rings, the messages and the faults. -/
theorem hostRings : Obligations.HostRings := by
  unfold Obligations.HostRings
  refine fun s => ⟨fun r v own hown => ⟨fun hsafe => congrArg Host.Outcome.next (doorbell_safe hsafe _ _),
      fun hopen hoff hr => congrArg Host.Outcome.next (doorbell_recorded hopen _ hoff hr),
      fun hopen hoff hr => congrArg Host.Outcome.next (doorbell_ignored hopen _ hoff hr), fun hopen hon hr => ?_,
      fun hopen hon hr hin hahead => ?_⟩,
    fun r w n hopen hsize hkeep => ⟨fun hoff hw hlow hhigh => ?_, fun hoff hw hbad => ?_, fun hon => ?_, fun hw => ?_⟩,
    fun e d c hup hposted hnone hc hop => congrArg Host.Outcome.next (ctrlFetch_unknown hup hposted hnone hc hop),
    fun e d h => congrArg Host.Outcome.next (ctrlFetch_waits e d h),
    fun c r hcmds hstarted hdone hread hcommit =>
      ⟨fun hroom => congrArg Host.Outcome.next (ctrlComplete_writes hcmds hstarted hdone hread hcommit hroom),
      fun hroom => congrArg Host.Outcome.next (ctrlComplete_waits hcmds hstarted hdone hroom)⟩,
    fun evt r hr hon hsince hposted => ?_, fun v e he => ?_,
    fun p q o c tag hq hout hwait htag hcmds hpurpose hop hstarted hrun hfail hleft =>
      ⟨fun hlate => congrArg Host.Outcome.next (replyTimeout_fails hq hout htag hwait hcmds hpurpose hop hstarted hrun hfail hleft hlate),
        fun hearly => congrArg Host.Outcome.next (replyTimeout_waits hq hout hearly)⟩,
    fun r cause hup hposted => ?_, fun c cause hcmds hstarted hrun himage hop => ?_, fun evt r hr hup => ?_, fun hon => ?_,
    fun c n hone hnum => ?_, fun c hone hstarved hnone => ?_⟩
  · have hin : own = s.zget (cidxF r) := hown.trans (congrArg s.zget (if_pos hr))
    have hexec {t : State} (h : s.bellIn r v.toNat = t) : exec (.doorbellWrite r v) s = .next t :=
      congrArg Host.Outcome.next ((doorbell_in hopen _ hon hr).trans h)
    exact ⟨fun hbeyond => hexec (bellIn_beyond hin hbeyond), fun hle hback => hexec (bellIn_back hin hle hback),
      fun hle hahead => hexec (bellIn_moves hin hle hahead)⟩
  · have hout : own = s.zget (pidxF r) := hown.trans (congrArg s.zget (if_neg (Nat.not_lt.mpr hr)))
    exact congrArg Host.Outcome.next ((doorbell_out hopen _ hon hr).trans (bellOut_moves hout hin hahead))
  · obtain ⟨⟨hen, hcidx, hbell⟩, hnone, hsome, hframe⟩ := hostRingEnable_shows r.isLt hoff hsize hkeep hw hlow hhigh
    exact ⟨_, congrArg Host.Outcome.next (bar0_of_open hopen _), hen, hcidx, hbell, hnone, hsome, hframe⟩
  · exact congrArg Host.Outcome.next ((bar0_of_open hopen _).trans (hostRingEnable_badSize r.isLt hoff hsize hkeep hw hbad))
  · exact congrArg Host.Outcome.next ((bar0_of_open hopen _).trans
      ((hostRingEnable_enabled hon).trans (ringCfg_enabled r.isLt hsize hkeep hon)))
  · refine congrArg Host.Outcome.next ((bar0_of_open hopen _).trans ?_)
    unfold State.hostRingDisable
    rw [Fin.val_castLE, ringCfg_same r.isLt hsize hkeep hw]
    rfl
  · subst hr
    have hlate := msixLate_eq s _ hon hsince hposted
    exact ⟨fun hdue => congrArg Host.Outcome.next (hlate.trans (if_neg (Nat.not_lt.mpr hdue))),
      fun hearly => congrArg Host.Outcome.next (hlate.trans (if_pos hearly))⟩
  · have hmask := msixMask_clear s v he
    refine ⟨fun hpend => ⟨_, congrArg Host.Outcome.next (hmask.trans (if_pos hpend)), rfl, rfl, Tab.get_set_same ..⟩, fun hidle => ?_⟩
    exact congrArg Host.Outcome.next (hmask.trans (if_neg (by rw [hidle]; decide)))
  · have hbits : ∀ cause : Fin 4, aerBits (cause + 1) = if cause = 0 then 0x4000#32 else if cause = 1 then 0x1000#32 else 0#32 := by decide
    obtain ⟨herr, hring, hdma, hcidx, -⟩ := stopRing_dmaFail_shows s (r := r) (by omega) 2 (s.zget (cidxF r)) (cause + 1) rfl
    obtain ⟨haer, hpend3, hpend1, hxtr, hcmds⟩ := stopRing_dmaFail_events s (r := r) 2 (s.zget (cidxF r)) (cause + 1) rfl
    exact ⟨_, congrArg Host.Outcome.next (readFail_ring _ hup hposted), herr, hring, hdma, hcidx, haer.trans (by rw [hbits]), hpend3, hpend1,
      hxtr, hcmds⟩
  · exact ⟨_, congrArg Host.Outcome.next (readFail_cmd _ hcmds hstarted hrun himage hop), (dmaFail_onlyEvent _ _).cmds, dmaFail_shows _ _,
      dmaFail_zget (by decide)⟩
  · have hlt : r < 8 := by
      rw [hr]
      split <;> decide
    obtain ⟨herr, hring, -, -, hpidx⟩ := stopRing_dmaFail_shows s hlt 3 (s.zget (pidxF r)) 5 rfl
    obtain ⟨-, -, -, hxtr, hcmds⟩ := stopRing_dmaFail_events s (r := r) 3 (s.zget (pidxF r)) 5 rfl
    exact ⟨_, congrArg Host.Outcome.next (writeFail_entry hr hup), herr, hring, hpidx, hxtr, hcmds⟩
  · refine ⟨_, congrArg Host.Outcome.next (writeFail_shadow hon), ?_, ?_⟩
    · rw [dmaFail_zget (by decide), ringErr_zget (by decide), State.zget_zput]
      rfl
    · rw [dmaFail_zget (by decide)]
      exact ringErr_shows _ _ _ _
  · exact ⟨_, congrArg Host.Outcome.next (writeFail_stream hone hnum), congrArg Extract.ctxs (dmaFail_onlyEvent _ 5).xtr, dmaFail_shows _ _⟩
  · have hstarve := starve_eq hone hstarved hnone
    exact ⟨fun hnew => congrArg Host.Outcome.next (hstarve.trans (if_neg (by simp [hnew]))),
      fun hold => congrArg Host.Outcome.next (hstarve.trans (if_pos hold))⟩

end Sys2Proof.Machine
end

section
/-!
PROOFS. The start of a command that addresses a port, and its blocks (R238, R242 to R245; O40).
-/

namespace Sys2Proof.Machine

/-! ### One command on an idle downlink (R97, R245) -/

/-- The lowest TAG is free where none is outstanding. -/
theorem freeTag_nil : freeTag [] = some 0 := by decide

theorem dlBlock_data {s : State} {p : Port} (hquiet : s.zget (ZP.DLSTAT.QUIET.port p) = 0) (payload : List Byte) :
    ∃ b : Block, s.dlBlock p .data payload = (s.updPort p fun q => { q with dlSeq := ((s.port p).dlSeq + 1) % 256 }).emit
        (.downlink p b (blockCrc b)) ∧ b = { kind := .data, seq := (s.port p).dlSeq, payload := pad16 payload } := by
  have hawake : s.dlLeaveQuiet p = s := if_neg (by simp [hquiet])
  refine ⟨_, ?_, rfl⟩
  rw [State.dlBlock, hawake]
  exact if_pos (.inr rfl)

/-- The first command in the queue goes out with TAG `k` (R245). -/
theorem dlPump_succ {u : State} {p : Port} {i : DlItem} {rest : List DlItem} {k n : Nat} (hwait : (u.port p).dlWait = i :: rest)
    (htag : freeTag (u.port p).outst = some k) (hup : u.linkUp p = true) (hsh : i.sh = false) :
    u.dlPump p (n + 1) = ((u.updPort p fun q => { q with
      dlWait := rest, outst := q.outst ++ [⟨k, i.purpose, i.op, replies i.op i.bytes, u.time⟩] }).dlBlock p .data
        ([b8 i.op, b8 k] ++ i.bytes)).dlPump p n := by
  rw [State.dlPump, hwait, htag]
  exact if_pos ⟨hup, by simp [hsh]⟩

theorem dlSend_one {s : State} {p : Port} {i : DlItem} (hup : s.linkUp p = true) (hwait : (s.port p).dlWait = [])
    (hout : (s.port p).outst = []) (hsh : i.sh = false) (hquiet : s.zget (ZP.DLSTAT.QUIET.port p) = 0) :
    ∃ b : Block, s.dlSend p [i] = (s.setPort p { s.port p with
        dlSeq := ((s.port p).dlSeq + 1) % 256,
        outst := [⟨0, i.purpose, i.op, replies i.op i.bytes, s.time⟩] }).emit (.downlink p b (blockCrc b)) ∧
      b = { kind := .data, seq := (s.port p).dlSeq, payload := pad16 ([b8 i.op, 0] ++ i.bytes) } := by
  have hqueue : ((s.setPort p ((s.port p).withQueue [i])).port p).dlWait = [i] := congrArg PortIn.dlWait (port_setPort ..)
  have hnone : ((s.setPort p ((s.port p).withQueue [i])).port p).outst = [] := (congrArg PortIn.outst (port_setPort ..)).trans hout
  have hstep := dlPump_succ (u := s.setPort p ((s.port p).withQueue [i])) (n := 0) hqueue (hnone ▸ freeTag_nil) hup hsh
  obtain ⟨b, hblock, hb⟩ := dlBlock_data (s := (s.setPort p ((s.port p).withQueue [i])).updPort p fun q => { q with
    dlWait := [], outst := q.outst ++ [⟨0, i.purpose, i.op, replies i.op i.bytes, s.time⟩] }) hquiet ([b8 i.op, 0] ++ i.bytes)
  rw [State.port_updPort_same, port_setPort] at hblock hb
  refine ⟨b, ?_, hb⟩
  rw [dlSend_of_empty hwait]
  refine hstep.trans (hblock.trans ?_)
  simp only [updPort_eq_setPort, setPort_setPort, port_setPort, PortIn.withQueue, hwait, hout, List.nil_append]

/-! ### The ports of a command -/

theorem filter_bit_of_two_pow (p : Port) : (ports16.filter fun q => bitAt (2 ^ p.val) q.val) = [p] := by
  revert p
  decide

theorem portList_of_one {c : Cmd} {p : Port} (hports : c.ports = 2 ^ p.val) : c.portList = [p] := by
  rw [Cmd.portList, hports]
  exact filter_bit_of_two_pow p

theorem portList_of_none {c : Cmd} (hports : c.ports = 0) : c.portList = [] := by
  rw [Cmd.portList, hports]
  decide

/-! ### The fetch of an entry with PORTS (R238) -/

theorem ctrlEntry_of_ports {s : State} (hopen : s.ctrlOpen) {arg : List Byte} (harg : arg.length = 24) {op : Nat} (hop : op < 65536)
    (tag : Word) (ports : Half) (data : Option (List Byte)) :
    s.ctrlEntry op tag ports arg data = (s.after (s.newCmd op tag ports arg data).queued).ctrlAdvance := by
  obtain ⟨hup, hposted, hnone⟩ := hopen
  have harg' : (arg ++ List.replicate 24 0).take 24 = arg := List.take_left' harg
  have hentry := slice_append [] (leBytes op 2) (leBytes ports.toNat 2 ++ (leBytes tag.toNat 4 ++ arg)) (i := 0) rfl (leBytes_length op 2)
  have hports := slice_append (leBytes op 2) (leBytes ports.toNat 2) (leBytes tag.toNat 4 ++ arg) (leBytes_length op 2) (leBytes_length _ 2)
  have htag := slice_append (leBytes op 2 ++ leBytes ports.toNat 2) (leBytes tag.toNat 4) arg (i := 4) (by simp [leBytes_length])
    (leBytes_length _ 4)
  have hargs := slice_append (leBytes op 2 ++ leBytes ports.toNat 2 ++ leBytes tag.toNat 4) arg [] (i := 8) (by simp [leBytes_length]) harg
  have hop' : op % 256 ^ 2 = op := Nat.mod_eq_of_lt hop
  have hports' : ports.toNat % 256 ^ 2 = ports.toNat := Nat.mod_eq_of_lt ports.isLt
  have htag' : tag.toNat % 256 ^ 4 = tag.toNat := Nat.mod_eq_of_lt tag.isLt
  simp only [List.nil_append, List.append_nil, List.append_assoc] at hentry hports htag hargs
  rw [State.ctrlEntry, State.ctrlFetch, if_neg (by simp [hup, hposted])]
  simp only [List.append_assoc, harg', hentry, hports, htag, hargs, leNat_leBytes, hop', hports', htag']
  simp only [State.after, updCmds_append_of_none hnone, Cmd.queued, State.newCmd]

theorem after_snaps (s : State) (c : Cmd) : (s.after c).snaps = s.snaps := (congrArg State.snaps (after_eq s c) :)

/-- A front-end command starts at its fetch, where no other is under way and, for TRUE, every earlier block is built. -/
theorem ctrlEntry_starts_frontEnd {s : State} (hopen : s.ctrlOpen) {arg : List Byte} (harg : arg.length = 24) {op : Nat} (hop : op ≤ 5)
    {tag : Word} {ports : Half} {data : Option (List Byte)} {c : Cmd} (hc : c = s.newCmd op tag ports arg data)
    (hsnaps : op = 5 → s.snapUnbuilt = false) : s.ctrlEntry op tag ports arg data = ((s.after c).runCmd c).releaseFence := by
  have hcop : c.queued.opcode = op := hc ▸ rfl
  have hunbuilt : (s.after c.queued).snapUnbuilt = s.snapUnbuilt := by
    rw [State.snapUnbuilt, after_snaps, State.snapUnbuilt]
  have hgo : (s.after c.queued).waits c.queued = false := by
    have hnotRun : op ≠ 0x60 := by omega
    simp only [State.waits, after_cmds, hunbuilt, hcop]
    by_cases hsnap : op = 5
    · simp [hnotRun, hsnaps hsnap]
    · simp [hnotRun, hsnap]
  rw [ctrlEntry_of_ports hopen harg (by omega), ← hc]
  exact ctrlAdvance_of_queued (hc ▸ rfl) hgo

end Sys2Proof.Machine
end

section
/-!
PROOFS. FE_WRITE, FE_READ, FE_BULK, COMMIT_AT and TRUE (R242 to R245, R388, R395; O40).
-/

namespace Sys2Proof.Machine

/-! ### The blocks of a command (R243) -/

section
variable {s : State} {c : Cmd} {p : Port} (hports : c.ports = 2 ^ p.val) (items : List DlItem)

theorem after_linkUp (s : State) (c : Cmd) (p : Port) : (s.after c).linkUp p = s.linkUp p := by
  rw [State.linkUp, State.linkUp, after_zget s c]
  simp only [Field.key, Field.port, Field.hring, Field.at, ZP.STAT.LINK, ZR.CIDX.INDEX]
  omega

include hports

theorem ports_ne_zero : c.ports ≠ 0 := by
  rw [hports]
  exact (Nat.two_pow_pos p.val).ne'

/-- A port in ACTIVE gets the blocks, and a reply to each is awaited. -/
theorem cmdSend_up {n : Nat} (hleft : c.left = []) (hup : s.linkUp p = true) (hn : (items.map fun i => replies i.op i.bytes).sum = n)
    (hpos : n ≠ 0) : (s.after c).cmdSend c items = (s.after { c with left := [(p.val, n)] }).dlSend p items := by
  have hset : Tab.set 0 c.left p.val n = [(p.val, n)] := by
    rw [hleft, Tab.set, if_neg hpos]
    rfl
  unfold State.cmdSend
  rw [if_neg (ports_ne_zero hports), portList_of_one hports, hn]
  dsimp only
  rw [updCmd_after]
  simp only [after_linkUp, List.filter_singleton, hup, Bool.not_true, cond_true, cond_false, List.foldl_cons, List.foldl_nil, hset]

/-- A port that is not in ACTIVE fails the command, which has no other port. -/
theorem cmdSend_down (hop : 1 ≤ c.opcode ∧ c.opcode ≤ 3) (hstarted : c.started = true) (hresult : c.result = none) (hfail : c.fail = 0)
    (hleft : c.left = []) (hdown : s.linkUp p = false) :
    (s.after c).cmdSend c items = s.after { c with fail := 2 ^ p.val, result := some 1 } := by
  have hcmd : c.failPort p.val = { c with fail := 2 ^ p.val, result := some 1 } := by
    simp [Cmd.failPort, Cmd.settle, hop, hstarted, hresult, hfail, hleft, Tab.set, Tab.erase]
  have hsame : (s.after c).updCmd c.id (fun x => { x with left := x.left }) = s.after c := updCmd_after s c _
  unfold State.cmdSend
  rw [if_neg (ports_ne_zero hports), portList_of_one hports]
  simp only [after_linkUp, List.filter_singleton, hdown, Bool.not_false, cond_true, cond_false, List.foldl_nil, List.foldl_cons, hsame,
    State.failCmd]
  rw [updCmd_after, hcmd, after_linkUp, hdown]
  rfl

end

/-- With no port the command is done. -/
theorem cmdSend_none {u : State} {c : Cmd} (hports : c.ports = 0) (items : List DlItem) : u.cmdSend c items = u.finish c.id 0 c.rdata :=
  if_pos hports

/-! ### The command starts, and leaves what its meaning leaves -/

section
variable {s : State} {tag : Word} {ports : Half} {arg : List Byte} (hopen : s.ctrlOpen) (harg : arg.length = 24) {op : Nat} (hop : op ≤ 5)
  {data : Option (List Byte)} {c : Cmd} (hc : c = s.newCmd op tag ports arg data) (hsnaps : op = 5 → s.snapUnbuilt = false)
include hopen harg hop hc hsnaps

theorem frontEnd_leaves {u : State} {d : Cmd} (hrun : (s.after c).runCmd c = u) (hcmds : u.cmds = [d]) (hd : d.opcode = op) :
    s.ctrlEntry op tag ports arg data = u := by
  rw [ctrlEntry_starts_frontEnd hopen harg hop hc hsnaps, hrun]
  exact releaseFence_of_other hcmds (by omega)

/-- The start changes the command alone. -/
theorem frontEnd_after {d : Cmd} (hrun : (s.after c).runCmd c = s.after d) (hd : d.opcode = op) :
    s.ctrlEntry op tag ports arg data = s.after d := frontEnd_leaves hopen harg hop hc hsnaps hrun (after_cmds s d) hd

/-- The command finishes at its start, with its result alone. -/
theorem frontEnd_finishes {r : Nat} (hrun : (s.after c).runCmd c = (s.after c).finish c.id r []) :
    s.ctrlEntry op tag ports arg data = s.after { c with result := some r } :=
  frontEnd_after hopen harg hop hc hsnaps (hrun.trans (finish_after s (hc ▸ rfl) (hc ▸ rfl) (hc ▸ rfl) r)) (hc ▸ rfl)

/-- A command that breaks the rules of its entry completes REJECTED_PARAM (R238). -/
theorem frontEnd_illFormed (hbad : c.wellFormed = false) : s.ctrlEntry op tag ports arg data = s.after { c with result := some 2 } :=
  frontEnd_finishes hopen harg hop hc hsnaps (if_pos (by simp [hbad]))

/-- The command sends its blocks to its one port. -/
theorem frontEnd_sends {d : Cmd} {p : Port} {items : List DlItem} (hrun : (s.after c).runCmd c = (s.after d).dlSend p items)
    (hd : d.opcode = op) : s.ctrlEntry op tag ports arg data = (s.after d).dlSend p items :=
  frontEnd_leaves hopen harg hop hc hsnaps hrun ((sendsOn_dlSend p _ items).cmds.trans (after_cmds s d)) hd

end

section
variable {u : State} {c : Cmd} (hwf : c.wellFormed = true)
include hwf

theorem runCmd_feWrite (hop : c.opcode = 1) : u.runCmd c = u.feWrite c := by simp [runCmd_of_wellFormed hwf, hop]
theorem runCmd_feRead (hop : c.opcode = 2) : u.runCmd c = u.feRead c := by simp [runCmd_of_wellFormed hwf, hop]
theorem runCmd_feBulk (hop : c.opcode = 3) : u.runCmd c = u.feBulk c := by simp [runCmd_of_wellFormed hwf, hop]
theorem runCmd_commitAt (hop : c.opcode = 4) : u.runCmd c = u.commitAtCmd c := by simp [runCmd_of_wellFormed hwf, hop]
theorem runCmd_trueSnap (hop : c.opcode = 5) : u.runCmd c = u.trueCmd c := by simp [runCmd_of_wellFormed hwf, hop]

end

/-! ### FE_WRITE and FE_READ (R242) -/

section
variable (u : State) {c : Cmd}

theorem feWrite_register (hreg : bitAt (c.num 0 1) 0 = false) : u.feWrite c = u.cmdSend c [regWr (.cmd c.id) [(c.num 2 2, c.num 8 2)]] :=
  if_neg (by simp [hreg])

/-- The REG of a pixel write, by its column, its row and its word. -/
def pixWrItem (c : Cmd) : DlItem :=
  { purpose := .cmd c.id, op := 3, sh := false, bytes := [0, 0] ++ beBytes (c.num 4 2) 2 ++ beBytes (c.num 6 2) 2 ++ beBytes (c.num 8 2) 2 }

theorem feWrite_pixel (hpix : c.num 0 1 = 1) (hcol : c.num 4 2 ≤ 511) (hrow : c.num 6 2 ≤ 511) : u.feWrite c = u.cmdSend c [pixWrItem c] := by
  unfold State.feWrite
  dsimp only
  rw [hpix, if_pos (by decide), if_neg (by omega), if_neg (by decide)]
  rfl

theorem feWrite_outside (hpix : bitAt (c.num 0 1) 0 = true) (hout : 511 < c.num 4 2 ∨ 511 < c.num 6 2) : u.feWrite c = u.finish c.id 2 [] :=
  (if_pos hpix).trans (if_pos hout)

theorem feRead_unaligned (hdest : c.num 8 8 % 32 ≠ 0) : u.feRead c = u.finish c.id 2 [] := if_pos (.inl hdest)

theorem feRead_register (hdest : c.num 8 8 % 32 = 0) (hreg : bitAt (c.num 0 1) 0 = false) :
    u.feRead c = u.cmdSend c [{ purpose := .cmd c.id, op := 2, sh := false, bytes := [b8 (c.num 0 1 / 2), 0] ++ beBytes (c.num 2 2) 2 }] :=
  (if_neg (by simp [hdest, hreg])).trans (if_neg (by simp [hreg]))

/-! ### FE_BULK (R242) -/

theorem leHalves_length (bs : List Byte) : (leHalves bs).length = bs.length / 2 := by
  induction bs using leHalves.induct with
  | case1 a b t ih =>
    rw [leHalves, List.length_cons, ih, List.length_cons, List.length_cons]
    omega
  | case2 bs hshort =>
    match bs, hshort with
    | [], _ => rfl
    | [a], _ => simp [leHalves]
    | a :: b :: t, hshort => exact absurd rfl (hshort a b t)

/-- Up to six words fill one PIX_STREAM block. -/
theorem streamItems_one (id : Nat) {ws : List Nat} (hpos : ws ≠ []) (hsix : ws.length ≤ 6) : streamItems id ws.length ws =
    [{ purpose := .cmd id, op := 5, sh := false, bytes := [b8 ws.length, 0] ++ halvesBytes ws }] := by
  have htake : ws.take 6 = ws := List.take_of_length_le hsix
  have hdrop : ws.drop 6 = [] := List.drop_of_length_le hsix
  have hnone : ∀ n, streamItems id n [] = [] := fun n => by cases n <;> rfl
  obtain ⟨w, ws', rfl⟩ := List.exists_cons_of_ne_nil hpos
  rw [List.length_cons, streamItems, htake, hdrop, hnone, List.length_cons]
  exact List.cons_ne_nil _ _

theorem sourceBytes_of_length {img : List Byte} {len : Nat} (hlen : img.length = len) : sourceBytes img len = img := List.take_left' hlen

theorem feBulk_outside (hbad : c.num 8 4 = 0 ∨ 262144 < c.num 4 4 + c.num 8 4) : u.feBulk c = u.finish c.id 2 [] :=
  if_pos (hbad.imp_right .inl)

theorem feBulk_plain {img : List Byte} (himage : c.image = some img) (hflags : c.num 0 1 = 0) (hpos : 0 < c.num 8 4)
    (hin : c.num 4 4 + c.num 8 4 ≤ 262144) (hlen : c.num 20 4 = 2 * c.num 8 4) (himg : img.length = 2 * c.num 8 4) :
    u.feBulk c = u.bulkGo c img := by
  have hunpacked : ¬ bitAt (c.num 0 1) 0 = true := by
    rw [hflags]
    decide
  unfold State.feBulk
  dsimp only
  rw [if_neg (by rintro (h | h | ⟨-, h⟩) <;> omega), if_neg hunpacked, himage]
  dsimp only
  rw [sourceBytes_of_length (himg.trans hlen.symm)]

/-- The command with the count of its words in RDATA. -/
def Cmd.withCount (c : Cmd) (n : Nat) : Cmd := { c with rdata := leBytes n 4 }

/-- The window at FIRST with INC = 1. -/
def windowItem (c : Cmd) : DlItem := regWr (.cmd c.id) [(0x20, c.num 4 4 / 512 + 512), (0x21, c.num 4 4 % 512)]

/-- The words go out behind the window; the golden images stand. -/
theorem bulkGo_plain (hgolden : bitAt (c.num 0 1) 1 = false ∨ c.ports = 0) {bs : List Byte} {n : Nat} (hn : bs.length = 2 * n) :
    u.bulkGo c bs = (u.updCmd c.id fun x => { x with rdata := leBytes n 4 }).cmdSend (c.withCount n)
      (windowItem c :: streamItems c.id n (leHalves bs)) := by
  have hlen : (leHalves bs).length = n := by
    rw [leHalves_length, hn]
    omega
  have hfold : (if bitAt (c.num 0 1) 1 = true then c.portList.foldl (fun s p => (leHalves bs).zipIdx.foldl (fun s x =>
      s.setGolden p.val (c.num 4 4 + x.2) (BitVec.ofNat 16 x.1)) s) u else u) = u := by
    rcases hgolden with hflag | hnone
    · exact if_neg (by simp [hflag])
    · rw [portList_of_none hnone]
      exact ite_self u
  unfold State.bulkGo
  dsimp only
  rw [hfold, hlen]
  rfl

end

/-! ### COMMIT_AT and TRUE (R388, R395) -/

section
variable (s : State) {c : Cmd}

theorem after_nowTick : (s.after c).nowTick = s.nowTick := by
  rw [State.nowTick, State.epochTime, after_time, after_run]
  rfl

theorem after_tickTime (t : Nat) : (s.after c).tickTime t = s.tickTime t := by
  rw [State.tickTime, State.epochTime, after_run]
  rfl

theorem commitAt_late (hlate : c.num 0 8 < s.nowTick + 20480) : (s.after c).commitAtCmd c = (s.after c).finish c.id 3 [] :=
  if_pos (by rwa [after_nowTick])

theorem commitAt_waits {p : Port} {t : Nat} (ht : c.num 0 8 = t) (hports : c.ports = 2 ^ p.val) (hahead : s.nowTick + 20480 ≤ t) :
    (s.after c).commitAtCmd c = (s.after { c with tick := t, rdata := leBytes t 8 }).updPort p fun q => { q with commitTill := s.tickTime t } := by
  unfold State.commitAtCmd
  dsimp only
  rw [ht, after_nowTick, if_neg (by omega), if_neg (ports_ne_zero hports), portList_of_one hports, List.foldl_cons, List.foldl_nil, updCmd_after,
    after_tickTime]

theorem trueCmd_unaligned (hdest : c.num 8 8 % 4096 ≠ 0) (u : State) : u.trueCmd c = u.finish c.id 2 [] := if_pos hdest

/-- The tick of a snapshot that names one: the next multiple of 4. -/
theorem trueCmd_named (hdest : c.num 8 8 % 4096 = 0) (hnamed : c.num 0 8 ≠ 0) {t : Nat} (ht : t = (c.num 0 8 + 3) / 4 * 4) (u : State) :
    u.trueCmd c = if t < u.nowTick + 20480 then u.finish c.id resLate []
      else if u.buf.stageLost ∨ 256 ≤ u.staging then u.finish c.id resRefused []
      else (u.updCmd c.id fun x => { x with tick := t, rdata := leBytes t 8 }).beginSnap t (some c.id) c.tag (c.num 8 8) := by
  subst ht
  unfold State.trueCmd
  dsimp only
  rw [if_neg hnamed, if_neg (not_not.mpr hdest)]

end

end Sys2Proof.Machine
end

section
/-!
PROOFS. Commits that fall due or are held, the decompressor, and the front-end commands together (R264 to R266, R395, R397; O40).
-/

namespace Sys2Proof.Machine

/-! ### The COMMIT blocks of one command to one port (R395, R397) -/

/-- The COMMIT block of command `id` for tick `t`. -/
def commitItem (id t : Nat) : DlItem :=
  { purpose := .cmd id, op := 6, sh := false, bytes := [0, 0] ++ beBytes (t / 4096 % 2 ^ 32) 4 ++ beBytes (t % 4096) 2 }

/-- The command whose COMMIT block for tick `t` is out on port `p`. -/
def Cmd.armedOn (c : Cmd) (p : Port) (t : Nat) : Cmd :=
  { c with armed := true, held := false, tick := t, rdata := leBytes t 8, left := [(p.val, 1)] }

/-- The state when the COMMIT block of the sole command `c` for tick `t` has been sent on port `p`. -/
def State.commitSent (s : State) (c : Cmd) (p : Port) (t : Nat) : State :=
  ((s.updCmds fun _ => [c.armedOn p t]).setPort p { s.port p with commitPend := false, commitTill := s.tickTime t }).dlSend p
    [commitItem c.id t]

section
variable {s : State} {c : Cmd} {p : Port} (hcmds : s.cmds = [c]) (hports : c.ports = 2 ^ p.val)

theorem commitSent_sends (s : State) (c : Cmd) (p : Port) (t : Nat) : sendsOn p
    ((s.updCmds fun _ => [c.armedOn p t]).setPort p { s.port p with commitPend := false, commitTill := s.tickTime t }) (s.commitSent c p t) :=
  sendsOn_dlSend p _ _

theorem commitSent_cmds (s : State) (c : Cmd) (p : Port) (t : Nat) : (s.commitSent c p t).cmds = [c.armedOn p t] :=
  (commitSent_sends s c p t).cmds

include hcmds hports

/-- The port in ACTIVE, with no command waiting, gets the COMMIT block at once. -/
theorem sendCommit_sole {t : Nat} (hfail : c.fail = 0) (hwait : (s.port p).dlWait = []) (hup : s.linkUp p = true) :
    s.sendCommit c t = s.commitSent c p t := by
  have hset : Tab.set 0 [] p.val 1 = [(p.val, 1)] := rfl
  have hlist : c.portList.filter (fun p => !bitAt c.fail p.val) = [p] := by
    rw [portList_of_one hports, hfail]
    simp [bitAt]
  have hup' : ∀ f, (s.updCmds f).linkUp p = true := fun _ => hup
  have hport : ∀ f, (s.updCmds f).port p = s.port p := fun _ => rfl
  have hsettle : (s.commitSent c p t).updCmd c.id Cmd.settle = s.commitSent c p t := by
    have hawaits : (c.armedOn p t).settle = c.armedOn p t := by simp [Cmd.settle, Cmd.armedOn]
    refine (updCmd_of_sole (c := c.armedOn p t) (commitSent_cmds s c p t) Cmd.settle).trans ?_
    rw [hawaits, ← commitSent_cmds s c p t]
    rfl
  have hurgent := dlUrgent_eq_dlSend (s := (s.updCmds fun _ => [c.armedOn p t]).setPort p { s.port p with
    commitPend := false, commitTill := s.tickTime t }) (p := p) ((congrArg PortIn.dlWait (port_setPort ..)).trans hwait) [commitItem c.id t]
  refine Eq.trans ?_ hsettle
  unfold State.sendCommit
  rw [hlist]
  dsimp only
  rw [updCmd_of_sole hcmds]
  simp only [List.filter_singleton, hup, hup', Bool.not_true, cond_true, cond_false, List.foldl_cons, List.foldl_nil, hset, updPort_eq_setPort,
    hport]
  exact congrArg (State.updCmd · c.id Cmd.settle) hurgent

end

section
variable {s : State} {c : Cmd} {p : Port} (hcmds : s.cmds = [c]) (hop : c.opcode = 4) (hstarted : c.started = true) (hrun : c.result = none)
  (hports : c.ports = 2 ^ p.val)
include hcmds hop hstarted hrun hports

/-- R395: the COMMIT block goes out 8,192 ticks ahead. -/
theorem armSend_due (hfail : c.fail = 0) (hwait : (s.port p).dlWait = []) (hup : s.linkUp p = true) (hsnaps : s.snaps = [])
    (hwarned : s.warned = false) (hnew : c.armed = false) (hdue : s.tickTime c.tick ≤ s.time + 8192 * tickUnits) :
    s.armSend = s.commitSent c p c.tick := by
  have hne := ports_ne_zero hports
  have hlist : s.cmds.filter (fun c => c.opcode == 4 && c.running && !c.armed && c.ports != 0 && s.dueTick c.tick) = [c] := by
    simp [hcmds, hop, Cmd.running, hstarted, hrun, hnew, hne, State.dueTick, hdue]
  have hnone : (s.commitSent c p c.tick).snaps = [] := (commitSent_sends s c p c.tick).snaps.trans hsnaps
  unfold State.armSend
  dsimp only
  rw [hlist, List.foldl_cons, List.foldl_nil, if_neg (by simp [hwarned]), sendCommit_sole hcmds hports hfail hwait hup, hnone]
  rfl

omit hop hstarted hrun hports in
theorem armSend_early (hsnaps : s.snaps = []) (hearly : s.time + 8192 * tickUnits < s.tickTime c.tick) : s.armSend = s := by
  have hlist : s.cmds.filter (fun c => c.opcode == 4 && c.running && !c.armed && c.ports != 0 && s.dueTick c.tick) = [] := by
    simp [hcmds, State.dueTick, Nat.not_le.mpr hearly]
  unfold State.armSend
  dsimp only
  rw [hlist, List.foldl_nil, hsnaps]
  rfl

/-- The first frame start at least 8,192 ticks ahead (R397). -/
def State.reissueTick (s : State) : Nat :=
  (s.time + 8192 * tickUnits - s.epochTime + 4096 * tickUnits - 1) / (4096 * tickUnits) * 4096

omit hcmds hop hstarted hrun hports in
theorem reissueTick_bounds (hepoch : s.epochTime ≤ s.time) : s.reissueTick % 4096 = 0 ∧
    s.time + 8192 * tickUnits ≤ s.tickTime s.reissueTick ∧ s.tickTime s.reissueTick < s.time + 12288 * tickUnits := by
  refine ⟨Nat.mul_mod_left .., ?_⟩
  simp only [State.tickTime, State.reissueTick, tickUnits]
  omega

/-- R397: after clearance the held commit goes out for a frame start. -/
theorem reissue_held (hfail : c.fail = 0) (hwait : (s.port p).dlWait = []) (hup : s.linkUp p = true) (hwarned : s.warned = false)
    (hheld : c.held = true) : s.reissue = s.commitSent c p s.reissueTick := by
  have hlist : s.cmds.filter (fun c => c.opcode == 4 && c.running && c.held) = [c] := by
    simp [hcmds, hop, Cmd.running, hstarted, hrun, hheld]
  have hclear : (s.commitSent c p s.reissueTick).updPort p (fun q => { q with commitPend := false }) = s.commitSent c p s.reissueTick := by
    have hpend : ((s.commitSent c p s.reissueTick).port p).commitPend = false :=
      (congrArg PortIn.commitPend (commitSent_sends s c p s.reissueTick).port_same).trans (congrArg PortIn.commitPend (port_setPort ..) :)
    rw [updPort_eq_setPort, ← hpend]
    exact setPort_self _ p
  unfold State.reissue
  rw [if_neg (by simp [hwarned])]
  dsimp only
  rw [hlist, List.foldl_cons, List.foldl_nil, portList_of_one hports, List.foldl_cons, List.foldl_nil,
    sendCommit_sole hcmds hports hfail hwait hup]
  exact hclear

end

theorem reissue_warned {s : State} (hwarned : s.warned = true) : s.reissue = s := if_pos hwarned

/-! ### The decompressor (R264 to R266) -/

theorem raise_cmds (s : State) (src : Nat) (d : List Byte) : (s.raise src d).cmds = s.cmds := (raiseSev_onlyEvent s src (sevOf src) d).cmds

section
variable {s : State} {c : Cmd} {img : List Byte} (hcmds : s.cmds = [c]) (hop : c.opcode = 3) (hstarted : c.started = true)
  (hrun : c.result = none) (hleft : c.left = []) (htick : c.tick = 0) (hpacked : bitAt (c.num 0 1) 0 = true) (himage : c.image = some img)
include hcmds hop hstarted hrun hleft htick hpacked himage

theorem decompress_finds : (s.cmds.find? fun c => c.running && c.image.isSome && c.left.isEmpty
    && ((c.opcode == 3 && bitAt (c.num 0 1) 0) || (c.opcode == 0x10 && bitAt (c.num 3 1) 0)) && c.tick == 0) = some c := by
  simp [hcmds, Cmd.running, hop, hstarted, hrun, hleft, htick, hpacked, himage]

/-- R266: a damaged image is counted, shown and raised. -/
theorem decompress_error {code off : Nat} (hinflate : inflate (sourceBytes img (c.num 20 4)) (2 * c.num 8 4) = .error (code, off)) :
    s.decompress = (((s.zbump Z.COMP_DEC.ERRORS 1).zput Z.COMP_DEC.LAST_ERR code).raise 543
      (leBytes 3 2 ++ leBytes c.tag 4 ++ [b8 code] ++ leBytes off 4)).updCmds fun _ => [{ c with result := some 2, rdata := [] }] := by
  have hdecode : s.decompress = s.decodeError c code off := by
    unfold State.decompress
    rw [decompress_finds hcmds hop hstarted hrun hleft htick hpacked himage]
    simp only [hop, decide_true, if_true, himage, Option.getD_some, hinflate]
  have hraised : s.decodeError c code off = (((s.zbump Z.COMP_DEC.ERRORS 1).zput Z.COMP_DEC.LAST_ERR code).raise 543
      (leBytes 3 2 ++ leBytes c.tag 4 ++ [b8 code] ++ leBytes off 4)).finish c.id 2 [] := by
    rw [State.decodeError, hop]
    rfl
  rw [hdecode, hraised, 
    finish_of_sole ((raise_cmds ((s.zbump Z.COMP_DEC.ERRORS 1).zput Z.COMP_DEC.LAST_ERR code) 543 _).trans hcmds) hrun, ← hleft]

theorem decompress_decodes {bs : List Byte} (hinflate : inflate (sourceBytes img (c.num 20 4)) (2 * c.num 8 4) = .ok bs)
    (hlen : bs.length = 2 * c.num 8 4) :
    s.decompress = ((s.zbump Z.COMP_DEC.IMAGES 1).updCmd c.id fun x => { x with tick := 1 }).bulkGo c bs := by
  unfold State.decompress
  rw [decompress_finds hcmds hop hstarted hrun hleft htick hpacked himage]
  simp only [hop, decide_true, if_true, himage, Option.getD_some, hinflate, hlen, lt_irrefl, and_false, if_false]

/-- A sound image with PORTS 0 goes nowhere, and the command completes. -/
theorem decompress_sound {bs : List Byte} (hinflate : inflate (sourceBytes img (c.num 20 4)) (2 * c.num 8 4) = .ok bs)
    (hlen : bs.length = 2 * c.num 8 4) (hports : c.ports = 0) :
    s.decompress = (s.zbump Z.COMP_DEC.IMAGES 1).updCmds fun _ =>
      [{ c with tick := 1, rdata := leBytes (c.num 8 4) 4, result := some 0 }] := by
  rw [decompress_decodes hcmds hop hstarted hrun hleft htick hpacked himage hinflate hlen, bulkGo_plain _ (.inr hports) hlen,
    cmdSend_none (c := c.withCount (c.num 8 4)) hports]
  have htwice : ((s.zbump Z.COMP_DEC.IMAGES 1).updCmd c.id fun x => { x with tick := 1 }).updCmd c.id
      (fun x => { x with rdata := leBytes (c.num 8 4) 4 }) = (s.zbump Z.COMP_DEC.IMAGES 1).updCmds fun _ =>
        [{ c with tick := 1, rdata := leBytes (c.num 8 4) 4 }] := by
    rw [updCmd_of_sole (s := s.zbump Z.COMP_DEC.IMAGES 1) hcmds]
    exact updCmd_of_sole (c := { c with tick := 1 }) rfl _
  rw [htwice]
  refine (finish_of_sole (c := { c with tick := 1, rdata := leBytes (c.num 8 4) 4 }) rfl hrun _ _).trans ?_
  rw [← hleft]
  rfl

end

/-! ### The front-end commands together -/

/-- FE_WRITE to one port. -/
theorem feWrite_onePort {s : State} {p : Port} {tag : Word} {ports : Half} {arg : List Byte} {c : Cmd} (hopen : s.ctrlOpen) (harg : arg.length = 24)
    (hports : ports.toNat = 2 ^ p.val) (hc : c = s.newCmd 1 tag ports arg none) (hwf : c.wellFormed = true) :
    (s.linkUp p = true → bitAt (c.num 0 1) 0 = false →
      s.ctrlEntry 1 tag ports arg none = (s.after { c with left := [(p.val, 1)] }).dlSend p [regWr (.cmd c.id) [(c.num 2 2, c.num 8 2)]]) ∧
    (s.linkUp p = true → c.num 0 1 = 1 → c.num 4 2 ≤ 511 → c.num 6 2 ≤ 511 →
      s.ctrlEntry 1 tag ports arg none = (s.after { c with left := [(p.val, 1)] }).dlSend p [pixWrItem c]) ∧
    (bitAt (c.num 0 1) 0 = true → 511 < c.num 4 2 ∨ 511 < c.num 6 2 →
      s.ctrlEntry 1 tag ports arg none = s.after { c with result := some 2 }) ∧
    (s.linkUp p = false → bitAt (c.num 0 1) 0 = false →
      s.ctrlEntry 1 tag ports arg none = s.after { c with fail := 2 ^ p.val, result := some 1 }) ∧
    (bitAt (c.num 0 1) 0 = false → s.ctrlEntry 1 tag 0 arg none = s.after { c with ports := 0, result := some 0 }) := by
  have hop : c.opcode = 1 := hc ▸ rfl
  have hcports : c.ports = 2 ^ p.val := hc ▸ hports
  have hsnaps : 1 = 5 → s.snapUnbuilt = false := fun h => absurd h (by decide)
  have hrun {u : State} : u.runCmd c = u.feWrite c := runCmd_feWrite hwf hop
  refine ⟨fun hup hreg => ?_, fun hup hpix hcol hrow => ?_, fun hpix hout => ?_, fun hdown hreg => ?_, fun hreg => ?_⟩
  · refine frontEnd_sends hopen harg (by decide) hc hsnaps (hrun.trans ((feWrite_register _ hreg).trans ?_)) hop
    exact cmdSend_up hcports _ (hc ▸ rfl) hup rfl (by decide)
  · refine frontEnd_sends hopen harg (by decide) hc hsnaps (hrun.trans ((feWrite_pixel _ hpix hcol hrow).trans ?_)) hop
    exact cmdSend_up hcports _ (hc ▸ rfl) hup rfl (by decide)
  · exact frontEnd_finishes hopen harg (by decide) hc hsnaps (hrun.trans (feWrite_outside _ hpix hout))
  · refine frontEnd_after hopen harg (by decide) hc hsnaps (hrun.trans ((feWrite_register _ hreg).trans ?_)) hop
    exact cmdSend_down hcports _ (by omega) (hc ▸ rfl) (hc ▸ rfl) (hc ▸ rfl) (hc ▸ rfl) hdown
  · have hnone : ({ c with ports := 0 } : Cmd) = s.newCmd 1 tag 0 arg none := hc ▸ rfl
    have hwf' : ({ c with ports := 0 } : Cmd).wellFormed = true := by
      simp only [Cmd.wellFormed, hop] at hwf ⊢
      simpa using hwf
    refine frontEnd_finishes hopen harg (by decide) hnone hsnaps
      ((runCmd_feWrite hwf' hop).trans ((feWrite_register (c := { c with ports := 0 }) _ hreg).trans ?_))
    rw [cmdSend_none rfl, show ({ c with ports := 0 } : Cmd).rdata = [] from hc ▸ rfl]

/-- FE_BULK of up to six words to one port. -/
theorem feBulk_onePort {s : State} {p : Port} {tag : Word} {ports : Half} {arg : List Byte} {img : List Byte} {c : Cmd} (hopen : s.ctrlOpen)
    (harg : arg.length = 24) (hports : ports.toNat = 2 ^ p.val) (hc : c = s.newCmd 3 tag ports arg (some img)) (hwf : c.wellFormed = true)
    (hflags : c.num 0 1 = 0) (hpos : 0 < c.num 8 4) (hsix : c.num 8 4 ≤ 6) (hin : c.num 4 4 + c.num 8 4 ≤ 262144)
    (hlen : c.num 20 4 = 2 * c.num 8 4) (himg : img.length = 2 * c.num 8 4) (hup : s.linkUp p = true) :
    s.ctrlEntry 3 tag ports arg (some img) = (s.after { c with rdata := leBytes (c.num 8 4) 4, left := [(p.val, 2)] }).dlSend p
      [windowItem c, { purpose := .cmd c.id, op := 5, sh := false, bytes := [b8 (c.num 8 4), 0] ++ halvesBytes (leHalves img) }] := by
  have hop : c.opcode = 3 := hc ▸ rfl
  have hcports : (c.withCount (c.num 8 4)).ports = 2 ^ p.val := hc ▸ hports
  have hwords : (leHalves img).length = c.num 8 4 := by
    rw [leHalves_length, himg]
    omega
  have hstream := streamItems_one c.id (ws := leHalves img) (List.ne_nil_of_length_pos (by omega)) (by omega)
  rw [hwords] at hstream
  refine frontEnd_sends hopen harg (by decide) hc (fun h => absurd h (by decide)) ?_ hop
  rw [runCmd_feBulk hwf hop, feBulk_plain _ (hc ▸ rfl) hflags hpos hin hlen himg,
    bulkGo_plain _ (.inl (by rw [hflags]; decide)) himg, updCmd_after, hstream]
  exact cmdSend_up (c := c.withCount (c.num 8 4)) hcports _ (hc ▸ rfl) hup rfl (by decide)

/-- Settles O40: a command starts at its fetch, and what it sends, awaits or completes with is one equation per case. -/
theorem ctrlFrontEnd : Obligations.CtrlFrontEnd := by
  unfold Obligations.CtrlFrontEnd
  refine ⟨fun s p i hup hwait hout hsh hquiet => dlSend_one hup hwait hout hsh hquiet,
    fun s p tag ports arg c hopen harg hports => ⟨fun hc hwf => ?_, fun hc hbad => ?_, fun hc hwf hdest hreg hup => ?_, fun hc hwf hdest => ?_,
      fun img hc hwf hflags hpos hsix hin hlen himg hup => ?_, fun data hc hwf hbad => ?_,
      fun t hc hwf ht => ⟨fun hlate => ?_, fun hahead => ?_⟩,
      fun t hc hwf ht hbuilt => ⟨fun hdest => ?_, fun hne hlate hdest => ?_, fun hfour hahead hdest hstage hroom => ?_⟩⟩,
    fun s p c q hcmds hq hop hstarted hrun hports hfail hwait hup hsnaps hwarned => ⟨fun hnew hdue => ?_, fun hnew hearly => ?_,
      fun hheld hepoch => ?_⟩,
    fun s hwarned => congrArg Host.Outcome.next (reissue_warned hwarned),
    fun s c img hcmds hop hstarted hrun hleft htick hpacked himage => ⟨fun code off hinflate => ?_, fun bs hinflate hlen hports => ?_⟩⟩
  · obtain ⟨hreg, hpix, hout, hdown, hnone⟩ := feWrite_onePort hopen harg hports hc hwf
    exact ⟨fun hup hbit => congrArg Host.Outcome.next (hreg hup hbit),
      fun hup hbit hcol hrow => congrArg Host.Outcome.next (hpix hup hbit hcol hrow), fun hbit h => congrArg Host.Outcome.next (hout hbit h),
      fun hlink hbit => congrArg Host.Outcome.next (hdown hlink hbit), fun hbit => congrArg Host.Outcome.next (hnone hbit)⟩
  · exact congrArg Host.Outcome.next (frontEnd_illFormed hopen harg (by decide) hc (fun h => absurd h (by decide)) hbad)
  · refine congrArg Host.Outcome.next (frontEnd_sends hopen harg (by decide) hc (fun h => absurd h (by decide))
      ((runCmd_feRead hwf (hc ▸ rfl)).trans ((feRead_register _ hdest hreg).trans ?_)) (hc ▸ rfl))
    exact cmdSend_up (hc ▸ hports) _ (hc ▸ rfl) hup rfl (by decide)
  · exact congrArg Host.Outcome.next (frontEnd_finishes hopen harg (by decide) hc (fun h => absurd h (by decide))
      ((runCmd_feRead hwf (hc ▸ rfl)).trans (feRead_unaligned _ hdest)))
  · exact congrArg Host.Outcome.next (feBulk_onePort hopen harg hports hc hwf hflags hpos hsix hin hlen himg hup)
  · exact congrArg Host.Outcome.next (frontEnd_finishes hopen harg (by decide) hc (fun h => absurd h (by decide))
      ((runCmd_feBulk hwf (hc ▸ rfl)).trans (feBulk_outside _ hbad)))
  · exact congrArg Host.Outcome.next (frontEnd_finishes hopen harg (by decide) hc (fun h => absurd h (by decide))
      ((runCmd_commitAt hwf (hc ▸ rfl)).trans (commitAt_late s (ht.symm ▸ hlate))))
  · exact congrArg Host.Outcome.next (frontEnd_leaves hopen harg (by decide) hc (fun h => absurd h (by decide))
      ((runCmd_commitAt hwf (hc ▸ rfl)).trans (commitAt_waits s ht (hc ▸ hports) hahead)) (after_cmds s _) (hc ▸ rfl))
  · exact congrArg Host.Outcome.next (frontEnd_finishes hopen harg (by decide) hc (fun _ => hbuilt)
      ((runCmd_trueSnap hwf (hc ▸ rfl)).trans (trueCmd_unaligned hdest _)))
  · refine congrArg Host.Outcome.next (frontEnd_finishes hopen harg (by decide) hc (fun _ => hbuilt)
      ((runCmd_trueSnap hwf (hc ▸ rfl)).trans ((trueCmd_named hdest (ht.symm ▸ hne) rfl _).trans ?_)))
    exact if_pos (by rw [after_nowTick, ht]; omega)
  · have htick : t = (c.num 0 8 + 3) / 4 * 4 := by omega
    refine congrArg Host.Outcome.next (frontEnd_leaves hopen harg (by decide) hc (fun _ => hbuilt)
      ((runCmd_trueSnap hwf (hc ▸ rfl)).trans ((trueCmd_named hdest (by omega) htick _).trans ?_)) (after_cmds s _) (hc ▸ rfl))
    rw [if_neg (by rw [after_nowTick]; omega), if_neg ?_, updCmd_after, State.beginSnap, after_zget s _ (by decide), after_tickTime, after_run]
    rw [after_buf, hstage, State.staging, after_snaps]
    simp [Nat.not_le.mpr hroom]
  · subst hq
    exact congrArg Host.Outcome.next (armSend_due hcmds hop hstarted hrun hports hfail hwait hup hsnaps hwarned hnew hdue)
  · exact congrArg Host.Outcome.next (armSend_early hcmds hsnaps hearly)
  · subst hq
    obtain ⟨hframe, hnear, hfar⟩ := reissueTick_bounds hepoch
    refine ⟨s.reissueTick, hframe, hnear, hfar, congrArg Host.Outcome.next ?_⟩
    rw [reissue_held hcmds hop hstarted hrun hports hfail hwait hup hwarned hheld, State.commitSent, commitItem, hframe]
    rfl
  · exact congrArg Host.Outcome.next (decompress_error hcmds hop hstarted hrun hleft htick hpacked himage hinflate)
  · exact congrArg Host.Outcome.next (decompress_sound hcmds hop hstarted hrun hleft htick hpacked himage hinflate hlen hports)

end Sys2Proof.Machine
end
